-- ==== Sys2Proof/Word.lean ====
section
/-! DEFINITION. The widths of the machine's words (spec R7, R35, R69) and nothing else. -/

set_option Elab.async false

namespace Sys2Proof

/-- A general register, a control register or an address while it is computed: 64 bits (R69). -/
abbrev Word := BitVec 64
/-- One byte of memory (R7). -/
abbrev Byte := BitVec 8
/-- A vector register: 512 bits (R69). -/
abbrev VWord := BitVec 512
/-- A binary32 encoding (R37). -/
abbrev F32 := BitVec 32

end Sys2Proof
end

