-- ==== Sys2Proof/Syntax.lean ====
section
/-! DEFINITION. The steps of the BX-EP26: one constructor of `Instr` for each row of spec/opcode_table.json,
in the table's order. The first 335 rows are instructions with an encoding (R56 to R80); the last 86 are the
device's own events (95_what_each_step_holds), whose arguments name the core, job, link or message that acts. -/

set_option Elab.async false

namespace Sys2Proof

/-- g0 to g31 (R61). -/
abbrev GReg := BitVec 5
/-- v0 to v15 (R61). -/
abbrev VReg := BitVec 4
/-- k0 to k7 (R61). -/
abbrev KReg := BitVec 3
/-- tm0 to tm7 (R61). -/
abbrev TMReg := BitVec 3
/-- h0 to h15 (R196). -/
abbrev HReg := BitVec 4
/-- A 3-bit register field of a compact form: it names g(8 + s) (R67, R68). -/
abbrev CReg := BitVec 3

/-- The general register a compact 3-bit field names (R67, R68). -/
def CReg.full (c : CReg) : GReg := 8#5 + c.zeroExtend 5

/-- What an operation of a remote queue pair does to a word of memory (R443): a SEND or an RDMA WRITE writes it, an RDMA READ
reads it, and an atomic reads and writes it. -/
inductive PortOp where
  | read
  | write (x : Word)
  | compareSwap (old new : Word)
  | fetchAdd (x : Word)
  deriving DecidableEq, Repr

/-- Element types (R63, R217). -/
inductive ETy where
  | i8 | i16 | i32 | i64 | bf16 | f32 | f64
  deriving DecidableEq, Repr

namespace ETy

/-- The et field's value (R63). -/
def code : ETy → BitVec 3
  | i8 => 0 | i16 => 1 | i32 => 2 | i64 => 3 | bf16 => 4 | f32 => 5 | f64 => 6

/-- Lane width w in bits (R217). -/
def width : ETy → Nat
  | i8 => 8 | i16 => 16 | i32 => 32 | i64 => 64 | bf16 => 16 | f32 => 32 | f64 => 64

/-- Lane count L (R217). -/
def lanes : ETy → Nat
  | i8 => 64 | i16 => 32 | i32 => 16 | i64 => 8 | bf16 => 32 | f32 => 16 | f64 => 8

/-- Integer types (R217). -/
def isInt : ETy → Bool
  | i8 | i16 | i32 | i64 => true
  | bf16 | f32 | f64 => false

/-- Element size in bytes (R225). -/
def bytes (e : ETy) : Nat := e.width / 8

end ETy

/-- One step of the machine: an instruction of either profile, or an event of the device. -/
inductive Instr where
  /-- Writes the 64-bit sum of rs1 and rs2 to rd. (R125) -/
  | add (rd rs1 rs2 : GReg)
  /-- Writes rs1 minus rs2 to rd. (R125) -/
  | sub (rd rs1 rs2 : GReg)
  /-- Writes the bitwise AND of rs1 and rs2 to rd. (R125) -/
  | and (rd rs1 rs2 : GReg)
  /-- Writes the bitwise OR of rs1 and rs2 to rd. (R125) -/
  | or (rd rs1 rs2 : GReg)
  /-- Writes the bitwise XOR of rs1 and rs2 to rd. (R125) -/
  | xor (rd rs1 rs2 : GReg)
  /-- Writes rs1 AND NOT rs2 to rd. (R125) -/
  | andn (rd rs1 rs2 : GReg)
  /-- Writes rs1 OR NOT rs2 to rd. (R125) -/
  | orn (rd rs1 rs2 : GReg)
  /-- Shifts rs1 left by rs2 bits 5:0. (R125) -/
  | sll (rd rs1 rs2 : GReg)
  /-- Shifts rs1 right logically by rs2 bits 5:0. (R125) -/
  | srl (rd rs1 rs2 : GReg)
  /-- Shifts rs1 right arithmetically by rs2 bits 5:0. (R125) -/
  | sra (rd rs1 rs2 : GReg)
  /-- Rotates rs1 left by rs2 bits 5:0. (R125) -/
  | rol (rd rs1 rs2 : GReg)
  /-- Rotates rs1 right by rs2 bits 5:0. (R125) -/
  | ror (rd rs1 rs2 : GReg)
  /-- Writes 1 when rs1 is less than rs2 signed, else 0. (R125) -/
  | slt (rd rs1 rs2 : GReg)
  /-- Writes 1 when rs1 is less than rs2 unsigned, else 0. (R125) -/
  | sltu (rd rs1 rs2 : GReg)
  /-- Writes the signed minimum of rs1 and rs2. (R125) -/
  | min (rd rs1 rs2 : GReg)
  /-- Writes the signed maximum of rs1 and rs2. (R125) -/
  | max (rd rs1 rs2 : GReg)
  /-- Writes the unsigned minimum of rs1 and rs2. (R125) -/
  | minu (rd rs1 rs2 : GReg)
  /-- Writes the unsigned maximum of rs1 and rs2. (R125) -/
  | maxu (rd rs1 rs2 : GReg)
  /-- Writes the low 64 bits of the product. (R125) -/
  | mul (rd rs1 rs2 : GReg)
  /-- Writes the high half of the signed 128-bit product. (R125) -/
  | mulh (rd rs1 rs2 : GReg)
  /-- Writes the high half of the unsigned 128-bit product. (R125) -/
  | mulhu (rd rs1 rs2 : GReg)
  /-- Signed division truncating toward zero, saturating and never trapping. (R126) -/
  | div (rd rs1 rs2 : GReg)
  /-- Unsigned division; a zero divisor gives all ones. (R126) -/
  | divu (rd rs1 rs2 : GReg)
  /-- Signed remainder of truncating division; a zero divisor gives the dividend. (R126) -/
  | rem (rd rs1 rs2 : GReg)
  /-- Unsigned remainder; a zero divisor gives the dividend. (R126) -/
  | remu (rd rs1 rs2 : GReg)
  /-- Writes the sign-extended 32-bit sum. (R125) -/
  | addw (rd rs1 rs2 : GReg)
  /-- Writes the sign-extended 32-bit difference. (R125) -/
  | subw (rd rs1 rs2 : GReg)
  /-- 32-bit left shift by rs2 bits 4:0, sign-extended. (R125) -/
  | sllw (rd rs1 rs2 : GReg)
  /-- 32-bit logical right shift, sign-extended. (R125) -/
  | srlw (rd rs1 rs2 : GReg)
  /-- 32-bit arithmetic right shift, sign-extended. (R125) -/
  | sraw (rd rs1 rs2 : GReg)
  /-- Writes the sign-extended low 32 bits of the product. (R125) -/
  | mulw (rd rs1 rs2 : GReg)
  /-- Counts leading zero bits of rs1. (R125) -/
  | clz (rd rs1 : GReg)
  /-- Counts trailing zero bits of rs1. (R125) -/
  | ctz (rd rs1 : GReg)
  /-- Counts one bits of rs1. (R125) -/
  | popc (rd rs1 : GReg)
  /-- Reverses the byte order of rs1. (R125) -/
  | bswp (rd rs1 : GReg)
  /-- Sign-extends the low byte of rs1. (R125) -/
  | sextb (rd rs1 : GReg)
  /-- Sign-extends the low halfword of rs1. (R125) -/
  | sexth (rd rs1 : GReg)
  /-- Sign-extends the low word of rs1. (R125) -/
  | sextw (rd rs1 : GReg)
  /-- Zero-extends the low byte of rs1. (R125) -/
  | zextb (rd rs1 : GReg)
  /-- Zero-extends the low halfword of rs1. (R125) -/
  | zexth (rd rs1 : GReg)
  /-- Zero-extends the low word of rs1. (R125) -/
  | zextw (rd rs1 : GReg)
  /-- Adds the sign-extended immediate to rs1. (R127) -/
  | addi (rd rs1 : GReg) (imm : BitVec 11)
  /-- ANDs rs1 with the sign-extended immediate. (R127) -/
  | andi (rd rs1 : GReg) (imm : BitVec 11)
  /-- ORs rs1 with the sign-extended immediate. (R127) -/
  | ori (rd rs1 : GReg) (imm : BitVec 11)
  /-- XORs rs1 with the sign-extended immediate. (R127) -/
  | xori (rd rs1 : GReg) (imm : BitVec 11)
  /-- Signed compare of rs1 with the immediate. (R127) -/
  | slti (rd rs1 : GReg) (imm : BitVec 11)
  /-- Unsigned compare of rs1 with the sign-extended immediate. (R127) -/
  | sltiu (rd rs1 : GReg) (imm : BitVec 11)
  /-- 32-bit add of the immediate, sign-extended. (R127) -/
  | addiw (rd rs1 : GReg) (imm : BitVec 11)
  /-- Shifts rs1 left by an immediate 0-63. (R128) -/
  | slli (rd rs1 : GReg) (sh : BitVec 6)
  /-- Logical right shift by an immediate 0-63. (R128) -/
  | srli (rd rs1 : GReg) (sh : BitVec 6)
  /-- Arithmetic right shift by an immediate 0-63. (R128) -/
  | srai (rd rs1 : GReg) (sh : BitVec 6)
  /-- Rotates left by an immediate 0-63. (R128) -/
  | roli (rd rs1 : GReg) (sh : BitVec 6)
  /-- 32-bit left shift by an immediate 0-31. (R128) -/
  | slliw (rd rs1 : GReg) (sh : BitVec 5)
  /-- 32-bit logical right shift by an immediate 0-31. (R128) -/
  | srliw (rd rs1 : GReg) (sh : BitVec 5)
  /-- 32-bit arithmetic right shift by an immediate 0-31. (R128) -/
  | sraiw (rd rs1 : GReg) (sh : BitVec 5)
  /-- Loads the sign-extended imm19 shifted left by 11. (R129) -/
  | lih (rd : GReg) (imm : BitVec 19)
  /-- Adds imm19 shifted left by 11 to pc. (R129) -/
  | addpc (rd : GReg) (imm : BitVec 19)
  /-- Loads a sign-extended byte. (R130) -/
  | lb (rd rs1 : GReg) (imm : BitVec 11)
  /-- Loads a zero-extended byte. (R130) -/
  | lbu (rd rs1 : GReg) (imm : BitVec 11)
  /-- Loads a sign-extended halfword. (R130) -/
  | lh (rd rs1 : GReg) (imm : BitVec 11)
  /-- Loads a zero-extended halfword. (R130) -/
  | lhu (rd rs1 : GReg) (imm : BitVec 11)
  /-- Loads a sign-extended word. (R130) -/
  | lw (rd rs1 : GReg) (imm : BitVec 11)
  /-- Loads a zero-extended word. (R130) -/
  | lwu (rd rs1 : GReg) (imm : BitVec 11)
  /-- Loads a doubleword, with the trap order of R118. (R130) -/
  | ld (rd rs1 : GReg) (imm : BitVec 11)
  /-- Stores the low byte of rs2 into the chunk. (R131) -/
  | sb (rs2 rs1 : GReg) (imm : BitVec 11)
  /-- Stores the low halfword of rs2. (R131) -/
  | sh (rs2 rs1 : GReg) (imm : BitVec 11)
  /-- Stores the low word of rs2. (R131) -/
  | sw (rs2 rs1 : GReg) (imm : BitVec 11)
  /-- Stores rs2, taking an undo-log or store-buffer entry or an implicit commit point. (R131) -/
  | sd (rs2 rs1 : GReg) (imm : BitVec 11)
  /-- Branches when rs1 equals rs2. (R132) -/
  | beq (rs1 rs2 : GReg) (imm : BitVec 11)
  /-- Branches when rs1 differs from rs2. (R132) -/
  | bne (rs1 rs2 : GReg) (imm : BitVec 11)
  /-- Branches when rs1 is less than rs2 signed. (R132) -/
  | blt (rs1 rs2 : GReg) (imm : BitVec 11)
  /-- Branches when rs1 is at least rs2 signed. (R132) -/
  | bge (rs1 rs2 : GReg) (imm : BitVec 11)
  /-- Branches when rs1 is less than rs2 unsigned. (R132) -/
  | bltu (rs1 rs2 : GReg) (imm : BitVec 11)
  /-- Branches when rs1 is at least rs2 unsigned. (R132) -/
  | bgeu (rs1 rs2 : GReg) (imm : BitVec 11)
  /-- Jumps pc-relative and links pc + 4 in rd. (R133) -/
  | jal (rd : GReg) (imm : BitVec 19)
  /-- Jumps to rs1 plus offset, checking alignment and bits 63:48, and links. (R134) -/
  | jalr (rd rs1 : GReg) (imm : BitVec 11)
  /-- Binary32 addition, rounded once. (R135) -/
  | faddS (rd rs1 rs2 : GReg)
  /-- Binary32 subtraction. (R135) -/
  | fsubS (rd rs1 rs2 : GReg)
  /-- Binary32 multiplication. (R135) -/
  | fmulS (rd rs1 rs2 : GReg)
  /-- Binary32 division. (R135) -/
  | fdivS (rd rs1 rs2 : GReg)
  /-- Binary32 square root. (R135) -/
  | fsqrtS (rd rs1 : GReg)
  /-- Binary32 fused multiply-add with rd as addend. (R135) -/
  | fmaS (rd rs1 rs2 : GReg)
  /-- Binary32 minimum, a number beside a NaN. (R136) -/
  | fminS (rd rs1 rs2 : GReg)
  /-- Binary32 maximum. (R136) -/
  | fmaxS (rd rs1 rs2 : GReg)
  /-- Binary32 equality compare. (R136) -/
  | feqS (rd rs1 rs2 : GReg)
  /-- Binary32 less-than compare. (R136) -/
  | fltS (rd rs1 rs2 : GReg)
  /-- Binary32 less-or-equal compare. (R136) -/
  | fleS (rd rs1 rs2 : GReg)
  /-- Writes the class word of a binary32 value. (R137) -/
  | fclassS (rd rs1 : GReg)
  /-- Inverts the sign bit of a binary32 value. (R135) -/
  | fnegS (rd rs1 : GReg)
  /-- Clears the sign bit of a binary32 value. (R135) -/
  | fabsS (rd rs1 : GReg)
  /-- Converts a signed 64-bit integer to binary32. (R135) -/
  | fcvtifS (rd rs1 : GReg)
  /-- Converts binary32 to a signed integer toward zero, saturating. (R36) -/
  | fcvtfiS (rd rs1 : GReg)
  /-- Converts binary32 to a signed integer to nearest even. (R36) -/
  | fcvtfirS (rd rs1 : GReg)
  /-- Rounds binary32 to BF16. (R135) -/
  | fcvtbfS (rd rs1 : GReg)
  /-- Widens BF16 to binary32 exactly. (R135) -/
  | fcvtfbS (rd rs1 : GReg)
  /-- Rounds binary64 to binary32. (R135) -/
  | fcvtpdS (rd rs1 : GReg)
  /-- Binary64 addition. (R135) -/
  | faddD (rd rs1 rs2 : GReg)
  /-- Binary64 subtraction. (R135) -/
  | fsubD (rd rs1 rs2 : GReg)
  /-- Binary64 multiplication. (R135) -/
  | fmulD (rd rs1 rs2 : GReg)
  /-- Binary64 division. (R135) -/
  | fdivD (rd rs1 rs2 : GReg)
  /-- Binary64 square root. (R135) -/
  | fsqrtD (rd rs1 : GReg)
  /-- Binary64 fused multiply-add with rd as addend. (R135) -/
  | fmaD (rd rs1 rs2 : GReg)
  /-- Binary64 minimum. (R136) -/
  | fminD (rd rs1 rs2 : GReg)
  /-- Binary64 maximum. (R136) -/
  | fmaxD (rd rs1 rs2 : GReg)
  /-- Binary64 equality compare. (R136) -/
  | feqD (rd rs1 rs2 : GReg)
  /-- Binary64 less-than compare. (R136) -/
  | fltD (rd rs1 rs2 : GReg)
  /-- Binary64 less-or-equal compare. (R136) -/
  | fleD (rd rs1 rs2 : GReg)
  /-- Writes the class word of a binary64 value. (R137) -/
  | fclassD (rd rs1 : GReg)
  /-- Inverts the sign bit of a binary64 value. (R135) -/
  | fnegD (rd rs1 : GReg)
  /-- Clears the sign bit of a binary64 value. (R135) -/
  | fabsD (rd rs1 : GReg)
  /-- Converts a signed 64-bit integer to binary64. (R135) -/
  | fcvtifD (rd rs1 : GReg)
  /-- Converts binary64 to a signed integer toward zero. (R36) -/
  | fcvtfiD (rd rs1 : GReg)
  /-- Converts binary64 to a signed integer to nearest even. (R36) -/
  | fcvtfirD (rd rs1 : GReg)
  /-- Rounds binary64 to BF16 once. (R135) -/
  | fcvtbfD (rd rs1 : GReg)
  /-- Widens BF16 to binary64 exactly. (R135) -/
  | fcvtfbD (rd rs1 : GReg)
  /-- Widens binary32 to binary64 exactly. (R135) -/
  | fcvtpdD (rd rs1 : GReg)
  /-- Reads a control register into rd. (R138) -/
  | crr (rd : GReg) (cr : BitVec 11)
  /-- Writes a control register and returns its old value; the write row for registers without one of their own. (R138) -/
  | crw (rd : GReg) (cr : BitVec 11) (rs1 : GReg)
  /-- ORs rs1 into a control register. (R138) -/
  | crset (rd : GReg) (cr : BitVec 11) (rs1 : GReg)
  /-- Clears the bits of rs1 in a control register. (R138) -/
  | crclr (rd : GReg) (cr : BitVec 11) (rs1 : GReg)
  /-- Commits the chunk and ends the task, freeing the context. (R157) -/
  | halt
  /-- Ends the task and retains the scratch part for a named successor. (R158) -/
  | haltr (rs1 : GReg)
  /-- Executes a commit point and waits until the chunk is ordered. (R155) -/
  | commit
  /-- Rolls back the chunk and consumes the message. (R160) -/
  | abort
  /-- Commits and traps TRAPI, suspending the task. (R161) -/
  | trapi (rs1 : GReg)
  /-- Writes the remaining budget to rd. (R156) -/
  | budgq (rd : GReg)
  /-- Takes a send-queue entry HELD with the image and header. (R184) -/
  | send (rd rs1 rs2 : GReg)
  /-- Sends the reply to the task's request. (R184) -/
  | rply (rd rs1 rs2 : GReg)
  /-- Sends without waiting or trapping SQF, returning a failure value. (R184) -/
  | sendq (rd rs1 rs2 : GReg)
  /-- Claims a REFUSED entry to depart again at commit. (R193) -/
  | resend (rd rs1 : GReg)
  /-- Claims a REFUSED entry to be freed at commit. (R193) -/
  | dropr (rd rs1 : GReg)
  /-- Sets a ring handle with HEAD and TAIL 0. (R196) -/
  | hset (h : HReg) (rs1 : GReg)
  /-- Commits and waits until the ring holds n filled slots. (R196) -/
  | cwait (rd : GReg) (h : HReg) (rs1 : GReg)
  /-- Commits and waits until the ring holds n free slots. (R196) -/
  | pwait (rd : GReg) (h : HReg) (rs1 : GReg)
  /-- Advances the ring HEAD by n. (R196) -/
  | cadv (h : HReg) (rs1 : GReg)
  /-- Advances the ring TAIL by n. (R196) -/
  | padv (h : HReg) (rs1 : GReg)
  /-- Reads a ring handle with its filled count. (R196) -/
  | hqry (rd : GReg) (h : HReg)
  /-- Issues an atomic add through a send-queue entry. (R341) -/
  | aadd (rd rs1 rs2 : GReg)
  /-- Issues an atomic AND. (R341) -/
  | aand (rd rs1 rs2 : GReg)
  /-- Issues an atomic OR. (R341) -/
  | aor (rd rs1 rs2 : GReg)
  /-- Issues an atomic XOR. (R341) -/
  | axor (rd rs1 rs2 : GReg)
  /-- Issues an atomic signed maximum. (R341) -/
  | amax (rd rs1 rs2 : GReg)
  /-- Issues an atomic signed minimum. (R341) -/
  | amin (rd rs1 rs2 : GReg)
  /-- Issues an atomic unsigned maximum. (R341) -/
  | amaxu (rd rs1 rs2 : GReg)
  /-- Issues an atomic unsigned minimum. (R341) -/
  | aminu (rd rs1 rs2 : GReg)
  /-- Issues an atomic swap. (R341) -/
  | aswp (rd rs1 rs2 : GReg)
  /-- Issues an atomic compare-and-swap with an even register pair. (R341) -/
  | acas (rd rs1 rs2 : GReg)
  /-- Issues an atomic wrapping increment. (R341) -/
  | aincw (rd rs1 rs2 : GReg)
  /-- Issues an atomic bounded fetch-add with an even register pair. (R341) -/
  | abfa (rd rs1 rs2 : GReg)
  /-- Issues an atomic floating add. (R341) -/
  | afadd (rd rs1 rs2 : GReg)
  /-- Issues an atomic floating maximum. (R341) -/
  | afmax (rd rs1 rs2 : GReg)
  /-- Issues an atomic read-and-reset of a maximum. (R341) -/
  | amxr (rd rs1 rs2 : GReg)
  /-- Sets SCUR and records a scoped release in the chunk. (R339) -/
  | rels (rs1 : GReg)
  /-- Drops every line of the core's data cache and floors later loads. (R339) -/
  | acqs
  /-- Waits until the cluster's committed stores are performed for every core. (R339) -/
  | fence
  /-- Writes the core's identity at a level. (R312) -/
  | gid (rd rs1 : GReg)
  /-- Submits a job that enqueues a batch on a launch queue. (R312) -/
  | gspawn (rd rs1 rs2 : GReg)
  /-- Leaves level 1 or 2 at the chunk's commit. (R312) -/
  | gdone (rs1 : GReg)
  /-- Commits and arrives at the cluster barrier for an AND result. (R322) -/
  | barrAnd (rd rs1 : GReg)
  /-- Cluster barrier arrival for an OR result. (R322) -/
  | barrOr (rd rs1 : GReg)
  /-- Cluster barrier arrival for a SUM result. (R322) -/
  | barrSum (rd rs1 : GReg)
  /-- Cluster barrier arrival for a POPC result. (R322) -/
  | barrPopc (rd rs1 : GReg)
  /-- Block barrier arrival for an AND result. (R322) -/
  | bargAnd (rd rs1 : GReg)
  /-- Block barrier arrival for an OR result. (R322) -/
  | bargOr (rd rs1 : GReg)
  /-- Block barrier arrival for a SUM result. (R322) -/
  | bargSum (rd rs1 : GReg)
  /-- Block barrier arrival for a POPC result. (R322) -/
  | bargPopc (rd rs1 : GReg)
  /-- Lane-wise addition of two vectors. (R221) -/
  | vadd (et : ETy) (vd vs2 vs1 : VReg) (k : KReg)
  /-- Lane-wise subtraction. (R221) -/
  | vsub (et : ETy) (vd vs2 vs1 : VReg) (k : KReg)
  /-- Lane-wise multiplication. (R221) -/
  | vmul (et : ETy) (vd vs2 vs1 : VReg) (k : KReg)
  /-- Lane-wise fused multiply-add into vd. (R221) -/
  | vfma (et : ETy) (vd vs2 vs1 : VReg) (k : KReg)
  /-- Lane-wise minimum. (R221) -/
  | vmin (et : ETy) (vd vs2 vs1 : VReg) (k : KReg)
  /-- Lane-wise maximum. (R221) -/
  | vmax (et : ETy) (vd vs2 vs1 : VReg) (k : KReg)
  /-- Lane-wise bitwise AND. (R221) -/
  | vand (et : ETy) (vd vs2 vs1 : VReg) (k : KReg)
  /-- Lane-wise bitwise OR. (R221) -/
  | vor (et : ETy) (vd vs2 vs1 : VReg) (k : KReg)
  /-- Lane-wise bitwise XOR. (R221) -/
  | vxor (et : ETy) (vd vs2 vs1 : VReg) (k : KReg)
  /-- Lane-wise left shift. (R221) -/
  | vshl (et : ETy) (vd vs2 vs1 : VReg) (k : KReg)
  /-- Lane-wise logical right shift. (R221) -/
  | vshr (et : ETy) (vd vs2 vs1 : VReg) (k : KReg)
  /-- Lane-wise arithmetic right shift. (R221) -/
  | vsra (et : ETy) (vd vs2 vs1 : VReg) (k : KReg)
  /-- Lane-wise division, integers by R126. (R221) -/
  | vdiv (et : ETy) (vd vs2 vs1 : VReg) (k : KReg)
  /-- Lane-wise absolute value. (R221) -/
  | vabs (et : ETy) (vd vs2 : VReg) (k : KReg)
  /-- Lane-wise negation. (R221) -/
  | vneg (et : ETy) (vd vs2 : VReg) (k : KReg)
  /-- Writes a mask of lanes that compare equal. (R222) -/
  | vcmpeq (et : ETy) (kd : KReg) (vs2 vs1 : VReg) (k : KReg)
  /-- Writes a mask of lanes that compare less. (R222) -/
  | vcmplt (et : ETy) (kd : KReg) (vs2 vs1 : VReg) (k : KReg)
  /-- Writes a mask of lanes that compare less or equal. (R222) -/
  | vcmple (et : ETy) (kd : KReg) (vs2 vs1 : VReg) (k : KReg)
  /-- Selects each lane from b or a by the k register. (R223) -/
  | vsel (et : ETy) (vd vs2 vs1 : VReg) (k : KReg)
  /-- Lane-wise high half of a signed product. (R221) -/
  | vmulh (et : ETy) (vd vs2 vs1 : VReg) (k : KReg)
  /-- Writes a mask of lanes that compare less unsigned. (R222) -/
  | vcmpltu (et : ETy) (kd : KReg) (vs2 vs1 : VReg) (k : KReg)
  /-- Lane-wise unsigned minimum. (R221) -/
  | vminu (et : ETy) (vd vs2 vs1 : VReg) (k : KReg)
  /-- Lane-wise unsigned maximum. (R221) -/
  | vmaxu (et : ETy) (vd vs2 vs1 : VReg) (k : KReg)
  /-- Adds a scalar g register to every lane. (R221) -/
  | vaddVx (et : ETy) (vd vs2 : VReg) (gs : GReg) (k : KReg)
  /-- Subtracts a scalar from every lane. (R221) -/
  | vsubVx (et : ETy) (vd vs2 : VReg) (gs : GReg) (k : KReg)
  /-- Multiplies every lane by a scalar. (R221) -/
  | vmulVx (et : ETy) (vd vs2 : VReg) (gs : GReg) (k : KReg)
  /-- Fused multiply-add with a scalar. (R221) -/
  | vfmaVx (et : ETy) (vd vs2 : VReg) (gs : GReg) (k : KReg)
  /-- Lane minimum against a scalar. (R221) -/
  | vminVx (et : ETy) (vd vs2 : VReg) (gs : GReg) (k : KReg)
  /-- Lane maximum against a scalar. (R221) -/
  | vmaxVx (et : ETy) (vd vs2 : VReg) (gs : GReg) (k : KReg)
  /-- Lane AND with a scalar. (R221) -/
  | vandVx (et : ETy) (vd vs2 : VReg) (gs : GReg) (k : KReg)
  /-- Lane OR with a scalar. (R221) -/
  | vorVx (et : ETy) (vd vs2 : VReg) (gs : GReg) (k : KReg)
  /-- Lane XOR with a scalar. (R221) -/
  | vxorVx (et : ETy) (vd vs2 : VReg) (gs : GReg) (k : KReg)
  /-- Lane left shift by a scalar. (R221) -/
  | vshlVx (et : ETy) (vd vs2 : VReg) (gs : GReg) (k : KReg)
  /-- Lane logical right shift by a scalar. (R221) -/
  | vshrVx (et : ETy) (vd vs2 : VReg) (gs : GReg) (k : KReg)
  /-- Lane arithmetic right shift by a scalar. (R221) -/
  | vsraVx (et : ETy) (vd vs2 : VReg) (gs : GReg) (k : KReg)
  /-- Lane division by a scalar. (R221) -/
  | vdivVx (et : ETy) (vd vs2 : VReg) (gs : GReg) (k : KReg)
  /-- Mask of lanes equal to a scalar. (R222) -/
  | vcmpeqVx (et : ETy) (kd : KReg) (vs2 : VReg) (gs : GReg) (k : KReg)
  /-- Mask of lanes less than a scalar. (R222) -/
  | vcmpltVx (et : ETy) (kd : KReg) (vs2 : VReg) (gs : GReg) (k : KReg)
  /-- Mask of lanes less than or equal to a scalar. (R222) -/
  | vcmpleVx (et : ETy) (kd : KReg) (vs2 : VReg) (gs : GReg) (k : KReg)
  /-- Selects a scalar or the lane by mask; broadcasts with k0. (R223) -/
  | vselVx (et : ETy) (vd vs2 : VReg) (gs : GReg) (k : KReg)
  /-- Lane high product with a scalar. (R221) -/
  | vmulhVx (et : ETy) (vd vs2 : VReg) (gs : GReg) (k : KReg)
  /-- Mask of lanes unsigned-less than a scalar. (R222) -/
  | vcmpltuVx (et : ETy) (kd : KReg) (vs2 : VReg) (gs : GReg) (k : KReg)
  /-- Lane unsigned minimum against a scalar. (R221) -/
  | vminuVx (et : ETy) (vd vs2 : VReg) (gs : GReg) (k : KReg)
  /-- Lane unsigned maximum against a scalar. (R221) -/
  | vmaxuVx (et : ETy) (vd vs2 : VReg) (gs : GReg) (k : KReg)
  /-- Copies the lowest active lane to a g register. (R224) -/
  | vext (et : ETy) (gd : GReg) (vs2 : VReg) (k : KReg)
  /-- Loads a 64-byte aligned vector. (R225) -/
  | vld (et : ETy) (vd : VReg) (gs1 : GReg) (k : KReg)
  /-- Stores a 64-byte aligned vector. (R225) -/
  | vst (et : ETy) (vd : VReg) (gs1 : GReg) (k : KReg)
  /-- Strided vector load. (R225) -/
  | vlds (et : ETy) (vd : VReg) (gs1 gs2 : GReg) (k : KReg)
  /-- Strided vector store. (R225) -/
  | vsts (et : ETy) (vd : VReg) (gs1 gs2 : GReg) (k : KReg)
  /-- Gathers lanes through an index vector. (R225) -/
  | vgath (et : ETy) (vd : VReg) (gs1 : GReg) (vi : VReg) (k : KReg)
  /-- Scatters lanes through an index vector. (R225) -/
  | vscat (et : ETy) (vd : VReg) (gs1 : GReg) (vi : VReg) (k : KReg)
  /-- Loads one element and broadcasts it. (R225) -/
  | vldb (et : ETy) (vd : VReg) (gs1 : GReg) (k : KReg)
  /-- Loads a k register from memory. (R225) -/
  | vldk (kd : KReg) (gs1 : GReg)
  /-- Stores a k register to memory. (R225) -/
  | vstk (kd : KReg) (gs1 : GReg)
  /-- Byte permute by a control vector. (R228) -/
  | vpermb (vd vs2 vs1 : VReg) (k : KReg)
  /-- Broadcasts lane 0. (R228) -/
  | vbcst (et : ETy) (vd vs2 : VReg) (k : KReg)
  /-- Writes each lane the count of mask bits below it. (R228) -/
  | viota (et : ETy) (vd : VReg) (k : KReg)
  /-- Compresses active lanes to the low lanes. (R228) -/
  | vcompr (et : ETy) (vd vs2 : VReg) (k : KReg)
  /-- Expands low lanes into the active lanes. (R228) -/
  | vexpnd (et : ETy) (vd vs2 : VReg) (k : KReg)
  /-- Slides lanes by a signed distance. (R228) -/
  | vslide (et : ETy) (vd vs2 vs1 : VReg) (k : KReg)
  /-- Inserts lane 0 of vs1 at a lane index. (R228) -/
  | vins (et : ETy) (vd vs2 vs1 : VReg)
  /-- Interleaves the low halves of two vectors. (R228) -/
  | vzip (et : ETy) (vd vs2 vs1 : VReg) (k : KReg)
  /-- Takes the even lanes of two vectors. (R228) -/
  | vunzip (et : ETy) (vd vs2 vs1 : VReg) (k : KReg)
  /-- Sums the active lanes by the fixed tree into lane 0. (R229) -/
  | vrsum (et : ETy) (vd vs2 : VReg) (k : KReg)
  /-- Maximum of the active lanes. (R229) -/
  | vrmax (et : ETy) (vd vs2 : VReg) (k : KReg)
  /-- Minimum of the active lanes. (R229) -/
  | vrmin (et : ETy) (vd vs2 : VReg) (k : KReg)
  /-- Computes mean and variance of a row in memory. (R230) -/
  | vrowst (et : ETy) (vd vs2 : VReg)
  /-- Index of the greatest active lane. (R229) -/
  | vrarg (et : ETy) (vd vs2 : VReg) (k : KReg)
  /-- Counts one bits over the active lanes. (R229) -/
  | vrpopc (et : ETy) (vd vs2 : VReg) (k : KReg)
  /-- Requests a special-function evaluation of each lane. (R237) -/
  | vsfn (fn : BitVec 4) (et : ETy) (vd vs2 : VReg) (k : KReg)
  /-- Special function times a second vector, rounded once. (R237) -/
  | vgact (fn : BitVec 4) (et : ETy) (vd vs2 vs1 : VReg) (k : KReg)
  /-- Checks and loads a user function table into a slot. (R235) -/
  | vstbl (t : BitVec 4) (vs2 : VReg)
  /-- Converts lanes to another element type. (R240) -/
  | vcvt (et : ETy) (vd vs2 : VReg) (dt : ETy) (k : KReg)
  /-- Decodes 8-bit codes through the decode table. (R239) -/
  | vdec (et : ETy) (vd vs2 : VReg) (q : BitVec 4) (k : KReg)
  /-- Encodes lanes to 8-bit codes under ENCM. (R239) -/
  | venc (et : ETy) (vd vs2 : VReg) (q : BitVec 4) (k : KReg)
  /-- Unpacks 4-bit nibbles into i8 lanes. (R239) -/
  | vnib (vd vs2 : VReg) (m : BitVec 4) (k : KReg)
  /-- Writes counter-based generator values per lane. (R241) -/
  | vrng (et : ETy) (vd vs2 : VReg) (k : KReg)
  /-- Scales each lane by a power of two. (R239) -/
  | vscl (et : ETy) (vd vs2 vs1 : VReg) (k : KReg)
  /-- Converts two vectors into one half-width vector. (R240) -/
  | vpack (et : ETy) (vd vs2 vs1 : VReg) (k : KReg)
  /-- Checks and writes a tensor map. (R245) -/
  | tmset (tmA : TMReg) (gs1 : GReg)
  /-- Submits the core's part of a gang matrix product. (R258) -/
  | mgang (rd : GReg) (tmA tmB : TMReg) (gs1 gs2 : GReg)
  /-- Submits a job that zeroes the accumulator. (R263) -/
  | mzero (rd gs1 : GReg)
  /-- Submits a job that stores the scaled accumulator. (R263) -/
  | msta (rd : GReg) (tmA : TMReg) (gs1 : GReg)
  /-- Submits a job that loads the accumulator. (R263) -/
  | mlda (rd : GReg) (tmA : TMReg) (gs1 : GReg)
  /-- Submits a gang job that joins or splits the array. (R265) -/
  | msplit (rd gs1 gs2 : GReg)
  /-- Submits a decode-table load job. (R268) -/
  | dtld (rd gs1 gs2 : GReg)
  /-- Commits and waits for a job to end, returning its status. (R269) -/
  | jwait (rd gs1 : GReg)
  /-- Reads a job's status without waiting. (R269) -/
  | jpoll (rd gs1 : GReg)
  /-- Submits a copy job from a descriptor. (R271) -/
  | cpy (rd gs1 gs2 : GReg)
  /-- Submits a copy job into a remote ring. (R271) -/
  | cpyr (rd gs1 gs2 : GReg)
  /-- Requests cancellation of a job at the chunk's commit. (R270) -/
  | jcan (rd gs1 : GReg)
  /-- Submits an LU factorisation job. (R288) -/
  | flu (rd : GReg) (tmA : TMReg) (gs1 gs2 : GReg)
  /-- Submits a Cholesky factorisation job. (R290) -/
  | fchol (rd : GReg) (tmA : TMReg) (gs1 gs2 : GReg)
  /-- Submits a Householder QR job. (R291) -/
  | fqr (rd : GReg) (tmA tmB : TMReg) (gs1 gs2 : GReg)
  /-- Submits a triangular solve job. (R292) -/
  | ftrs (rd : GReg) (tmA tmB : TMReg) (gs1 gs2 : GReg)
  /-- Submits a job that permutes a tile's rows. (R296) -/
  | prapl (rd : GReg) (tmA : TMReg) (gs1 gs2 : GReg)
  /-- Submits a job that moves a p register. (R297) -/
  | prmov (rd gs1 gs2 : GReg)
  /-- Submits a top-k job to the riddle. (R412) -/
  | ridl (rd gs1 gs2 : GReg)
  /-- Requests a token draw from a list on the riddle. (R415) -/
  | draw (rd gs1 gs2 : GReg)
  /-- Parks a sequence out of its batch row onto a resume ring. (R408) -/
  | spark (rd gs1 gs2 : GReg)
  /-- Resumes a parked sequence into the lowest vacant row. (R408) -/
  | sres (rd gs1 gs2 : GReg)
  /-- Requests a new committee record. (R431) -/
  | cmnew (rd gs1 gs2 : GReg)
  /-- Maps a member's list and requests it joined to the round. (R433) -/
  | cmjoin (rd gs1 gs2 : GReg)
  /-- Requests a wait until the committee quorum is met. (R434) -/
  | cmwait (rd gs1 : GReg)
  /-- Requests the combined list of a closed round. (R435) -/
  | cmbn (rd gs1 gs2 : GReg)
  /-- Requests advancing the committee with a drawn id and writes feeds. (R436) -/
  | cmadv (rd gs1 gs2 : GReg)
  /-- CMSET with SEL 0 writes a member record. (R432) -/
  | cmsetMember (rd gs1 gs2 : GReg)
  /-- CMSET with SEL 1 writes the expression. (R432) -/
  | cmsetExpr (rd gs1 gs2 : GReg)
  /-- CMSET with SEL 2 writes the quorum and deadline. (R432) -/
  | cmsetQuorum (rd gs1 gs2 : GReg)
  /-- CMSET with SEL 3 opens the committee to GATHER. (R432) -/
  | cmsetOpen (rd gs1 gs2 : GReg)
  /-- Requests freeing the committee record. (R437) -/
  | cmend (rd gs1 : GReg)
  /-- Requests a new stitched tensor. (R396) -/
  | stnew (rd : GReg)
  /-- Requests a new version with entries replaced. (R397) -/
  | splice (rd rs1 rs2 : GReg)
  /-- Requests a pin of the current version. (R398) -/
  | spin (rd rs1 : GReg)
  /-- Requests release of a version pin. (R398) -/
  | sunpin (rd rs1 : GReg)
  /-- Translates a row index within a version. (R400) -/
  | sidx (rd rs1 rs2 : GReg)
  /-- Requests a new tensor sharing the current version's entries. (R399) -/
  | sfork (rd rs1 : GReg)
  /-- Requests dropping a tensor. (R399) -/
  | sdrop (rd rs1 : GReg)
  /-- Submits an invalidation of one page's translations. (R371) -/
  | tlbi (rd rs1 rs2 : GReg)
  /-- Submits an invalidation of one SID. (R371) -/
  | tlbis (rd rs1 rs2 : GReg)
  /-- Submits an invalidation of everything of a virtual device. (R371) -/
  | tlbia (rd rs1 rs2 : GReg)
  /-- Writes a SID-table root entry. (R373) -/
  | sidw (rd rs1 rs2 : GReg)
  /-- Translates an address and returns the outcome word. (R374) -/
  | atrn (rd rs1 rs2 : GReg)
  /-- Commits and requests the leader to begin a revolution. (R455) -/
  | rvbeg (rd rs1 rs2 : GReg)
  /-- Commits and waits for the revolution to complete or abort. (R455) -/
  | rvend (rd rs1 rs2 : GReg)
  /-- Reads the local copy of a ring's state. (R456) -/
  | rvqry (rd rs1 rs2 : GReg)
  /-- Waits for window stores to be performed and raises the release count. (R457) -/
  | wrel (rd rs1 : GReg)
  /-- Drops a window's cached lines and reads its release count. (R457) -/
  | wacq (rd rs1 : GReg)
  /-- Returns the state word of a link or port. (R458) -/
  | lstat (rd rs1 : GReg)
  /-- Traps into the hypervisor at level 2. (R476) -/
  | hvcall (rd rs1 : GReg)
  /-- SLOTW selector 0 writes a slot-table entry. (R476) -/
  | slotwEntry (rd rs1 rs2 : GReg)
  /-- SLOTW selector 1 sets PERIOD. (R476) -/
  | slotwPeriod (rd rs1 rs2 : GReg)
  /-- SLOTW selector 2 sets LEN. (R476) -/
  | slotwLen (rd rs1 rs2 : GReg)
  /-- Switches the control core's virtual device. (R476) -/
  | vdsw (rd rs1 : GReg)
  /-- KEYOP op 0 extends the measurement. (R477) -/
  | mext (rd rs1 rs2 : GReg)
  /-- KEYOP op 1 fills and signs a report. (R477) -/
  | attest (rd rs1 rs2 : GReg)
  /-- KEYOP op 2 gives a virtual device a fresh key. (R477) -/
  | vdkey (rd rs1 rs2 : GReg)
  /-- KEYOP op 3 creates a window key. (R477) -/
  | wnew (rd rs1 rs2 : GReg)
  /-- KEYOP op 4 grants a window to a virtual device. (R477) -/
  | wgrant (rd rs1 rs2 : GReg)
  /-- KEYOP op 5 revokes a window grant. (R477) -/
  | wrevoke (rd rs1 rs2 : GReg)
  /-- KEYOP op 6 erases a virtual device's keys. (R470) -/
  | quench (rd rs1 rs2 : GReg)
  /-- KEYOP op 7 copies a frame's ciphertext to another frame. (R477) -/
  | fmove (rd rs1 rs2 : GReg)
  /-- Returns from a trap level. (R476) -/
  | eret
  /-- Waits until IPEND is nonzero. (R476) -/
  | wfi
  /-- Compact ADDI rd, rd, imm5. (R66) -/
  | addiC (rd : GReg) (imm : BitVec 5)
  /-- Compact load of a small immediate. (R66) -/
  | ldiC (rd : GReg) (imm : BitVec 5)
  /-- Compact left shift. (R66) -/
  | slliC (rd : GReg) (sh : BitVec 5)
  /-- Compact logical right shift. (R66) -/
  | srliC (rd : GReg) (sh : BitVec 5)
  /-- Compact arithmetic right shift. (R66) -/
  | sraiC (rd : GReg) (sh : BitVec 5)
  /-- Compact ANDI. (R66) -/
  | andiC (rd : GReg) (imm : BitVec 5)
  /-- Compact register move. (R66) -/
  | mvC (rd rs : GReg)
  /-- Compact ADD rd, rd, rs. (R66) -/
  | addC (rd rs : GReg)
  /-- Compact SUB. (R66) -/
  | subC (rd rs : GReg)
  /-- Compact AND. (R66) -/
  | andC (rd rs : GReg)
  /-- Compact OR. (R66) -/
  | orC (rd rs : GReg)
  /-- Compact XOR. (R66) -/
  | xorC (rd rs : GReg)
  /-- Compact jump through a register. (R66) -/
  | jrC (rs : GReg)
  /-- Compact HALT. (R66) -/
  | haltC
  /-- Compact COMMIT. (R66) -/
  | commitC
  /-- Compact jump without link. (R67) -/
  | jC (off : BitVec 11)
  /-- Compact jump linking g1. (R67) -/
  | jalC (off : BitVec 11)
  /-- Compact branch if zero. (R67) -/
  | beqzC (rs : CReg) (off : BitVec 8)
  /-- Compact branch if nonzero. (R67) -/
  | bnezC (rs : CReg) (off : BitVec 8)
  /-- Compact branch if negative. (R67) -/
  | bltzC (rs : CReg) (off : BitVec 8)
  /-- Compact branch if not negative. (R67) -/
  | bgezC (rs : CReg) (off : BitVec 8)
  /-- Compact word load. (R68) -/
  | lwC (rd rs1 : CReg) (off : BitVec 6)
  /-- Compact doubleword load. (R68) -/
  | ldC (rd rs1 : CReg) (off : BitVec 6)
  /-- Compact word store. (R68) -/
  | swC (rd rs1 : CReg) (off : BitVec 6)
  /-- Compact doubleword store. (R68) -/
  | sdC (rd rs1 : CReg) (off : BitVec 6)
  /-- The run queue takes the head message of the first class into a free or retained context and activates it. (R152) -/
  | taskStart (core : Nat)
  /-- A waiting context's condition is met and it becomes READY. (R147) -/
  | contextWake (core ctx : Nat)
  /-- The couch commits one chunk of the cluster and applies its effects. (R329) -/
  | chunkCommit (core ctx : Nat)
  /-- The watchdog count reaches BUDG and the task is killed. (R166) -/
  | budgetExpiry (core ctx : Nat)
  /-- A fault notice arrives and puts the core's kernel FAULTED. (R208) -/
  | faultNotice (core vd : Nat)
  /-- A READY send entry departs when its network accepts it. (R181) -/
  | entryDepart (core entry : Nat)
  /-- A message reaches its destination and is checked, accepted, refused or discarded. (R187) -/
  | messageArrival (ix : Nat)
  /-- The sender learns of acceptance; a request entry enters AWAIT, others are freed. (R179) -/
  | entryAccepted (ix : Nat)
  /-- The sender's entry becomes REFUSED and queues a refusal task. (R191) -/
  | entryRefused (ix : Nat)
  /-- A router outside the scope strips the release tag. (R336) -/
  | scopeStrip (ix : Nat)
  /-- Service op 0 resumes a suspended context or a parked copy. (R171) -/
  | resume (core : Nat)
  /-- Service op 1 frees a suspended context or ends a parked copy FAULT. (R171) -/
  | kill (core : Nat)
  /-- Service op 2 begins pre-emption of the core. (R172) -/
  | stop (core : Nat)
  /-- Service op 3 restores the save record and restarts tasks. (R173) -/
  | start (core : Nat)
  /-- Service op 4 continues a save halted by a fault. (R174) -/
  | continueSave (core : Nat)
  /-- Once no context is active the core writes its save record and reports completion. (R172) -/
  | saveRecordWrite (core : Nat)
  /-- Every member's head is a gang job and the round runs or ends GANGMIS. (R259) -/
  | gangRound (cluster half : Nat)
  /-- A gang job's GANGT expires and the heads end TIMEOUT. (R259) -/
  | gangTimeout (cluster half member : Nat)
  /-- A paired cluster's PAIRT wait expires and its members end TIMEOUT. (R266) -/
  | pairWaitTimeout (cluster : Nat)
  /-- A partner cluster is lost and the pair's jobs end PAIRLOST. (R267) -/
  | partnerLost (cluster : Nat)
  /-- A running job completes, writes results and stores its status. (R255) -/
  | jobEnd (core slot : Nat)
  /-- An MZERO, MSTA or MLDA at the head of the slice queue acts. (R263) -/
  | accumulatorJobRun (core : Nat)
  /-- A DTLD at the head writes the decode table. (R268) -/
  | decodeTableLoad (core : Nat)
  /-- One column step of a factorisation commits as a hart chunk. (R287) -/
  | factorisationStep (core : Nat)
  /-- A PRAPL at the head permutes tile rows. (R296) -/
  | permutationApply (core : Nat)
  /-- A PRMOV at the head moves a p register. (R297) -/
  | permutationMove (core : Nat)
  /-- The copy unit reads and commits one segment of a copy job. (R272) -/
  | copySegment (core : Nat)
  /-- A delivery retries its context reservation every 64 cycles. (R273) -/
  | contextReserveRetry (core : Nat)
  /-- A refused ring delivery retries every 64 cycles. (R274) -/
  | ringDeliveryRetry (core : Nat)
  /-- The riddle runs a top-k job and writes its list. (R413) -/
  | ridlRun (core : Nat)
  /-- The riddle serves a DRAW and returns the drawn id. (R415) -/
  | riddleDraw (core ctx : Nat)
  /-- The special-function unit serves one request per cycle round-robin. (R238) -/
  | sfuService (cluster : Nat)
  /-- The owner performs one atomic read-modify-write. (R342) -/
  | atomicPerform (core entry : Nat)
  /-- The atomic thread performs one STCH request. (R395) -/
  | stitchRequest (core : Nat)
  /-- The atomic thread performs one COMM request. (R430) -/
  | committeeRequest (core : Nat)
  /-- The quorum deadline passes and the evaluation may close the round. (R434) -/
  | quorumDeadline (core : Nat)
  /-- The completion test passes and the round is combined and released. (R319) -/
  | barrierRelease (cluster : Nat) (block : Bool)
  /-- A GSPAWN job enqueues a batch on its launch queue. (R312) -/
  | gspawnEnqueue (core slot : Nat)
  /-- The placer places the next block of a mapped queue's head batch. (R307) -/
  | blockPlace (vd : Nat)
  /-- The slot period expires and the slot index advances. (R466) -/
  | slotBoundary
  /-- An invalidation job completes and writes DONE. (R372) -/
  | invalidationJob (core slot : Nat)
  /-- The device evicts a cached translation. (R365) -/
  | translationEvict (core ix : Nat)
  /-- A tamper sensor raises an unattributed alarm. (R469) -/
  | tamperSensor
  /-- A loader LOAD command checks and loads a kernel on a rectangle. (R205) -/
  | load (vd : Nat)
  /-- A loader UNLOAD command drains a kernel. (R207) -/
  | unload (vd : Nat)
  /-- A loader CLEAR command returns a faulted kernel to ACTIVE. (R207) -/
  | clear (vd : Nat)
  /-- A draining core with no active context reaches ABSENT. (R207) -/
  | kernelDrained (core : Nat)
  /-- Power is applied and the power-on phases run. (R479) -/
  | powerApplied (failPhase : Nat)
  /-- The host asserts the module reset and the phases run. (R479) -/
  | moduleReset (failPhase : Nat)
  /-- A host write of 1 clears MSTS.MCHK. (R480) -/
  | mstsWrite (value : Word)
  /-- A write sets an island's FDIV, RISE and FALL. (R481) -/
  | ictlWrite (island : Nat) (value : Word)
  /-- A new clock divider takes effect after the island stops issuing. (R481) -/
  | fdivChange (island : Nat)
  /-- Every 10 µs the governor compares total power and adjusts FDIV. (R482) -/
  | governorWindow (watts : Nat) (quietMs : Bool)
  /-- A 1,600-cycle ramp window ends and bounds the next window's slots. (R278) -/
  | rampWindow (island : Nat)
  /-- The scrubber reads a codeword and writes back corrections. (R484) -/
  | scrub (group offset errors : Nat)
  /-- A write assigns a cluster's virtual devices unless a rule ignores it. (R462) -/
  | clownWrite (cluster : Nat) (value : Word)
  /-- Writing 1 clears pending interrupt bits. (R461) -/
  | ipendClear (core : Nat) (value : Word)
  /-- A waiting WFI returns once IPEND becomes nonzero. (R476) -/
  | wfiWake (core : Nat)
  /-- A flit arrives and is acknowledged, NAKed or discarded as a replay. (R447) -/
  | flitReceive (link seq : Nat) (crcOk : Bool) (words : List Word)
  /-- An acknowledgement frees flits from the replay buffer. (R447) -/
  | ackReceive (link seq : Nat)
  /-- A NAK starts replay from the NAKed flit. (R447) -/
  | nakReceive (link seq : Nat)
  /-- An unacknowledged flit outlives LTO and the link resets. (R447) -/
  | ltoExpiry (link : Nat)
  /-- Training completes on 8 or 4 lanes and the link is UP or DEGRADED. (R448) -/
  | trainingComplete (link lanes peer : Nat)
  /-- A training attempt fails; the fourth takes the link DOWN. (R448) -/
  | trainingAttemptFail (link : Nat)
  /-- A link in RESET begins TRAINING. (R448) -/
  | electricalResetComplete (link : Nat)
  /-- LCTL.EN written 1 in DOWN starts TRAINING. (R474) -/
  | linkEnable (link : Nat)
  /-- LCTL.EN written 0 takes the link DOWN. (R474) -/
  | linkDisable (link : Nat)
  /-- LCTL.RST written 1 takes an UP link to RESET. (R474) -/
  | linkReset (link : Nat)
  /-- A write sets a module's route set, taking effect through a drain. (R474) -/
  | rsetWrite (module mask : Nat)
  /-- All flits of a route set are acknowledged and the new count applies. (R445) -/
  | routeDrainComplete (module : Nat)
  /-- A ring member is lost and an open revolution aborts with notices. (R454) -/
  | memberLost (ring member why : Nat)
  /-- Every member is reachable again and the ring returns to IDLE. (R453) -/
  | revolutionReady (ring : Nat)
  /-- A port processes a queue entry under its context's translation. (R444) -/
  | portRequest (port q ix : Nat) (va : Word) (store : Option Word)
  /-- A port writes a completion entry and sends its notice. (R473) -/
  | portCompletion (port q ix : Nat) (entry : List Word)
  /-- Port command 1 clears STOPPED and restarts the pair. (R473) -/
  | pqcmdResume (port q : Nat)
  /-- Port command 2 requests stopping the pair. (R473) -/
  | pqcmdStop (port q : Nat)
  /-- In-progress requests complete and STOPPED is set. (R473) -/
  | portStopped (port q : Nat)
  /-- The host reaches a virtual device's guest frames through its aperture. (R444) -/
  | hostAccess (vd gpa : Nat) (store : Option Word)
  /-- An inbound RoCE operation arrives on a network port. (R443) -/
  | networkInbound (port q : Nat) (va : Word) (op : PortOp)
  /-- A fetched halfword or word that is no instruction (major 0x00, reserved codes, nonzero unused fields, reserved compact values) traps ILLEGAL with its encoding in FADDR. (R80) -/
  | illegalEncoding (word : BitVec 32) (compact : Bool)
  /-- An instruction fetch from a non-fetchable region or a failing page traps before any instruction is decoded. (R122) -/
  | fetchFault (second : Bool)
  /-- A fabric core fails in the field, CLOWN.FAILED is set and its cluster leaves the partition map, losing pair partners and ring members. (R29) -/
  | coreFailure (core : Nat)
  /-- A bank fails its self-test and is marked failed, with reconstruction from then on or a machine check if it is the second in its group. (R483) -/
  | bankSelfTestFail (group bank : Nat)
  /-- A system-image measurement check fails and raises the security alarm attributed to the virtual device. (R469) -/
  | measurementCheckFail (vd : Nat)
  /-- A host, network or storage port's standard link goes up or down, changing the STATE and LANES that LSTAT reports. (R458) -/
  | portLinkChange (port : Nat) (up : Bool) (lanes : Nat)
  /-- A cached counter-tree node is written back on eviction, raising its parent's counter, or refusing a wrap and raising the alarm. (R381) -/
  | counterNodeWriteBack (key level node : Nat)
  deriving DecidableEq, Repr

end Sys2Proof
end

