-- ==== Sys2Proof/WellFormed.lean ====
section
/-! DEFINITION. Which terms of `Instr` are instructions: the operand values the encodings accept
(R63, R64, R66, R70, R77, R80, R221 to R241, R341). Every event of the device is well formed: an event whose
arguments name nothing leaves the machine unchanged (R12). -/

set_option Elab.async false

namespace Sys2Proof

namespace ETy

/-- bf16 and f32, the types of R229 (VROWST), R237 and R239 (VDEC, VENC). -/
def isSfu : ETy → Bool
  | bf16 | f32 => true
  | i8 | i16 | i32 | i64 | f64 => false

/-- i32 and f32, the types of VRNG (R239). -/
def isRng : ETy → Bool
  | i32 | f32 => true
  | i8 | i16 | i64 | bf16 | f64 => false

/-- The types VPACK narrows (R239). -/
def isPack : ETy → Bool
  | i16 | i32 | i64 | f32 | f64 => true
  | i8 | bf16 => false

end ETy

/-- The operand values the encoding of each instruction admits. -/
def WellFormed : Instr → Bool
  | .add _ _ _ => true
  | .sub _ _ _ => true
  | .and _ _ _ => true
  | .or _ _ _ => true
  | .xor _ _ _ => true
  | .andn _ _ _ => true
  | .orn _ _ _ => true
  | .sll _ _ _ => true
  | .srl _ _ _ => true
  | .sra _ _ _ => true
  | .rol _ _ _ => true
  | .ror _ _ _ => true
  | .slt _ _ _ => true
  | .sltu _ _ _ => true
  | .min _ _ _ => true
  | .max _ _ _ => true
  | .minu _ _ _ => true
  | .maxu _ _ _ => true
  | .mul _ _ _ => true
  | .mulh _ _ _ => true
  | .mulhu _ _ _ => true
  | .div _ _ _ => true
  | .divu _ _ _ => true
  | .rem _ _ _ => true
  | .remu _ _ _ => true
  | .addw _ _ _ => true
  | .subw _ _ _ => true
  | .sllw _ _ _ => true
  | .srlw _ _ _ => true
  | .sraw _ _ _ => true
  | .mulw _ _ _ => true
  | .clz _ _ => true
  | .ctz _ _ => true
  | .popc _ _ => true
  | .bswp _ _ => true
  | .sextb _ _ => true
  | .sexth _ _ => true
  | .sextw _ _ => true
  | .zextb _ _ => true
  | .zexth _ _ => true
  | .zextw _ _ => true
  | .addi _ _ _ => true
  | .andi _ _ _ => true
  | .ori _ _ _ => true
  | .xori _ _ _ => true
  | .slti _ _ _ => true
  | .sltiu _ _ _ => true
  | .addiw _ _ _ => true
  | .slli _ _ _ => true
  | .srli _ _ _ => true
  | .srai _ _ _ => true
  | .roli _ _ _ => true
  | .slliw _ _ _ => true
  | .srliw _ _ _ => true
  | .sraiw _ _ _ => true
  | .lih _ _ => true
  | .addpc _ _ => true
  | .lb _ _ _ => true
  | .lbu _ _ _ => true
  | .lh _ _ _ => true
  | .lhu _ _ _ => true
  | .lw _ _ _ => true
  | .lwu _ _ _ => true
  | .ld _ _ _ => true
  | .sb _ _ _ => true
  | .sh _ _ _ => true
  | .sw _ _ _ => true
  | .sd _ _ _ => true
  | .beq _ _ _ => true
  | .bne _ _ _ => true
  | .blt _ _ _ => true
  | .bge _ _ _ => true
  | .bltu _ _ _ => true
  | .bgeu _ _ _ => true
  | .jal _ _ => true
  | .jalr _ _ _ => true
  | .faddS _ _ _ => true
  | .fsubS _ _ _ => true
  | .fmulS _ _ _ => true
  | .fdivS _ _ _ => true
  | .fsqrtS _ _ => true
  | .fmaS _ _ _ => true
  | .fminS _ _ _ => true
  | .fmaxS _ _ _ => true
  | .feqS _ _ _ => true
  | .fltS _ _ _ => true
  | .fleS _ _ _ => true
  | .fclassS _ _ => true
  | .fnegS _ _ => true
  | .fabsS _ _ => true
  | .fcvtifS _ _ => true
  | .fcvtfiS _ _ => true
  | .fcvtfirS _ _ => true
  | .fcvtbfS _ _ => true
  | .fcvtfbS _ _ => true
  | .fcvtpdS _ _ => true
  | .faddD _ _ _ => true
  | .fsubD _ _ _ => true
  | .fmulD _ _ _ => true
  | .fdivD _ _ _ => true
  | .fsqrtD _ _ => true
  | .fmaD _ _ _ => true
  | .fminD _ _ _ => true
  | .fmaxD _ _ _ => true
  | .feqD _ _ _ => true
  | .fltD _ _ _ => true
  | .fleD _ _ _ => true
  | .fclassD _ _ => true
  | .fnegD _ _ => true
  | .fabsD _ _ => true
  | .fcvtifD _ _ => true
  | .fcvtfiD _ _ => true
  | .fcvtfirD _ _ => true
  | .fcvtbfD _ _ => true
  | .fcvtfbD _ _ => true
  | .fcvtpdD _ _ => true
  | .crr _ _ => true
  | .crw _ _ _ => true
  | .crset _ _ _ => true
  | .crclr _ _ _ => true
  | .halt => true
  | .haltr _ => true
  | .commit => true
  | .abort => true
  | .trapi _ => true
  | .budgq _ => true
  | .send _ _ _ => true
  | .rply _ _ _ => true
  | .sendq _ _ _ => true
  | .resend _ _ => true
  | .dropr _ _ => true
  | .hset _ _ => true
  | .cwait _ _ _ => true
  | .pwait _ _ _ => true
  | .cadv _ _ => true
  | .padv _ _ => true
  | .hqry _ _ => true
  | .aadd _ _ _ => true
  | .aand _ _ _ => true
  | .aor _ _ _ => true
  | .axor _ _ _ => true
  | .amax _ _ _ => true
  | .amin _ _ _ => true
  | .amaxu _ _ _ => true
  | .aminu _ _ _ => true
  | .aswp _ _ _ => true
  | .acas _ _ rs2 => !rs2.getLsbD 0
  | .aincw _ _ _ => true
  | .abfa _ _ rs2 => !rs2.getLsbD 0
  | .afadd _ _ _ => true
  | .afmax _ _ _ => true
  | .amxr _ _ _ => true
  | .rels _ => true
  | .acqs => true
  | .fence => true
  | .gid _ _ => true
  | .gspawn _ _ _ => true
  | .gdone _ => true
  | .barrAnd _ _ => true
  | .barrOr _ _ => true
  | .barrSum _ _ => true
  | .barrPopc _ _ => true
  | .bargAnd _ _ => true
  | .bargOr _ _ => true
  | .bargSum _ _ => true
  | .bargPopc _ _ => true
  | .vadd _ _ _ _ _ => true
  | .vsub _ _ _ _ _ => true
  | .vmul _ _ _ _ _ => true
  | .vfma _ _ _ _ _ => true
  | .vmin _ _ _ _ _ => true
  | .vmax _ _ _ _ _ => true
  | .vand _ _ _ _ _ => true
  | .vor _ _ _ _ _ => true
  | .vxor _ _ _ _ _ => true
  | .vshl et _ _ _ _ => et.isInt
  | .vshr et _ _ _ _ => et.isInt
  | .vsra et _ _ _ _ => et.isInt
  | .vdiv _ _ _ _ _ => true
  | .vabs _ _ _ _ => true
  | .vneg _ _ _ _ => true
  | .vcmpeq _ kd _ _ _ => kd != 0
  | .vcmplt _ kd _ _ _ => kd != 0
  | .vcmple _ kd _ _ _ => kd != 0
  | .vsel _ _ _ _ _ => true
  | .vmulh et _ _ _ _ => et.isInt
  | .vcmpltu et kd _ _ _ => et.isInt && kd != 0
  | .vminu et _ _ _ _ => et.isInt
  | .vmaxu et _ _ _ _ => et.isInt
  | .vaddVx _ _ _ _ _ => true
  | .vsubVx _ _ _ _ _ => true
  | .vmulVx _ _ _ _ _ => true
  | .vfmaVx _ _ _ _ _ => true
  | .vminVx _ _ _ _ _ => true
  | .vmaxVx _ _ _ _ _ => true
  | .vandVx _ _ _ _ _ => true
  | .vorVx _ _ _ _ _ => true
  | .vxorVx _ _ _ _ _ => true
  | .vshlVx et _ _ _ _ => et.isInt
  | .vshrVx et _ _ _ _ => et.isInt
  | .vsraVx et _ _ _ _ => et.isInt
  | .vdivVx _ _ _ _ _ => true
  | .vcmpeqVx _ kd _ _ _ => kd != 0
  | .vcmpltVx _ kd _ _ _ => kd != 0
  | .vcmpleVx _ kd _ _ _ => kd != 0
  | .vselVx _ _ _ _ _ => true
  | .vmulhVx et _ _ _ _ => et.isInt
  | .vcmpltuVx et kd _ _ _ => et.isInt && kd != 0
  | .vminuVx et _ _ _ _ => et.isInt
  | .vmaxuVx et _ _ _ _ => et.isInt
  | .vext _ _ _ _ => true
  | .vld _ _ _ _ => true
  | .vst _ _ _ _ => true
  | .vlds _ _ _ _ _ => true
  | .vsts _ _ _ _ _ => true
  | .vgath _ _ _ _ _ => true
  | .vscat _ _ _ _ _ => true
  | .vldb _ _ _ _ => true
  | .vldk kd _ => kd != 0
  | .vstk _ _ => true
  | .vpermb _ _ _ _ => true
  | .vbcst _ _ _ _ => true
  | .viota et _ _ => et.isInt
  | .vcompr _ _ _ _ => true
  | .vexpnd _ _ _ _ => true
  | .vslide _ _ _ _ _ => true
  | .vins _ _ _ _ => true
  | .vzip _ _ _ _ _ => true
  | .vunzip _ _ _ _ _ => true
  | .vrsum _ _ _ _ => true
  | .vrmax _ _ _ _ => true
  | .vrmin _ _ _ _ => true
  | .vrowst et _ _ => et.isSfu
  | .vrarg _ _ _ _ => true
  | .vrpopc _ _ _ _ => true
  | .vsfn _ et _ _ _ => et.isSfu
  | .vgact _ et _ _ _ _ => et.isSfu
  | .vstbl t _ => decide (t.toNat ≤ 2)
  | .vcvt _ _ _ _ _ => true
  | .vdec et _ _ q _ => et.isSfu && decide (q.toNat ≤ (if et == .f32 then 3 else 1))
  | .venc et _ _ q _ => et.isSfu && decide (q.toNat ≤ (if et == .f32 then 3 else 1))
  | .vnib _ _ m _ => decide (m.toNat ≤ 3)
  | .vrng et _ _ _ => et.isRng
  | .vscl et _ _ _ _ => !et.isInt
  | .vpack et _ _ _ _ => et.isPack
  | .tmset _ _ => true
  | .mgang _ _ _ _ _ => true
  | .mzero _ _ => true
  | .msta _ _ _ => true
  | .mlda _ _ _ => true
  | .msplit _ _ _ => true
  | .dtld _ _ _ => true
  | .jwait _ _ => true
  | .jpoll _ _ => true
  | .cpy _ _ _ => true
  | .cpyr _ _ _ => true
  | .jcan _ _ => true
  | .flu _ _ _ _ => true
  | .fchol _ _ _ _ => true
  | .fqr _ _ _ _ _ => true
  | .ftrs _ _ _ _ _ => true
  | .prapl _ _ _ _ => true
  | .prmov _ _ _ => true
  | .ridl _ _ _ => true
  | .draw _ _ _ => true
  | .spark _ _ _ => true
  | .sres _ _ _ => true
  | .cmnew _ _ _ => true
  | .cmjoin _ _ _ => true
  | .cmwait _ _ => true
  | .cmbn _ _ _ => true
  | .cmadv _ _ _ => true
  | .cmsetMember _ _ _ => true
  | .cmsetExpr _ _ _ => true
  | .cmsetQuorum _ _ _ => true
  | .cmsetOpen _ _ _ => true
  | .cmend _ _ => true
  | .stnew _ => true
  | .splice _ _ _ => true
  | .spin _ _ => true
  | .sunpin _ _ => true
  | .sidx _ _ _ => true
  | .sfork _ _ => true
  | .sdrop _ _ => true
  | .tlbi _ _ _ => true
  | .tlbis _ _ _ => true
  | .tlbia _ _ _ => true
  | .sidw _ _ _ => true
  | .atrn _ _ _ => true
  | .rvbeg _ _ _ => true
  | .rvend _ _ _ => true
  | .rvqry _ _ _ => true
  | .wrel _ _ => true
  | .wacq _ _ => true
  | .lstat _ _ => true
  | .hvcall _ _ => true
  | .slotwEntry _ _ _ => true
  | .slotwPeriod _ _ _ => true
  | .slotwLen _ _ _ => true
  | .vdsw _ _ => true
  | .mext _ _ _ => true
  | .attest _ _ _ => true
  | .vdkey _ _ _ => true
  | .wnew _ _ _ => true
  | .wgrant _ _ _ => true
  | .wrevoke _ _ _ => true
  | .quench _ _ _ => true
  | .fmove _ _ _ => true
  | .eret => true
  | .wfi => true
  | .addiC rd _ => rd != 0
  | .ldiC rd _ => rd != 0
  | .slliC rd _ => rd != 0
  | .srliC rd _ => rd != 0
  | .sraiC rd _ => rd != 0
  | .andiC rd _ => rd != 0
  | .mvC rd _ => rd != 0
  | .addC rd _ => rd != 0
  | .subC rd _ => rd != 0
  | .andC rd _ => rd != 0
  | .orC rd _ => rd != 0
  | .xorC rd _ => rd != 0
  | .jrC rs => rs != 0
  | .haltC => true
  | .commitC => true
  | .jC _ => true
  | .jalC _ => true
  | .beqzC _ _ => true
  | .bnezC _ _ => true
  | .bltzC _ _ => true
  | .bgezC _ _ => true
  | .lwC _ _ _ => true
  | .ldC _ _ _ => true
  | .swC _ _ _ => true
  | .sdC _ _ _ => true
  | .taskStart _ => true
  | .contextWake _ _ => true
  | .chunkCommit _ _ => true
  | .budgetExpiry _ _ => true
  | .faultNotice _ _ => true
  | .entryDepart _ _ => true
  | .messageArrival _ => true
  | .entryAccepted _ => true
  | .entryRefused _ => true
  | .scopeStrip _ => true
  | .resume _ => true
  | .kill _ => true
  | .stop _ => true
  | .start _ => true
  | .continueSave _ => true
  | .saveRecordWrite _ => true
  | .gangRound _ _ => true
  | .gangTimeout _ _ _ => true
  | .pairWaitTimeout _ => true
  | .partnerLost _ => true
  | .jobEnd _ _ => true
  | .accumulatorJobRun _ => true
  | .decodeTableLoad _ => true
  | .factorisationStep _ => true
  | .permutationApply _ => true
  | .permutationMove _ => true
  | .copySegment _ => true
  | .contextReserveRetry _ => true
  | .ringDeliveryRetry _ => true
  | .ridlRun _ => true
  | .riddleDraw _ _ => true
  | .sfuService _ => true
  | .atomicPerform _ _ => true
  | .stitchRequest _ => true
  | .committeeRequest _ => true
  | .quorumDeadline _ => true
  | .barrierRelease _ _ => true
  | .gspawnEnqueue _ _ => true
  | .blockPlace _ => true
  | .slotBoundary => true
  | .invalidationJob _ _ => true
  | .translationEvict _ _ => true
  | .tamperSensor => true
  | .load _ => true
  | .unload _ => true
  | .clear _ => true
  | .kernelDrained _ => true
  | .powerApplied _ => true
  | .moduleReset _ => true
  | .mstsWrite _ => true
  | .ictlWrite _ _ => true
  | .fdivChange _ => true
  | .governorWindow _ _ => true
  | .rampWindow _ => true
  | .scrub _ _ _ => true
  | .clownWrite _ _ => true
  | .ipendClear _ _ => true
  | .wfiWake _ => true
  | .flitReceive _ _ _ _ => true
  | .ackReceive _ _ => true
  | .nakReceive _ _ => true
  | .ltoExpiry _ => true
  | .trainingComplete _ _ _ => true
  | .trainingAttemptFail _ => true
  | .electricalResetComplete _ => true
  | .linkEnable _ => true
  | .linkDisable _ => true
  | .linkReset _ => true
  | .rsetWrite _ _ => true
  | .routeDrainComplete _ => true
  | .memberLost _ _ _ => true
  | .revolutionReady _ => true
  | .portRequest _ _ _ _ _ => true
  | .portCompletion _ _ _ _ => true
  | .pqcmdResume _ _ => true
  | .pqcmdStop _ _ => true
  | .portStopped _ _ => true
  | .hostAccess _ _ _ => true
  | .networkInbound _ _ _ _ => true
  | .illegalEncoding _ _ => true
  | .fetchFault _ => true
  | .coreFailure _ => true
  | .bankSelfTestFail _ _ => true
  | .measurementCheckFail _ => true
  | .portLinkChange _ _ _ => true
  | .counterNodeWriteBack _ _ _ => true

end Sys2Proof
end

