-- ==== Sys2Proof/Decode.lean ====
section
/-! DEFINITION. Decoding (R56 to R68, R76 to R80) and, after it, the encoder written from the same formats.
The decoder is total: what is no instruction is answered `illegal` with its encoding (R80, R82). -/

set_option Elab.async false

namespace Sys2Proof

noncomputable section

/-- What the bytes at an address are (R56, R80). -/
inductive Decoded where
  /-- An instruction and its length in bytes, 2 or 4. -/
  | instr (i : Instr) (len : Nat)
  /-- A halfword or a word that is no instruction: it traps ILLEGAL (R80). -/
  | illegal (word : BitVec 32) (compact : Bool)
  /-- Fewer bytes than the first halfword says (R58). -/
  | short
  deriving DecidableEq, Repr

/-- The et field (R63); value 7 is no type. -/
def ETy.ofCode (c : BitVec 3) : Option ETy :=
  match c.toNat with
  | 0 => some .i8 | 1 => some .i16 | 2 => some .i32 | 3 => some .i64
  | 4 => some .bf16 | 5 => some .f32 | 6 => some .f64 | _ => none

/-! ### Fields of a 32-bit word (R59, R60) -/

def fMajor (w : BitVec 32) : BitVec 6 := w.extractLsb' 8 6
def fRd (w : BitVec 32) : BitVec 5 := w.extractLsb' 0 5
def fFnl (w : BitVec 32) : BitVec 3 := w.extractLsb' 5 3
def fRs1 (w : BitVec 32) : BitVec 5 := w.extractLsb' 16 5
def fRs2 (w : BitVec 32) : BitVec 5 := w.extractLsb' 21 5
def fFnh (w : BitVec 32) : BitVec 6 := w.extractLsb' 26 6
def fImm11 (w : BitVec 32) : BitVec 11 := w.extractLsb' 21 11
def fImm19 (w : BitVec 32) : BitVec 19 := w.extractLsb' 16 16 ++ w.extractLsb' 5 3
def fVd (w : BitVec 32) : BitVec 4 := w.extractLsb' 4 4
def fLow4 (w : BitVec 32) : BitVec 4 := w.extractLsb' 0 4
def fVs2 (w : BitVec 32) : BitVec 4 := w.extractLsb' 28 4
def fVs1 (w : BitVec 32) : BitVec 4 := w.extractLsb' 24 4
def fVK (w : BitVec 32) : BitVec 3 := w.extractLsb' 21 3
def fVEt (w : BitVec 32) : BitVec 3 := w.extractLsb' 18 3
def fVFnh (w : BitVec 32) : BitVec 2 := w.extractLsb' 16 2
def fXGs (w : BitVec 32) : BitVec 5 := w.extractLsb' 23 5
def fXK (w : BitVec 32) : BitVec 3 := w.extractLsb' 20 3
def fXEt (w : BitVec 32) : BitVec 3 := w.extractLsb' 17 3
def fXFnh (w : BitVec 32) : BitVec 1 := w.extractLsb' 16 1
def fMGs1 (w : BitVec 32) : BitVec 5 := w.extractLsb' 27 5
def fMGs2 (w : BitVec 32) : BitVec 5 := w.extractLsb' 22 5
def fMK (w : BitVec 32) : BitVec 3 := w.extractLsb' 19 3
def fMEt (w : BitVec 32) : BitVec 3 := w.extractLsb' 16 3
def fTTmB (w : BitVec 32) : BitVec 3 := w.extractLsb' 19 3
def fTTmA (w : BitVec 32) : BitVec 3 := w.extractLsb' 16 3

/-- The function code of format R: fnh × 8 + fnl (R59). -/
def fFunc (w : BitVec 32) : Nat := (fFnh w).toNat * 8 + (fFnl w).toNat
/-- The function code of format V: fnh × 16 + fnl (R60). -/
def fVFunc (w : BitVec 32) : Nat := (fVFnh w).toNat * 16 + (fLow4 w).toNat
/-- The function code of format VX (R60). -/
def fXFunc (w : BitVec 32) : Nat := (fXFnh w).toNat * 16 + (fLow4 w).toNat

/-- An instruction only where its operand values are admitted and its unused fields are zero (R64, R80). -/
def accept (unusedZero : Bool) (i : Instr) : Option Instr :=
  if unusedZero && WellFormed i then some i else none

/-- Major 0x01 (R76). -/
def decodeAlu (w : BitVec 32) : Option Instr :=
  match fFunc w with
  | 0 => accept (true) (.add (fRd w) (fRs1 w) (fRs2 w))
  | 1 => accept (true) (.sub (fRd w) (fRs1 w) (fRs2 w))
  | 2 => accept (true) (.and (fRd w) (fRs1 w) (fRs2 w))
  | 3 => accept (true) (.or (fRd w) (fRs1 w) (fRs2 w))
  | 4 => accept (true) (.xor (fRd w) (fRs1 w) (fRs2 w))
  | 5 => accept (true) (.andn (fRd w) (fRs1 w) (fRs2 w))
  | 6 => accept (true) (.orn (fRd w) (fRs1 w) (fRs2 w))
  | 7 => accept (true) (.sll (fRd w) (fRs1 w) (fRs2 w))
  | 8 => accept (true) (.srl (fRd w) (fRs1 w) (fRs2 w))
  | 9 => accept (true) (.sra (fRd w) (fRs1 w) (fRs2 w))
  | 10 => accept (true) (.rol (fRd w) (fRs1 w) (fRs2 w))
  | 11 => accept (true) (.ror (fRd w) (fRs1 w) (fRs2 w))
  | 12 => accept (true) (.slt (fRd w) (fRs1 w) (fRs2 w))
  | 13 => accept (true) (.sltu (fRd w) (fRs1 w) (fRs2 w))
  | 14 => accept (true) (.min (fRd w) (fRs1 w) (fRs2 w))
  | 15 => accept (true) (.max (fRd w) (fRs1 w) (fRs2 w))
  | 16 => accept (true) (.minu (fRd w) (fRs1 w) (fRs2 w))
  | 17 => accept (true) (.maxu (fRd w) (fRs1 w) (fRs2 w))
  | 18 => accept (true) (.mul (fRd w) (fRs1 w) (fRs2 w))
  | 19 => accept (true) (.mulh (fRd w) (fRs1 w) (fRs2 w))
  | 20 => accept (true) (.mulhu (fRd w) (fRs1 w) (fRs2 w))
  | 21 => accept (true) (.div (fRd w) (fRs1 w) (fRs2 w))
  | 22 => accept (true) (.divu (fRd w) (fRs1 w) (fRs2 w))
  | 23 => accept (true) (.rem (fRd w) (fRs1 w) (fRs2 w))
  | 24 => accept (true) (.remu (fRd w) (fRs1 w) (fRs2 w))
  | 25 => accept (true) (.addw (fRd w) (fRs1 w) (fRs2 w))
  | 26 => accept (true) (.subw (fRd w) (fRs1 w) (fRs2 w))
  | 27 => accept (true) (.sllw (fRd w) (fRs1 w) (fRs2 w))
  | 28 => accept (true) (.srlw (fRd w) (fRs1 w) (fRs2 w))
  | 29 => accept (true) (.sraw (fRd w) (fRs1 w) (fRs2 w))
  | 30 => accept (true) (.mulw (fRd w) (fRs1 w) (fRs2 w))
  | 31 => accept (fRs2 w == 0) (.clz (fRd w) (fRs1 w))
  | 32 => accept (fRs2 w == 0) (.ctz (fRd w) (fRs1 w))
  | 33 => accept (fRs2 w == 0) (.popc (fRd w) (fRs1 w))
  | 34 => accept (fRs2 w == 0) (.bswp (fRd w) (fRs1 w))
  | 35 => accept (fRs2 w == 0) (.sextb (fRd w) (fRs1 w))
  | 36 => accept (fRs2 w == 0) (.sexth (fRd w) (fRs1 w))
  | 37 => accept (fRs2 w == 0) (.sextw (fRd w) (fRs1 w))
  | 38 => accept (fRs2 w == 0) (.zextb (fRd w) (fRs1 w))
  | 39 => accept (fRs2 w == 0) (.zexth (fRd w) (fRs1 w))
  | 40 => accept (fRs2 w == 0) (.zextw (fRd w) (fRs1 w))
  | _ => none

/-- Major 0x02 (R76). -/
def decodeAluI (w : BitVec 32) : Option Instr :=
  match (fFnl w).toNat with
  | 0 => accept (true) (.addi (fRd w) (fRs1 w) (fImm11 w))
  | 1 => accept (true) (.andi (fRd w) (fRs1 w) (fImm11 w))
  | 2 => accept (true) (.ori (fRd w) (fRs1 w) (fImm11 w))
  | 3 => accept (true) (.xori (fRd w) (fRs1 w) (fImm11 w))
  | 4 => accept (true) (.slti (fRd w) (fRs1 w) (fImm11 w))
  | 5 => accept (true) (.sltiu (fRd w) (fRs1 w) (fImm11 w))
  | 6 => accept (true) (.addiw (fRd w) (fRs1 w) (fImm11 w))
  | _ => none

/-- Major 0x03 (R76). -/
def decodeShiftI (w : BitVec 32) : Option Instr :=
  match (fFnl w).toNat with
  | 0 => accept ((fImm11 w).extractLsb' 6 5 == 0) (.slli (fRd w) (fRs1 w) ((fImm11 w).extractLsb' 0 6))
  | 1 => accept ((fImm11 w).extractLsb' 6 5 == 0) (.srli (fRd w) (fRs1 w) ((fImm11 w).extractLsb' 0 6))
  | 2 => accept ((fImm11 w).extractLsb' 6 5 == 0) (.srai (fRd w) (fRs1 w) ((fImm11 w).extractLsb' 0 6))
  | 3 => accept ((fImm11 w).extractLsb' 6 5 == 0) (.roli (fRd w) (fRs1 w) ((fImm11 w).extractLsb' 0 6))
  | 4 => accept ((fImm11 w).extractLsb' 5 6 == 0) (.slliw (fRd w) (fRs1 w) ((fImm11 w).extractLsb' 0 5))
  | 5 => accept ((fImm11 w).extractLsb' 5 6 == 0) (.srliw (fRd w) (fRs1 w) ((fImm11 w).extractLsb' 0 5))
  | 6 => accept ((fImm11 w).extractLsb' 5 6 == 0) (.sraiw (fRd w) (fRs1 w) ((fImm11 w).extractLsb' 0 5))
  | _ => none

/-- Major 0x04 (R76). -/
def decodeLih (w : BitVec 32) : Option Instr :=
  accept (true) (.lih (fRd w) (fImm19 w))

/-- Major 0x05 (R76). -/
def decodeAddpc (w : BitVec 32) : Option Instr :=
  accept (true) (.addpc (fRd w) (fImm19 w))

/-- Major 0x06 (R76). -/
def decodeLoad (w : BitVec 32) : Option Instr :=
  match (fFnl w).toNat with
  | 0 => accept (true) (.lb (fRd w) (fRs1 w) (fImm11 w))
  | 1 => accept (true) (.lbu (fRd w) (fRs1 w) (fImm11 w))
  | 2 => accept (true) (.lh (fRd w) (fRs1 w) (fImm11 w))
  | 3 => accept (true) (.lhu (fRd w) (fRs1 w) (fImm11 w))
  | 4 => accept (true) (.lw (fRd w) (fRs1 w) (fImm11 w))
  | 5 => accept (true) (.lwu (fRd w) (fRs1 w) (fImm11 w))
  | 6 => accept (true) (.ld (fRd w) (fRs1 w) (fImm11 w))
  | _ => none

/-- Major 0x07 (R76). -/
def decodeStore (w : BitVec 32) : Option Instr :=
  match (fFnl w).toNat with
  | 0 => accept (true) (.sb (fRd w) (fRs1 w) (fImm11 w))
  | 1 => accept (true) (.sh (fRd w) (fRs1 w) (fImm11 w))
  | 2 => accept (true) (.sw (fRd w) (fRs1 w) (fImm11 w))
  | 3 => accept (true) (.sd (fRd w) (fRs1 w) (fImm11 w))
  | _ => none

/-- Major 0x08 (R76). -/
def decodeBranch (w : BitVec 32) : Option Instr :=
  match (fFnl w).toNat with
  | 0 => accept (true) (.beq (fRs1 w) (fRd w) (fImm11 w))
  | 1 => accept (true) (.bne (fRs1 w) (fRd w) (fImm11 w))
  | 2 => accept (true) (.blt (fRs1 w) (fRd w) (fImm11 w))
  | 3 => accept (true) (.bge (fRs1 w) (fRd w) (fImm11 w))
  | 4 => accept (true) (.bltu (fRs1 w) (fRd w) (fImm11 w))
  | 5 => accept (true) (.bgeu (fRs1 w) (fRd w) (fImm11 w))
  | _ => none

/-- Major 0x09 (R76). -/
def decodeJal (w : BitVec 32) : Option Instr :=
  accept (true) (.jal (fRd w) (fImm19 w))

/-- Major 0x0A (R76). -/
def decodeJalr (w : BitVec 32) : Option Instr :=
  match (fFnl w).toNat with
  | 0 => accept (true) (.jalr (fRd w) (fRs1 w) (fImm11 w))
  | _ => none

/-- Major 0x0B (R76). -/
def decodeFp (w : BitVec 32) : Option Instr :=
  match fFunc w with
  | 0 => accept (true) (.faddS (fRd w) (fRs1 w) (fRs2 w))
  | 1 => accept (true) (.fsubS (fRd w) (fRs1 w) (fRs2 w))
  | 2 => accept (true) (.fmulS (fRd w) (fRs1 w) (fRs2 w))
  | 3 => accept (true) (.fdivS (fRd w) (fRs1 w) (fRs2 w))
  | 4 => accept (fRs2 w == 0) (.fsqrtS (fRd w) (fRs1 w))
  | 5 => accept (true) (.fmaS (fRd w) (fRs1 w) (fRs2 w))
  | 6 => accept (true) (.fminS (fRd w) (fRs1 w) (fRs2 w))
  | 7 => accept (true) (.fmaxS (fRd w) (fRs1 w) (fRs2 w))
  | 8 => accept (true) (.feqS (fRd w) (fRs1 w) (fRs2 w))
  | 9 => accept (true) (.fltS (fRd w) (fRs1 w) (fRs2 w))
  | 10 => accept (true) (.fleS (fRd w) (fRs1 w) (fRs2 w))
  | 11 => accept (fRs2 w == 0) (.fclassS (fRd w) (fRs1 w))
  | 12 => accept (fRs2 w == 0) (.fnegS (fRd w) (fRs1 w))
  | 13 => accept (fRs2 w == 0) (.fabsS (fRd w) (fRs1 w))
  | 14 => accept (fRs2 w == 0) (.fcvtifS (fRd w) (fRs1 w))
  | 15 => accept (fRs2 w == 0) (.fcvtfiS (fRd w) (fRs1 w))
  | 16 => accept (fRs2 w == 0) (.fcvtfirS (fRd w) (fRs1 w))
  | 17 => accept (fRs2 w == 0) (.fcvtbfS (fRd w) (fRs1 w))
  | 18 => accept (fRs2 w == 0) (.fcvtfbS (fRd w) (fRs1 w))
  | 19 => accept (fRs2 w == 0) (.fcvtpdS (fRd w) (fRs1 w))
  | 256 => accept (true) (.faddD (fRd w) (fRs1 w) (fRs2 w))
  | 257 => accept (true) (.fsubD (fRd w) (fRs1 w) (fRs2 w))
  | 258 => accept (true) (.fmulD (fRd w) (fRs1 w) (fRs2 w))
  | 259 => accept (true) (.fdivD (fRd w) (fRs1 w) (fRs2 w))
  | 260 => accept (fRs2 w == 0) (.fsqrtD (fRd w) (fRs1 w))
  | 261 => accept (true) (.fmaD (fRd w) (fRs1 w) (fRs2 w))
  | 262 => accept (true) (.fminD (fRd w) (fRs1 w) (fRs2 w))
  | 263 => accept (true) (.fmaxD (fRd w) (fRs1 w) (fRs2 w))
  | 264 => accept (true) (.feqD (fRd w) (fRs1 w) (fRs2 w))
  | 265 => accept (true) (.fltD (fRd w) (fRs1 w) (fRs2 w))
  | 266 => accept (true) (.fleD (fRd w) (fRs1 w) (fRs2 w))
  | 267 => accept (fRs2 w == 0) (.fclassD (fRd w) (fRs1 w))
  | 268 => accept (fRs2 w == 0) (.fnegD (fRd w) (fRs1 w))
  | 269 => accept (fRs2 w == 0) (.fabsD (fRd w) (fRs1 w))
  | 270 => accept (fRs2 w == 0) (.fcvtifD (fRd w) (fRs1 w))
  | 271 => accept (fRs2 w == 0) (.fcvtfiD (fRd w) (fRs1 w))
  | 272 => accept (fRs2 w == 0) (.fcvtfirD (fRd w) (fRs1 w))
  | 273 => accept (fRs2 w == 0) (.fcvtbfD (fRd w) (fRs1 w))
  | 274 => accept (fRs2 w == 0) (.fcvtfbD (fRd w) (fRs1 w))
  | 275 => accept (fRs2 w == 0) (.fcvtpdD (fRd w) (fRs1 w))
  | _ => none

/-- Major 0x0C (R76). -/
def decodeCtl (w : BitVec 32) : Option Instr :=
  match (fFnl w).toNat with
  | 0 => accept (fRs1 w == 0) (.crr (fRd w) (fImm11 w))
  | 1 => accept (true) (.crw (fRd w) (fImm11 w) (fRs1 w))
  | 2 => accept (true) (.crset (fRd w) (fImm11 w) (fRs1 w))
  | 3 => accept (true) (.crclr (fRd w) (fImm11 w) (fRs1 w))
  | _ => none

/-- Major 0x0D (R76). -/
def decodeTask (w : BitVec 32) : Option Instr :=
  match fFunc w with
  | 0 => accept (fRd w == 0 && fRs1 w == 0 && fRs2 w == 0) (.halt)
  | 1 => accept (fRd w == 0 && fRs2 w == 0) (.haltr (fRs1 w))
  | 2 => accept (fRd w == 0 && fRs1 w == 0 && fRs2 w == 0) (.commit)
  | 3 => accept (fRd w == 0 && fRs1 w == 0 && fRs2 w == 0) (.abort)
  | 4 => accept (fRd w == 0 && fRs2 w == 0) (.trapi (fRs1 w))
  | 5 => accept (fRs1 w == 0 && fRs2 w == 0) (.budgq (fRd w))
  | _ => none

/-- Major 0x0E (R76). -/
def decodeMsg (w : BitVec 32) : Option Instr :=
  match fFunc w with
  | 0 => accept (true) (.send (fRd w) (fRs1 w) (fRs2 w))
  | 1 => accept (true) (.rply (fRd w) (fRs1 w) (fRs2 w))
  | 2 => accept (true) (.sendq (fRd w) (fRs1 w) (fRs2 w))
  | 3 => accept (fRs2 w == 0) (.resend (fRd w) (fRs1 w))
  | 4 => accept (fRs2 w == 0) (.dropr (fRd w) (fRs1 w))
  | _ => none

/-- Major 0x0F (R76). -/
def decodeRing (w : BitVec 32) : Option Instr :=
  match fFunc w with
  | 0 => accept (fRd w == 0 && !(fRs2 w).getLsbD 4) (.hset ((fRs2 w).extractLsb' 0 4) (fRs1 w))
  | 1 => accept (!(fRs2 w).getLsbD 4) (.cwait (fRd w) ((fRs2 w).extractLsb' 0 4) (fRs1 w))
  | 2 => accept (!(fRs2 w).getLsbD 4) (.pwait (fRd w) ((fRs2 w).extractLsb' 0 4) (fRs1 w))
  | 3 => accept (fRd w == 0 && !(fRs2 w).getLsbD 4) (.cadv ((fRs2 w).extractLsb' 0 4) (fRs1 w))
  | 4 => accept (fRd w == 0 && !(fRs2 w).getLsbD 4) (.padv ((fRs2 w).extractLsb' 0 4) (fRs1 w))
  | 5 => accept (fRs1 w == 0 && !(fRs2 w).getLsbD 4) (.hqry (fRd w) ((fRs2 w).extractLsb' 0 4))
  | _ => none

/-- Major 0x10 (R76). -/
def decodeAtom (w : BitVec 32) : Option Instr :=
  match fFunc w with
  | 0 => accept (true) (.aadd (fRd w) (fRs1 w) (fRs2 w))
  | 1 => accept (true) (.aand (fRd w) (fRs1 w) (fRs2 w))
  | 2 => accept (true) (.aor (fRd w) (fRs1 w) (fRs2 w))
  | 3 => accept (true) (.axor (fRd w) (fRs1 w) (fRs2 w))
  | 4 => accept (true) (.amax (fRd w) (fRs1 w) (fRs2 w))
  | 5 => accept (true) (.amin (fRd w) (fRs1 w) (fRs2 w))
  | 6 => accept (true) (.amaxu (fRd w) (fRs1 w) (fRs2 w))
  | 7 => accept (true) (.aminu (fRd w) (fRs1 w) (fRs2 w))
  | 8 => accept (true) (.aswp (fRd w) (fRs1 w) (fRs2 w))
  | 9 => accept (true) (.acas (fRd w) (fRs1 w) (fRs2 w))
  | 10 => accept (true) (.aincw (fRd w) (fRs1 w) (fRs2 w))
  | 11 => accept (true) (.abfa (fRd w) (fRs1 w) (fRs2 w))
  | 12 => accept (true) (.afadd (fRd w) (fRs1 w) (fRs2 w))
  | 13 => accept (true) (.afmax (fRd w) (fRs1 w) (fRs2 w))
  | 14 => accept (true) (.amxr (fRd w) (fRs1 w) (fRs2 w))
  | _ => none

/-- Major 0x11 (R76). -/
def decodeScope (w : BitVec 32) : Option Instr :=
  match fFunc w with
  | 0 => accept (fRd w == 0 && fRs2 w == 0) (.rels (fRs1 w))
  | 1 => accept (fRd w == 0 && fRs1 w == 0 && fRs2 w == 0) (.acqs)
  | 2 => accept (fRd w == 0 && fRs1 w == 0 && fRs2 w == 0) (.fence)
  | _ => none

/-- Major 0x12 (R76). -/
def decodeGroup (w : BitVec 32) : Option Instr :=
  match fFunc w with
  | 0 => accept (fRs2 w == 0) (.gid (fRd w) (fRs1 w))
  | 1 => accept (true) (.gspawn (fRd w) (fRs1 w) (fRs2 w))
  | 2 => accept (fRd w == 0 && fRs2 w == 0) (.gdone (fRs1 w))
  | _ => none

/-- Major 0x13 (R76). -/
def decodeBar (w : BitVec 32) : Option Instr :=
  match fFunc w with
  | 0 => accept (fRs2 w == 0) (.barrAnd (fRd w) (fRs1 w))
  | 1 => accept (fRs2 w == 0) (.barrOr (fRd w) (fRs1 w))
  | 2 => accept (fRs2 w == 0) (.barrSum (fRd w) (fRs1 w))
  | 3 => accept (fRs2 w == 0) (.barrPopc (fRd w) (fRs1 w))
  | 4 => accept (fRs2 w == 0) (.bargAnd (fRd w) (fRs1 w))
  | 5 => accept (fRs2 w == 0) (.bargOr (fRd w) (fRs1 w))
  | 6 => accept (fRs2 w == 0) (.bargSum (fRd w) (fRs1 w))
  | 7 => accept (fRs2 w == 0) (.bargPopc (fRd w) (fRs1 w))
  | _ => none

/-- Major 0x14 (R76). -/
def decodeVArith (w : BitVec 32) : Option Instr :=
  match fVFunc w with
  | 0 => (ETy.ofCode (fVEt w)).bind fun et => accept (true) (.vadd et (fVd w) (fVs2 w) (fVs1 w) (fVK w))
  | 1 => (ETy.ofCode (fVEt w)).bind fun et => accept (true) (.vsub et (fVd w) (fVs2 w) (fVs1 w) (fVK w))
  | 2 => (ETy.ofCode (fVEt w)).bind fun et => accept (true) (.vmul et (fVd w) (fVs2 w) (fVs1 w) (fVK w))
  | 3 => (ETy.ofCode (fVEt w)).bind fun et => accept (true) (.vfma et (fVd w) (fVs2 w) (fVs1 w) (fVK w))
  | 4 => (ETy.ofCode (fVEt w)).bind fun et => accept (true) (.vmin et (fVd w) (fVs2 w) (fVs1 w) (fVK w))
  | 5 => (ETy.ofCode (fVEt w)).bind fun et => accept (true) (.vmax et (fVd w) (fVs2 w) (fVs1 w) (fVK w))
  | 6 => (ETy.ofCode (fVEt w)).bind fun et => accept (true) (.vand et (fVd w) (fVs2 w) (fVs1 w) (fVK w))
  | 7 => (ETy.ofCode (fVEt w)).bind fun et => accept (true) (.vor et (fVd w) (fVs2 w) (fVs1 w) (fVK w))
  | 8 => (ETy.ofCode (fVEt w)).bind fun et => accept (true) (.vxor et (fVd w) (fVs2 w) (fVs1 w) (fVK w))
  | 9 => (ETy.ofCode (fVEt w)).bind fun et => accept (true) (.vshl et (fVd w) (fVs2 w) (fVs1 w) (fVK w))
  | 10 => (ETy.ofCode (fVEt w)).bind fun et => accept (true) (.vshr et (fVd w) (fVs2 w) (fVs1 w) (fVK w))
  | 11 => (ETy.ofCode (fVEt w)).bind fun et => accept (true) (.vsra et (fVd w) (fVs2 w) (fVs1 w) (fVK w))
  | 12 => (ETy.ofCode (fVEt w)).bind fun et => accept (true) (.vdiv et (fVd w) (fVs2 w) (fVs1 w) (fVK w))
  | 13 => (ETy.ofCode (fVEt w)).bind fun et => accept (fVs1 w == 0) (.vabs et (fVd w) (fVs2 w) (fVK w))
  | 14 => (ETy.ofCode (fVEt w)).bind fun et => accept (fVs1 w == 0) (.vneg et (fVd w) (fVs2 w) (fVK w))
  | 15 => (ETy.ofCode (fVEt w)).bind fun et => accept (!(fVd w).getLsbD 3) (.vcmpeq et ((fVd w).extractLsb' 0 3) (fVs2 w) (fVs1 w) (fVK w))
  | 16 => (ETy.ofCode (fVEt w)).bind fun et => accept (!(fVd w).getLsbD 3) (.vcmplt et ((fVd w).extractLsb' 0 3) (fVs2 w) (fVs1 w) (fVK w))
  | 17 => (ETy.ofCode (fVEt w)).bind fun et => accept (!(fVd w).getLsbD 3) (.vcmple et ((fVd w).extractLsb' 0 3) (fVs2 w) (fVs1 w) (fVK w))
  | 18 => (ETy.ofCode (fVEt w)).bind fun et => accept (true) (.vsel et (fVd w) (fVs2 w) (fVs1 w) (fVK w))
  | 19 => (ETy.ofCode (fVEt w)).bind fun et => accept (true) (.vmulh et (fVd w) (fVs2 w) (fVs1 w) (fVK w))
  | 20 => (ETy.ofCode (fVEt w)).bind fun et => accept (!(fVd w).getLsbD 3) (.vcmpltu et ((fVd w).extractLsb' 0 3) (fVs2 w) (fVs1 w) (fVK w))
  | 21 => (ETy.ofCode (fVEt w)).bind fun et => accept (true) (.vminu et (fVd w) (fVs2 w) (fVs1 w) (fVK w))
  | 22 => (ETy.ofCode (fVEt w)).bind fun et => accept (true) (.vmaxu et (fVd w) (fVs2 w) (fVs1 w) (fVK w))
  | _ => none

/-- Major 0x15 (R76). -/
def decodeVArithX (w : BitVec 32) : Option Instr :=
  match fXFunc w with
  | 0 => (ETy.ofCode (fXEt w)).bind fun et => accept (true) (.vaddVx et (fVd w) (fVs2 w) (fXGs w) (fXK w))
  | 1 => (ETy.ofCode (fXEt w)).bind fun et => accept (true) (.vsubVx et (fVd w) (fVs2 w) (fXGs w) (fXK w))
  | 2 => (ETy.ofCode (fXEt w)).bind fun et => accept (true) (.vmulVx et (fVd w) (fVs2 w) (fXGs w) (fXK w))
  | 3 => (ETy.ofCode (fXEt w)).bind fun et => accept (true) (.vfmaVx et (fVd w) (fVs2 w) (fXGs w) (fXK w))
  | 4 => (ETy.ofCode (fXEt w)).bind fun et => accept (true) (.vminVx et (fVd w) (fVs2 w) (fXGs w) (fXK w))
  | 5 => (ETy.ofCode (fXEt w)).bind fun et => accept (true) (.vmaxVx et (fVd w) (fVs2 w) (fXGs w) (fXK w))
  | 6 => (ETy.ofCode (fXEt w)).bind fun et => accept (true) (.vandVx et (fVd w) (fVs2 w) (fXGs w) (fXK w))
  | 7 => (ETy.ofCode (fXEt w)).bind fun et => accept (true) (.vorVx et (fVd w) (fVs2 w) (fXGs w) (fXK w))
  | 8 => (ETy.ofCode (fXEt w)).bind fun et => accept (true) (.vxorVx et (fVd w) (fVs2 w) (fXGs w) (fXK w))
  | 9 => (ETy.ofCode (fXEt w)).bind fun et => accept (true) (.vshlVx et (fVd w) (fVs2 w) (fXGs w) (fXK w))
  | 10 => (ETy.ofCode (fXEt w)).bind fun et => accept (true) (.vshrVx et (fVd w) (fVs2 w) (fXGs w) (fXK w))
  | 11 => (ETy.ofCode (fXEt w)).bind fun et => accept (true) (.vsraVx et (fVd w) (fVs2 w) (fXGs w) (fXK w))
  | 12 => (ETy.ofCode (fXEt w)).bind fun et => accept (true) (.vdivVx et (fVd w) (fVs2 w) (fXGs w) (fXK w))
  | 15 => (ETy.ofCode (fXEt w)).bind fun et => accept (!(fVd w).getLsbD 3) (.vcmpeqVx et ((fVd w).extractLsb' 0 3) (fVs2 w) (fXGs w) (fXK w))
  | 16 => (ETy.ofCode (fXEt w)).bind fun et => accept (!(fVd w).getLsbD 3) (.vcmpltVx et ((fVd w).extractLsb' 0 3) (fVs2 w) (fXGs w) (fXK w))
  | 17 => (ETy.ofCode (fXEt w)).bind fun et => accept (!(fVd w).getLsbD 3) (.vcmpleVx et ((fVd w).extractLsb' 0 3) (fVs2 w) (fXGs w) (fXK w))
  | 18 => (ETy.ofCode (fXEt w)).bind fun et => accept (true) (.vselVx et (fVd w) (fVs2 w) (fXGs w) (fXK w))
  | 19 => (ETy.ofCode (fXEt w)).bind fun et => accept (true) (.vmulhVx et (fVd w) (fVs2 w) (fXGs w) (fXK w))
  | 20 => (ETy.ofCode (fXEt w)).bind fun et => accept (!(fVd w).getLsbD 3) (.vcmpltuVx et ((fVd w).extractLsb' 0 3) (fVs2 w) (fXGs w) (fXK w))
  | 21 => (ETy.ofCode (fXEt w)).bind fun et => accept (true) (.vminuVx et (fVd w) (fVs2 w) (fXGs w) (fXK w))
  | 22 => (ETy.ofCode (fXEt w)).bind fun et => accept (true) (.vmaxuVx et (fVd w) (fVs2 w) (fXGs w) (fXK w))
  | 31 => (ETy.ofCode (fXEt w)).bind fun et => accept (fVd w == 0) (.vext et (fXGs w) (fVs2 w) (fXK w))
  | _ => none

/-- Major 0x16 (R76). -/
def decodeVMem (w : BitVec 32) : Option Instr :=
  match (fLow4 w).toNat with
  | 0 => (ETy.ofCode (fMEt w)).bind fun et => accept (fMGs2 w == 0) (.vld et (fVd w) (fMGs1 w) (fMK w))
  | 1 => (ETy.ofCode (fMEt w)).bind fun et => accept (fMGs2 w == 0) (.vst et (fVd w) (fMGs1 w) (fMK w))
  | 2 => (ETy.ofCode (fMEt w)).bind fun et => accept (true) (.vlds et (fVd w) (fMGs1 w) (fMGs2 w) (fMK w))
  | 3 => (ETy.ofCode (fMEt w)).bind fun et => accept (true) (.vsts et (fVd w) (fMGs1 w) (fMGs2 w) (fMK w))
  | 4 => (ETy.ofCode (fMEt w)).bind fun et => accept (!(fMGs2 w).getLsbD 4) (.vgath et (fVd w) (fMGs1 w) ((fMGs2 w).extractLsb' 0 4) (fMK w))
  | 5 => (ETy.ofCode (fMEt w)).bind fun et => accept (!(fMGs2 w).getLsbD 4) (.vscat et (fVd w) (fMGs1 w) ((fMGs2 w).extractLsb' 0 4) (fMK w))
  | 6 => (ETy.ofCode (fMEt w)).bind fun et => accept (fMGs2 w == 0) (.vldb et (fVd w) (fMGs1 w) (fMK w))
  | 7 => accept (fMGs2 w == 0 && fMK w == 0 && !(fVd w).getLsbD 3 && fMEt w == 0) (.vldk ((fVd w).extractLsb' 0 3) (fMGs1 w))
  | 8 => accept (fMGs2 w == 0 && fMK w == 0 && !(fVd w).getLsbD 3 && fMEt w == 0) (.vstk ((fVd w).extractLsb' 0 3) (fMGs1 w))
  | _ => none

/-- Major 0x17 (R76). -/
def decodeVPerm (w : BitVec 32) : Option Instr :=
  match fVFunc w with
  | 0 => accept (fVEt w == 0) (.vpermb (fVd w) (fVs2 w) (fVs1 w) (fVK w))
  | 1 => (ETy.ofCode (fVEt w)).bind fun et => accept (fVs1 w == 0) (.vbcst et (fVd w) (fVs2 w) (fVK w))
  | 2 => (ETy.ofCode (fVEt w)).bind fun et => accept (fVs2 w == 0 && fVs1 w == 0) (.viota et (fVd w) (fVK w))
  | 3 => (ETy.ofCode (fVEt w)).bind fun et => accept (fVs1 w == 0) (.vcompr et (fVd w) (fVs2 w) (fVK w))
  | 4 => (ETy.ofCode (fVEt w)).bind fun et => accept (fVs1 w == 0) (.vexpnd et (fVd w) (fVs2 w) (fVK w))
  | 5 => (ETy.ofCode (fVEt w)).bind fun et => accept (true) (.vslide et (fVd w) (fVs2 w) (fVs1 w) (fVK w))
  | 6 => (ETy.ofCode (fVEt w)).bind fun et => accept (fVK w == 0) (.vins et (fVd w) (fVs2 w) (fVs1 w))
  | 7 => (ETy.ofCode (fVEt w)).bind fun et => accept (true) (.vzip et (fVd w) (fVs2 w) (fVs1 w) (fVK w))
  | 8 => (ETy.ofCode (fVEt w)).bind fun et => accept (true) (.vunzip et (fVd w) (fVs2 w) (fVs1 w) (fVK w))
  | _ => none

/-- Major 0x18 (R76). -/
def decodeVRed (w : BitVec 32) : Option Instr :=
  match fVFunc w with
  | 0 => (ETy.ofCode (fVEt w)).bind fun et => accept (fVs1 w == 0) (.vrsum et (fVd w) (fVs2 w) (fVK w))
  | 1 => (ETy.ofCode (fVEt w)).bind fun et => accept (fVs1 w == 0) (.vrmax et (fVd w) (fVs2 w) (fVK w))
  | 2 => (ETy.ofCode (fVEt w)).bind fun et => accept (fVs1 w == 0) (.vrmin et (fVd w) (fVs2 w) (fVK w))
  | 3 => (ETy.ofCode (fVEt w)).bind fun et => accept (fVs1 w == 0 && fVK w == 0) (.vrowst et (fVd w) (fVs2 w))
  | 4 => (ETy.ofCode (fVEt w)).bind fun et => accept (fVs1 w == 0) (.vrarg et (fVd w) (fVs2 w) (fVK w))
  | 5 => (ETy.ofCode (fVEt w)).bind fun et => accept (fVs1 w == 0) (.vrpopc et (fVd w) (fVs2 w) (fVK w))
  | _ => none

/-- Major 0x19 (R76). -/
def decodeVSfu (w : BitVec 32) : Option Instr :=
  match (fVFnh w).toNat with
  | 0 => (ETy.ofCode (fVEt w)).bind fun et => accept (fVs1 w == 0) (.vsfn (fLow4 w) et (fVd w) (fVs2 w) (fVK w))
  | 1 => (ETy.ofCode (fVEt w)).bind fun et => accept (true) (.vgact (fLow4 w) et (fVd w) (fVs2 w) (fVs1 w) (fVK w))
  | 2 => if fLow4 w == 0 then accept (fVs1 w == 0 && fVK w == 0 && fVEt w == 0) (.vstbl (fVd w) (fVs2 w)) else none
  | _ => none

/-- Major 0x1A (R76). -/
def decodeVCvt (w : BitVec 32) : Option Instr :=
  match fVFunc w with
  | 0 => (ETy.ofCode (fVEt w)).bind fun et => (ETy.ofCode ((fVs1 w).extractLsb' 0 3)).bind fun dt => accept (!(fVs1 w).getLsbD 3) (.vcvt et (fVd w) (fVs2 w) dt (fVK w))
  | 1 => (ETy.ofCode (fVEt w)).bind fun et => accept (true) (.vdec et (fVd w) (fVs2 w) (fVs1 w) (fVK w))
  | 2 => (ETy.ofCode (fVEt w)).bind fun et => accept (true) (.venc et (fVd w) (fVs2 w) (fVs1 w) (fVK w))
  | 3 => accept (fVEt w == 0) (.vnib (fVd w) (fVs2 w) (fVs1 w) (fVK w))
  | 4 => (ETy.ofCode (fVEt w)).bind fun et => accept (fVs1 w == 0) (.vrng et (fVd w) (fVs2 w) (fVK w))
  | 5 => (ETy.ofCode (fVEt w)).bind fun et => accept (true) (.vscl et (fVd w) (fVs2 w) (fVs1 w) (fVK w))
  | 6 => (ETy.ofCode (fVEt w)).bind fun et => accept (true) (.vpack et (fVd w) (fVs2 w) (fVs1 w) (fVK w))
  | _ => none

/-- Major 0x1B (R76). -/
def decodeTile (w : BitVec 32) : Option Instr :=
  match (fFnl w).toNat with
  | 0 => accept (fRd w == 0 && fMGs1 w == 0 && fTTmB w == 0) (.tmset (fTTmA w) (fMGs2 w))
  | 1 => accept (true) (.mgang (fRd w) (fTTmA w) (fTTmB w) (fMGs2 w) (fMGs1 w))
  | 2 => accept (fMGs1 w == 0 && fTTmA w == 0 && fTTmB w == 0) (.mzero (fRd w) (fMGs2 w))
  | 3 => accept (fMGs1 w == 0 && fTTmB w == 0) (.msta (fRd w) (fTTmA w) (fMGs2 w))
  | 4 => accept (fMGs1 w == 0 && fTTmB w == 0) (.mlda (fRd w) (fTTmA w) (fMGs2 w))
  | 5 => accept (fTTmA w == 0 && fTTmB w == 0) (.msplit (fRd w) (fMGs2 w) (fMGs1 w))
  | 6 => accept (fTTmA w == 0 && fTTmB w == 0) (.dtld (fRd w) (fMGs2 w) (fMGs1 w))
  | _ => none

/-- Major 0x1C (R76). -/
def decodeJob (w : BitVec 32) : Option Instr :=
  match (fFnl w).toNat with
  | 0 => accept (fMGs1 w == 0 && fTTmA w == 0 && fTTmB w == 0) (.jwait (fRd w) (fMGs2 w))
  | 1 => accept (fMGs1 w == 0 && fTTmA w == 0 && fTTmB w == 0) (.jpoll (fRd w) (fMGs2 w))
  | 2 => accept (fTTmA w == 0 && fTTmB w == 0) (.cpy (fRd w) (fMGs2 w) (fMGs1 w))
  | 3 => accept (fTTmA w == 0 && fTTmB w == 0) (.cpyr (fRd w) (fMGs2 w) (fMGs1 w))
  | 4 => accept (fMGs1 w == 0 && fTTmA w == 0 && fTTmB w == 0) (.jcan (fRd w) (fMGs2 w))
  | _ => none

/-- Major 0x1D (R76). -/
def decodeFact (w : BitVec 32) : Option Instr :=
  match (fFnl w).toNat with
  | 0 => accept (fTTmB w == 0) (.flu (fRd w) (fTTmA w) (fMGs2 w) (fMGs1 w))
  | 1 => accept (fTTmB w == 0) (.fchol (fRd w) (fTTmA w) (fMGs2 w) (fMGs1 w))
  | 2 => accept (true) (.fqr (fRd w) (fTTmA w) (fTTmB w) (fMGs2 w) (fMGs1 w))
  | 3 => accept (true) (.ftrs (fRd w) (fTTmA w) (fTTmB w) (fMGs2 w) (fMGs1 w))
  | 4 => accept (fTTmB w == 0) (.prapl (fRd w) (fTTmA w) (fMGs2 w) (fMGs1 w))
  | 5 => accept (fTTmA w == 0 && fTTmB w == 0) (.prmov (fRd w) (fMGs2 w) (fMGs1 w))
  | _ => none

/-- Major 0x1E (R76). -/
def decodeSeq (w : BitVec 32) : Option Instr :=
  match (fFnl w).toNat with
  | 0 => accept (fTTmA w == 0 && fTTmB w == 0) (.ridl (fRd w) (fMGs2 w) (fMGs1 w))
  | 1 => accept (fTTmA w == 0 && fTTmB w == 0) (.draw (fRd w) (fMGs2 w) (fMGs1 w))
  | 2 => accept (fTTmA w == 0 && fTTmB w == 0) (.spark (fRd w) (fMGs2 w) (fMGs1 w))
  | 3 => accept (fTTmA w == 0 && fTTmB w == 0) (.sres (fRd w) (fMGs2 w) (fMGs1 w))
  | _ => none

/-- Major 0x1F (R76). -/
def decodeComm (w : BitVec 32) : Option Instr :=
  match (fFnl w).toNat with
  | 0 => accept (fTTmA w == 0 && fTTmB w == 0) (.cmnew (fRd w) (fMGs2 w) (fMGs1 w))
  | 1 => accept (fTTmA w == 0 && fTTmB w == 0) (.cmjoin (fRd w) (fMGs2 w) (fMGs1 w))
  | 2 => accept (fMGs1 w == 0 && fTTmA w == 0 && fTTmB w == 0) (.cmwait (fRd w) (fMGs2 w))
  | 3 => accept (fTTmA w == 0 && fTTmB w == 0) (.cmbn (fRd w) (fMGs2 w) (fMGs1 w))
  | 4 => accept (fTTmA w == 0 && fTTmB w == 0) (.cmadv (fRd w) (fMGs2 w) (fMGs1 w))
  | 5 => accept (fTTmA w == 0 && fTTmB w == 0) (.cmsetMember (fRd w) (fMGs2 w) (fMGs1 w))
  | 6 => accept (fMGs1 w == 0 && fTTmA w == 0 && fTTmB w == 0) (.cmend (fRd w) (fMGs2 w))
  | _ => none

/-- Major 0x20 (R76). -/
def decodeStch (w : BitVec 32) : Option Instr :=
  match fFunc w with
  | 0 => accept (fRs1 w == 0 && fRs2 w == 0) (.stnew (fRd w))
  | 1 => accept (true) (.splice (fRd w) (fRs1 w) (fRs2 w))
  | 2 => accept (fRs2 w == 0) (.spin (fRd w) (fRs1 w))
  | 3 => accept (fRs2 w == 0) (.sunpin (fRd w) (fRs1 w))
  | 4 => accept (true) (.sidx (fRd w) (fRs1 w) (fRs2 w))
  | 5 => accept (fRs2 w == 0) (.sfork (fRd w) (fRs1 w))
  | 6 => accept (fRs2 w == 0) (.sdrop (fRd w) (fRs1 w))
  | _ => none

/-- Major 0x21 (R76). -/
def decodeMmu (w : BitVec 32) : Option Instr :=
  match fFunc w with
  | 0 => accept (true) (.tlbi (fRd w) (fRs1 w) (fRs2 w))
  | 1 => accept (true) (.tlbis (fRd w) (fRs1 w) (fRs2 w))
  | 2 => accept (true) (.tlbia (fRd w) (fRs1 w) (fRs2 w))
  | 3 => accept (true) (.sidw (fRd w) (fRs1 w) (fRs2 w))
  | 4 => accept (true) (.atrn (fRd w) (fRs1 w) (fRs2 w))
  | _ => none

/-- Major 0x22 (R76). -/
def decodeLink (w : BitVec 32) : Option Instr :=
  match fFunc w with
  | 0 => accept (true) (.rvbeg (fRd w) (fRs1 w) (fRs2 w))
  | 1 => accept (true) (.rvend (fRd w) (fRs1 w) (fRs2 w))
  | 2 => accept (true) (.rvqry (fRd w) (fRs1 w) (fRs2 w))
  | 3 => accept (fRs2 w == 0) (.wrel (fRd w) (fRs1 w))
  | 4 => accept (fRs2 w == 0) (.wacq (fRd w) (fRs1 w))
  | 5 => accept (fRs2 w == 0) (.lstat (fRd w) (fRs1 w))
  | _ => none

/-- Major 0x23 (R76). -/
def decodeSysp (w : BitVec 32) : Option Instr :=
  match fFunc w with
  | 0 => accept (fRs2 w == 0) (.hvcall (fRd w) (fRs1 w))
  | 1 => accept (true) (.slotwEntry (fRd w) (fRs1 w) (fRs2 w))
  | 2 => accept (fRs2 w == 0) (.vdsw (fRd w) (fRs1 w))
  | 3 => accept (true) (.mext (fRd w) (fRs1 w) (fRs2 w))
  | 4 => accept (fRd w == 0 && fRs1 w == 0 && fRs2 w == 0) (.eret)
  | 5 => accept (fRd w == 0 && fRs1 w == 0 && fRs2 w == 0) (.wfi)
  | _ => none

/-- A 32-bit word whose bits 15:14 are 0b11 (R59): the major selects the format. -/
def decode32 (w : BitVec 32) : Option Instr :=
  match (fMajor w).toNat with
  | 1 => decodeAlu w
  | 2 => decodeAluI w
  | 3 => decodeShiftI w
  | 4 => decodeLih w
  | 5 => decodeAddpc w
  | 6 => decodeLoad w
  | 7 => decodeStore w
  | 8 => decodeBranch w
  | 9 => decodeJal w
  | 10 => decodeJalr w
  | 11 => decodeFp w
  | 12 => decodeCtl w
  | 13 => decodeTask w
  | 14 => decodeMsg w
  | 15 => decodeRing w
  | 16 => decodeAtom w
  | 17 => decodeScope w
  | 18 => decodeGroup w
  | 19 => decodeBar w
  | 20 => decodeVArith w
  | 21 => decodeVArithX w
  | 22 => decodeVMem w
  | 23 => decodeVPerm w
  | 24 => decodeVRed w
  | 25 => decodeVSfu w
  | 26 => decodeVCvt w
  | 27 => decodeTile w
  | 28 => decodeJob w
  | 29 => decodeFact w
  | 30 => decodeSeq w
  | 31 => decodeComm w
  | 32 => decodeStch w
  | 33 => decodeMmu w
  | 34 => decodeLink w
  | 35 => decodeSysp w
  | _ => none

/-- Group 0b00 (R66): op4 13:10, reg 9:5, f 4:0. -/
def decodeC0 (h : BitVec 16) : Option Instr :=
  let reg : GReg := h.extractLsb' 5 5
  let f : BitVec 5 := h.extractLsb' 0 5
  match (h.extractLsb' 10 4).toNat with
  | 1 => accept true (.addiC reg f)
  | 2 => accept true (.ldiC reg f)
  | 3 => accept true (.slliC reg f)
  | 4 => accept true (.srliC reg f)
  | 5 => accept true (.sraiC reg f)
  | 6 => accept true (.andiC reg f)
  | 7 => accept true (.mvC reg f)
  | 8 => accept true (.addC reg f)
  | 9 => accept true (.subC reg f)
  | 10 => accept true (.andC reg f)
  | 11 => accept true (.orC reg f)
  | 12 => accept true (.xorC reg f)
  | 13 => accept (f == 0) (.jrC reg)
  | 14 => accept (reg == 0 && f == 0) .haltC
  | 15 => accept (reg == 0 && f == 0) .commitC
  | _ => none

/-- Group 0b01 (R67): op3 13:11. -/
def decodeC1 (h : BitVec 16) : Option Instr :=
  match (h.extractLsb' 11 3).toNat with
  | 0 => accept true (.jC (h.extractLsb' 0 11))
  | 1 => accept true (.jalC (h.extractLsb' 0 11))
  | 2 => accept true (.beqzC (h.extractLsb' 8 3) (h.extractLsb' 0 8))
  | 3 => accept true (.bnezC (h.extractLsb' 8 3) (h.extractLsb' 0 8))
  | 4 => accept true (.bltzC (h.extractLsb' 8 3) (h.extractLsb' 0 8))
  | 5 => accept true (.bgezC (h.extractLsb' 8 3) (h.extractLsb' 0 8))
  | _ => none

/-- Group 0b10 (R68): op2 13:12, d' 11:9, b' 8:6, off6 5:0. -/
def decodeC2 (h : BitVec 16) : Option Instr :=
  match (h.extractLsb' 12 2).toNat with
  | 0 => accept true (.lwC (h.extractLsb' 9 3) (h.extractLsb' 6 3) (h.extractLsb' 0 6))
  | 1 => accept true (.ldC (h.extractLsb' 9 3) (h.extractLsb' 6 3) (h.extractLsb' 0 6))
  | 2 => accept true (.swC (h.extractLsb' 9 3) (h.extractLsb' 6 3) (h.extractLsb' 0 6))
  | 3 => accept true (.sdC (h.extractLsb' 9 3) (h.extractLsb' 6 3) (h.extractLsb' 0 6))
  | _ => none

/-- A compact form: a halfword whose bits 15:14 are not 0b11 (R56, R65). -/
def decode16 (h : BitVec 16) : Option Instr :=
  match (h.extractLsb' 14 2).toNat with
  | 0 => decodeC0 h
  | 1 => decodeC1 h
  | 2 => decodeC2 h
  | _ => none

/-- Little-endian halfword of two bytes (R7). -/
def halfOf (b0 b1 : Byte) : BitVec 16 := b1 ++ b0

/-- Whether a first halfword begins a 32-bit instruction (R56). -/
def isLong (h : BitVec 16) : Bool := h.extractLsb' 14 2 == 3

/-- Decoding the bytes at an address (R56). -/
def decode : List Byte → Decoded
  | b0 :: b1 :: rest =>
    if isLong (halfOf b0 b1) then
      match rest with
      | b2 :: b3 :: _ =>
        match decode32 (halfOf b2 b3 ++ halfOf b0 b1) with
        | some i => .instr i 4
        | none => .illegal (halfOf b2 b3 ++ halfOf b0 b1) false
      | _ => .short
    else
      match decode16 (halfOf b0 b1) with
      | some i => .instr i 2
      | none => .illegal (0#16 ++ halfOf b0 b1) true
  | _ => .short

/-- Byte n of a number. -/
def byteOf (w n : Nat) : Byte := BitVec.ofNat 8 (w / 2 ^ (8 * n))

/-- The bytes of an instruction whose bits are w, as the hardware stores them: little-endian, the first
halfword lowest (R7, R56), with the bits from nbits up zero and four bytes in all. -/
def tableBytes (nbits w : Nat) : List Byte :=
  let v := w % 2 ^ nbits
  [byteOf v 0, byteOf v 1, byteOf v 2, byteOf v 3]

/-- The instruction the decoder reads from an instruction whose bits are w, numbered as the opcode table
numbers them. -/
def decodeTableWord (nbits w : Nat) : Option Instr :=
  match decode (tableBytes nbits w) with
  | .instr i _ => some i
  | .illegal _ _ => none
  | .short => none

/-! ### The encoder -/

def encR (major func : Nat) (rs2 rs1 rd : BitVec 5) : BitVec 32 :=
  BitVec.ofNat 6 (func / 8) ++ rs2 ++ rs1 ++ 3#2 ++ BitVec.ofNat 6 major ++ BitVec.ofNat 3 (func % 8) ++ rd
def encI (major fn3 : Nat) (imm : BitVec 11) (rs1 rd : BitVec 5) : BitVec 32 :=
  imm ++ rs1 ++ 3#2 ++ BitVec.ofNat 6 major ++ BitVec.ofNat 3 fn3 ++ rd
def encJ (major : Nat) (imm : BitVec 19) (rd : BitVec 5) : BitVec 32 :=
  imm.extractLsb' 3 16 ++ 3#2 ++ BitVec.ofNat 6 major ++ imm.extractLsb' 0 3 ++ rd
def encV (major func : Nat) (vs2 vs1 : BitVec 4) (k et : BitVec 3) (vd : BitVec 4) : BitVec 32 :=
  vs2 ++ vs1 ++ k ++ et ++ BitVec.ofNat 2 (func / 16) ++ 3#2 ++ BitVec.ofNat 6 major ++ vd ++ BitVec.ofNat 4 (func % 16)
def encVF (fnh : Nat) (vs2 vs1 : BitVec 4) (k et : BitVec 3) (vd fn : BitVec 4) : BitVec 32 :=
  vs2 ++ vs1 ++ k ++ et ++ BitVec.ofNat 2 fnh ++ 3#2 ++ BitVec.ofNat 6 0x19 ++ vd ++ fn
def encVX (major func : Nat) (vs2 : BitVec 4) (gs : BitVec 5) (k et : BitVec 3) (vd : BitVec 4) : BitVec 32 :=
  vs2 ++ gs ++ k ++ et ++ BitVec.ofNat 1 (func / 16) ++ 3#2 ++ BitVec.ofNat 6 major ++ vd ++ BitVec.ofNat 4 (func % 16)
def encVM (fn4 : Nat) (gs1 gs2 : BitVec 5) (k et : BitVec 3) (vd : BitVec 4) : BitVec 32 :=
  gs1 ++ gs2 ++ k ++ et ++ 3#2 ++ BitVec.ofNat 6 0x16 ++ vd ++ BitVec.ofNat 4 fn4
def encT (major fn3 : Nat) (gs2 gs1 : BitVec 5) (tmB tmA : BitVec 3) (rd : BitVec 5) : BitVec 32 :=
  gs2 ++ gs1 ++ tmB ++ tmA ++ 3#2 ++ BitVec.ofNat 6 major ++ BitVec.ofNat 3 fn3 ++ rd
def encC0 (op4 : Nat) (reg f : BitVec 5) : BitVec 16 := 0#2 ++ BitVec.ofNat 4 op4 ++ reg ++ f
def encC1 (op3 : Nat) (off : BitVec 11) : BitVec 16 := 1#2 ++ BitVec.ofNat 3 op3 ++ off
def encC2 (op2 : Nat) (d b : BitVec 3) (off : BitVec 6) : BitVec 16 := 2#2 ++ BitVec.ofNat 2 op2 ++ d ++ b ++ off

/-- The encoding of an instruction (R59 to R68, R76): a 32-bit word or a compact halfword; an event has none. -/
inductive Encoding where
  | long (w : BitVec 32)
  | compact (h : BitVec 16)
  | event
  deriving DecidableEq, Repr

/-- The encoder, written from the formats of R59, R60 and R65 to R68 and the codes of R76. -/
def encode : Instr → Encoding
  | .add rd rs1 rs2 => .long (encR 1 0 rs2 rs1 rd)
  | .sub rd rs1 rs2 => .long (encR 1 1 rs2 rs1 rd)
  | .and rd rs1 rs2 => .long (encR 1 2 rs2 rs1 rd)
  | .or rd rs1 rs2 => .long (encR 1 3 rs2 rs1 rd)
  | .xor rd rs1 rs2 => .long (encR 1 4 rs2 rs1 rd)
  | .andn rd rs1 rs2 => .long (encR 1 5 rs2 rs1 rd)
  | .orn rd rs1 rs2 => .long (encR 1 6 rs2 rs1 rd)
  | .sll rd rs1 rs2 => .long (encR 1 7 rs2 rs1 rd)
  | .srl rd rs1 rs2 => .long (encR 1 8 rs2 rs1 rd)
  | .sra rd rs1 rs2 => .long (encR 1 9 rs2 rs1 rd)
  | .rol rd rs1 rs2 => .long (encR 1 10 rs2 rs1 rd)
  | .ror rd rs1 rs2 => .long (encR 1 11 rs2 rs1 rd)
  | .slt rd rs1 rs2 => .long (encR 1 12 rs2 rs1 rd)
  | .sltu rd rs1 rs2 => .long (encR 1 13 rs2 rs1 rd)
  | .min rd rs1 rs2 => .long (encR 1 14 rs2 rs1 rd)
  | .max rd rs1 rs2 => .long (encR 1 15 rs2 rs1 rd)
  | .minu rd rs1 rs2 => .long (encR 1 16 rs2 rs1 rd)
  | .maxu rd rs1 rs2 => .long (encR 1 17 rs2 rs1 rd)
  | .mul rd rs1 rs2 => .long (encR 1 18 rs2 rs1 rd)
  | .mulh rd rs1 rs2 => .long (encR 1 19 rs2 rs1 rd)
  | .mulhu rd rs1 rs2 => .long (encR 1 20 rs2 rs1 rd)
  | .div rd rs1 rs2 => .long (encR 1 21 rs2 rs1 rd)
  | .divu rd rs1 rs2 => .long (encR 1 22 rs2 rs1 rd)
  | .rem rd rs1 rs2 => .long (encR 1 23 rs2 rs1 rd)
  | .remu rd rs1 rs2 => .long (encR 1 24 rs2 rs1 rd)
  | .addw rd rs1 rs2 => .long (encR 1 25 rs2 rs1 rd)
  | .subw rd rs1 rs2 => .long (encR 1 26 rs2 rs1 rd)
  | .sllw rd rs1 rs2 => .long (encR 1 27 rs2 rs1 rd)
  | .srlw rd rs1 rs2 => .long (encR 1 28 rs2 rs1 rd)
  | .sraw rd rs1 rs2 => .long (encR 1 29 rs2 rs1 rd)
  | .mulw rd rs1 rs2 => .long (encR 1 30 rs2 rs1 rd)
  | .clz rd rs1 => .long (encR 1 31 0 rs1 rd)
  | .ctz rd rs1 => .long (encR 1 32 0 rs1 rd)
  | .popc rd rs1 => .long (encR 1 33 0 rs1 rd)
  | .bswp rd rs1 => .long (encR 1 34 0 rs1 rd)
  | .sextb rd rs1 => .long (encR 1 35 0 rs1 rd)
  | .sexth rd rs1 => .long (encR 1 36 0 rs1 rd)
  | .sextw rd rs1 => .long (encR 1 37 0 rs1 rd)
  | .zextb rd rs1 => .long (encR 1 38 0 rs1 rd)
  | .zexth rd rs1 => .long (encR 1 39 0 rs1 rd)
  | .zextw rd rs1 => .long (encR 1 40 0 rs1 rd)
  | .addi rd rs1 imm => .long (encI 2 0 imm rs1 rd)
  | .andi rd rs1 imm => .long (encI 2 1 imm rs1 rd)
  | .ori rd rs1 imm => .long (encI 2 2 imm rs1 rd)
  | .xori rd rs1 imm => .long (encI 2 3 imm rs1 rd)
  | .slti rd rs1 imm => .long (encI 2 4 imm rs1 rd)
  | .sltiu rd rs1 imm => .long (encI 2 5 imm rs1 rd)
  | .addiw rd rs1 imm => .long (encI 2 6 imm rs1 rd)
  | .slli rd rs1 sh => .long (encI 3 0 (0#5 ++ sh) rs1 rd)
  | .srli rd rs1 sh => .long (encI 3 1 (0#5 ++ sh) rs1 rd)
  | .srai rd rs1 sh => .long (encI 3 2 (0#5 ++ sh) rs1 rd)
  | .roli rd rs1 sh => .long (encI 3 3 (0#5 ++ sh) rs1 rd)
  | .slliw rd rs1 sh => .long (encI 3 4 (0#6 ++ sh) rs1 rd)
  | .srliw rd rs1 sh => .long (encI 3 5 (0#6 ++ sh) rs1 rd)
  | .sraiw rd rs1 sh => .long (encI 3 6 (0#6 ++ sh) rs1 rd)
  | .lih rd imm => .long (encJ 4 imm rd)
  | .addpc rd imm => .long (encJ 5 imm rd)
  | .lb rd rs1 imm => .long (encI 6 0 imm rs1 rd)
  | .lbu rd rs1 imm => .long (encI 6 1 imm rs1 rd)
  | .lh rd rs1 imm => .long (encI 6 2 imm rs1 rd)
  | .lhu rd rs1 imm => .long (encI 6 3 imm rs1 rd)
  | .lw rd rs1 imm => .long (encI 6 4 imm rs1 rd)
  | .lwu rd rs1 imm => .long (encI 6 5 imm rs1 rd)
  | .ld rd rs1 imm => .long (encI 6 6 imm rs1 rd)
  | .sb rs2 rs1 imm => .long (encI 7 0 imm rs1 rs2)
  | .sh rs2 rs1 imm => .long (encI 7 1 imm rs1 rs2)
  | .sw rs2 rs1 imm => .long (encI 7 2 imm rs1 rs2)
  | .sd rs2 rs1 imm => .long (encI 7 3 imm rs1 rs2)
  | .beq rs1 rs2 imm => .long (encI 8 0 imm rs1 rs2)
  | .bne rs1 rs2 imm => .long (encI 8 1 imm rs1 rs2)
  | .blt rs1 rs2 imm => .long (encI 8 2 imm rs1 rs2)
  | .bge rs1 rs2 imm => .long (encI 8 3 imm rs1 rs2)
  | .bltu rs1 rs2 imm => .long (encI 8 4 imm rs1 rs2)
  | .bgeu rs1 rs2 imm => .long (encI 8 5 imm rs1 rs2)
  | .jal rd imm => .long (encJ 9 imm rd)
  | .jalr rd rs1 imm => .long (encI 10 0 imm rs1 rd)
  | .faddS rd rs1 rs2 => .long (encR 11 0 rs2 rs1 rd)
  | .fsubS rd rs1 rs2 => .long (encR 11 1 rs2 rs1 rd)
  | .fmulS rd rs1 rs2 => .long (encR 11 2 rs2 rs1 rd)
  | .fdivS rd rs1 rs2 => .long (encR 11 3 rs2 rs1 rd)
  | .fsqrtS rd rs1 => .long (encR 11 4 0 rs1 rd)
  | .fmaS rd rs1 rs2 => .long (encR 11 5 rs2 rs1 rd)
  | .fminS rd rs1 rs2 => .long (encR 11 6 rs2 rs1 rd)
  | .fmaxS rd rs1 rs2 => .long (encR 11 7 rs2 rs1 rd)
  | .feqS rd rs1 rs2 => .long (encR 11 8 rs2 rs1 rd)
  | .fltS rd rs1 rs2 => .long (encR 11 9 rs2 rs1 rd)
  | .fleS rd rs1 rs2 => .long (encR 11 10 rs2 rs1 rd)
  | .fclassS rd rs1 => .long (encR 11 11 0 rs1 rd)
  | .fnegS rd rs1 => .long (encR 11 12 0 rs1 rd)
  | .fabsS rd rs1 => .long (encR 11 13 0 rs1 rd)
  | .fcvtifS rd rs1 => .long (encR 11 14 0 rs1 rd)
  | .fcvtfiS rd rs1 => .long (encR 11 15 0 rs1 rd)
  | .fcvtfirS rd rs1 => .long (encR 11 16 0 rs1 rd)
  | .fcvtbfS rd rs1 => .long (encR 11 17 0 rs1 rd)
  | .fcvtfbS rd rs1 => .long (encR 11 18 0 rs1 rd)
  | .fcvtpdS rd rs1 => .long (encR 11 19 0 rs1 rd)
  | .faddD rd rs1 rs2 => .long (encR 11 256 rs2 rs1 rd)
  | .fsubD rd rs1 rs2 => .long (encR 11 257 rs2 rs1 rd)
  | .fmulD rd rs1 rs2 => .long (encR 11 258 rs2 rs1 rd)
  | .fdivD rd rs1 rs2 => .long (encR 11 259 rs2 rs1 rd)
  | .fsqrtD rd rs1 => .long (encR 11 260 0 rs1 rd)
  | .fmaD rd rs1 rs2 => .long (encR 11 261 rs2 rs1 rd)
  | .fminD rd rs1 rs2 => .long (encR 11 262 rs2 rs1 rd)
  | .fmaxD rd rs1 rs2 => .long (encR 11 263 rs2 rs1 rd)
  | .feqD rd rs1 rs2 => .long (encR 11 264 rs2 rs1 rd)
  | .fltD rd rs1 rs2 => .long (encR 11 265 rs2 rs1 rd)
  | .fleD rd rs1 rs2 => .long (encR 11 266 rs2 rs1 rd)
  | .fclassD rd rs1 => .long (encR 11 267 0 rs1 rd)
  | .fnegD rd rs1 => .long (encR 11 268 0 rs1 rd)
  | .fabsD rd rs1 => .long (encR 11 269 0 rs1 rd)
  | .fcvtifD rd rs1 => .long (encR 11 270 0 rs1 rd)
  | .fcvtfiD rd rs1 => .long (encR 11 271 0 rs1 rd)
  | .fcvtfirD rd rs1 => .long (encR 11 272 0 rs1 rd)
  | .fcvtbfD rd rs1 => .long (encR 11 273 0 rs1 rd)
  | .fcvtfbD rd rs1 => .long (encR 11 274 0 rs1 rd)
  | .fcvtpdD rd rs1 => .long (encR 11 275 0 rs1 rd)
  | .crr rd cr => .long (encI 12 0 cr 0 rd)
  | .crw rd cr rs1 => .long (encI 12 1 cr rs1 rd)
  | .crset rd cr rs1 => .long (encI 12 2 cr rs1 rd)
  | .crclr rd cr rs1 => .long (encI 12 3 cr rs1 rd)
  | .halt => .long (encR 13 0 0 0 0)
  | .haltr rs1 => .long (encR 13 1 0 rs1 0)
  | .commit => .long (encR 13 2 0 0 0)
  | .abort => .long (encR 13 3 0 0 0)
  | .trapi rs1 => .long (encR 13 4 0 rs1 0)
  | .budgq rd => .long (encR 13 5 0 0 rd)
  | .send rd rs1 rs2 => .long (encR 14 0 rs2 rs1 rd)
  | .rply rd rs1 rs2 => .long (encR 14 1 rs2 rs1 rd)
  | .sendq rd rs1 rs2 => .long (encR 14 2 rs2 rs1 rd)
  | .resend rd rs1 => .long (encR 14 3 0 rs1 rd)
  | .dropr rd rs1 => .long (encR 14 4 0 rs1 rd)
  | .hset h rs1 => .long (encR 15 0 (0#1 ++ h) rs1 0)
  | .cwait rd h rs1 => .long (encR 15 1 (0#1 ++ h) rs1 rd)
  | .pwait rd h rs1 => .long (encR 15 2 (0#1 ++ h) rs1 rd)
  | .cadv h rs1 => .long (encR 15 3 (0#1 ++ h) rs1 0)
  | .padv h rs1 => .long (encR 15 4 (0#1 ++ h) rs1 0)
  | .hqry rd h => .long (encR 15 5 (0#1 ++ h) 0 rd)
  | .aadd rd rs1 rs2 => .long (encR 16 0 rs2 rs1 rd)
  | .aand rd rs1 rs2 => .long (encR 16 1 rs2 rs1 rd)
  | .aor rd rs1 rs2 => .long (encR 16 2 rs2 rs1 rd)
  | .axor rd rs1 rs2 => .long (encR 16 3 rs2 rs1 rd)
  | .amax rd rs1 rs2 => .long (encR 16 4 rs2 rs1 rd)
  | .amin rd rs1 rs2 => .long (encR 16 5 rs2 rs1 rd)
  | .amaxu rd rs1 rs2 => .long (encR 16 6 rs2 rs1 rd)
  | .aminu rd rs1 rs2 => .long (encR 16 7 rs2 rs1 rd)
  | .aswp rd rs1 rs2 => .long (encR 16 8 rs2 rs1 rd)
  | .acas rd rs1 rs2 => .long (encR 16 9 rs2 rs1 rd)
  | .aincw rd rs1 rs2 => .long (encR 16 10 rs2 rs1 rd)
  | .abfa rd rs1 rs2 => .long (encR 16 11 rs2 rs1 rd)
  | .afadd rd rs1 rs2 => .long (encR 16 12 rs2 rs1 rd)
  | .afmax rd rs1 rs2 => .long (encR 16 13 rs2 rs1 rd)
  | .amxr rd rs1 rs2 => .long (encR 16 14 rs2 rs1 rd)
  | .rels rs1 => .long (encR 17 0 0 rs1 0)
  | .acqs => .long (encR 17 1 0 0 0)
  | .fence => .long (encR 17 2 0 0 0)
  | .gid rd rs1 => .long (encR 18 0 0 rs1 rd)
  | .gspawn rd rs1 rs2 => .long (encR 18 1 rs2 rs1 rd)
  | .gdone rs1 => .long (encR 18 2 0 rs1 0)
  | .barrAnd rd rs1 => .long (encR 19 0 0 rs1 rd)
  | .barrOr rd rs1 => .long (encR 19 1 0 rs1 rd)
  | .barrSum rd rs1 => .long (encR 19 2 0 rs1 rd)
  | .barrPopc rd rs1 => .long (encR 19 3 0 rs1 rd)
  | .bargAnd rd rs1 => .long (encR 19 4 0 rs1 rd)
  | .bargOr rd rs1 => .long (encR 19 5 0 rs1 rd)
  | .bargSum rd rs1 => .long (encR 19 6 0 rs1 rd)
  | .bargPopc rd rs1 => .long (encR 19 7 0 rs1 rd)
  | .vadd et vd vs2 vs1 k => .long (encV 20 0 vs2 vs1 k et.code vd)
  | .vsub et vd vs2 vs1 k => .long (encV 20 1 vs2 vs1 k et.code vd)
  | .vmul et vd vs2 vs1 k => .long (encV 20 2 vs2 vs1 k et.code vd)
  | .vfma et vd vs2 vs1 k => .long (encV 20 3 vs2 vs1 k et.code vd)
  | .vmin et vd vs2 vs1 k => .long (encV 20 4 vs2 vs1 k et.code vd)
  | .vmax et vd vs2 vs1 k => .long (encV 20 5 vs2 vs1 k et.code vd)
  | .vand et vd vs2 vs1 k => .long (encV 20 6 vs2 vs1 k et.code vd)
  | .vor et vd vs2 vs1 k => .long (encV 20 7 vs2 vs1 k et.code vd)
  | .vxor et vd vs2 vs1 k => .long (encV 20 8 vs2 vs1 k et.code vd)
  | .vshl et vd vs2 vs1 k => .long (encV 20 9 vs2 vs1 k et.code vd)
  | .vshr et vd vs2 vs1 k => .long (encV 20 10 vs2 vs1 k et.code vd)
  | .vsra et vd vs2 vs1 k => .long (encV 20 11 vs2 vs1 k et.code vd)
  | .vdiv et vd vs2 vs1 k => .long (encV 20 12 vs2 vs1 k et.code vd)
  | .vabs et vd vs2 k => .long (encV 20 13 vs2 0 k et.code vd)
  | .vneg et vd vs2 k => .long (encV 20 14 vs2 0 k et.code vd)
  | .vcmpeq et kd vs2 vs1 k => .long (encV 20 15 vs2 vs1 k et.code (0#1 ++ kd))
  | .vcmplt et kd vs2 vs1 k => .long (encV 20 16 vs2 vs1 k et.code (0#1 ++ kd))
  | .vcmple et kd vs2 vs1 k => .long (encV 20 17 vs2 vs1 k et.code (0#1 ++ kd))
  | .vsel et vd vs2 vs1 k => .long (encV 20 18 vs2 vs1 k et.code vd)
  | .vmulh et vd vs2 vs1 k => .long (encV 20 19 vs2 vs1 k et.code vd)
  | .vcmpltu et kd vs2 vs1 k => .long (encV 20 20 vs2 vs1 k et.code (0#1 ++ kd))
  | .vminu et vd vs2 vs1 k => .long (encV 20 21 vs2 vs1 k et.code vd)
  | .vmaxu et vd vs2 vs1 k => .long (encV 20 22 vs2 vs1 k et.code vd)
  | .vaddVx et vd vs2 gs k => .long (encVX 21 0 vs2 gs k et.code vd)
  | .vsubVx et vd vs2 gs k => .long (encVX 21 1 vs2 gs k et.code vd)
  | .vmulVx et vd vs2 gs k => .long (encVX 21 2 vs2 gs k et.code vd)
  | .vfmaVx et vd vs2 gs k => .long (encVX 21 3 vs2 gs k et.code vd)
  | .vminVx et vd vs2 gs k => .long (encVX 21 4 vs2 gs k et.code vd)
  | .vmaxVx et vd vs2 gs k => .long (encVX 21 5 vs2 gs k et.code vd)
  | .vandVx et vd vs2 gs k => .long (encVX 21 6 vs2 gs k et.code vd)
  | .vorVx et vd vs2 gs k => .long (encVX 21 7 vs2 gs k et.code vd)
  | .vxorVx et vd vs2 gs k => .long (encVX 21 8 vs2 gs k et.code vd)
  | .vshlVx et vd vs2 gs k => .long (encVX 21 9 vs2 gs k et.code vd)
  | .vshrVx et vd vs2 gs k => .long (encVX 21 10 vs2 gs k et.code vd)
  | .vsraVx et vd vs2 gs k => .long (encVX 21 11 vs2 gs k et.code vd)
  | .vdivVx et vd vs2 gs k => .long (encVX 21 12 vs2 gs k et.code vd)
  | .vcmpeqVx et kd vs2 gs k => .long (encVX 21 15 vs2 gs k et.code (0#1 ++ kd))
  | .vcmpltVx et kd vs2 gs k => .long (encVX 21 16 vs2 gs k et.code (0#1 ++ kd))
  | .vcmpleVx et kd vs2 gs k => .long (encVX 21 17 vs2 gs k et.code (0#1 ++ kd))
  | .vselVx et vd vs2 gs k => .long (encVX 21 18 vs2 gs k et.code vd)
  | .vmulhVx et vd vs2 gs k => .long (encVX 21 19 vs2 gs k et.code vd)
  | .vcmpltuVx et kd vs2 gs k => .long (encVX 21 20 vs2 gs k et.code (0#1 ++ kd))
  | .vminuVx et vd vs2 gs k => .long (encVX 21 21 vs2 gs k et.code vd)
  | .vmaxuVx et vd vs2 gs k => .long (encVX 21 22 vs2 gs k et.code vd)
  | .vext et gd vs2 k => .long (encVX 21 31 vs2 gd k et.code 0)
  | .vld et vd gs1 k => .long (encVM 0 gs1 0 k et.code vd)
  | .vst et vd gs1 k => .long (encVM 1 gs1 0 k et.code vd)
  | .vlds et vd gs1 gs2 k => .long (encVM 2 gs1 gs2 k et.code vd)
  | .vsts et vd gs1 gs2 k => .long (encVM 3 gs1 gs2 k et.code vd)
  | .vgath et vd gs1 vi k => .long (encVM 4 gs1 (0#1 ++ vi) k et.code vd)
  | .vscat et vd gs1 vi k => .long (encVM 5 gs1 (0#1 ++ vi) k et.code vd)
  | .vldb et vd gs1 k => .long (encVM 6 gs1 0 k et.code vd)
  | .vldk kd gs1 => .long (encVM 7 gs1 0 0 0 (0#1 ++ kd))
  | .vstk kd gs1 => .long (encVM 8 gs1 0 0 0 (0#1 ++ kd))
  | .vpermb vd vs2 vs1 k => .long (encV 23 0 vs2 vs1 k 0 vd)
  | .vbcst et vd vs2 k => .long (encV 23 1 vs2 0 k et.code vd)
  | .viota et vd k => .long (encV 23 2 0 0 k et.code vd)
  | .vcompr et vd vs2 k => .long (encV 23 3 vs2 0 k et.code vd)
  | .vexpnd et vd vs2 k => .long (encV 23 4 vs2 0 k et.code vd)
  | .vslide et vd vs2 vs1 k => .long (encV 23 5 vs2 vs1 k et.code vd)
  | .vins et vd vs2 vs1 => .long (encV 23 6 vs2 vs1 0 et.code vd)
  | .vzip et vd vs2 vs1 k => .long (encV 23 7 vs2 vs1 k et.code vd)
  | .vunzip et vd vs2 vs1 k => .long (encV 23 8 vs2 vs1 k et.code vd)
  | .vrsum et vd vs2 k => .long (encV 24 0 vs2 0 k et.code vd)
  | .vrmax et vd vs2 k => .long (encV 24 1 vs2 0 k et.code vd)
  | .vrmin et vd vs2 k => .long (encV 24 2 vs2 0 k et.code vd)
  | .vrowst et vd vs2 => .long (encV 24 3 vs2 0 0 et.code vd)
  | .vrarg et vd vs2 k => .long (encV 24 4 vs2 0 k et.code vd)
  | .vrpopc et vd vs2 k => .long (encV 24 5 vs2 0 k et.code vd)
  | .vsfn fn et vd vs2 k => .long (encVF 0 vs2 0 k et.code vd fn)
  | .vgact fn et vd vs2 vs1 k => .long (encVF 1 vs2 vs1 k et.code vd fn)
  | .vstbl t vs2 => .long (encV 25 32 vs2 0 0 0 t)
  | .vcvt et vd vs2 dt k => .long (encV 26 0 vs2 (0#1 ++ dt.code) k et.code vd)
  | .vdec et vd vs2 q k => .long (encV 26 1 vs2 q k et.code vd)
  | .venc et vd vs2 q k => .long (encV 26 2 vs2 q k et.code vd)
  | .vnib vd vs2 m k => .long (encV 26 3 vs2 m k 0 vd)
  | .vrng et vd vs2 k => .long (encV 26 4 vs2 0 k et.code vd)
  | .vscl et vd vs2 vs1 k => .long (encV 26 5 vs2 vs1 k et.code vd)
  | .vpack et vd vs2 vs1 k => .long (encV 26 6 vs2 vs1 k et.code vd)
  | .tmset tmA gs1 => .long (encT 27 0 0 gs1 0 tmA 0)
  | .mgang rd tmA tmB gs1 gs2 => .long (encT 27 1 gs2 gs1 tmB tmA rd)
  | .mzero rd gs1 => .long (encT 27 2 0 gs1 0 0 rd)
  | .msta rd tmA gs1 => .long (encT 27 3 0 gs1 0 tmA rd)
  | .mlda rd tmA gs1 => .long (encT 27 4 0 gs1 0 tmA rd)
  | .msplit rd gs1 gs2 => .long (encT 27 5 gs2 gs1 0 0 rd)
  | .dtld rd gs1 gs2 => .long (encT 27 6 gs2 gs1 0 0 rd)
  | .jwait rd gs1 => .long (encT 28 0 0 gs1 0 0 rd)
  | .jpoll rd gs1 => .long (encT 28 1 0 gs1 0 0 rd)
  | .cpy rd gs1 gs2 => .long (encT 28 2 gs2 gs1 0 0 rd)
  | .cpyr rd gs1 gs2 => .long (encT 28 3 gs2 gs1 0 0 rd)
  | .jcan rd gs1 => .long (encT 28 4 0 gs1 0 0 rd)
  | .flu rd tmA gs1 gs2 => .long (encT 29 0 gs2 gs1 0 tmA rd)
  | .fchol rd tmA gs1 gs2 => .long (encT 29 1 gs2 gs1 0 tmA rd)
  | .fqr rd tmA tmB gs1 gs2 => .long (encT 29 2 gs2 gs1 tmB tmA rd)
  | .ftrs rd tmA tmB gs1 gs2 => .long (encT 29 3 gs2 gs1 tmB tmA rd)
  | .prapl rd tmA gs1 gs2 => .long (encT 29 4 gs2 gs1 0 tmA rd)
  | .prmov rd gs1 gs2 => .long (encT 29 5 gs2 gs1 0 0 rd)
  | .ridl rd gs1 gs2 => .long (encT 30 0 gs2 gs1 0 0 rd)
  | .draw rd gs1 gs2 => .long (encT 30 1 gs2 gs1 0 0 rd)
  | .spark rd gs1 gs2 => .long (encT 30 2 gs2 gs1 0 0 rd)
  | .sres rd gs1 gs2 => .long (encT 30 3 gs2 gs1 0 0 rd)
  | .cmnew rd gs1 gs2 => .long (encT 31 0 gs2 gs1 0 0 rd)
  | .cmjoin rd gs1 gs2 => .long (encT 31 1 gs2 gs1 0 0 rd)
  | .cmwait rd gs1 => .long (encT 31 2 0 gs1 0 0 rd)
  | .cmbn rd gs1 gs2 => .long (encT 31 3 gs2 gs1 0 0 rd)
  | .cmadv rd gs1 gs2 => .long (encT 31 4 gs2 gs1 0 0 rd)
  | .cmsetMember rd gs1 gs2 => .long (encT 31 5 gs2 gs1 0 0 rd)
  | .cmsetExpr rd gs1 gs2 => .long (encT 31 5 gs2 gs1 0 0 rd)
  | .cmsetQuorum rd gs1 gs2 => .long (encT 31 5 gs2 gs1 0 0 rd)
  | .cmsetOpen rd gs1 gs2 => .long (encT 31 5 gs2 gs1 0 0 rd)
  | .cmend rd gs1 => .long (encT 31 6 0 gs1 0 0 rd)
  | .stnew rd => .long (encR 32 0 0 0 rd)
  | .splice rd rs1 rs2 => .long (encR 32 1 rs2 rs1 rd)
  | .spin rd rs1 => .long (encR 32 2 0 rs1 rd)
  | .sunpin rd rs1 => .long (encR 32 3 0 rs1 rd)
  | .sidx rd rs1 rs2 => .long (encR 32 4 rs2 rs1 rd)
  | .sfork rd rs1 => .long (encR 32 5 0 rs1 rd)
  | .sdrop rd rs1 => .long (encR 32 6 0 rs1 rd)
  | .tlbi rd rs1 rs2 => .long (encR 33 0 rs2 rs1 rd)
  | .tlbis rd rs1 rs2 => .long (encR 33 1 rs2 rs1 rd)
  | .tlbia rd rs1 rs2 => .long (encR 33 2 rs2 rs1 rd)
  | .sidw rd rs1 rs2 => .long (encR 33 3 rs2 rs1 rd)
  | .atrn rd rs1 rs2 => .long (encR 33 4 rs2 rs1 rd)
  | .rvbeg rd rs1 rs2 => .long (encR 34 0 rs2 rs1 rd)
  | .rvend rd rs1 rs2 => .long (encR 34 1 rs2 rs1 rd)
  | .rvqry rd rs1 rs2 => .long (encR 34 2 rs2 rs1 rd)
  | .wrel rd rs1 => .long (encR 34 3 0 rs1 rd)
  | .wacq rd rs1 => .long (encR 34 4 0 rs1 rd)
  | .lstat rd rs1 => .long (encR 34 5 0 rs1 rd)
  | .hvcall rd rs1 => .long (encR 35 0 0 rs1 rd)
  | .slotwEntry rd rs1 rs2 => .long (encR 35 1 rs2 rs1 rd)
  | .slotwPeriod rd rs1 rs2 => .long (encR 35 1 rs2 rs1 rd)
  | .slotwLen rd rs1 rs2 => .long (encR 35 1 rs2 rs1 rd)
  | .vdsw rd rs1 => .long (encR 35 2 0 rs1 rd)
  | .mext rd rs1 rs2 => .long (encR 35 3 rs2 rs1 rd)
  | .attest rd rs1 rs2 => .long (encR 35 3 rs2 rs1 rd)
  | .vdkey rd rs1 rs2 => .long (encR 35 3 rs2 rs1 rd)
  | .wnew rd rs1 rs2 => .long (encR 35 3 rs2 rs1 rd)
  | .wgrant rd rs1 rs2 => .long (encR 35 3 rs2 rs1 rd)
  | .wrevoke rd rs1 rs2 => .long (encR 35 3 rs2 rs1 rd)
  | .quench rd rs1 rs2 => .long (encR 35 3 rs2 rs1 rd)
  | .fmove rd rs1 rs2 => .long (encR 35 3 rs2 rs1 rd)
  | .eret => .long (encR 35 4 0 0 0)
  | .wfi => .long (encR 35 5 0 0 0)
  | .addiC rd imm => .compact (encC0 1 rd imm)
  | .ldiC rd imm => .compact (encC0 2 rd imm)
  | .slliC rd sh => .compact (encC0 3 rd sh)
  | .srliC rd sh => .compact (encC0 4 rd sh)
  | .sraiC rd sh => .compact (encC0 5 rd sh)
  | .andiC rd imm => .compact (encC0 6 rd imm)
  | .mvC rd rs => .compact (encC0 7 rd rs)
  | .addC rd rs => .compact (encC0 8 rd rs)
  | .subC rd rs => .compact (encC0 9 rd rs)
  | .andC rd rs => .compact (encC0 10 rd rs)
  | .orC rd rs => .compact (encC0 11 rd rs)
  | .xorC rd rs => .compact (encC0 12 rd rs)
  | .jrC rs => .compact (encC0 13 rs 0)
  | .haltC => .compact (encC0 14 0 0)
  | .commitC => .compact (encC0 15 0 0)
  | .jC off => .compact (encC1 0 off)
  | .jalC off => .compact (encC1 1 off)
  | .beqzC rs off => .compact (encC1 2 (rs ++ off))
  | .bnezC rs off => .compact (encC1 3 (rs ++ off))
  | .bltzC rs off => .compact (encC1 4 (rs ++ off))
  | .bgezC rs off => .compact (encC1 5 (rs ++ off))
  | .lwC rd rs1 off => .compact (encC2 0 rd rs1 off)
  | .ldC rd rs1 off => .compact (encC2 1 rd rs1 off)
  | .swC rd rs1 off => .compact (encC2 2 rd rs1 off)
  | .sdC rd rs1 off => .compact (encC2 3 rd rs1 off)
  | .taskStart _ => .event
  | .contextWake _ _ => .event
  | .chunkCommit _ _ => .event
  | .budgetExpiry _ _ => .event
  | .faultNotice _ _ => .event
  | .entryDepart _ _ => .event
  | .messageArrival _ => .event
  | .entryAccepted _ => .event
  | .entryRefused _ => .event
  | .scopeStrip _ => .event
  | .resume _ => .event
  | .kill _ => .event
  | .stop _ => .event
  | .start _ => .event
  | .continueSave _ => .event
  | .saveRecordWrite _ => .event
  | .gangRound _ _ => .event
  | .gangTimeout _ _ _ => .event
  | .pairWaitTimeout _ => .event
  | .partnerLost _ => .event
  | .jobEnd _ _ => .event
  | .accumulatorJobRun _ => .event
  | .decodeTableLoad _ => .event
  | .factorisationStep _ => .event
  | .permutationApply _ => .event
  | .permutationMove _ => .event
  | .copySegment _ => .event
  | .contextReserveRetry _ => .event
  | .ringDeliveryRetry _ => .event
  | .ridlRun _ => .event
  | .riddleDraw _ _ => .event
  | .sfuService _ => .event
  | .atomicPerform _ _ => .event
  | .stitchRequest _ => .event
  | .committeeRequest _ => .event
  | .quorumDeadline _ => .event
  | .barrierRelease _ _ => .event
  | .gspawnEnqueue _ _ => .event
  | .blockPlace _ => .event
  | .slotBoundary => .event
  | .invalidationJob _ _ => .event
  | .translationEvict _ _ => .event
  | .tamperSensor => .event
  | .load _ => .event
  | .unload _ => .event
  | .clear _ => .event
  | .kernelDrained _ => .event
  | .powerApplied _ => .event
  | .moduleReset _ => .event
  | .mstsWrite _ => .event
  | .ictlWrite _ _ => .event
  | .fdivChange _ => .event
  | .governorWindow _ _ => .event
  | .rampWindow _ => .event
  | .scrub _ _ _ => .event
  | .clownWrite _ _ => .event
  | .ipendClear _ _ => .event
  | .wfiWake _ => .event
  | .flitReceive _ _ _ _ => .event
  | .ackReceive _ _ => .event
  | .nakReceive _ _ => .event
  | .ltoExpiry _ => .event
  | .trainingComplete _ _ _ => .event
  | .trainingAttemptFail _ => .event
  | .electricalResetComplete _ => .event
  | .linkEnable _ => .event
  | .linkDisable _ => .event
  | .linkReset _ => .event
  | .rsetWrite _ _ => .event
  | .routeDrainComplete _ => .event
  | .memberLost _ _ _ => .event
  | .revolutionReady _ => .event
  | .portRequest _ _ _ _ _ => .event
  | .portCompletion _ _ _ _ => .event
  | .pqcmdResume _ _ => .event
  | .pqcmdStop _ _ => .event
  | .portStopped _ _ => .event
  | .hostAccess _ _ _ => .event
  | .networkInbound _ _ _ _ => .event
  | .illegalEncoding _ _ => .event
  | .fetchFault _ => .event
  | .coreFailure _ => .event
  | .bankSelfTestFail _ _ => .event
  | .measurementCheckFail _ => .event
  | .portLinkChange _ _ _ => .event
  | .counterNodeWriteBack _ _ _ => .event

/-- The bytes of an encoding in memory (R7). -/
def Encoding.bytes : Encoding → List Byte
  | .long w => [w.extractLsb' 0 8, w.extractLsb' 8 8, w.extractLsb' 16 8, w.extractLsb' 24 8]
  | .compact h => [h.extractLsb' 0 8, h.extractLsb' 8 8]
  | .event => []

/-- The word FADDR receives when the instruction traps ILLEGAL (R82). -/
def Encoding.word : Encoding → Word
  | .long w => w.zeroExtend 64
  | .compact h => h.zeroExtend 64
  | .event => 0

/-- The instruction's length in bytes (R57). -/
def Encoding.len : Encoding → Nat
  | .long _ => 4
  | .compact _ => 2
  | .event => 0

end

end Sys2Proof
end

