-- ==== Sys2Proof/Config.lean ====
section
/-! DEFINITION. What an implementation fixes, and the free values: constants with no body, of which
nothing can be proved. Each is named in the assumption log. -/

set_option Elab.async false

namespace Sys2Proof.Config

/-- A fresh 64-bit value for a result the spec leaves open, drawn with the counter `State.free` (log 6). -/
opaque freeWord : Nat → Word

/-- A fresh choice among the behaviours the spec allows, drawn with the counter `State.free` (log 6):
which of the allowed stores a load returns (R334), whether a stale translation is used (R368). -/
opaque freePick : Nat → Nat

/-- How far CYC has advanced when it is read at the step that `State.tick` counts (R73, R140; log 6). -/
opaque elapsed : Nat → Nat

/-- What a byte of a codeword that cannot be corrected is taken for where something reads it and goes on, at the step that
`State.tick` counts and the byte's place (R483; log 111). -/
opaque rotByte : Nat → Nat → BitVec 8

/-- The bytes of an RSASSA-PSS signature with its random salt (R471): the key is read by no instruction. -/
opaque signature : List Byte → Nat → List Byte

/-- Entry address of the hypervisor image (R479: "at its entry address", no value given; log 4). It lies
in the hypervisor window (R472). -/
def hypervisorEntry : Word := 0xFFFF_0000_0000_0000

/-- Number of the control core that starts the hypervisor (R479). -/
def firstControlCore : Nat := 0

end Sys2Proof.Config
end

