-- ==== Sys2Proof/Machine/State.lean ====
section
/-! DEFINITION. The state of the module: every register, memory, queue, slot and table the spec names, as plain
data, and `State.reset`, the module at READY (R11, R479). Control registers are kept as the 64-bit words software
reads, with their reserved bits zero (R10); the accessors of `Machine/Ops.lean` name their fields. -/

set_option Elab.async false

namespace Sys2Proof.Machine

/-! ### Tables: a list of key and value pairs, keys strictly rising -/

/-- A sparse table. A key that is not listed reads as the default of the table's use. -/
abbrev Tab (α : Type) := List (Nat × α)

/-! ### Memory -/

/-- All memory of the module, one byte a cell, in ONE address space of the model's own: HBM at its host physical
address, die SRAM at its host physical address (bit 40 set, R366), then every TCM and every scratchpad
(`Machine/Ops.lean` gives the places). An unlisted byte reads 0: power-on zeroes every byte (R479, phase 5). -/
abbrev Memory := List Host.Cell

/-- Canonical form: addresses strictly rising, no cell equal to what an unlisted address reads as. -/
def Memory.wfFrom : Nat → Memory → Bool
  | _, [] => true
  | lo, (a, b) :: rest => decide (lo ≤ a) && b != 0 && Memory.wfFrom (a + 1) rest

/-- The canonical form of a memory. -/
def Memory.wf (m : Memory) : Bool := Memory.wfFrom 0 m

/-! ### Names -/

/-- Trap causes (R86). -/
inductive Cause where
  | illegal | priv | misalign | pageR | pageW | perm | bounds | sqf | budget | trapi | scope | ring | job
  | zpiv | npd | integ | uncorr | stitch | tsorder | vdperm
  deriving DecidableEq, Repr

/-- The CAUSE code (R86). -/
def Cause.code : Cause → Nat
  | .illegal => 0x01 | .priv => 0x02 | .misalign => 0x03 | .pageR => 0x04 | .pageW => 0x05 | .perm => 0x06
  | .bounds => 0x07 | .sqf => 0x08 | .budget => 0x09 | .trapi => 0x0A | .scope => 0x0B | .ring => 0x0C
  | .job => 0x0D | .zpiv => 0x0E | .npd => 0x0F | .integ => 0x10 | .uncorr => 0x11 | .stitch => 0x12
  | .tsorder => 0x13 | .vdperm => 0x14

/-- What a trap records (R164, R375). -/
structure Trap where
  cause : Cause
  sub : Nat
  /-- none where the spec gives FADDR no value for this trap: a free value (log 15). -/
  faddr : Option Word
  /-- PGINF of a failed translation (R375); none where the spec gives it no value: a free value (log 15). -/
  pginf : Option Word
  /-- The access was translated: the report carries PGINF (R375). -/
  translated : Bool
  /-- The failure was at the second stage: the hypervisor's report core receives it (R376). -/
  stage2 : Bool
  /-- INTEG and UNCORR: host address concerned and the virtual device it is attributed to (R469, R486). -/
  host : Nat
  owner : Nat
  deriving DecidableEq, Repr

/-- Message classes (R176). -/
inductive MClass where
  | request | reply | ordered | system
  deriving DecidableEq, Repr

/-- What a message is on its way: the device's own messages meet other checks than those of tasks (R187). -/
inductive MKind where
  /-- From the send queue of a core. -/
  | task
  /-- A release reply (R186). -/
  | release
  /-- A report of the report network (R178). -/
  | report
  /-- A scope-miss message (R337). -/
  | scopeMiss
  /-- A start message of a placed block (R308). -/
  | start
  /-- A ring notice (R454). -/
  | notice
  /-- A port completion notice (R473). -/
  | port
  /-- The reply of a fetching atomic (R344). -/
  | atomic
  /-- A copy delivery with a handler (R273). -/
  | copy
  /-- A fault notice of the loader (R207, R208). -/
  | fault
  /-- What became of a message, on its way to a sender on another module (R179, R446). -/
  | verdict
  /-- A request to the leader of a ring, its answer, or the leader's update of a copy (R453, R455). -/
  | ring
  /-- The end of a copy to another module (R272). -/
  | copyEnd
  /-- The completion message of a STOP (R172). -/
  | done
  deriving DecidableEq, Repr

/-- A message image, with what the networks carry beside it. -/
structure Msg where
  w0 : Word
  w1 : Word
  payload : List Word
  kind : MKind
  /-- The message identifier a task started by it holds (R170). -/
  mid : Word
  /-- Source and destination core, as core identifiers (`CoreId`). -/
  src : Nat
  dst : Nat
  /-- Destination module (R21). -/
  dmod : Nat
  /-- Virtual device of the sender. -/
  vd : Nat
  /-- The send-queue entry of the source, for a message of a task. -/
  entry : Option Nat
  /-- The permission table refused its destination (R465). -/
  barred : Bool
  /-- The scope rectangle a release-tagged message carries (R336). -/
  rect : Word
  /-- The stores the release covers: word address and coherence index (R335). -/
  rels : Tab Nat
  /-- Consecutive aborts of this message (R149, R169). -/
  abcnt : Nat
  /-- Rank of acceptance: order among messages of its class; effective rank of an ordered message (R311). -/
  eff : List Nat
  /-- Its place in the order in which the entries and release replies of its core became READY, from 1 (R177, R181,
  R186); 0 where it is none of them. -/
  order : Nat
  /-- The hypervisor sent it (R171). -/
  hyper : Bool
  deriving DecidableEq, Repr

/-! ### Contexts -/

/-- Context states (R145). RUNNING is the state a context has within its own step. -/
inductive CtxSt where
  | free | dormant | ready | running | waiting | suspended | retained
  deriving DecidableEq, Repr

/-- The state code (R145). -/
def CtxSt.code : CtxSt → Nat
  | .free => 0 | .dormant => 1 | .ready => 2 | .running => 3 | .waiting => 4 | .suspended => 5 | .retained => 6

/-- Per-context control registers (R73, R169, R192, R338, R343), as the words software reads. -/
structure CtxRegs where
  budg : Word
  tstp : Word
  msgid : Word
  fflg : Word
  actf : Word
  rfinf : Word
  sminf : Word
  fmta : Word
  fmtb : Word
  fmtc : Word
  scla : Word
  sclb : Word
  sclf : Word
  mmsk : Word
  encm : Word
  fctl : Word
  grow : Word
  pairc : Word
  pairt : Word
  gangt : Word
  rngk : Word
  arh : Word
  scur : Word
  deriving DecidableEq, Repr

/-- The reset values of R46, R73, R248. -/
def CtxRegs.reset : CtxRegs where
  budg := 0
  tstp := 0
  msgid := 0
  fflg := 0
  actf := 0
  rfinf := 0
  sminf := 0
  fmta := 0
  fmtb := 0
  fmtc := 0
  scla := 0
  sclb := 0
  sclf := 0
  mmsk := 0x0080_FFFF
  encm := 0x7F7E_7E00
  fctl := 0
  grow := 0
  pairc := 0
  pairt := 0
  gangt := 0
  rngk := 0
  arh := 0
  scur := 0

/-- What the chunk checkpoint holds (R148): the registers of one context. -/
structure Regs where
  pc : Word
  g : Vector Word 32
  v : Vector VWord 16
  /-- k1 to k7; the entry of k0 is not read (R70). -/
  k : Vector Word 8
  cr : CtxRegs
  deriving DecidableEq, Repr

/-- All registers zero, the per-context control registers at their reset values (R71, R74). -/
def Regs.reset : Regs where
  pc := 0
  g := Vector.replicate 32 0
  v := Vector.replicate 16 0
  k := Vector.replicate 8 0
  cr := CtxRegs.reset

/-- Per-core control registers a task or a control core can write (R73, R192, R361, R388, R389, R452). -/
inductive CoreReg where
  | rfh | smh | sqfh | stpl | stfr | rvh | sidr
  deriving DecidableEq, Repr

/-- A user special-function table (R234): the record's words. -/
structure UserTable where
  n : Nat
  lin : Bool
  we : Int
  x0 : F32
  low : F32
  high : F32
  /-- y0, y1, d of each segment. -/
  segs : List (F32 × F32 × F32)
  deriving DecidableEq, Repr

/-- A write of per-core state that a chunk holds until it commits (R139, R195, R236, R246), or an act that
takes effect at its commit (R193, R270, R305, R335). -/
inductive Pend where
  | reg (r : CoreReg) (x : Word)
  | ring (h : HReg) (x : Word)
  | tmap (t : TMReg) (x : BitVec 256)
  /-- VSTBL of slot t: the table, or none for an invalid record; whether it passed the check of R235. -/
  | user (t : Nat) (tab : Option UserTable) (monok : Bool)
  | gdone (level : Nat)
  | jcan (slot : Nat) (gen : Nat)
  /-- RESEND and DROPR of an entry, with their place in the execution order (R181, R193). -/
  | resend (entry : Nat) (seq : Nat)
  | dropr (entry : Nat) (seq : Nat)
  | rels (rect : Word)
  deriving DecidableEq, Repr

/-- The key an HBM line is read and written under, its guest line number, and the virtual device or window owner
whose key it is (R379, R469). -/
structure Home where
  key : Nat
  gline : Nat
  owner : Nat
  deriving DecidableEq, Repr

/-- A translation that a chunk has used (R372): its space, 64 KiB page, and whether the page is a 2 MiB one. -/
structure Used where
  sid : Nat
  page : Nat
  lg : Bool
  deriving DecidableEq, Repr

/-- The uncommitted chunk of a context (R148, R119, R328). `cells` holds the bytes it has stored, over the
committed memory: the undo log and the store buffer are the aligned words it covers. -/
structure Chunk where
  cells : List (Nat × Byte)
  /-- By host line number: the home that each store's translation found for the HBM lines it covers (R119). -/
  homes : Tab Home
  /-- Read and write signatures (R328). -/
  rsig : BitVec 1024
  wsig : BitVec 1024
  /-- Pending writes, oldest first. -/
  pend : List Pend
  /-- Translations used (R372). -/
  used : List Used
  deriving DecidableEq, Repr

def Chunk.empty : Chunk where
  cells := []
  homes := []
  rsig := 0
  wsig := 0
  pend := []
  used := []

/-- What a context does when the chunk it waits for has committed (R148). The length is the instruction's. -/
inductive After where
  /-- COMMIT: go on at the next instruction (R155). -/
  | next (len : Nat)
  /-- A store that needs entries: execute it again in the new chunk (R119). -/
  | again
  /-- HALT (R157). -/
  | halt
  /-- HALTR with its successor (R158). -/
  | haltr (succ : Word)
  /-- An anchored task's trap, or TRAPI: record, report, suspend (R161, R163). -/
  | suspend (t : Trap) (resumeAt : Word) (fpc : Word)
  /-- A barrier arrival (R322). -/
  | barrier (block : Bool) (op : Nat) (pl : BitVec 32) (rd : GReg)
  /-- CWAIT and PWAIT (R196). -/
  | ring (produce : Bool) (h : HReg) (n : Nat) (rd : GReg)
  /-- JWAIT (R269). -/
  | jwait (j : Word) (rd : GReg)
  /-- A job submission: the slot's job is queued (R252). -/
  | job (slot : Nat)
  /-- A request to the atomic thread: STCH (R395). -/
  | stitch (op : Nat) (a : Word) (desc : List Word) (rd : GReg)
  /-- A request to the atomic thread: COMM (R430). -/
  | comm (op : Nat) (rec : Nat) (ops : List Word) (rd : GReg)
  /-- RVBEG and RVEND (R455). -/
  | rev (fin : Bool) (r : Nat) (n : Nat) (rd : GReg)
  deriving DecidableEq, Repr

/-- What a WAITING context waits for (R145). -/
inductive Wait where
  | none
  /-- Its chunk's commit (R148, R155). -/
  | commit (a : After)
  /-- A condition on which the instruction is executed again: an entry, a job slot, an interlock, FENCE or a
  forced chunk (R121, R184, R252, R330). -/
  | again
  /-- A barrier round (R322). -/
  | barrier (block : Bool) (op : Nat) (rd : GReg)
  /-- A ring level (R196). -/
  | ring (produce : Bool) (h : HReg) (n : Nat) (rd : GReg)
  /-- A job's end (R269). -/
  | jwait (j : Word) (rd : GReg)
  /-- The atomic thread's answer (R395, R430). -/
  | thread (rd : GReg)
  /-- The leader's answer to RVBEG, or a revolution's end (R455). -/
  | rev (fin : Bool) (r : Nat) (n : Nat) (rd : GReg)
  /-- The special-function unit: the results, and 1 for one request, 2 for a pair none of which is served, 0 for the
  second of a pair, whose service cycle comes next (R238). -/
  | sfu (vd : VReg) (res : VWord) (left : Nat)
  /-- The riddle's draw (R415). -/
  | draw (d : Word) (c : Word) (rd : GReg)
  /-- FENCE, WREL: the stores that must be performed for every core first (R339, R457). -/
  | fence (stores : Tab Nat) (window : Option Nat) (rd : GReg)
  /-- A result to write to rd, then the next instruction (R148). -/
  | result (rd : GReg) (x : Word)
  /-- IPEND nonzero (R476). -/
  | wfi
  deriving DecidableEq, Repr

/-- One hardware context (R145 to R151), or the one context of a control core. -/
structure Ctx where
  regs : Regs
  st : CtxSt
  anch : Bool
  wait : Wait
  chunk : Chunk
  /-- Chunk checkpoint (R148). -/
  ckpt : Regs
  /-- Consecutive restarts of the current chunk (R151). -/
  restarts : Nat
  /-- The message being run, if any. -/
  msg : Option Msg
  /-- A chunk of the task has committed an RPLY for the message (R184, R186). -/
  replied : Bool
  /-- The task is one of a refusal or a scope miss, or its message is not of the request class (R184). -/
  isRequest : Bool
  /-- Successor of a RETAINED context (R158) and its age: the count of HALTRs before it (R152). -/
  succ : Word
  age : Nat
  /-- The releases committed by the task's RELS: word address and coherence index (R335). -/
  rels : Tab Nat
  /-- The stores FENCE waits for: those of the latest committed chunk, or of the task's start (R339). -/
  fence : Tab Nat
  /-- The budget left as BUDGQ last returned it in this activation, 0 where it has not (R156). -/
  left : Nat
  deriving DecidableEq, Repr

def Ctx.reset : Ctx where
  regs := Regs.reset
  st := .free
  anch := false
  wait := .none
  chunk := Chunk.empty
  ckpt := Regs.reset
  restarts := 0
  msg := none
  replied := false
  isRequest := false
  succ := 0
  age := 0
  rels := []
  fence := []
  left := 0

/-! ### Send queue -/

/-- Entry states (R179). -/
inductive EntSt where
  | free | held | ready | refused | await
  deriving DecidableEq, Repr

/-- The operands of an atomic held by an entry (R341). `place` is the memory place found at issue. -/
structure AtomicOp where
  op : Nat
  addr : Word
  place : Nat
  home : Option Home
  v : Word
  w : Word
  n : Nat
  haddr : Word
  rel : Bool
  deriving DecidableEq, Repr

/-- One send-queue entry (R179). -/
structure Entry where
  st : EntSt
  /-- The context whose chunk holds it. -/
  ctx : Nat
  hd : Word
  haddr : Word
  mid : Word
  payload : List Word
  atomic : Option AtomicOp
  /-- READY and in its network, no verdict yet. -/
  away : Bool
  /-- Order in which entries became READY or were executed (R181). -/
  seq : Nat
  rect : Word
  rels : Tab Nat
  /-- A reply reservation is held for it (R185). -/
  resv : Bool
  /-- It answers a request, whose MID it carries (R183). -/
  isRply : Bool
  /-- WHY of the refusal (R192). -/
  why : Nat
  /-- The permission table refused its destination when it became READY (R465). -/
  barred : Bool
  /-- The context whose uncommitted RESEND or DROPR claims it (R193). -/
  claim : Option Nat
  /-- Its kernel has reached ABSENT since it became READY (R209). -/
  gone : Bool
  /-- Sent by a control core at level 2: the hypervisor (R171). -/
  hyper : Bool
  deriving DecidableEq, Repr

def Entry.free : Entry where
  st := .free
  ctx := 0
  hd := 0
  haddr := 0
  mid := 0
  payload := []
  atomic := none
  away := false
  seq := 0
  rect := 0
  rels := []
  resv := false
  isRply := false
  why := 0
  barred := false
  claim := none
  gone := false
  hyper := false

/-- A refusal whose task has not started (R191): the entry, the refused image as it was sent, with REFD set, and WHY. -/
structure Refused where
  entry : Nat
  image : Msg
  why : Nat
  deriving DecidableEq, Repr

/-! ### Jobs -/

/-- Job slot states (R255). -/
inductive JobSt where
  | free | held | queued | running | parked | ended
  deriving DecidableEq, Repr

/-- One job slot (R250 to R255) with the operands sampled at issue (R252). -/
structure Job where
  st : JobSt
  gen : BitVec 13
  /-- The context whose chunk holds it. -/
  ctx : Nat
  kind : Nat
  status : Word
  /-- Growth estimate kept with the status of a factorisation (R294). -/
  gamma : F32
  /-- Pending trap of a stopped factorisation (R295). -/
  ptrap : Bool
  mbox : Word
  tmA : BitVec 256
  tmB : BitVec 256
  /-- The instruction's operand words: options, addresses, descriptor. -/
  ops : List Word
  /-- Per-context registers as they stood at issue. -/
  cr : CtxRegs
  /-- ENCM-independent progress: segments committed, next column. -/
  done : Nat
  /-- A JCAN has been committed for the running job (R270, R299). -/
  cancel : Bool
  /-- Order of the kicks in the couch order (R253). -/
  seq : Nat
  /-- A destination context is reserved, or the checks of R272 have passed. -/
  prep : Bool
  /-- At the kick: of an invalidation the stores of the issuing cluster (R372), of a copy those that its reads come after
  (R345). -/
  rels : Tab Nat
  /-- The space of the issuing core at the kick (R360). -/
  sid : Nat
  /-- The coherence index of every word at the kick of an invalidation (R372). -/
  tables : Tab Nat
  /-- Bytes of the segment of a copy to another module that is on its way, 0 for none (R272, R275; log 108). -/
  flying : Nat
  deriving DecidableEq, Repr

def Job.reset : Job where
  st := .free
  gen := 0
  ctx := 0
  kind := 0
  status := 0
  gamma := 0
  ptrap := false
  mbox := 0
  tmA := 0
  tmB := 0
  ops := []
  cr := CtxRegs.reset
  done := 0
  cancel := false
  seq := 0
  prep := false
  rels := []
  sid := 0
  tables := []
  flying := 0

/-- The status of a job that a JCAN has ended, on its way to its mailbox: the slot, the mailbox, the space of the kick and
the word (R255, R270; log 51). -/
structure Owed where
  slot : Nat
  mbox : Word
  sid : Nat
  status : Word
  deriving DecidableEq, Repr

/-! ### Per-core state -/

/-- The decode table (R43, R44): a preset, or the 256 words supplied. -/
structure DecodeTable where
  preset : Nat
  words : List (BitVec 19)
  deriving DecidableEq, Repr

/-- What the loader keeps of a kernel descriptor beside the registers (R200 to R204). -/
structure Kernel where
  budc : List Nat
  /-- Handler address and class (R201). -/
  classes : List (Word × Nat)
  cb : Nat
  rb : Nat
  gp : Word
  stk : Bool
  stkva : Word
  stkspan : Word
  dqva : Word
  pairc : Word
  pairt : Word
  gangt : Word
  rngk : Word
  /-- Core ordinal n (R204). -/
  ordinal : Nat
  /-- The rectangle's words, as the loader received them (R205). -/
  rect : Word
  /-- The core's first bank and its count of banks, as the virtual device owned them at LOADING (R463). -/
  base : Nat
  banks : Nat
  /-- The number of the LOAD that brought it: a fault notice carries it (R208). -/
  serial : Nat
  deriving DecidableEq, Repr

def Kernel.none : Kernel where
  budc := []
  classes := []
  cb := 0
  rb := 0
  gp := 0
  stk := false
  stkva := 0
  stkspan := 0
  dqva := 0
  pairc := 0
  pairt := 0
  gangt := 0
  rngk := 0
  ordinal := 0
  rect := 0
  base := 0
  banks := 32
  serial := 0

/-- Kernel states (R206). -/
inductive KSt where
  | absent | loading | active | faulted | draining
  deriving DecidableEq, Repr

def KSt.code : KSt → Nat
  | .absent => 0 | .loading => 1 | .active => 2 | .faulted => 3 | .draining => 4

/-- What the model keeps beside a save record (R172, R173): the contexts, queues and entries as they stood at the save.
START overwrites with the record's words everything that the record holds (log 20). -/
structure Saved where
  ctxs : Vector Ctx 4
  sendq : Vector Entry 32
  qSys : List Msg
  qReply : List Msg
  qOrd : List Msg
  qReq : List Msg
  refusals : List Refused
  since : Nat
  /-- The kernel has reached ABSENT since: the READY entries kept are taken as they stand (R209). -/
  asIs : Bool
  deriving DecidableEq, Repr

/-- The per-core state that a time-shared core holds once for each of its virtual devices (R464). -/
structure Bank where
  vdid : Nat
  kst : KSt
  kid : Word
  hblo : Word
  hbhi : Word
  cause : Word
  faddr : Word
  fpc : Word
  pginf : Word
  rfh : Word
  smh : Word
  sqfh : Word
  qdep : Word
  sqlim : Word
  tsvc : Word
  saveb : Word
  emrgb : Word
  lrec : Word
  gmem : Word
  gpos : Word
  gbat : Word
  lqb : Word
  barst : Word
  stpl : Word
  stfr : Word
  stst : Word
  sfst : Word
  sidr : Word
  modid : Word
  rvtb : Word
  rvh : Word
  kernel : Kernel
  h : Vector Word 16
  tm : Vector (BitVec 256) 8
  p : List (List Nat)
  dtab : DecodeTable
  user : List (Option UserTable)
  jobs : Vector Job 8
  /-- What a HELD slot was before its uncommitted allocation (R255). -/
  jobsBefore : Tab Job
  /-- p registers that cancelled FLUs leave as the identity once the jobs before them have ended: the place of the kick,
  and the register (R298, R299). -/
  permsDue : List (Nat × Nat)
  /-- Identifier counter (R183). -/
  midc : BitVec 16
  save : Option Saved
  deriving DecidableEq, Repr

/-- The identity permutation of 128 entries (R298). -/
def identityPerm : List Nat := List.range 128

/-- A core's copy at reset. Its decode table is preset 1 (R43), that of a control core for ever (log 100). -/
def Bank.reset : Bank where
  vdid := 0
  kst := .absent
  kid := 0
  hblo := 0
  hbhi := 0
  cause := 0
  faddr := 0
  fpc := 0
  pginf := 0
  rfh := 0
  smh := 0
  sqfh := 0
  qdep := 0
  sqlim := 0
  tsvc := 0
  saveb := 0
  emrgb := 0
  lrec := 0
  gmem := 0
  gpos := 0
  gbat := 0
  lqb := 0
  barst := 0
  stpl := 0
  stfr := 0
  stst := 0
  sfst := 0
  sidr := 0
  modid := 0
  rvtb := 0
  rvh := 0
  kernel := Kernel.none
  h := Vector.replicate 16 0
  tm := Vector.replicate 8 0
  p := List.replicate 4 identityPerm
  dtab := { preset := 1, words := [] }
  user := [none, none, none]
  jobs := Vector.replicate 8 Job.reset
  jobsBefore := []
  permsDue := []
  midc := 0
  save := none

/-- A cached translation of a 64 KiB page (R360, R368): virtual device, space, page number va / 2^16, guest and
host address of the page, window, 2 MiB page, and the permissions of the first and the second stage. -/
structure TlbEntry where
  vd : Nat
  sid : Nat
  page : Nat
  gpa : Nat
  hpa : Nat
  win : Nat
  /-- The window admitted the virtual device when it was walked (R468, R477). -/
  admitted : Bool
  lg : Bool
  r1 : Bool
  w1 : Bool
  x1 : Bool
  r2 : Bool
  w2 : Bool
  x2 : Bool
  deriving DecidableEq, Repr

/-- A request to a core's atomic thread (R395, R430). -/
structure ThreadReq where
  ctx : Nat
  /-- false STCH, true COMM. -/
  comm : Bool
  op : Nat
  /-- The handle (STCH) or the record's address (COMM). -/
  a : Word
  ops : List Word
  rd : GReg
  /-- The register that waits is still there: the task has not been killed (R401, R434). -/
  live : Bool
  deriving DecidableEq, Repr

/-- Privileged registers of a control core (R461, R481). -/
structure Priv where
  cprv : Nat
  epc : Vector Word 3
  eprv : Vector Word 3
  tvec : Vector Word 3
  ipend : Word
  vdsel : Word
  clsel : Word
  psel : Word
  rsel : Word
  lsel : Word
  isel : Word
  deriving DecidableEq, Repr

def Priv.reset : Priv where
  cprv := 2
  epc := Vector.replicate 3 0
  eprv := Vector.replicate 3 0
  tvec := Vector.replicate 3 0
  ipend := 0
  vdsel := 0
  clsel := 0
  psel := 0
  rsel := 0
  lsel := 0
  isel := 0

/-- A core: fabric or control (R22, R25). -/
structure Core where
  ctxs : Vector Ctx 4
  bank : Bank
  /-- The copy of the virtual device that is switched out (R464). -/
  other : Bank
  priv : Priv
  sendq : Vector Entry 32
  /-- Receive queues: system, reply, ordered, request (R188). -/
  qSys : List Msg
  qReply : List Msg
  qOrd : List Msg
  qReq : List Msg
  /-- Refusals in their order (R191). -/
  refusals : List Refused
  /-- Service messages not yet executed (R171). -/
  svc : List Msg
  since : Nat
  /-- STOP received: no task starts (R172); the core and the module STOP's completion message goes to. -/
  stopped : Bool
  stopBy : Option (Nat × Nat)
  saved : Bool
  /-- A save halted by a fault: offset reached and address (R174). -/
  saveHalt : Option (Nat × Word)
  /-- Where the round robin over the contexts goes on (R145). -/
  rr : Fin 4
  /-- Order counters: READY entries and acceptances; HALTRs. -/
  seq : Nat
  ages : Nat
  reqs : List ThreadReq
  held : List ThreadReq
  /-- Statuses that cancels have not stored yet, oldest first. -/
  owed : List Owed
  /-- Accumulator, row-major 16 x 128, and scale latches (R260): positions not listed hold +0; latches not
  listed hold 1. Scales are kept as encodings: format (1 BF16, 2 E8M0) and value. -/
  acc : Tab F32
  latchA : List (Nat × Nat)
  latchB : List (Nat × Nat)
  tlb : List TlbEntry
  /-- The load floor of each translated word read or written (R334): word address and coherence index. -/
  floors : Tab Nat
  failed : Bool
  deriving DecidableEq, Repr

def Core.reset : Core where
  ctxs := Vector.replicate 4 Ctx.reset
  bank := Bank.reset
  other := Bank.reset
  priv := Priv.reset
  sendq := Vector.replicate 32 Entry.free
  qSys := []
  qReply := []
  qOrd := []
  qReq := []
  refusals := []
  svc := []
  since := 0
  stopped := false
  stopBy := none
  saved := false
  saveHalt := none
  rr := 0
  seq := 0
  ages := 0
  reqs := []
  held := []
  owed := []
  acc := []
  latchA := []
  latchB := []
  tlb := []
  floors := []
  failed := false

/-! ### Clusters and blocks -/

/-- An arrival at a barrier (R315): core, context (4 where it has been killed since), payload, operation. -/
structure Arrival where
  core : Nat
  ctx : Nat
  pl : BitVec 32
  op : Nat
  rd : GReg
  /-- The stores a block barrier makes visible (R320): word address and coherence index. -/
  rels : Tab Nat
  deriving DecidableEq, Repr

/-- A barrier's round state (R315, R316): GATHERING when it holds an arrival. -/
structure Round where
  arrivals : List Arrival
  held : List Arrival
  deriving DecidableEq, Repr

/-- The release of a round whose completion test has passed, on its way to one cluster (R318, R319, R323, R325). -/
structure Release where
  vd : Nat
  cluster : Nat
  /-- The rectangle of the block, for a block barrier. -/
  rect : Option Word
  /-- The stores of all participants, which a block barrier makes visible (R320). -/
  rels : List (Tab Nat)
  /-- The participants of the cluster, each with its result. -/
  parts : List (Arrival × Word)
  /-- BARST counts the round: no block has been placed on the cluster since (R324). -/
  counts : Bool
  deriving DecidableEq, Repr

/-- A cluster (R18, R23). -/
structure Cluster where
  clown : Word
  /-- Permission entries, by virtual device × 8 + entry (R465). -/
  perm : Tab Word
  split : Bool
  locked : Bool
  /-- Highest committed rank of each domain, by virtual device × 2^64 + domain (R311). -/
  domains : Tab (List Nat)
  /-- Cluster barrier rounds, by virtual device (R315). -/
  rounds : Tab Round
  /-- The core last served by the special-function unit, the copy unit, the riddle (R238, R275, R413). -/
  sfuLast : Nat
  copyLast : Nat
  riddleLast : Nat
  deriving DecidableEq, Repr

def Cluster.reset : Cluster where
  clown := 0x0010_0000
  perm := []
  split := false
  locked := false
  domains := []
  rounds := []
  sfuLast := 0
  copyLast := 0
  riddleLast := 0

/-- A placed block (R308): its virtual device, kernel, position, launch record and batch. -/
structure Block where
  vd : Nat
  x0 : Nat
  y0 : Nat
  bw : Nat
  bh : Nat
  num : Nat
  lrec : Word
  gbat : Word
  doneva : Word
  count : Nat
  sid : Nat
  round : Round
  deriving DecidableEq, Repr

/-! ### The module's tables -/

/-- Metadata of an HBM line (R379, R381, R383). -/
structure Line where
  key : Nat
  gline : Nat
  version : Nat
  poison : Bool
  deriving DecidableEq, Repr

/-- Superseded values of a translated word, newest first (R333): the coherence order behind the current value. -/
abbrev History := List (BitVec 64)

/-- A store performed for the cores of a rectangle of clusters, or for every core (R333, R335, R339). -/
structure Performed where
  /-- none: every core of the module. -/
  rect : Option Word
  word : Nat
  ix : Nat
  deriving DecidableEq, Repr

/-- A loader command that waits (R205): the address of its block, the control core that wrote it, and the space and
privilege level that core had then. -/
structure LoadCmd where
  block : Word
  core : Nat
  sid : Nat
  level : Nat
  deriving DecidableEq, Repr

/-- Per virtual device registers and state (R461, R470, R471). -/
structure Vd where
  s2base : Word
  s2len : Word
  bcap : Word
  apol : Word
  quenched : Bool
  switchedIn : Bool
  lqbv : Word
  sidtb : Word
  /-- Number of the key VDKEY gave, 0 for the key it starts with (R30, R477). -/
  key : Nat
  measurement : List Byte
  /-- Launch slots: queue mapped to each (R197); ages of queues (R198); slot last served (R307). -/
  slots : Tab Nat
  ages : Tab Nat
  lastSlot : Nat
  /-- A slot boundary or a block's completion has given the placer a turn, and it goes on (R307). -/
  placing : Bool
  /-- Loader commands waiting (R205). -/
  loads : List LoadCmd
  /-- By word of memory: the coherence index that walks no longer go behind, since an invalidation (R372). -/
  walkFloor : Tab Nat
  deriving DecidableEq, Repr

def Vd.reset : Vd where
  s2base := 0
  s2len := 0
  bcap := 0x10_0000
  apol := 1
  quenched := false
  switchedIn := false
  lqbv := 0
  sidtb := 0
  key := 0
  measurement := List.replicate 32 0
  slots := []
  ages := []
  lastSlot := 0
  placing := false
  loads := []
  walkFloor := []

/-- A window (R468). -/
structure Window where
  key : Nat
  owner : Nat
  grants : BitVec 64
  /-- Release count (R457). -/
  count : Word
  deriving DecidableEq, Repr

/-- Link states (R448, R458). -/
inductive LinkSt where
  | down | training | up | degraded | reset
  deriving DecidableEq, Repr

def LinkSt.code : LinkSt → Nat
  | .down => 0 | .training => 1 | .up => 2 | .degraded => 3 | .reset => 4

/-- An Afong link (R447, R448, R458, R474). -/
structure Link where
  st : LinkSt
  lanes : Nat
  lto : Nat
  attempt : Nat
  naks : Nat
  nakSeq : Nat
  /-- TRAINING that follows DOWN: the link is not active yet (R445). -/
  fromDown : Bool
  /-- Next sequence number to send, next expected (R447). -/
  sendSeq : Nat
  recvSeq : Nat
  /-- Unacknowledged flits: sequence number, message carried. -/
  replay : List (Nat × Msg)
  retry : Nat
  lost : Nat
  peer : Nat
  /-- Flits acknowledged or lost since READY (R445). -/
  gone : Nat
  /-- The receiver's latest answer to the far end: a NAK or an acknowledgement, and its sequence number (R447). -/
  answer : Option (Bool × Nat)
  deriving DecidableEq, Repr

def Link.reset : Link where
  st := .down
  lanes := 0
  lto := 160000
  attempt := 0
  naks := 0
  nakSeq := 0
  fromDown := true
  sendSeq := 0
  recvSeq := 0
  replay := []
  retry := 0
  lost := 0
  peer := 0
  gone := 0
  answer := none

/-- A route set that drains (R445): the mask to come, and by link the count of flits that must be gone first. -/
structure Drain where
  mask : Nat
  marks : Tab Nat
  deriving DecidableEq, Repr

/-- The state of a ring (R453). -/
inductive RingSt where
  | idle | opened | aborted
  deriving DecidableEq, Repr

def RingSt.code : RingSt → Nat
  | .idle => 0 | .opened => 1 | .aborted => 2

/-- What a port holds of a valid queue context beside its table (R473): the submission tail it was last told, and the index
of the request it takes next, as counts of entries. -/
structure PortQueue where
  tail : Nat
  head : Nat
  deriving DecidableEq, Repr

/-- A ring controller, or a copy of one (R453). -/
structure Ring where
  st : RingSt
  cur : Nat
  epoch : BitVec 16
  begun : BitVec 30
  ended : BitVec 30
  /-- The sampled entry: members as core and module (R452). -/
  members : List (Nat × Nat)
  /-- The cause of the latest loss (R454). -/
  cause : Nat
  deriving DecidableEq, Repr

def Ring.reset : Ring where
  st := .idle
  cur := 0
  epoch := 0
  begun := 0
  ended := 0
  members := []
  cause := 0

/-- An island (R481, R482). -/
structure Island where
  fdiv : Nat
  /-- Effective divider of the governor. -/
  eff : Nat
  rise : Word
  fall : Word
  /-- A divider has been written and has not taken effect (R481). -/
  fdivDue : Bool
  /-- The bounds of the window that runs (R278, R481). -/
  riseNow : Word
  fallNow : Word
  power : Word
  /-- Matrix slots of the window just ended (R278). -/
  slots : Nat
  /-- CYC as it was last read (R140; log 6). -/
  cyc : Word
  deriving DecidableEq, Repr

def Island.reset : Island where
  fdiv := 0
  eff := 0
  rise := 16384
  fall := 16384
  fdivDue := false
  riseNow := 16384
  fallNow := 16384
  power := 0
  slots := 0
  cyc := 0

/-- MSTS (R480). -/
structure Msts where
  ready : Bool
  phase : Nat
  fail : Nat
  mchk : Bool
  deriving DecidableEq, Repr

/-- A verdict on its way to the sender (R179): source core, entry, its identifier, virtual device, accepted or the WHY
of the refusal. -/
structure Verdict where
  core : Nat
  entry : Nat
  mid : Nat
  vd : Nat
  why : Option Nat
  deriving DecidableEq, Repr

/-! ### The state -/

/-- What the next step is, where the model's schedule says so (log 5): an event of the device, or the issue of an
instruction by a core. -/
inductive Turn where
  | event (i : Instr)
  | issue (core : Nat)
  deriving DecidableEq, Repr

structure State where
  /-- The schedule: turns still to come, in order. It is the model's own input, and any list is possible (log 5). -/
  inputs : List Turn
  /-- The core that issues where the schedule names no other, and the context that executes (log 5). -/
  focus : Nat × Fin 4
  /-- Steps taken, and free values drawn: plain counters (log 6). -/
  tick : Nat
  free : Nat
  msts : Msts
  mem : Memory
  lines : Tab Line
  /-- Counters of the counter trees, by key, level and node (R380): level 0 are the line versions. -/
  counters : List ((Nat × Nat × Nat) × Nat)
  /-- The number of the next key (R477). -/
  nextKey : Nat
  hypKey : Nat
  hist : Tab History
  performed : List Performed
  /-- Translations that walks have cached and no invalidation has removed since (R372, item 5). -/
  walked : List TlbEntry
  cores : Tab Core
  clusters : Tab Cluster
  blocks : List Block
  /-- Barrier releases on their way (R325). -/
  releasing : List Release
  vds : Tab Vd
  windows : Tab Window
  net : List Msg
  verdicts : List Verdict
  links : Tab Link
  /-- Ports 24 to 28: up, lanes (R458). -/
  ports : Tab (Bool × Nat)
  pctb : Tab Word
  /-- By port × 4096 + context: the words of a valid context as the port last read them (R473). -/
  portCtxs : Tab (List Word)
  /-- By port × 4096 + context: the submissions of a queue (R473). -/
  queues : Tab PortQueue
  /-- STOP commands of port contexts that wait for the requests in progress (R473): port and context. -/
  portStops : List (Nat × Nat)
  rsets : Tab Nat
  /-- Modules whose route set drains before a change applies (R445). -/
  drains : Tab Drain
  rings : Tab Ring
  islands : Tab Island
  hrpt : Word
  modw : Word
  slotTab : Tab Word
  slotLen : Nat
  slotPeriod : Nat
  /-- LEN and PERIOD written but not yet in effect (R476). -/
  slotLenNext : Nat
  slotPeriodNext : Nat
  slotIx : Nat
  /-- Banks marked failed: group and bank (R483). -/
  failedBanks : List (Nat × Nat)
  /-- Codewords that cannot be corrected: group and offset (R486). -/
  uncorrectable : List (Nat × Nat)
  /-- By group × 64 + bank: the corrected errors since a bank's last report (R485), and those of the last 2^20 cycles
  (R483). -/
  corrected : Tab (Nat × Nat)
  /-- Kick and acceptance counters of the module. -/
  seq : Nat
  /-- What the harts of each cluster have written in the event that runs, as a write signature (R329); empty between
  events. It is the model's own (log 5). -/
  wrote : Tab (BitVec 1024)
  deriving DecidableEq, Repr

/-- Who stops the machine, and how. -/
inductive Fault where
  /-- Raised by `step` when MSTS.READY is clear: a power-on phase failed and no software runs until the next
  reset (R479). Safe: the hardware runs nothing either. -/
  | notReady
  deriving DecidableEq, Repr

/-- What the model does not give a meaning. -/
inductive Refusal where
  /-- Raised by `exec` alone, for an instruction that has no meaning yet. Safe: nothing is claimed of it. -/
  | notModelled (mnemonic : String)
  deriving DecidableEq, Repr

/-- A core's identifier: a fabric core address (R19), or 2^30 + n for control core n (R488: bit 30 is CC). -/
def controlCore (n : Nat) : Nat := 0x4000_0000 + n

/-- The control core that runs the hypervisor at READY: level 2, its pc at the entry address (R479). -/
def hypervisorCore : Core :=
  let c := Ctx.reset
  let r := { Regs.reset with pc := Config.hypervisorEntry }
  { Core.reset with
    ctxs := Core.reset.ctxs.set 0 { c with regs := r, ckpt := r, st := .ready, anch := true } }

/-- The module in the cycle that sets READY (R11, R479): phase 6 reached, every register at its Reset value, no
kernel loaded, every byte of memory zero, the slot table with LEN 1 and entry 0 = 0, the hypervisor started at
level 2 on control core 0. How the other control cores come to run is log 91. -/
def State.reset : State where
  inputs := []
  focus := (controlCore Config.firstControlCore, 0)
  tick := 0
  free := 0
  msts := { ready := true, phase := 6, fail := 0, mchk := false }
  mem := []
  lines := []
  counters := []
  nextKey := 128
  hypKey := 1
  hist := []
  performed := []
  walked := []
  cores := [(controlCore Config.firstControlCore, hypervisorCore)]
  clusters := []
  blocks := []
  releasing := []
  vds := []
  windows := []
  net := []
  verdicts := []
  links := []
  ports := []
  pctb := []
  portCtxs := []
  queues := []
  portStops := []
  rsets := []
  drains := []
  rings := []
  islands := []
  hrpt := 0
  modw := 0
  slotTab := []
  slotLen := 1
  slotPeriod := 16000
  slotLenNext := 1
  slotPeriodNext := 16000
  slotIx := 0
  failedBanks := []
  uncorrectable := []
  corrected := []
  seq := 0
  wrote := []

end Sys2Proof.Machine
end

