-- ==== Sys2Proof/Machine/Tables.lean ====
section
/-! DEFINITION. Plain data under the machine: tables, bit fields, bytes, memory by byte, and where each memory of
the module stands in the model's one address space (R24, R113, R366). -/

set_option Elab.async false

namespace Sys2Proof.Machine

/-! ### Tables -/

/-- The value listed for a key. -/
def Tab.look {α : Type} : Tab α → Nat → Option α
  | [], _ => none
  | (k, v) :: rest, x => if x = k then some v else Tab.look rest x

/-- Lists a value for a key, keeping the keys rising. -/
def Tab.put {α : Type} : Tab α → Nat → α → Tab α
  | [], x, y => [(x, y)]
  | (k, v) :: rest, x, y =>
    if x < k then (x, y) :: (k, v) :: rest
    else if x = k then (x, y) :: rest
    else (k, v) :: Tab.put rest x y

/-- Takes a key off the table. -/
def Tab.drop {α : Type} : Tab α → Nat → Tab α
  | [], _ => []
  | (k, v) :: rest, x => if x = k then Tab.drop rest x else (k, v) :: Tab.drop rest x

/-- The value listed for a key, or a default. -/
def Tab.get {α : Type} (t : Tab α) (k : Nat) (d : α) : α := (Tab.look t k).getD d

/-- Puts a keyed value into a list in rising order of keys, behind those of its own key. -/
def insertKey {α : Type} (x : Nat × α) : List (Nat × α) → List (Nat × α)
  | [] => [x]
  | y :: rest => if x.1 < y.1 then x :: y :: rest else y :: insertKey x rest

/-- The values of a list in the order of their keys. -/
def byKey {α : Type} (l : List (Nat × α)) : List α := (l.foldl (fun t x => insertKey x t) []).map (·.2)

/-- The first index at which a test holds. -/
def firstIx {α : Type} (p : α → Bool) : List α → Nat → Option Nat
  | [], _ => none
  | x :: rest, i => if p x then some i else firstIx p rest (i + 1)

/-! ### Bit fields (R6) -/

/-- x[hi:lo] as a number. -/
def fld (x : Word) (hi lo : Nat) : Nat := (x.toNat >>> lo) % 2 ^ (hi + 1 - lo)

/-- Bit i of x. -/
def bitOf (x : Word) (i : Nat) : Bool := x.getLsbD i

/-- The word with value n in bits hi:lo of x replaced. -/
def setFld (x : Word) (hi lo : Nat) (n : Nat) : Word :=
  let mask := BitVec.ofNat 64 ((2 ^ (hi + 1 - lo) - 1) <<< lo)
  (x &&& ~~~mask) ||| (BitVec.ofNat 64 (n <<< lo) &&& mask)

/-- A truth value as a bit. -/
def b2n (b : Bool) : Nat := if b then 1 else 0

/-- Sign extension of an immediate to 64 bits (R7). -/
def sx {n : Nat} (x : BitVec n) : Word := x.signExtend 64

/-- Zero extension to 64 bits. -/
def zx {n : Nat} (x : BitVec n) : Word := x.zeroExtend 64

/-- A number as a 64-bit word. -/
def w64 (n : Nat) : Word := BitVec.ofNat 64 n

/-! ### Bytes, little-endian (R7) -/

/-- The number a list of bytes holds, first byte least significant. -/
def ofBytes : List Byte → Nat
  | [] => 0
  | b :: rest => b.toNat + 256 * ofBytes rest

/-- The n low bytes of a number, least significant first. -/
def toBytes : Nat → Nat → List Byte
  | 0, _ => []
  | n + 1, x => BitVec.ofNat 8 x :: toBytes n (x / 256)

/-- The bytes of a list of 64-bit words. -/
def wordsBytes (ws : List Word) : List Byte := ws.flatMap fun w => toBytes 8 w.toNat

/-- The 64-bit words of a list of bytes; a short tail is padded with zeros. -/
def bytesWords : Nat → List Byte → List Word
  | 0, _ => []
  | n + 1, bs => w64 (ofBytes (bs.take 8)) :: bytesWords n (bs.drop 8)

/-! ### Memory -/

/-- One byte. -/
def Memory.byte (m : Memory) (a : Nat) : Byte := Tab.get m a 0

/-- Writes one byte, keeping the canonical form. -/
def Memory.put (m : Memory) (a : Nat) (b : Byte) : Memory :=
  if b = 0 then Tab.drop m a else Tab.put m a b

/-- Writes bytes from an address upward. -/
def Memory.putAll (m : Memory) (a : Nat) : List Byte → Memory
  | [] => m
  | b :: rest => Memory.putAll (m.put a b) (a + 1) rest

/-- n bytes from an address upward. -/
def Memory.bytes (m : Memory) (a n : Nat) : List Byte := (List.range n).map fun i => m.byte (a + i)

/-- The 8 bytes at an address as a word. -/
def Memory.word (m : Memory) (a : Nat) : Word := w64 (ofBytes (m.bytes a 8))

/-! ### Places: the model's one address space -/

/-- First byte of the TCM of a fabric core (256 KiB each, R24). -/
def tcmAt (core : Nat) : Nat := 2 ^ 41 + core * 2 ^ 18
/-- First byte of a cluster's scratchpad (1 MiB each, R24). -/
def spadAt (cluster : Nat) : Nat := 2 ^ 41 + 2 ^ 36 + cluster * 2 ^ 20

/-- The memory a place belongs to. -/
inductive Region where
  | hbm | die | tcm | spad
  deriving DecidableEq, Repr

/-- The memory that holds a byte of the model's address space. -/
def regionOf (a : Nat) : Region :=
  if a < 2 ^ 40 then .hbm else if a < 2 ^ 41 then .die else if a < 2 ^ 41 + 2 ^ 36 then .tcm else .spad

/-- A byte of memory as an access reaches it: where it stands, and for HBM its home. -/
structure Place where
  addr : Nat
  home : Option Home
  deriving DecidableEq, Repr

/-- The line number L of a place, for the signatures (R328). -/
def lineNo (a : Nat) : Nat :=
  match regionOf a with
  | .hbm | .die => a / 64
  | .tcm => (a - 2 ^ 41) % 2 ^ 18 / 64
  | .spad => (a - 2 ^ 41 - 2 ^ 36) % 2 ^ 20 / 64

/-- The hash h(L) (R328). -/
def lineHash (l : Nat) : Nat := (l ^^^ (l >>> 10) ^^^ (l >>> 20) ^^^ (l >>> 30)) % 1024

/-- The bit of a signature that an access to a byte sets (R328). -/
def sigBit (a : Nat) : BitVec 1024 := BitVec.ofNat 1024 (2 ^ lineHash (lineNo a))

/-- The pseudo-line of a per-core register: ring handles 0 to 15, tensor maps 16 to 23, user tables 24 to 26
(R195, R236, R246). The device chooses the line numbers; these are the model's (log 12). -/
def pseudoBit (core i : Nat) : BitVec 1024 := BitVec.ofNat 1024 (2 ^ lineHash (2 ^ 30 + core * 32 + i))

/-! ### Cores and clusters (R19, R20, R488) -/

/-- The core is a control core. -/
def isControl (c : Nat) : Bool := decide (0x4000_0000 ≤ c)
/-- The cluster of a fabric core: X × 128 + Y (R19). -/
def clusterOf (c : Nat) : Nat := c / 8
/-- Column of a cluster. -/
def clusterX (k : Nat) : Nat := k / 128
/-- Row of a cluster. -/
def clusterY (k : Nat) : Nat := k % 128
/-- The cluster at (x, y). -/
def clusterAt (x y : Nat) : Nat := x * 128 + y
/-- The die of a cluster (R20). -/
def dieOf (k : Nat) : Nat := clusterY k / 32 * 8 + clusterX k / 32
/-- The eight cores of a cluster. -/
def coresOf (k : Nat) : List Nat := (List.range 8).map fun i => 8 * k + i
/-- The cores whose loads see a commit of a core's cluster at once (R333): those of its cluster, or a control
core alone. -/
def peersOf (c : Nat) : List Nat := if isControl c then [c] else coresOf (clusterOf c)
/-- The voltage-frequency island of a core (R28). -/
def islandOf (c : Nat) : Nat := if isControl c then 32 + (c - 0x4000_0000) / 32 else dieOf (clusterOf c)

/-- What CID reads (R19). -/
def cidOf (c : Nat) : Word := w64 c

/-- A core reference of 31 bits: the core and the module it names, none where it names no core (R488). -/
def coreRef (x : Nat) : Option (Nat × Nat) :=
  let core := x % 2 ^ 18
  let m := x / 2 ^ 18 % 2 ^ 12
  if x / 2 ^ 30 % 2 = 1 then (if core < 64 then some (controlCore core, m) else none) else some (core, m)

/-- The cluster of a core lies in a rectangle x0, y0, x1, y1 of bytes, as SCUR lays it out (R336, R338). -/
def inRect (r : Word) (c : Nat) : Bool :=
  !isControl c &&
  let x := clusterX (clusterOf c)
  let y := clusterY (clusterOf c)
  decide (fld r 7 0 ≤ x) && decide (x ≤ fld r 23 16) && decide (fld r 15 8 ≤ y) && decide (y ≤ fld r 31 24)

/-- The codeword that holds a byte: its group and its offset (R483). TCM and scratchpad as R22 and R23 lay their
banks; the groups of die SRAM and of HBM are the model's (log 13). -/
def codeword (a : Nat) : Nat × Nat :=
  match regionOf a with
  | .tcm => ((a - 2 ^ 41) / 2 ^ 18, (a - 2 ^ 41) % 8192)
  | .spad =>
    let o := (a - 2 ^ 41 - 2 ^ 36) % 2 ^ 20
    (2 ^ 18 + (a - 2 ^ 41 - 2 ^ 36) / 2 ^ 20, o / 256 * 8 + o % 8)
  | .die => (2 ^ 19 + (a - 2 ^ 40) / 2 ^ 18, (a - 2 ^ 40) % 8192)
  | .hbm => (2 ^ 20 + a / 2 ^ 20, a % 2 ^ 20 / 64)

/-- The bytes of a codeword, by its group and offset: one of each data bank, or an HBM line. -/
def codewordBytes (g o : Nat) : List Nat :=
  if g < 2 ^ 18 then (List.range 32).map fun b => 2 ^ 41 + g * 2 ^ 18 + b * 8192 + o
  else if g < 2 ^ 19 then
    (List.range 32).map fun b => 2 ^ 41 + 2 ^ 36 + (g - 2 ^ 18) * 2 ^ 20 + o / 8 * 256 + b * 8 + o % 8
  else if g < 2 ^ 20 then (List.range 32).map fun b => 2 ^ 40 + (g - 2 ^ 19) * 2 ^ 18 + b * 8192 + o
  else (List.range 64).map fun b => (g - 2 ^ 20) * 2 ^ 20 + o * 64 + b

end Sys2Proof.Machine
end

