-- ==== Sys2Proof/Machine/Ops.lean ====
section
/-! DEFINITION. The named operations every meaning is written with: registers and contexts of the executing core,
reports, the security alarm and the machine check, writing a committed line, rolling a chunk back, taking a trap on
either profile, and the return from a trap level. -/

set_option Elab.async false

namespace Sys2Proof.Machine

/-- What `exec` answers. -/
abbrev Out := Host.Outcome State Fault Refusal

/-! ### Cores, contexts, clusters -/

/-- A core; one that is not listed is as reset left it. -/
def State.core (s : State) (c : Nat) : Core := Tab.get s.cores c Core.reset
def State.putCore (s : State) (c : Nat) (x : Core) : State := { s with cores := Tab.put s.cores c x }
def State.modCore (s : State) (c : Nat) (f : Core → Core) : State := s.putCore c (f (s.core c))

def Core.ctx (x : Core) (i : Fin 4) : Ctx := x.ctxs[i]
def Core.putCtx (x : Core) (i : Fin 4) (y : Ctx) : Core := { x with ctxs := x.ctxs.set i y }
def Core.modBank (x : Core) (f : Bank → Bank) : Core := { x with bank := f x.bank }

/-- The copy of a core that serves a virtual device; an empty one where neither does. -/
def Core.copyOf (x : Core) (v : Nat) : Bank :=
  if x.bank.vdid = v then x.bank else if x.other.vdid = v then x.other else { Bank.reset with vdid := v }

def State.ctx (s : State) (c : Nat) (i : Fin 4) : Ctx := (s.core c).ctx i
def State.putCtx (s : State) (c : Nat) (i : Fin 4) (y : Ctx) : State := s.modCore c fun x => x.putCtx i y
def State.modCtx (s : State) (c : Nat) (i : Fin 4) (f : Ctx → Ctx) : State := s.putCtx c i (f (s.ctx c i))
def State.bank (s : State) (c : Nat) : Bank := (s.core c).bank
def State.modBank (s : State) (c : Nat) (f : Bank → Bank) : State := s.modCore c fun x => x.modBank f

def State.cluster (s : State) (k : Nat) : Cluster := Tab.get s.clusters k Cluster.reset
def State.modCluster (s : State) (k : Nat) (f : Cluster → Cluster) : State :=
  { s with clusters := Tab.put s.clusters k (f (s.cluster k)) }
def State.vdev (s : State) (v : Nat) : Vd := Tab.get s.vds v Vd.reset
def State.modVd (s : State) (v : Nat) (f : Vd → Vd) : State := { s with vds := Tab.put s.vds v (f (s.vdev v)) }

/-- The context number an event names, where it names one. -/
def ctxNo (n : Nat) : Option (Fin 4) := if h : n < 4 then some ⟨n, h⟩ else none

/-! ### The executing core and context -/

/-- The core that executes. -/
def State.me (s : State) : Core := s.core s.focus.1
/-- The context that executes. -/
def State.cx (s : State) : Ctx := s.ctx s.focus.1 s.focus.2
def State.setCx (s : State) (y : Ctx) : State := s.putCtx s.focus.1 s.focus.2 y
def State.modCx (s : State) (f : Ctx → Ctx) : State := s.setCx (f s.cx)
def State.setMe (s : State) (x : Core) : State := s.putCore s.focus.1 x
def State.modMe (s : State) (f : Core → Core) : State := s.setMe (f s.me)
/-- The executing core is a control core: it has the control profile (R1, R25). -/
def State.ctl (s : State) : Bool := isControl s.focus.1
/-- The virtual device of the executing core (VDID, R73). -/
def State.vd (s : State) : Nat := s.me.bank.vdid
/-- The executing privilege level of a control core (R460). -/
def State.level (s : State) : Nat := s.me.priv.cprv

/-- A general register; g0 reads 0 (R69). -/
def Regs.get (r : Regs) (x : GReg) : Word := if x = 0 then 0 else r.g[x.toNat]'(x.isLt)
/-- Writes a general register; a write to g0 is discarded (R69). -/
def Regs.put (r : Regs) (x : GReg) (y : Word) : Regs :=
  if x = 0 then r else { r with g := r.g.set x.toNat y (x.isLt) }
def Regs.getV (r : Regs) (x : VReg) : VWord := r.v[x.toNat]'(x.isLt)
def Regs.putV (r : Regs) (x : VReg) (y : VWord) : Regs := { r with v := r.v.set x.toNat y (x.isLt) }
/-- A predicate register; k0 reads all ones (R70). -/
def Regs.getK (r : Regs) (x : KReg) : Word := if x = 0 then BitVec.allOnes 64 else r.k[x.toNat]'(x.isLt)
def Regs.putK (r : Regs) (x : KReg) (y : Word) : Regs :=
  if x = 0 then r else { r with k := r.k.set x.toNat y (x.isLt) }
def Regs.modCr (r : Regs) (f : CtxRegs → CtxRegs) : Regs := { r with cr := f r.cr }

def Ctx.modRegs (x : Ctx) (f : Regs → Regs) : Ctx := { x with regs := f x.regs }

/-- The registers of the executing context. -/
def State.regs (s : State) : Regs := s.cx.regs
def State.setRegs (s : State) (r : Regs) : State := s.modCx fun x => { x with regs := r }
def State.g (s : State) (x : GReg) : Word := s.regs.get x
def State.setG (s : State) (x : GReg) (y : Word) : State := s.setRegs (s.regs.put x y)
def State.v (s : State) (x : VReg) : VWord := s.regs.getV x
def State.setV (s : State) (x : VReg) (y : VWord) : State := s.setRegs (s.regs.putV x y)
def State.k (s : State) (x : KReg) : Word := s.regs.getK x
def State.setK (s : State) (x : KReg) (y : Word) : State := s.setRegs (s.regs.putK x y)
def State.pc (s : State) : Word := s.regs.pc
def State.setPc (s : State) (y : Word) : State := s.setRegs { s.regs with pc := y }
/-- Moves past an instruction of n bytes. -/
def State.advance (s : State) (n : Nat) : State := s.setPc (s.pc + w64 n)
def State.cr (s : State) : CtxRegs := s.regs.cr
def State.setCr (s : State) (y : CtxRegs) : State := s.setRegs { s.regs with cr := y }

/-- Sets sticky flags in FFLG (R39, R40). -/
def State.orFlags (s : State) (fl : Word) : State := s.setCr { s.cr with fflg := s.cr.fflg ||| fl }

/-! ### Free values (log 6) -/

/-- Draws a free 64-bit value. -/
def State.draw (s : State) : Word × State := (Config.freeWord s.free, { s with free := s.free + 1 })
/-- Draws a free choice. -/
def State.pick (s : State) : Nat × State := (Config.freePick s.free, { s with free := s.free + 1 })

/-- The value given, or a free one. -/
def State.orFree (s : State) (x : Option Word) : Word × State :=
  match x with
  | some a => (a, s)
  | none => s.draw

/-! ### The answer of an operation that may stop -/

/-- What an operation inside an instruction comes to. -/
inductive Ans (α : Type) where
  | ok (a : α)
  /-- A trap condition: the operation did nothing (R118). -/
  | trap (t : Trap)
  /-- The instruction waits: it has done nothing yet. -/
  | wait (w : Wait)
  /-- The storing chunk is aborted or restarted (R330). -/
  | yield
  deriving DecidableEq, Repr

def Ans.bind {α β : Type} (x : Ans α) (f : α → Ans β) : Ans β :=
  match x with
  | .ok a => f a
  | .trap t => .trap t
  | .wait w => .wait w
  | .yield => .yield

/-- A trap whose access, if any, was not translated. -/
def Trap.base (cause : Cause) (sub : Nat) (faddr : Option Word) : Trap where
  cause := cause
  sub := sub
  faddr := faddr
  pginf := none
  translated := false
  stage2 := false
  host := 0
  owner := 0xFF

/-- A trap with FADDR. -/
def Trap.at_ (cause : Cause) (sub : Nat) (faddr : Word) : Trap := Trap.base cause sub (some faddr)

/-- A trap for which the spec gives FADDR no value. -/
def Trap.bare (cause : Cause) (sub : Nat) : Trap := Trap.base cause sub none

/-- ILLEGAL with the encoding in FADDR (R82). -/
def illegalTrap (enc : BitVec 32) : Trap := Trap.at_ .illegal 0 (zx enc)

/-- The answer where a condition holds, a trap where it does not. -/
def Ans.check (c : Bool) (t : Trap) : Ans Unit := if c then .ok () else .trap t

/-! ### Keys and lines of HBM (R379 to R382, R468, R470) -/

/-- The number of the key a virtual device starts with (R30; log 14). Keys made later are numbered from 128. -/
def firstKey (v : Nat) : Nat := 2 + v

/-- The key of a virtual device, none after a quench. -/
def State.keyOf (s : State) (v : Nat) : Option Nat :=
  let d := s.vdev v
  if d.quenched then none else if d.key = 0 then some (firstKey v) else some d.key

/-- A key that has not been erased or replaced. -/
def State.keyLive (s : State) (h : Home) : Bool :=
  decide (h.key = s.hypKey) || decide (s.keyOf h.owner = some h.key) ||
    s.windows.any fun (_, w) => decide (w.key = h.key) && decide (h.key ≠ 0)

/-- The version of a line under its key (R381). -/
def State.version (s : State) (h : Home) : Nat :=
  ((s.counters.find? fun e => decide (e.1 = (h.key, 0, h.gline))).map (·.2)).getD 0

/-- Sets a counter of a key's tree. -/
def State.setCounter (s : State) (k : Nat × Nat × Nat) (n : Nat) : State :=
  { s with counters := (k, n) :: s.counters.filter fun e => decide (e.1 ≠ k) }

/-- What a read of an HBM line meets (R381, R382, R470). -/
inductive LineSt where
  /-- Never written under its key: it reads as zeros. -/
  | fresh
  | good
  /-- Poisoned, or its tag does not verify: INTEG. -/
  | bad
  /-- The key is erased: INTEG, SUB 1. -/
  | erased
  deriving DecidableEq, Repr

/-- The check of a line at a place. -/
def State.lineSt (s : State) (p : Place) : LineSt :=
  match p.home with
  | none => .good
  | some h =>
    if !s.keyLive h then .erased else
    match Tab.look s.lines (p.addr / 64) with
    | some l =>
      if l.poison && decide (l.key = h.key) && decide (l.gline = h.gline) then .bad
      else if s.version h = 0 then .fresh
      else if decide (l.key = h.key) && decide (l.gline = h.gline) && decide (l.version = s.version h) then .good
      else .bad
    | none => if s.version h = 0 then .fresh else .bad

/-- The byte at a place, for a line that verifies. -/
def State.byteAt (s : State) (p : Place) : Byte :=
  if s.lineSt p = .fresh then 0 else s.mem.byte p.addr

/-- n bytes from a place upward, within one line. -/
def State.bytesAt (s : State) (p : Place) (n : Nat) : List Byte :=
  (List.range n).map fun i => s.byteAt { p with addr := p.addr + i }

/-- The aligned word of a place as it stands now: the coherence-latest store (R333). -/
def State.wordAt (s : State) (p : Place) : Word :=
  w64 (ofBytes (s.bytesAt { p with addr := p.addr / 8 * 8 } 8))

/-- Banks of a group that are marked failed (R483). -/
def State.failedIn (s : State) (g : Nat) : Nat := (s.failedBanks.filter fun e => decide (e.1 = g)).length

/-- The codeword of a place cannot be corrected: its errors are too many, or two banks of its group have failed (R483,
R486). -/
def State.uncorrectableAt (s : State) (a : Nat) : Bool :=
  s.uncorrectable.contains (codeword a) || decide (2 ≤ s.failedIn (codeword a).1)

/-- The first of n bytes whose codeword cannot be corrected: the bytes of a word of TCM lie in 8 codewords (R483). -/
def State.badByte (s : State) (a n : Nat) : Option Nat :=
  ((List.range n).map fun i => a + i).find? fun b => s.uncorrectableAt b

/-- What a read of n bytes at a place fails with, and the byte concerned: UNCORR before INTEG (R382), INTEG SUB 1 under an
erased key (R470). A line never written under its key is not read at all (R381). -/
def State.readFails (s : State) (p : Place) (n : Nat) : Option (Cause × Nat × Nat) :=
  if s.lineSt p = .fresh then none else
  match s.badByte p.addr n with
  | some b => some (.uncorr, 0, b)
  | none =>
    match s.lineSt p with
    | .bad => some (.integ, 0, p.addr)
    | .erased => some (.integ, 1, p.addr)
    | .fresh | .good => none

/-- The home table of one place. -/
def Place.homes (p : Place) : Tab Home :=
  match p.home with
  | some h => [(p.addr / 64, h)]
  | none => []

/-- The owner of the key of a place: the virtual device or window owner, 0xFF for none (R469). -/
def Place.owner (p : Place) : Nat := (p.home.map (·.owner)).getD 0xFF

/-! ### Hypervisor memory and the second stage (R366, R472) -/

/-- A host physical address (R366): HBM under the given home, or die SRAM. -/
def hostPlace (a : Nat) (home : Option Home) : Option Place :=
  if a < 2 ^ 40 then some { addr := a, home := home }
  else if a < 2 ^ 40 + 2 ^ 33 then some { addr := a, home := none }
  else none

/-- The home of a line of hypervisor memory (R472). -/
def State.hypHome (s : State) (a : Nat) : Home := { key := s.hypKey, gline := a / 64, owner := 0xFF }

/-- A failed translation: PGINF's fields (R375), and what an alarm or a machine check says of it. -/
structure XFail where
  level : Nat
  stage2 : Bool
  reason : Nat
  gpa : Nat
  /-- A window does not admit the virtual device: VDPERM, and no REASON (R468). -/
  barred : Bool
  /-- A line under an erased key: INTEG SUB 1 (R470). -/
  erased : Bool
  /-- REASON 5 and 6: the host address read and the owner of its key. -/
  host : Nat
  owner : Nat
  /-- LG of the leaf, where the walk has found one (R374). -/
  lg : Option Bool
  deriving DecidableEq, Repr

/-- A failure that reads no bad data. -/
def XFail.plain (level : Nat) (stage2 : Bool) (reason gpa : Nat) : XFail where
  level := level
  stage2 := stage2
  reason := reason
  gpa := gpa
  barred := false
  erased := false
  host := 0
  owner := 0xFF
  lg := none

/-- The failure of a table read whose data fail: REASON 6 for UNCORR, 5 for INTEG (R375, R383). -/
def XFail.ofRead (level : Nat) (stage2 : Bool) (gpa : Nat) (p : Place) (e : Cause × Nat × Nat) : XFail :=
  { XFail.plain level stage2 (if e.1 = .uncorr then 6 else 5) gpa with
    erased := decide (e.2.1 = 1), host := e.2.2, owner := p.owner }

/-- A word of hypervisor memory that the device reads (R472); the failure is told by the level and the stage given. -/
def State.hyperWord (s : State) (stage2 : Bool) (gpa a : Nat) : Except XFail Word :=
  match hostPlace a (some (s.hypHome a)) with
  | none => .error (XFail.plain 0 stage2 5 gpa)
  | some p =>
    match s.readFails { p with addr := a / 8 * 8 } 8 with
    | some e => .error (XFail.ofRead 0 stage2 gpa p e)
    | none => .ok (s.wordAt p)

/-- A second-stage entry, checked (R366). -/
structure S2 where
  frame : Nat
  win : Nat
  r : Bool
  w : Bool
  x : Bool
  deriving DecidableEq, Repr

/-- The second stage of a guest address (R366). -/
def State.stage2 (s : State) (v gpa : Nat) : Except XFail S2 :=
  let d := s.vdev v
  let f := gpa / 2 ^ 21
  let bad (r : Nat) : Except XFail S2 := .error (XFail.plain 0 true r gpa)
  if f ≥ d.s2len.toNat then bad 4 else
  match s.hyperWord true gpa (d.s2base.toNat + 8 * f) with
  | .error e => .error e
  | .ok e =>
    if !bitOf e 0 then bad 1
    else if fld e 7 4 ≠ 0 ∨ fld e 20 16 ≠ 0 ∨ fld e 63 41 ≠ 0 ∨ (bitOf e 40 ∧ fld e 39 33 ≠ 0) then bad 2
    else .ok { frame := fld e 40 21 * 2 ^ 21, win := fld e 15 8, r := bitOf e 1, w := bitOf e 2, x := bitOf e 3 }

/-! ### Messages of the device -/

/-- Word 1 of an image (R176): destination, class, length. -/
def hdrWord (dest dmod cls len : Nat) (cc : Bool) : Word :=
  w64 (dest % 2 ^ 18 + dmod % 2 ^ 12 * 2 ^ 18 + cls * 2 ^ 30 + len * 2 ^ 32 + b2n cc * 2 ^ 40)

/-- The class number (R176). -/
def MClass.code : MClass → Nat
  | .request => 0 | .reply => 1 | .ordered => 2 | .system => 3

/-- The class a header names. -/
def clsOf (hd : Word) : MClass :=
  match fld hd 31 30 with
  | 0 => .request | 1 => .reply | 2 => .ordered | _ => .system

/-- LEN of a header. -/
def lenOf (hd : Word) : Nat := fld hd 36 32

/-- The class of a message; a scope-miss message carries the header of the one it tells of (R337). -/
def Msg.cls (m : Msg) : MClass := if m.kind = .scopeMiss then .system else clsOf m.w1

/-- A module number that means this module (R21). MODW 0xFFF acts as 0 (R461). -/
def State.localMod (s : State) (m : Nat) : Bool :=
  decide (m = 0xFFF) || decide (m = (if fld s.modw 11 0 = 0xFFF then 0 else fld s.modw 11 0))

/-- A module number that means this module to a core that sends (R445): its MODID, which the loader copied from MODW; the
module's own number where no loader has (log 98). -/
def State.localFor (s : State) (c m : Nat) : Bool :=
  decide (m = 0xFFF) ||
  if isControl c ∨ (s.bank c).kst = .absent then s.localMod m else decide (m = fld (s.bank c).modid 11 0)

/-- A message the device itself makes, ready for its network. -/
def deviceMsg (kind : MKind) (cls : MClass) (haddr : Word) (src dst dmod vd : Nat) (payload : List Word) : Msg where
  w0 := w64 (fld haddr 47 0)
  w1 := hdrWord (if isControl dst then dst - 0x4000_0000 else dst) dmod cls.code payload.length (isControl dst)
  payload := payload
  kind := kind
  mid := 0
  src := src
  dst := dst
  dmod := dmod
  vd := vd
  entry := none
  barred := false
  rect := 0
  rels := []
  abcnt := 0
  eff := []
  order := 0
  hyper := false

/-- Puts a message on its network. This module has one name there: 0xFFF (R21, R177). -/
def State.post (s : State) (m : Msg) : State :=
  { s with net := s.net ++ [if s.localFor m.src m.dmod then { m with dmod := 0xFFF } else m] }

/-- Sends a report to the core reference in bits 30:0 of a word, at the handler in bits 49:32 (R167, R169). A
reference that names no core receives nothing (R488). -/
def State.sendReport (s : State) (src vd : Nat) (target : Word) (payload : List Word) : State :=
  match coreRef (fld target 30 0) with
  | none => s
  | some (dst, m) => s.post (deviceMsg .report .system (w64 (fld target 49 32)) src dst m vd payload)

/-- The word CAUSE holds (R164). -/
def causeWord (code sub : Nat) (anch : Bool) (ctx mid : Nat) : Word :=
  w64 (code + sub * 2 ^ 8 + b2n anch * 2 ^ 16 + ctx * 2 ^ 17 + mid % 2 ^ 16 * 2 ^ 32)

/-- A report of the device that is no trap of a task: its unnamed fields as R167 gives them. -/
def State.deviceReport (s : State) (core : Nat) (target : Word) (cause : Cause) (sub : Nat) (faddr : Word)
    (mid : Nat) (more : List Word) : State :=
  s.sendReport core (s.bank core).vdid target
    ([causeWord cause.code sub false 0 mid, faddr, 0, cidOf core] ++ more)

/-- A report of the module itself, which no core sends: the spec names no source, and it is a free one (log 23). -/
def State.moduleReport (s : State) (vd : Nat) (target : Word) (payload : List Word) : State :=
  let (x, s) := s.draw
  s.sendReport (if bitOf x 18 then controlCore (fld x 5 0) else fld x 17 0) vd target payload

/-! ### Alarm, quench, machine check (R469, R470, R485, R486) -/

/-- Erases a virtual device's keys (R470). -/
def State.quenchVd (s : State) (v : Nat) : State :=
  let s := s.modVd v fun d => { d with quenched := true }
  { s with windows := s.windows.map fun (n, w) => if w.owner = v then (n, { w with key := 0 }) else (n, w) }

/-- Quenches every virtual device. -/
def State.quenchAll (s : State) : State := (List.range 64).foldl State.quenchVd s

/-- The security alarm (R469): source, virtual device (0xFF for none) and host address. -/
def State.alarm (s : State) (source v host : Nat) : State :=
  let s := s.moduleReport v s.hrpt [w64 source, w64 v, w64 host]
  let s := match coreRef (fld s.hrpt 30 0) with
    | some (c, m) =>
      if isControl c && s.localMod m then
        s.modCore c fun x => { x with priv := { x.priv with ipend := x.priv.ipend ||| 4 } }
      else s
    | none => s
  if v = 0xFF then s.quenchAll else
  match fld (s.vdev v).apol 1 0 with
  | 0 => s
  | 1 => s.quenchVd v
  | _ => s.quenchAll

/-- A memory error report (R485): class, memory, address, owner, further corrected errors. -/
def State.errorReport (s : State) (cls mem : Nat) (addr owner more : Nat) : State :=
  s.moduleReport 0xFF s.hrpt [w64 (cls + mem * 256), w64 addr, w64 (owner % 256 + more % 2 ^ 16 * 2 ^ 16)]

/-- The memory code of an error report, and the core, cluster or host address it names (R485). -/
def errorPlace (a : Nat) : Nat × Nat :=
  match regionOf a with
  | .tcm => (1, (a - 2 ^ 41) / 2 ^ 18)
  | .spad => (2, (a - 2 ^ 41 - 2 ^ 36) / 2 ^ 20)
  | .die => (3, a)
  | .hbm => (4, a)

/-- A core of the cluster has failed: it has left the partition map (R29, R462). -/
def Cluster.lost (k : Cluster) : Bool := bitOf k.clown 31

/-- The virtual devices a cluster is assigned to (R462); none where it has left the partition map (R29). -/
def Cluster.vds (k : Cluster) : List Nat :=
  if k.lost then [] else
  (if bitOf k.clown 6 then [fld k.clown 5 0] else []) ++ (if bitOf k.clown 14 then [fld k.clown 13 8] else [])

/-- The cluster is time-shared (R462). -/
def Cluster.shared (k : Cluster) : Bool := bitOf k.clown 6 && bitOf k.clown 14

/-- The clusters of a virtual device. -/
def State.clustersOf (s : State) (v : Nat) : List Nat :=
  (s.clusters.filter fun (_, k) => k.vds.contains v).map (·.1)

/-- STOP received by a core (R172), with the core and module its completion message goes to. A core that has received
it before goes on with that one (log 94). -/
def State.stopCore (s : State) (c : Nat) (sender : Option (Nat × Nat)) : State :=
  s.modCore c fun x => if x.stopped then x else { x with stopped := true, stopBy := sender, saved := false }

/-- The cores that run the copy of a virtual device. -/
def State.coresRunning (s : State) (v : Nat) : List Nat :=
  ((s.clustersOf v).flatMap coresOf).filter fun c => decide ((s.bank c).vdid = v)

/-- The virtual devices that satisfy a test. -/
def vdsWith (p : Nat → Bool) : List Nat := (List.range 64).filter p

/-- The virtual devices whose second stage maps a host frame. -/
def State.frameOwners (s : State) (frame : Nat) : List Nat :=
  vdsWith fun v => (List.range (Nat.min (2 ^ 19) (s.vdev v).s2len.toNat)).any fun f =>
    match s.stage2 v (f * 2 ^ 21) with
    | .ok e => decide (e.frame / 2 ^ 21 = frame)
    | .error _ => false

/-- The virtual device of a key: its own, or that of a window it owns. -/
def State.keyOwner (s : State) (key : Nat) : Option Nat :=
  ((vdsWith fun v => decide (s.keyOf v = some key)).head?).or
    ((s.windows.find? fun e => decide (e.2.key = key) && decide (key ≠ 0)).map (·.2.owner))

/-- The virtual devices that own data in the codeword of a byte of memory (R463, R483, R486): those of a cluster, but of a
time-shared cluster's scratchpad the one whose half it is; of HBM the one whose key the line was written under, else those
whose second stage maps the frame. -/
def State.ownersAt (s : State) (a : Nat) : List Nat :=
  match regionOf a with
  | .tcm => (s.cluster (clusterOf ((a - 2 ^ 41) / 2 ^ 18))).vds
  | .spad =>
    let k := s.cluster ((a - 2 ^ 41 - 2 ^ 36) / 2 ^ 20)
    if k.lost || !k.shared then k.vds
    else if (a - 2 ^ 41 - 2 ^ 36) % 2 ^ 20 < 2 ^ 19 then [fld k.clown 5 0] else [fld k.clown 13 8]
  | .die => s.frameOwners (a / 2 ^ 21)
  | .hbm =>
    match Tab.look s.lines (a / 64) with
    | some l => (s.keyOwner l.key).toList
    | none => s.frameOwners (a / 2 ^ 21)

/-- The codeword of a byte is written whole, and its check symbols with it (R483). -/
def State.renewCodeword (s : State) (a : Nat) : State :=
  { s with uncorrectable := s.uncorrectable.filter fun e => decide (e ≠ codeword a) }

/-- A machine check of a virtual device (R486). -/
def State.machineCheck (s : State) (v a : Nat) : State :=
  let s := (s.coresRunning v).foldl (fun s c => s.stopCore c none) s
  let s := s.modVd v fun d => { d with switchedIn := false, placing := false }
  let s := { s with
    slotTab := s.slotTab.map fun (i, e) => (i, e &&& ~~~(w64 (2 ^ v)))
    msts := { s.msts with mchk := true } }
  s.errorReport 2 (errorPlace a).1 (errorPlace a).2 v 0

/-- An uncorrectable codeword of the virtual devices given (R486): a machine check of each; one that no virtual device owns
is reported and rewritten as zeros. -/
def State.checkAll (s : State) (vs : List Nat) (a : Nat) : State :=
  match vs with
  | [] =>
    let (g, o) := codeword a
    let s := s.errorReport 2 (errorPlace a).1 (errorPlace a).2 0xFF 0
    ({ s with mem := (codewordBytes g o).foldl (fun m b => m.put b 0) s.mem }).renewCodeword a
  | vs => vs.foldl (fun s v => s.machineCheck v a) s

/-- An uncorrectable codeword (R486): a machine check of every virtual device that owns data in it. -/
def State.checkOwners (s : State) (a : Nat) : State := s.checkAll (s.ownersAt a) a

/-! ### Committing stores (R119, R331 to R333, R379 to R383) -/

/-- Notes the value a store supersedes and that the store is performed for the sharers (R333). -/
def State.supersede (s : State) (p : Place) (sharers : List Nat) : State :=
  let w := p.addr / 8
  let h := Tab.get s.hist w []
  let s := { s with hist := Tab.put s.hist w ((s.wordAt p) :: h) }
  sharers.foldl (fun s c => s.modCore c fun x => { x with floors := Tab.put x.floors w (h.length + 1) }) s

/-- The aligned words that cells of one line cover, each once, in order. -/
def cellWords : List (Nat × Byte) → List Nat
  | [] => []
  | (a, _) :: rest =>
    match cellWords rest with
    | [] => [a / 8]
    | w :: ws => if a / 8 = w then w :: ws else (a / 8) :: w :: ws

/-- Writes bytes as they are. -/
def State.pokeCells (s : State) (cells : List (Nat × Byte)) : State :=
  { s with mem := cells.foldl (fun m (a, b) => m.put a b) s.mem }

/-- Commits the cells of one line of translated memory: the superseded values, and for HBM the key, the version and
the checks of R381 and R383. -/
def State.commitLine (s : State) (sharers : List Nat) (line : Nat) (home : Option Home)
    (cells : List (Nat × Byte)) : State :=
  let p (w : Nat) : Place := { addr := 8 * w, home := home }
  let supersedeAll (s : State) : State := (cellWords cells).foldl (fun s w => s.supersede (p w) sharers) s
  let poisoned (s : State) (h : Home) : State :=
    let l : Line := { key := h.key, gline := h.gline, version := s.version h, poison := true }
    { s with lines := Tab.put s.lines line l }
  match home with
  | none =>
    match cells.find? fun (a, _) => s.uncorrectableAt a with
    | some (a, _) => s.checkOwners a
    | none => (supersedeAll s).pokeCells cells
  | some h =>
    let st := s.lineSt { addr := 64 * line, home := home }
    if st = .erased then s
    else if st ≠ .fresh ∧ s.uncorrectableAt (64 * line) then (poisoned s h).checkOwners (64 * line)
    else if st = .bad then (poisoned s h).alarm 1 h.owner (64 * line)
    else
      let v := s.version h + 1
      if 2 ^ 56 ≤ v then s.alarm 2 h.owner (64 * line) else
      let s := if st = .fresh then
          let blank := (List.range 64).map fun i => (64 * line + i, (0 : Byte))
          let ws := (List.range 8).map fun i => 8 * line + i
          let s := (s.pokeCells blank).renewCodeword (64 * line)
          { s with hist := ws.foldl (fun t w =>
              match Tab.look t w with
              | some old => Tab.put t w (old.map fun _ => 0)
              | none => t) s.hist }
        else s
      let s := supersedeAll s
      let s := s.pokeCells cells
      let l : Line := { key := h.key, gline := h.gline, version := v, poison := false }
      ({ s with lines := Tab.put s.lines line l }).setCounter (h.key, 0, h.gline) v

/-- Splits cells in rising order into runs of one line. -/
def cellLines : List (Nat × Byte) → List (Nat × List (Nat × Byte))
  | [] => []
  | (a, b) :: rest =>
    match cellLines rest with
    | [] => [(a / 64, [(a, b)])]
    | (l, cs) :: more => if a / 64 = l then (l, (a, b) :: cs) :: more else (a / 64, [(a, b)]) :: (l, cs) :: more

/-- Commits stored bytes: TCM and scratchpad in place, translated memory line by line. -/
def State.commitCells (s : State) (sharers : List Nat) (homes : Tab Home) (cells : List (Nat × Byte)) : State :=
  (cellLines cells).foldl (fun s (l, cs) =>
    match regionOf (64 * l) with
    | .tcm | .spad => s.pokeCells cs
    | .die => s.commitLine sharers l none cs
    | .hbm => s.commitLine sharers l (Tab.look homes l) cs) s

/-- Notes that the latest store to a word is performed for every core (R333). -/
def State.performNow (s : State) (w : Nat) : State :=
  { s with performed := { rect := none, word := w, ix := (Tab.get s.hist w []).length } :: s.performed }

/-! ### Rolling back (R149, R150, R160) -/

/-- Discards what the chunk of a context holds outside its registers: HELD entries, claims, HELD job slots. -/
def Core.discardChunk (x : Core) (i : Fin 4) : Core :=
  { x with
    sendq := x.sendq.map fun e =>
      if e.st = .held ∧ e.ctx = i.val then Entry.free
      else if e.claim = some i.val then { e with claim := none } else e
    bank := { x.bank with jobs := x.bank.jobs.mapIdx fun n j =>
      if j.st = .held ∧ j.ctx = i.val then Tab.get x.bank.jobsBefore n j else j } }

/-- The queue of a class. -/
def Core.queue (x : Core) : MClass → List Msg
  | .system => x.qSys | .reply => x.qReply | .ordered => x.qOrd | .request => x.qReq

def Core.setQueue (x : Core) (c : MClass) (q : List Msg) : Core :=
  match c with
  | .system => { x with qSys := q }
  | .reply => { x with qReply := q }
  | .ordered => { x with qOrd := q }
  | .request => { x with qReq := q }

/-- A message comes back to the head of its queue (R149); a refusal task to the head of the refusal order (R191). -/
def Core.requeue (x : Core) (cr : CtxRegs) (m : Msg) : Core :=
  if bitOf cr.rfinf 16 then
    { x with refusals := { entry := fld cr.rfinf 4 0, image := m, why := fld cr.rfinf 9 8 } :: x.refusals }
  else x.setQueue m.cls (m :: x.queue m.cls)

/-- The couch aborts a speculative task, or a trap does (R149, R162): the context is FREE and the message waits again
with its abort counted. -/
def State.abortTask (s : State) (c : Nat) (i : Fin 4) : State :=
  let x := s.core c
  let y := x.ctx i
  let x := x.discardChunk i
  let x := match y.msg with
    | some m => x.requeue y.regs.cr { m with abcnt := Nat.min 4 (m.abcnt + 1) }
    | none => x
  s.putCore c (x.putCtx i Ctx.reset)

/-- A chunk restart (R150, R151): the checkpoint's registers, and forced after four in a row. -/
def State.restartChunk (s : State) (c : Nat) (i : Fin 4) : State :=
  let x := (s.core c).discardChunk i
  let y := x.ctx i
  let n := y.restarts + 1
  let r := if 4 ≤ n then y.ckpt.modCr fun cr => { cr with actf := cr.actf ||| 2 } else y.ckpt
  s.putCore c (x.putCtx i
    { y with regs := r, ckpt := r, st := .ready, wait := .none, chunk := Chunk.empty, restarts := n })

/-- A conflict: a speculative task is aborted, an anchored one goes back to its checkpoint (R149, R150). -/
def State.rollBack (s : State) (c : Nat) (i : Fin 4) : State :=
  if (s.ctx c i).anch then s.restartChunk c i else s.abortTask c i

/-- The task of a context is forced (R151). -/
def Ctx.forced (y : Ctx) : Bool := bitOf y.regs.cr.actf 1

/-- The context holds a running chunk. -/
def Ctx.running (y : Ctx) : Bool :=
  match y.st with
  | .ready | .running | .waiting => true
  | .free | .dormant | .suspended | .retained => false

/-- Domain of an ordered message: payload word 1 (R176). -/
def Msg.domain (m : Msg) : Word := m.payload.getD 1 0

/-- The chunk of a context meets written lines (R328, R329). -/
def Ctx.meets (y : Ctx) (w : BitVec 1024) : Bool := (y.chunk.rsig ||| y.chunk.wsig) &&& w != 0

/-- Every context of a cluster. -/
def clusterCtxs (k : Nat) : List (Nat × Fin 4) :=
  (coresOf k).flatMap fun c => [(c, 0), (c, 1), (c, 2), (c, 3)]

/-- The couch aborts or restarts every chunk of the cluster that written lines meet, but for one chunk and the
forced ones (R329). -/
def State.couchAborts (s : State) (k : Nat) (w : BitVec 1024) (self : Option (Nat × Fin 4)) : State :=
  (clusterCtxs k).foldl (fun s (c, i) =>
    let y := s.ctx c i
    if y.running && y.meets w && !y.forced && decide (self ≠ some (c, i)) then s.rollBack c i else s) s

/-- The write signature of cells. -/
def cellsSig (cells : List (Nat × Byte)) : BitVec 1024 :=
  cells.foldl (fun w (a, _) => w ||| sigBit a) 0

/-- Bytes as cells from an address upward. -/
def cellsFrom (a : Nat) : List Byte → List (Nat × Byte)
  | [] => []
  | b :: rest => (a, b) :: cellsFrom (a + 1) rest

/-- The write signature of a hart of a cluster: it aborts what it meets, and the event notes it (R329). -/
def State.hartMeets (s : State) (k : Nat) (w : BitVec 1024) : State :=
  let s := s.couchAborts k w none
  { s with wrote := Tab.put s.wrote k (Tab.get s.wrote k 0 ||| w) }

/-- A protected chunk of a cluster meets what its harts have written in an event: a forced one that runs (R329). -/
def State.hartWaits (s t : State) : Bool :=
  t.wrote.any fun (k, w) => (clusterCtxs k).any fun p =>
    let y := s.ctx p.1 p.2
    y.running && y.forced && y.meets w

/-- An event in which harts commit chunks: where what they write meets a forced chunk that runs, the harts wait for that
chunk, and nothing happens yet (R329). -/
def hartEvent (s : State) (f : State → Out) : Out :=
  match f { s with wrote := [] } with
  | .next t => if s.hartWaits t then .next s else .next { t with wrote := [] }
  | .fault e => .fault e
  | .refused r => .refused r

/-- A chunk of an engine hart or an atomic thread of a cluster (R329): it aborts what its writes meet and commits. -/
def State.hartWrite (s : State) (k : Nat) (home : Option Home) (a : Nat) (bs : List Byte) : State :=
  let cells := cellsFrom a bs
  let s := s.hartMeets k (cellsSig cells)
  let homes : Tab Home := match home with
    | some h => [(a / 64, h)]
    | none => []
  s.commitCells (coresOf k) homes cells

/-! ### Taking a trap (R162 to R167, R375, R376, R460) -/

/-- The alarm that every INTEG raises beside the trap (R383). -/
def State.trapAlarm (s : State) (t : Trap) : State :=
  if t.cause = .integ then s.alarm 1 t.owner t.host else s

/-- The machine check that follows the trap of an uncorrectable codeword (R486). -/
def State.trapCheck (s : State) (t : Trap) : State := if t.cause = .uncorr then s.checkOwners t.host else s

/-- The alarm or the machine check of an access that the device makes, which no task's trap goes before. -/
def State.deviceFails (s : State) (t : Trap) : State := (s.trapAlarm t).trapCheck t

/-- The bits of PGINF that are not reserved (R375). -/
def pginfMask : Word := 0xFFFF_FFFF_FF00_003F

/-- Writes CAUSE, FADDR, FPC and PGINF of a core as one record (R164, R375); reserved bits stay zero (R10). -/
def State.record (s : State) (c : Nat) (i : Fin 4) (t : Trap) (anch : Bool) (fpc : Word) : State :=
  let mid := (s.ctx c i).regs.cr.msgid.toNat
  let (fa, s) := s.orFree t.faddr
  let (pg, s) := s.orFree t.pginf
  let pg := pg &&& pginfMask
  s.modBank c fun b =>
    { b with cause := causeWord t.cause.code t.sub anch i.val mid, faddr := fa, fpc := fpc, pginf := pg }

/-- The trap report of a core's record (R167, R375): to TSVC, or to HRPT for a failure at the second stage (R376). -/
def State.reportTrap (s : State) (c : Nat) (t : Trap) : State :=
  let b := s.bank c
  let more := if t.translated then [b.pginf] else []
  s.sendReport c b.vdid (if t.stage2 then s.hrpt else b.tsvc) ([b.cause, b.faddr, b.fpc, cidOf c] ++ more)

/-- The registers of a level, levels 0 to 2. -/
def levelIx (l : Nat) : Fin 3 := if l = 0 then 0 else if l = 1 then 1 else 2

/-- A value loaded into pc at a level: bits 63:48 are zero (R69), but for an address of the hypervisor window at level 2
(R472; log 26). Bit 0 is not stored. -/
def pcWord (level : Nat) (x : Word) : Word :=
  if level = 2 ∧ fld x 63 48 = 0xFFFF then x &&& ~~~1 else x &&& 0x0000_FFFF_FFFF_FFFE

/-- Entry to a trap level of a control core (R460). -/
def State.enterLevel (s : State) (l : Nat) (epc : Word) : State :=
  let p := s.me.priv
  let i := levelIx l
  let s := s.modMe fun x => { x with priv := { p with
    epc := p.epc.set i epc
    eprv := p.eprv.set i (w64 p.cprv)
    cprv := l } }
  s.setPc (pcWord l p.tvec[i])

/-- The level a trap of a control core enters (R460). -/
def State.trapLevel (s : State) (t : Trap) (hvcall : Bool) : Nat :=
  if hvcall || t.stage2 || decide (s.level = 2) then 2 else 1

/-- A trap on a control core: the record, then the level (R460). `epc` is FPC, but for HVCALL. -/
def State.takeControlTrap (s : State) (t : Trap) (fpc epc : Word) (hvcall : Bool) : State :=
  let s := s.trapAlarm t
  let s := s.record s.focus.1 s.focus.2 t false fpc
  (s.enterLevel (s.trapLevel t hvcall) epc).trapCheck t

/-- TAKING A TRAP at an instruction (R162, R163, R460). A speculative task is aborted, the trap recorded and reported;
an anchored one waits for the commit of its chunk and is then suspended; a control core enters a level. -/
def State.takeTrap (s : State) (t : Trap) (fpc : Word) : State :=
  if s.ctl then s.takeControlTrap t fpc fpc false else
  let c := s.focus.1
  let i := s.focus.2
  let s := s.trapAlarm t
  if s.cx.anch then s.modCx fun y => { y with st := .waiting, wait := .commit (.suspend t fpc fpc) } else
  (((s.record c i t false fpc).abortTask c i).reportTrap c t).trapCheck t

/-- The return from a trap level (R476): false where it traps PRIV instead. -/
def State.mayReturn (s : State) : Bool :=
  decide (fld (s.me.priv.eprv[levelIx s.level]) 1 0 ≤ s.level)

/-- ERET at level L: pc := EPC(L), CPRV := EPRV(L) (R476). -/
def State.returnLevel (s : State) : State :=
  let p := s.me.priv
  let i := levelIx s.level
  let l := fld p.eprv[i] 1 0
  let s := s.modMe fun x => { x with priv := { p with cprv := l } }
  s.setPc (pcWord l p.epc[i])

/-! ### Ending an instruction -/

/-- The context waits. -/
def State.setWait (s : State) (w : Wait) : State := s.modCx fun y => { y with st := .waiting, wait := w }

/-- The chunk of the executing context has an effect outside its registers (R151). -/
def State.hasEffects (s : State) : Bool :=
  let y := s.cx
  !y.chunk.cells.isEmpty || !y.chunk.pend.isEmpty ||
    (s.me.sendq.any fun e =>
      (decide (e.st = .held) && decide (e.ctx = s.focus.2.val)) || decide (e.claim = some s.focus.2.val))

/-- A forced task's instruction with an effect outside the registers is a chunk of its own (R151). -/
def State.settle (s : State) : State :=
  if !s.ctl && s.cx.forced && s.hasEffects && decide (s.cx.wait = .none) then s.setWait (.commit (.next 0)) else s

/-- The outcome of an instruction whose operation answers a next state, traps, waits or gives way. -/
def conclude (s : State) (r : Ans State) : Out :=
  match r with
  | .ok t => .next t.settle
  | .trap t => .next (s.takeTrap t s.pc)
  | .wait w => .next (s.setWait w)
  | .yield => .next (s.rollBack s.focus.1 s.focus.2)

/-- The outcome of an instruction that writes one general register and moves on. -/
def writeG (s : State) (rd : GReg) (x : Word) (len : Nat) : Out := .next ((s.setG rd x).advance len)

/-- A trap is the outcome. -/
def trapOut (s : State) (t : Trap) : Out := .next (s.takeTrap t s.pc)

/-- An instruction of the fabric profile only: ILLEGAL on a control core (R79). -/
def fabricOnly (s : State) (enc : BitVec 32) (k : Out) : Out := if s.ctl then trapOut s (illegalTrap enc) else k

/-- An instruction of the control profile only: ILLEGAL on a fabric core (R79), PRIV below its level (R475). -/
def controlOnly (s : State) (enc : BitVec 32) (least : Nat) (k : Out) : Out :=
  if !s.ctl then trapOut s (illegalTrap enc)
  else if s.level < least then trapOut s (Trap.bare .priv 0) else k

end Sys2Proof.Machine
end

