-- ==== Sys2Proof/Machine/Access.lean ====
section
/-! DEFINITION. Reaching memory: the address maps (R113, R114, R463, R472), the two stages of translation (R360 to
R369, R375), the checks of R118, loads and stores of the executing context, its chunk (R119 to R121, R328, R330),
and the fetch of an instruction's bytes (R122). -/

set_option Elab.async false

namespace Sys2Proof.Machine

/-! ### Tensor maps and the ranges of jobs (R244, R254) -/

/-- Bits hi:lo of a tensor map. -/
def tmFld (t : BitVec 256) (hi lo : Nat) : Nat := (t.toNat >>> lo) % 2 ^ (hi + 1 - lo)
def tmBase (t : BitVec 256) : Nat := tmFld t 47 0
def tmRows (t : BitVec 256) : Nat := tmFld t 74 64
def tmCols (t : BitVec 256) : Nat := tmFld t 90 80
def tmEt (t : BitVec 256) : Nat := tmFld t 98 96
def tmStride (t : BitVec 256) : Nat := tmFld t 159 128
/-- Element size in bytes: 1, 2 or 4 for ET 0, 4 or 5 (R244). -/
def tmSize (t : BitVec 256) : Nat := if tmEt t = 0 then 1 else if tmEt t = 4 then 2 else 4
/-- Bytes from BASE to the end of the last row (R245). -/
def tmSpan (t : BitVec 256) : Nat := (tmRows t - 1) * tmStride t + tmCols t * tmSize t
/-- Address of element (i, j) (R244). -/
def tmElem (t : BitVec 256) (i j : Nat) : Nat := tmBase t + i * tmStride t + j * tmSize t

/-- A range of the core's TCM a job covers: start, length, and whether it is a result range (R254). -/
structure JobRange where
  start : Nat
  len : Nat
  result : Bool
  deriving DecidableEq, Repr

/-- The part of a range that lies in the TCM. -/
def tcmRange (a len : Nat) (result : Bool) : List JobRange :=
  let n := Nat.min len (2 ^ 18 - a)
  if 0 < n then [{ start := a, len := n, result := result }] else []

/-- The scale entries at SCLA or SCLB: n entries of 2 bytes (BF16) or 1 (E8M0) (R48, R254). -/
def scaleRange (cr : CtxRegs) (at_ : Word) (n : Nat) : List JobRange :=
  match fld cr.sclf 1 0 with
  | 1 => tcmRange (fld at_ 17 0) (2 * n) false
  | 2 => tcmRange (fld at_ 17 0) n false
  | _ => []

/-- The destination of a copy in the issuing core's TCM: a local address, or this core's own TCM named as a remote one
(R254, R271). -/
def Job.localDst (j : Job) (own : Nat → Nat → Bool) : Option Nat :=
  let d := j.ops.getD 2 0
  if !bitOf d 63 then some d.toNat else if own (fld d 35 18) (fld d 47 36) then some (fld d 17 0) else none

/-- The job's own ranges, its mailbox apart (R254, R296, R297, R413); `own` tells the core and module that issued it. -/
def Job.body (j : Job) (own : Nat → Nat → Bool) : List JobRange :=
  let op (i : Nat) : Nat := (j.ops.getD i 0).toNat
  let map (t : BitVec 256) (result : Bool) : List JobRange := tcmRange (tmBase t) (tmSpan t) result
  match j.kind with
  | 0 => map j.tmA false ++ map j.tmB false ++ scaleRange j.cr j.cr.scla 16 ++ scaleRange j.cr j.cr.sclb 16
  | 2 => map j.tmA true
  | 3 => map j.tmA false
  | 5 => if op 1 = 0 then tcmRange (op 0) 1024 false else []
  | 6 | 7 =>
    let n := op 3 % 2 ^ 24
    tcmRange (op 0) 32 false ++ tcmRange (op 1) n false ++
      (match j.localDst own with
        | some a => tcmRange a n true
        | none => [])
  | 12 => map j.tmA true
  | 13 => if op 1 / 8 % 2 = 1 then [] else tcmRange (op 0) 128 (decide (op 1 / 4 % 2 = 0))
  | 18 =>
    let n := op 2 % 2 ^ 16
    let size := if op 2 / 2 ^ 24 % 4 = 1 then 8 else if op 2 / 2 ^ 24 % 4 = 2 then 2 else 4
    tcmRange (op 0) 32 false ++ tcmRange (op 1 % 2 ^ 48) (n * size) false ++
      tcmRange (op 4 % 2 ^ 48) (8 * (op 2 / 2 ^ 16 % 256 + 1)) true
  | _ => []

/-- Every range of a job (R254). -/
def Job.ranges (j : Job) (own : Nat → Nat → Bool) : List JobRange :=
  j.body own ++ (if j.mbox = 0 then [] else tcmRange j.mbox.toNat 8 true)

/-- Outstanding: from the kick's commit to the job's end (R254). -/
def Job.outstanding (j : Job) : Bool :=
  match j.st with
  | .queued | .running | .parked => true
  | .free | .held | .ended => false

/-- The interlock holds an access to n bytes of the core's TCM (R121). -/
def State.interlocked (s : State) (c a n : Nat) (store : Bool) : Bool :=
  (s.bank c).jobs.any fun j => j.outstanding &&
    (j.ranges fun core m => decide (core = c) && s.localFor c m).any fun r =>
      (store || r.result) && decide (r.start < a + n) && decide (a < r.start + r.len)

/-- An access to n bytes of the core's TCM, at a place, meets a mailbox that a cancelled job's status is still owed to; a
chunk that has met the place before comes before that store (R329; log 51). -/
def State.owedHolds (s : State) (c a place n : Nat) (sig : BitVec 1024) : Bool :=
  (s.core c).owed.any fun o =>
    decide (o.mbox.toNat < a + n) && decide (a < o.mbox.toNat + 8) && decide (sig &&& sigBit place = 0)

/-! ### Where an address leads (R113, R114, R463, R472) -/

/-- Kinds of access (R113, R367). -/
inductive AccKind where
  | load | store | fetch
  deriving DecidableEq, Repr

/-- The physical byte of the core's TCM behind a logical offset, none for a bank that is not backed. The map is the one
that the loader set when the kernel entered LOADING (R463); without a kernel a time-shared core has no bank backed. -/
def State.tcmByte (s : State) (c off : Nat) : Option Nat :=
  let b := s.bank c
  let x := b.kernel
  if b.kst = .absent then (if (s.cluster (clusterOf c)).shared then none else some (tcmAt c + off)) else
  let bank := off / 8192
  if bank < x.banks - x.rb then some (tcmAt c + (x.base + bank) * 8192 + off % 8192)
  else if 32 - x.rb ≤ bank then
    some (tcmAt c + (x.base + (x.banks - x.rb) + (bank - (32 - x.rb))) * 8192 + off % 8192)
  else none

/-- The physical byte of the cluster's scratchpad behind an offset (R463). -/
def State.spadByte (s : State) (c off : Nat) : Option Nat :=
  let k := s.cluster (clusterOf c)
  if !k.shared then some (spadAt (clusterOf c) + off)
  else if off < 2 ^ 19 then
    some (spadAt (clusterOf c) + (if (s.bank c).vdid = fld k.clown 5 0 then 0 else 2 ^ 19) + off)
  else none

/-- Bytes of the code region of the core's kernel (R202). -/
def State.codeBytes (s : State) (c : Nat) : Nat := (s.bank c).kernel.cb * 8192

/-- Where an address leads before translation. -/
inductive Reach where
  | place (p : Place)
  | translated
  /-- PERM (R113, R114, R472). -/
  | nothing
  deriving DecidableEq, Repr

/-- The map of a fabric core (R113). -/
def State.fabricReach (s : State) (c : Nat) (k : AccKind) (va : Word) : Reach :=
  let a := va.toNat
  if a < 2 ^ 18 then
    let code := decide (a < s.codeBytes c)
    let allowed := match k with
      | .load => true
      | .store => !code
      | .fetch => code
    if !allowed then .nothing else
    match s.tcmByte c a with
    | some p => .place { addr := p, home := none }
    | none => .nothing
  else if 2 ^ 20 ≤ a ∧ a < 2 ^ 21 then
    if k = .fetch then .nothing else
    match s.spadByte c (a - 2 ^ 20) with
    | some p => .place { addr := p, home := none }
    | none => .nothing
  else if 2 ^ 32 ≤ a ∧ a < 2 ^ 48 then .translated
  else .nothing

/-- The map of a control core at a privilege level (R114, R472). -/
def State.controlReach (s : State) (level : Nat) (va : Word) : Reach :=
  let a := va.toNat
  if a < 2 ^ 48 then .translated
  else if a / 2 ^ 48 = 0xFFFF ∧ a / 2 ^ 41 % 2 ^ 7 = 0 ∧ level = 2 then
    match hostPlace (a % 2 ^ 41) (some (s.hypHome (a % 2 ^ 41))) with
    | some p => .place p
    | none => .nothing
  else .nothing

/-- Who asks for an access (R360): the core whose address map it has, the agent that holds its translations and makes its
loads, virtual device, space, and a control core's privilege level. -/
structure Asker where
  core : Nat
  agent : Nat
  vd : Nat
  sid : Nat
  level : Nat
  deriving DecidableEq, Repr

/-- A core for itself. -/
def State.asker (s : State) (c : Nat) : Asker where
  core := c
  agent := c
  vd := (s.bank c).vdid
  sid := fld (s.bank c).sidr 15 0
  level := (s.core c).priv.cprv

/-- The agents beside the cores: the placer and the launch mapper; the copy unit of a core's cluster or I/O die; a port.
Each stands in the table of cores, for its TLB and its load floors (log 95). -/
def deviceAgent : Nat := 2 ^ 31
def copyAgent (c : Nat) : Nat :=
  2 ^ 31 + 1 + (if isControl c then 2 ^ 15 + (c - 0x4000_0000) / 32 else clusterOf c)
def portAgent (port : Nat) : Nat := 2 ^ 31 + 2 ^ 17 + port

/-- The copy unit for a core, under the space sampled at the kick. -/
def State.copyAsker (s : State) (c sid : Nat) : Asker := { s.asker c with agent := copyAgent c, sid := sid }

/-- The agents whose loads see a commit of a cluster at once (R331, R333). -/
def clusterAgents (k : Nat) : List Nat := coresOf k ++ [2 ^ 31 + 1 + k]
/-- Those of a core's own commits. -/
def agentsOf (c : Nat) : List Nat := if isControl c then [c] else clusterAgents (clusterOf c)

/-- Where an address leads. -/
def State.reachAs (s : State) (q : Asker) (k : AccKind) (va : Word) : Reach :=
  if isControl q.core then s.controlReach q.level va else s.fabricReach q.core k va

/-- Where an address of a core leads. -/
def State.reach (s : State) (c : Nat) (k : AccKind) (va : Word) : Reach := s.reachAs (s.asker c) k va

/-! ### The value a load returns (R331, R333, R334) -/

/-- The aligned word at a place as a load of an agent returns it: the coherence-latest store, or any store the load's
floor and the least index given admit. The store returned becomes the floor of the agent's next load of the word. -/
def State.loadFrom (s : State) (c : Nat) (least : Nat) (p : Place) : Word × State :=
  let q : Place := { p with addr := p.addr / 8 * 8 }
  match regionOf q.addr with
  | .tcm | .spad => (s.wordAt q, s)
  | .hbm | .die =>
    let w := q.addr / 8
    let old := Tab.get s.hist w []
    let n := old.length
    let fl := Nat.max least (Tab.get (s.core c).floors w 0)
    if n ≤ fl then (s.wordAt q, s) else
    let (r, s) := s.pick
    let k := fl + r % (n - fl + 1)
    let s := s.modCore c fun x => { x with floors := Tab.put x.floors w k }
    (if k = n then s.wordAt q else old.getD (n - 1 - k) 0, s)

/-- A load of translated memory. -/
def State.loadWord (s : State) (c : Nat) (p : Place) : Word × State := s.loadFrom c 0 p

/-! ### Translation (R360 to R369) -/

/-- PGINF (R375). -/
def XFail.pginf (f : XFail) : Word :=
  w64 (f.level + b2n f.stage2 * 4 + f.reason * 8 + f.gpa % 2 ^ 40 * 2 ^ 24)

/-- The home of a guest line of a virtual device, under its own key or a window's (R366, R379, R384). -/
def State.guestHome (s : State) (v win gpa : Nat) : Home :=
  if win = 0 then { key := (s.keyOf v).getD 0, gline := gpa / 64, owner := v } else
  let w := (Tab.look s.windows win).getD { key := 0, owner := v, grants := 0, count := 0 }
  { key := w.key, gline := gpa / 64, owner := w.owner }

/-- The place of a guest address through a second-stage entry. -/
def State.guestPlace (s : State) (v : Nat) (e : S2) (gpa : Nat) : Place :=
  let a := e.frame + gpa % 2 ^ 21
  { addr := a, home := if a < 2 ^ 40 then some (s.guestHome v e.win gpa) else none }

/-- A window admits a virtual device: its owner, or one of the grant mask (R468). -/
def State.windowOk (s : State) (v win : Nat) : Bool :=
  if win = 0 then true else
  match Tab.look s.windows win with
  | some w => decide (w.owner = v) || w.grants.getLsbD v
  | none => false

/-- One table read of a walk (R362, R365, R367): a load that sees the tables at least as the last invalidation's kick left
them (R372). A window that does not admit the virtual device refuses it (R468). -/
def State.tableWord (s : State) (c v lv gpa : Nat) : Except XFail Word × State :=
  match s.stage2 v gpa with
  | .error f => (.error { f with gpa := gpa }, s)
  | .ok e =>
    if !e.r then (.error (XFail.plain 0 true 3 gpa), s)
    else if !s.windowOk v e.win then (.error { XFail.plain lv false 0 gpa with barred := true }, s) else
    let p := s.guestPlace v e gpa
    match s.readFails p 8 with
    | some e => (.error (XFail.ofRead lv false gpa p e), s)
    | none =>
      let (x, s) := s.loadFrom c (Tab.get (s.vdev v).walkFloor (p.addr / 8) 0) p
      (.ok x, s)

/-- Malformed at a level (R363). -/
def malformed (lv : Nat) (e : Word) : Bool :=
  fld e 11 5 != 0 || fld e 63 40 != 0 ||
  (if lv < 3 then fld e 4 1 != 0 || fld e 13 12 != 0
   else fld e 3 1 == 0 || (bitOf e 2 && !bitOf e 1) || fld e 15 12 != 0 || (bitOf e 4 && fld e 20 16 != 0))

/-- The table address an entry of level 1 or 2, or a root, names. -/
def entryAddr (e : Word) : Nat := fld e 39 12 * 2 ^ 12

/-- Levels 1 to 3 of the walk (R362); `n` is the levels left. -/
def State.walkFrom (s : State) (c v a t : Nat) : Nat → Except XFail (Word × Nat) × State
  | 0 => (.error (XFail.plain 0 false 1 0), s)
  | n + 1 =>
    let lv := 3 - n
    let i := if lv = 1 then a / 2 ^ 37 % 2 ^ 11 else if lv = 2 then a / 2 ^ 26 % 2 ^ 11 else a / 2 ^ 16 % 2 ^ 10
    let ga := t + 8 * i
    match s.tableWord c v lv ga with
    | (.error f, s) => (.error f, s)
    | (.ok e, s) =>
      if !bitOf e 0 then (.error (XFail.plain lv false 1 ga), s)
      else if malformed lv e then (.error (XFail.plain lv false 2 ga), s)
      else if lv < 3 then s.walkFrom c v a (entryAddr e) n
      else (.ok (e, ga), s)

/-- The whole walk of a page (R362, R364, R366) for a requester: the agent whose loads it makes, virtual device and
space. A window that does not admit the virtual device refuses it (R468). -/
def State.walk (s : State) (c v sid : Nat) (va : Word) : Except XFail TlbEntry × State :=
  let a := va.toNat
  match s.hyperWord false 0 ((s.vdev v).sidtb.toNat + 8 * sid) with
  | .error f => (.error f, s)
  | .ok root =>
    if !bitOf root 0 then (.error (XFail.plain 0 false 1 0), s)
    else if malformed 1 root then (.error (XFail.plain 0 false 2 0), s)
    else
      match s.walkFrom c v a (entryAddr root) 3 with
      | (.error f, s) => (.error f, s)
      | (.ok (e, _), s) =>
        let gpa := if bitOf e 4 then fld e 39 21 * 2 ^ 21 + a / 2 ^ 16 % 32 * 2 ^ 16 else fld e 39 16 * 2 ^ 16
        match s.stage2 v (gpa + a % 2 ^ 16) with
        | .error f => (.error { f with lg := some (bitOf e 4) }, s)
        | .ok e2 =>
          (.ok { vd := v, sid := sid, page := a / 2 ^ 16, gpa := gpa, hpa := e2.frame + gpa % 2 ^ 21,
                 win := e2.win, admitted := s.windowOk v e2.win, lg := bitOf e 4, r1 := bitOf e 1, w1 := bitOf e 2
                 x1 := bitOf e 3, r2 := e2.r, w2 := e2.w, x2 := e2.x }, s)

/-- A walk is cached by an agent, in place of what it held for the page; the module remembers the translation until an
invalidation removes it (R365, R372). One that a window refuses is not cached. -/
def State.cacheWalk (s : State) (c : Nat) (f : TlbEntry) : State :=
  if !f.admitted then s else
  let s := s.modCore c fun x =>
    { x with tlb := f :: x.tlb.filter fun g => !(g.vd = f.vd && g.sid = f.sid && g.page = f.page) }
  if s.walked.contains f then s else { s with walked := f :: s.walked }

/-- A translation as a requester uses it: a cached one while it agrees with the tables, either of the two while it is
stale (R368, R477), a fresh walk otherwise, which is then cached (R365). -/
def State.xlate (s : State) (q : Asker) (va : Word) : Except XFail TlbEntry × State :=
  let hit := (s.core q.agent).tlb.find? fun e =>
    decide (e.vd = q.vd) && decide (e.sid = q.sid) && decide (e.page = va.toNat / 2 ^ 16)
  let (w, s) := s.walk q.agent q.vd q.sid va
  let fresh (s : State) : Except XFail TlbEntry × State :=
    match w with
    | .ok f => (.ok f, s.cacheWalk q.agent f)
    | .error f => (.error f, s)
  match hit with
  | none => fresh s
  | some e =>
    let same := match w with
      | .ok f => decide (e = f)
      | .error _ => false
    if same then (.ok e, s) else
    let (n, s) := s.pick
    if n % 2 = 0 then (.ok e, s) else fresh s

/-- A permission that a translation refuses (R115, R367). -/
def TlbEntry.refuses (e : TlbEntry) (k : AccKind) (gpa : Nat) : Option XFail :=
  let no (level : Nat) (st2 : Bool) : Option XFail := some { XFail.plain level st2 3 gpa with lg := some e.lg }
  match k with
  | .load => if !e.r1 then no 3 false else if !e.r2 then no 0 true else none
  | .store => if !e.w1 then no 3 false else if !e.w2 then no 0 true else none
  | .fetch => if !e.x1 || e.w1 then no 3 false else if !e.x2 then no 0 true else none

/-- VDPERM of a window (R468): the access was translated; PGINF has no REASON for it, and is a free value (log 15). -/
def barredTrap (va : Word) : Trap := { Trap.at_ .vdperm 0 va with translated := true }

/-- The trap of a failed translation (R375). -/
def XFail.trap (f : XFail) (k : AccKind) (va : Word) : Trap :=
  if f.barred then barredTrap va else
  let (cause, sub) : Cause × Nat :=
    match f.reason with
    | 3 => (.perm, 0)
    | 5 => (.integ, b2n f.erased)
    | 6 => (.uncorr, 0)
    | _ => match k with
      | .load => (.pageR, 0)
      | .fetch => (.pageR, 1)
      | .store => (.pageW, 0)
  { cause := cause, sub := sub, faddr := some va, pginf := some f.pginf, translated := true, stage2 := f.stage2,
    host := f.host, owner := f.owner }

/-- The place of a page's byte under a translation. -/
def State.pagePlace (s : State) (e : TlbEntry) (va : Word) : Place :=
  let off := va.toNat % 2 ^ 16
  let a := e.hpa + off
  { addr := a, home := if a < 2 ^ 40 then some (s.guestHome e.vd e.win (e.gpa + off)) else none }

/-- A place an access may use, and whether it was translated. -/
structure Found where
  place : Place
  translated : Bool
  /-- Translated through a 2 MiB page. -/
  lg : Bool
  deriving DecidableEq, Repr

/-- An access of a translation: its place, or what refuses it. -/
def State.through (s : State) (e : TlbEntry) (k : AccKind) (va : Word) : Except Trap Found :=
  match e.refuses k (e.gpa + va.toNat % 2 ^ 16) with
  | some f => .error (f.trap k va)
  | none =>
    if !e.admitted then .error (barredTrap va)
    else .ok { place := s.pagePlace e va, translated := true, lg := e.lg }

/-- Items 2 to 4 of R118, and R122: where an access of a requester leads, or its trap. -/
def State.findAs (s : State) (q : Asker) (k : AccKind) (va : Word) : Except Trap Found × State :=
  match s.reachAs q k va with
  | .nothing => (.error (Trap.at_ .perm 0 va), s)
  | .place p => (.ok { place := p, translated := false, lg := false }, s)
  | .translated =>
    match s.xlate q va with
    | (.error f, s) => (.error (f.trap k va), s)
    | (.ok e, s) => (s.through e k va, s)

/-- Where an access of a core leads. -/
def State.find (s : State) (c : Nat) (k : AccKind) (va : Word) : Except Trap Found × State := s.findAs (s.asker c) k va

/-- The chunk of the executing context has used a translation (R372). -/
def State.noteUse (s : State) (translated lg : Bool) (va : Word) : State :=
  if s.ctl || !translated then s else
  let u : Used := { sid := fld s.me.bank.sidr 15 0, page := va.toNat / 2 ^ 16, lg := lg }
  s.modCx fun y => if y.chunk.used.contains u then y else { y with chunk := { y.chunk with used := u :: y.chunk.used } }

/-- Item 5 of R118 for n bytes of data that are read: UNCORR, then INTEG, then quenched memory (R382, R470). -/
def State.dataTrap (s : State) (f : Found) (va : Word) (n : Nat) : Option Trap :=
  (s.readFails f.place n).map fun (cause, sub, host) =>
    { Trap.at_ cause sub va with translated := f.translated, host := host, owner := f.place.owner }

/-! ### Loads of the executing context (R118, R120, R121, R130) -/

/-- The chunk's own bytes over a word (R85, R120). -/
def overlay (cells : List (Nat × Byte)) (a : Nat) (w : Word) : List Byte :=
  (List.range 8).map fun i =>
    match Tab.look cells (a + i) with
    | some b => b
    | none => BitVec.ofNat 8 (w.toNat / 256 ^ i)

/-- The read of n bytes of one aligned word at a place: the task's own latest write, else what the memory model
gives; it sets the read signature (R328). A window access meets no cache (R472). -/
def State.readPlace (s : State) (f : Found) (n : Nat) : Nat × State :=
  let p := f.place
  let (w, s) := if f.translated then s.loadWord s.focus.1 p else (s.wordAt p, s)
  let a := p.addr / 8 * 8
  let bs := overlay s.cx.chunk.cells a w
  let x := ofBytes ((bs.drop (p.addr % 8)).take n)
  if s.ctl then (x, s) else
  (x, s.modCx fun y => { y with chunk := { y.chunk with rsig := y.chunk.rsig ||| sigBit p.addr } })

/-- An access of the executing context to n bytes of its TCM waits for a job (R121, R255). -/
def State.held (s : State) (p : Place) (va : Word) (n : Nat) (store : Bool) : Bool :=
  s.interlocked s.focus.1 va.toNat n store ||
    s.owedHolds s.focus.1 va.toNat p.addr n (s.cx.chunk.rsig ||| s.cx.chunk.wsig)

/-- A load of n bytes (1, 2, 4 or 8) at an address (R118, R130). -/
def State.load (s : State) (va : Word) (n : Nat) : Ans (Nat × State) :=
  if va.toNat % n ≠ 0 then .trap (Trap.at_ .misalign 0 va) else
  match s.find s.focus.1 .load va with
  | (.error t, _) => .trap t
  | (.ok f, s) =>
    match s.dataTrap f va n with
    | some t => .trap t
    | none =>
      if !s.ctl && decide (regionOf f.place.addr = .tcm) && s.held f.place va n false then .wait .again
      else .ok ((s.noteUse f.translated f.lg va).readPlace f n)

/-! ### What the ports read of their contexts (R443, R473) -/

/-- A word of hypervisor memory that the device writes (R472). -/
def State.hyperWrite (s : State) (a : Nat) (x : Word) : State :=
  match hostPlace a (some (s.hypHome a)) with
  | none => s
  | some p => s.commitCells [] p.homes (cellsFrom p.addr (toBytes 8 x.toNat))

/-- The alarm or the machine check of a table read of the device that fails (R383, R486). -/
def State.tableFails (s : State) (f : XFail) : State := s.deviceFails (f.trap .load 0)

/-- Host address of a port's context (R473). -/
def State.portCtxAt (s : State) (port q : Nat) : Nat := fld (Tab.get s.pctb port 0) 40 0 + 128 * q

/-- A word of a port's copy of its context; 0 where it holds none. -/
def State.portWord (s : State) (port q off : Nat) : Word :=
  ((Tab.look s.portCtxs (port * 4096 + q)).getD []).getD (off / 8) 0

/-- n words of hypervisor memory, or the failure of the first that cannot be read. -/
def State.hyperWords (s : State) (a : Nat) : Nat → Except XFail (List Word)
  | 0 => .ok []
  | n + 1 =>
    match s.hyperWord false 0 a with
    | .error f => .error f
    | .ok x =>
      match s.hyperWords (a + 8) n with
      | .error f => .error f
      | .ok xs => .ok (x :: xs)

/-- The port may serve a context: V is set and KIND is the port's (R473); the storage port serves 64 queue pairs of a
virtual device, and no namespace of two (R443; log 110). -/
def State.portTakes (s : State) (port q : Nat) (ws : List Word) : Bool :=
  let ctl := ws.getD 0 0
  let others := (s.portCtxs.filter fun (k, _) => decide (k / 4096 = 2) && decide (k % 4096 ≠ q)).map (·.2)
  let same (o : List Word) : Bool := decide (fld (o.getD 0 0) 5 0 = fld ctl 5 0)
  bitOf ctl 6 && decide (fld ctl 11 8 = (if port = 2 then 0 else 1)) &&
    (decide (port ≠ 2) || (decide ((others.filter same).length < 64) &&
      others.all fun o => same o || decide (fld (o.getD 10 0) 31 0 ≠ fld (ws.getD 10 0) 31 0)))

/-- The port reads a context: it holds a valid one. -/
def State.portRead (s : State) (port q : Nat) : State :=
  let dropped : State := { s with portCtxs := Tab.drop s.portCtxs (port * 4096 + q) }
  match s.hyperWords (s.portCtxAt port q) 16 with
  | .error f => dropped.tableFails f
  | .ok ws => if s.portTakes port q ws then { s with portCtxs := Tab.put s.portCtxs (port * 4096 + q) ws } else dropped

/-- The word CTL of a context has been written: the port reads the context when V becomes 1, and holds none while V is 0
(R473). -/
def State.portLook (s : State) (port q : Nat) : State :=
  match s.hyperWord false 0 (s.portCtxAt port q) with
  | .ok x =>
    if bitOf x 6 && (Tab.look s.portCtxs (port * 4096 + q)).isSome then s
    else if bitOf x 6 then s.portRead port q
    else { s with portCtxs := Tab.drop s.portCtxs (port * 4096 + q) }
  | .error f => s.tableFails f

/-- A word of memory has been written: the ports see it where it is CTL of a context of theirs. -/
def State.portsSee (s : State) (a : Nat) : State :=
  [0, 1, 2].foldl (fun s port =>
    let w := Tab.get s.pctb port 0
    let base := fld w 40 0
    let q := (a - base) / 128
    if base ≤ a ∧ (a - base) % 128 < 8 ∧ q ≤ fld w 55 44 then s.portLook port q else s) s

/-- A write to PCTB: the port reads the contexts of its new table that are valid (R473). -/
def State.writePctb (s : State) (port : Nat) (x : Word) : State :=
  let s := { s with
    pctb := Tab.put s.pctb port x
    portCtxs := s.portCtxs.filter fun (k, _) => decide (k / 4096 ≠ port) }
  (List.range (fld x 55 44 + 1)).foldl (fun s q => s.portLook port q) s

/-! ### Stores of the executing context (R118, R119, R131, R330) -/

/-- The words of the chunk in the TCM, or in its other memories. -/
def Chunk.words (k : Chunk) (tcm : Bool) : List Nat :=
  (cellWords k.cells).filter fun w => decide (regionOf (8 * w) = .tcm) == tcm

/-- A store needs an entry and none is free: 512 in the undo log, 64 in the store buffer (R119). -/
def Chunk.full (k : Chunk) (a : Nat) : Bool :=
  let tcm := decide (regionOf a = .tcm)
  let ws := k.words tcm
  !ws.contains (a / 8) && decide ((if tcm then 512 else 64) ≤ ws.length)

/-- Lexicographic order of ranks (R311). -/
def rankLt : List Nat → List Nat → Bool
  | [], [] => false
  | [], _ :: _ => true
  | _ :: _, [] => false
  | a :: as, b :: bs => if a < b then true else if b < a then false else rankLt as bs

/-- The ordered message a context runs. -/
def Ctx.ordered (y : Ctx) : Option Msg :=
  match y.msg with
  | some m => if m.cls = .ordered ∧ m.kind = .task ∧ !bitOf y.regs.cr.rfinf 16 then some m else none
  | none => none

/-- A task is older than another of its domain (R311). -/
def olderInDomain (a b : Ctx) : Bool :=
  match a.ordered, b.ordered with
  | some m, some n => decide (m.vd = n.vd) && decide (m.domain = n.domain) && rankLt m.eff n.eff
  | _, _ => false

/-- An ordered message of a virtual device and a domain. -/
def Msg.inDomain (m : Msg) (v : Nat) (d : Word) : Bool := decide (m.vd = v) && decide (m.domain = d)

/-- The ordered messages that a save keeps (R172, R173). -/
def Saved.ordereds (v : Saved) : List Msg := v.qOrd ++ v.ctxs.toList.filterMap Ctx.ordered

/-- The ordered messages a core holds in its queue and in the saves of its copies. -/
def Core.ordereds (x : Core) : List Msg :=
  x.qOrd ++ (x.bank.save.toList ++ x.other.save.toList).flatMap Saved.ordereds

/-- The ordered messages present on a cluster and uncommitted: those in its queues, those of its tasks, and those of either
kind that a save keeps until START restores them (R172, R311). -/
def State.presentOrdered (s : State) (k : Nat) (self : Nat × Fin 4) : List Msg :=
  (coresOf k).flatMap (fun c => (s.core c).ordereds) ++
  (clusterCtxs k).filterMap fun (c, i) => if (c, i) = self then none else (s.ctx c i).ordered

/-- The task of a context is the oldest of its domain on its cluster, or unordered (R87, R311). -/
def State.oldestInDomain (s : State) (c : Nat) (i : Fin 4) : Bool :=
  match (s.ctx c i).ordered with
  | none => true
  | some m => (s.presentOrdered (clusterOf c) (c, i)).all fun n => !(n.inDomain m.vd m.domain && rankLt n.eff m.eff)

/-- The context waits for the commit of its chunk. -/
def Ctx.atPoint (y : Ctx) : Bool :=
  match y.st, y.wait with
  | .waiting, .commit _ => true
  | _, _ => false

/-- The running chunks of the cluster that the chunk of a context waits for at its commit: the forced ones that its
written lines meet (R329), and those of older tasks of its domain (R87, R311). It never waits for a younger task of
its domain (R311). -/
def State.waitsFor (s : State) (p : Nat × Fin 4) : List (Nat × Fin 4) :=
  let x := s.ctx p.1 p.2
  (clusterCtxs (clusterOf p.1)).filter fun q =>
    let y := s.ctx q.1 q.2
    decide (q ≠ p) && y.running && !olderInDomain x y &&
      ((y.forced && y.meets x.chunk.wsig) || olderInDomain y x)

/-- The chunks that a chunk waits for, and those that they wait for in turn (R329). -/
def State.reaches (s : State) (from_ : List (Nat × Fin 4)) : Nat → List (Nat × Fin 4)
  | 0 => from_
  | n + 1 =>
    let more := from_.flatMap fun q => if (s.ctx q.1 q.2).atPoint then s.waitsFor q else []
    s.reaches (from_ ++ more.filter fun q => !from_.contains q) n

/-- A running chunk has written a TCM word (R330). -/
def Ctx.wrote (y : Ctx) (w : Nat) : Bool := y.running && (cellWords y.chunk.cells).contains w

/-- The executing task is the oldest present of its domain, and a context's task is a younger one of it (R330). -/
def State.seniorTo (s : State) (y : Ctx) : Bool :=
  olderInDomain s.cx y && s.oldestInDomain s.focus.1 s.focus.2

/-- A wait for the commit of a context's chunk would run in a circle back to the executing task, which is ordered
(R329, R330). -/
def State.inCircle (s : State) (j : Fin 4) : Bool :=
  s.cx.ordered.isSome && (s.reaches [(s.focus.1, j)] 32).contains s.focus

/-- A context of the executing core runs the oldest task present of its domain, and the executing task is a younger one of
it: nothing of the executing task rolls it back (R311). -/
def State.juniorTo (s : State) (j : Fin 4) : Bool :=
  olderInDomain (s.ctx s.focus.1 j) s.cx && s.oldestInDomain s.focus.1 j

/-- What one other context of the core means for a store to a TCM word (R330): the store waits for a forced chunk, but
in a circle; the chunk of a forced task or of the oldest task of the domain rolls the other back; any other chunk is
itself rolled back. A forced task waits for the oldest one of its own domain, which it may not roll back (R311; log 39). -/
def State.storeConflict (s : State) (w : Nat) (j : Fin 4) : Ans State :=
  let c := s.focus.1
  let y := s.ctx c j
  let senior := s.juniorTo j
  let first := (s.cx.forced && !senior) || s.seniorTo y
  if j = s.focus.2 ∨ !y.wrote w then .ok s
  else if y.forced || (senior && s.cx.forced) then (if first || s.inCircle j then .ok s else .wait .again)
  else if first then .ok (s.rollBack c j)
  else .yield

/-- R330 over the four contexts of the core. -/
def State.storeConflicts (s : State) (w : Nat) : Ans State :=
  (s.storeConflict w 0).bind fun s => (s.storeConflict w 1).bind fun s =>
    (s.storeConflict w 2).bind fun s => s.storeConflict w 3

/-- Puts bytes into the chunk at a place (R119, R328). -/
def Chunk.write (k : Chunk) (p : Place) (bs : List Byte) : Chunk :=
  { k with
    cells := (cellsFrom p.addr bs).foldl (fun t (a, b) => Tab.put t a b) k.cells
    homes := match p.home with
      | some h => Tab.put k.homes (p.addr / 64) h
      | none => k.homes
    wsig := k.wsig ||| sigBit p.addr }

/-- A write of bytes of one aligned word at a place that may be stored to: a control core's is performed at once
(R339, R472); a fabric core's enters the chunk, after an implicit commit point where it finds no entry (R119). -/
def State.writePlace (s : State) (p : Place) (bs : List Byte) : Ans State :=
  if s.ctl then
    .ok ((s.commitCells [s.focus.1] p.homes (cellsFrom p.addr bs)).portsSee p.addr)
  else if s.cx.chunk.full p.addr then .wait (.commit .again)
  else
    let conflict := if regionOf p.addr = .tcm then s.storeConflicts (p.addr / 8) else .ok s
    conflict.bind fun s => .ok (s.modCx fun y => { y with chunk := y.chunk.write p bs })

/-- Item 5 of R118 for a store of n bytes: a write in place to an uncorrectable codeword of TCM or scratchpad, and every
failure of the data that a control core's store meets, which is performed before the next instruction issues. A fabric
core's store to translated memory is checked at its commit (R383). -/
def State.storeTrap (s : State) (f : Found) (va : Word) (n : Nat) : Option Trap :=
  match regionOf f.place.addr with
  | .tcm | .spad => s.dataTrap f va n
  | .hbm | .die => if s.ctl then s.dataTrap f va n else none

/-- The checks of a store of n bytes, and where it goes (R118, R121). -/
def State.storeFind (s : State) (va : Word) (n : Nat) : Ans (Place × State) :=
  if va.toNat % n ≠ 0 then .trap (Trap.at_ .misalign 0 va) else
  match s.find s.focus.1 .store va with
  | (.error t, _) => .trap t
  | (.ok f, s) =>
    match s.storeTrap f va n with
    | some t => .trap t
    | none =>
      if !s.ctl && decide (regionOf f.place.addr = .tcm) && s.held f.place va n true then .wait .again
      else .ok (f.place, s.noteUse f.translated f.lg va)

/-- A store of the low n bytes (1, 2, 4 or 8) of a value at an address (R118, R131). -/
def State.store (s : State) (va : Word) (n : Nat) (x : Nat) : Ans State :=
  (s.storeFind va n).bind fun (p, s) => s.writePlace p (toBytes n x)

/-- n words of memory at an address, each loaded as R118 lays down. -/
def State.loadWords (s : State) (va : Word) : Nat → Ans (List Word × State)
  | 0 => .ok ([], s)
  | n + 1 => (s.load va 8).bind fun (x, s) =>
    (s.loadWords (va + 8) n).bind fun (xs, s) => .ok (w64 x :: xs, s)

/-! ### Fetch (R56, R58, R115, R122) -/

/-- Item 5 of R118 for the 64-byte line that a fetch reads (R115, R122). -/
def State.lineTrap (s : State) (f : Found) (va : Word) : Option Trap :=
  s.dataTrap { f with place := { f.place with addr := f.place.addr / 64 * 64 } } va 64

/-- The halfword at an address as the executing core fetches it. The instruction cache is never stale against a store
(R115; log 92): only a stale translation can lead elsewhere. -/
def State.fetchHalf (s : State) (va : Word) : Except Trap (BitVec 16) × State :=
  match s.find s.focus.1 .fetch va with
  | (.error t, s) => (.error t, s)
  | (.ok f, s) =>
    match s.lineTrap f va with
    | some t => (.error t, s)
    | none =>
      let s := s.noteUse f.translated f.lg va
      (.ok (BitVec.ofNat 16 ((s.wordAt f.place).toNat / 256 ^ (f.place.addr % 8))), s)

/-- What the fetch at the pc gives (R56, R58). -/
inductive Fetched where
  | bytes (bs : List Byte)
  | fault (second : Bool) (t : Trap)
  deriving DecidableEq, Repr

/-- The two bytes of a halfword. -/
def halfBytes (h : BitVec 16) : List Byte := [h.extractLsb' 0 8, h.extractLsb' 8 8]

/-- The fetch of the instruction at the pc: its first halfword, and its second where bits 15:14 of the first are 11
(R56). -/
def State.fetch (s : State) : Fetched × State :=
  match s.fetchHalf s.pc with
  | (.error t, s) => (.fault false t, s)
  | (.ok h, s) =>
    if h.extractLsb' 14 2 ≠ 3 then (.bytes (halfBytes h), s) else
    match s.fetchHalf (s.pc + 2) with
    | (.error t, s) => (.fault true t, s)
    | (.ok h2, s) => (.bytes (halfBytes h ++ halfBytes h2), s)

end Sys2Proof.Machine
end

