-- ==== Sys2Proof/Machine/Operands.lean ====
section
/-! DEFINITION. Operand forms: the addresses of loads, stores, branches and jumps (R123, R129 to R134), the
executing context's view of per-core registers (R139, R195, R236, R246), ring handles (R194), predicates and lanes
(R217 to R219), and control registers by number (R72, R73, R75, R138). -/

set_option Elab.async false

namespace Sys2Proof.Machine

/-! ### Addresses -/

/-- rs1 plus a sign-extended offset (R130). -/
def State.ea (s : State) (rs1 : GReg) (imm : BitVec 11) : Word := s.g rs1 + sx imm

/-- pc plus a sign-extended count of halfwords (R57, R132, R133). -/
def State.target {n : Nat} (s : State) (off : BitVec n) : Word := s.pc + sx off * 2

/-- A control transfer to a target, its link already chosen: PERM where bits 63:48 are set (R123). -/
def State.transfer (s : State) (t : Word) (link : Option (GReg × Word)) : Out :=
  if fld t 63 48 ≠ 0 then trapOut s (Trap.at_ .perm 0 t) else
  let s := match link with
    | some (rd, x) => s.setG rd x
    | none => s
  .next (s.setPc t)

/-! ### Per-core registers as the executing context sees them (R139) -/

/-- The value of one of the registers a chunk can write. -/
def Bank.coreReg (b : Bank) : CoreReg → Word
  | .rfh => b.rfh | .smh => b.smh | .sqfh => b.sqfh | .stpl => b.stpl | .stfr => b.stfr | .rvh => b.rvh
  | .sidr => b.sidr

def Bank.setCoreReg (b : Bank) (r : CoreReg) (x : Word) : Bank :=
  match r with
  | .rfh => { b with rfh := x }
  | .smh => { b with smh := x }
  | .sqfh => { b with sqfh := x }
  | .stpl => { b with stpl := x }
  | .stfr => { b with stfr := x }
  | .rvh => { b with rvh := x }
  | .sidr => { b with sidr := x }

/-- A write to a user table slot and SFST (R235, R236). -/
def Bank.setUser (b : Bank) (t : Nat) (tab : Option UserTable) (monok : Bool) : Bank :=
  match tab with
  | none => { b with sfst := b.sfst ||| w64 (2 ^ (6 + t)) }
  | some u =>
    { b with
      user := b.user.set t (some u)
      sfst := ((b.sfst ||| w64 (2 ^ t)) &&& ~~~(w64 (2 ^ (6 + t)))) &&& ~~~(w64 (2 ^ (3 + t))) |||
        w64 (b2n monok * 2 ^ (3 + t)) }

/-- GMEM after a GDONE of a level (R305). -/
def gdoneMem (gmem : Word) (level : Nat) : Word := if level = 1 then gmem &&& ~~~1 else 0

/-- A pending write applied to the per-core registers. -/
def Bank.apply (b : Bank) : Pend → Bank
  | .reg r x => b.setCoreReg r x
  | .ring h x => { b with h := b.h.set h.toNat x h.isLt }
  | .tmap t x => { b with tm := b.tm.set t.toNat x t.isLt }
  | .user t tab m => b.setUser t tab m
  | .gdone level => { b with gmem := gdoneMem b.gmem level }
  | .jcan _ _ | .resend _ _ | .dropr _ _ | .rels _ => b

/-- The per-core registers as the executing context sees them: the committed ones with its own chunk's writes. -/
def State.view (s : State) : Bank := s.cx.chunk.pend.foldl Bank.apply s.me.bank

/-- Adds a pending write to the chunk; on a control core it takes effect at once (R339). -/
def State.addPend (s : State) (p : Pend) : State :=
  if s.ctl then s.modMe fun x => x.modBank fun b => b.apply p
  else s.modCx fun y => { y with chunk := { y.chunk with pend := y.chunk.pend ++ [p] } }

/-- The chunk reads, or writes, a pseudo-line (R195, R236, R246). -/
def State.touch (s : State) (i : Nat) (write : Bool) : State :=
  if s.ctl then s else
  let b := pseudoBit s.focus.1 i
  s.modCx fun y => { y with chunk :=
    if write then { y.chunk with wsig := y.chunk.wsig ||| b } else { y.chunk with rsig := y.chunk.rsig ||| b } }

/-! ### Ring handles (R194) -/

def hBase (h : Word) : Nat := fld h 17 0
/-- Slot size in bytes. -/
def hSlot (h : Word) : Nat := 2 ^ fld h 21 18
/-- NLG; 0 means unset. -/
def hNlg (h : Word) : Nat := fld h 25 22
/-- Slot count N. -/
def hCount (h : Word) : Nat := 2 ^ hNlg h
def hHead (h : Word) : Nat := fld h 36 26
def hTail (h : Word) : Nat := fld h 47 37
def hFilled (h : Word) : Nat := (hTail h + 2 * hCount h - hHead h % (2 * hCount h)) % (2 * hCount h)
def hFree (h : Word) : Nat := hCount h - hFilled h
/-- Address of the head slot, or of the tail slot. -/
def hHeadAddr (h : Word) : Nat := hBase h + hHead h % hCount h * hSlot h
def hTailAddr (h : Word) : Nat := hBase h + hTail h % hCount h * hSlot h

def Bank.ring (b : Bank) (h : HReg) : Word := b.h[h.toNat]'(h.isLt)
def Bank.tmap (b : Bank) (t : TMReg) : BitVec 256 := b.tm[t.toNat]'(t.isLt)

/-! ### Derived registers -/

/-- State codes and anchored flags of the four contexts (R169); the context that reads is RUNNING. -/
def State.ctxstWord (s : State) (c : Nat) : Word :=
  let one (i : Fin 4) : Nat :=
    let y := s.ctx c i
    let code := if (c, i) = s.focus ∧ y.st = .ready then 3 else y.st.code
    code * 2 ^ (3 * i.val) + b2n y.anch * 2 ^ (12 + i.val)
  w64 (one 0 + one 1 + one 2 + one 3)

/-- An entry in use as the reading task sees it: its own HELD entries, no other's (R192). -/
def Entry.seen (e : Entry) (ctx : Nat) : Bool :=
  decide (e.st ≠ .free) && (decide (e.st ≠ .held) || decide (e.ctx = ctx))

/-- Entries that satisfy a test. -/
def Core.countEntries (x : Core) (p : Entry → Bool) : Nat := (x.sendq.toList.filter p).length

/-- Replies that wait in the reply queue: those that take reply slots (R185, R192). -/
def Core.repliesWaiting (x : Core) : Nat := (x.qReply.filter fun m => decide (m.kind ≠ .copy)).length

/-- SQSTAT (R192). -/
def Core.sqstat (x : Core) (ctx : Nat) : Word :=
  w64 (x.countEntries (fun e => e.seen ctx) +
    x.countEntries (fun e => decide (e.st = .refused)) * 2 ^ 6 +
    x.countEntries (fun e => e.seen ctx && e.resv) * 2 ^ 12 +
    x.repliesWaiting % 32 * 2 ^ 17)

/-- KSTAT (R206). -/
def Bank.kstat (b : Bank) : Word := w64 (b.kst.code + (if b.kst = .absent then 0 else fld b.kid 15 0) * 2 ^ 16)

/-- MCFG of a core (R249). -/
def State.mcfg (s : State) (c : Nat) : Word :=
  let k := s.cluster (clusterOf c)
  w64 (b2n k.split + b2n k.locked * 2 + (if k.split then c % 8 / 4 else 0) * 4)

/-- VDST (R461). -/
def State.vdst (s : State) (v : Nat) : Word := w64 (b2n (s.vdev v).quenched + b2n (s.vdev v).switchedIn * 2)

/-- CYC of a core: the cycles of its island since READY (R73, R482). -/
def State.cyc (s : State) (c : Nat) : Word := (Tab.get s.islands (islandOf c) Island.reset).cyc

/-- RSET of a module as it was last written, before its drain or after (R445, R474). -/
def State.routeSet (s : State) (m : Nat) : Nat := ((Tab.look s.drains m).map (·.mask)).getD (Tab.get s.rsets m 0)

/-- ICTL (R481). -/
def Island.ictl (i : Island) : Word :=
  w64 (i.fdiv % 16 + i.rise.toNat % 2 ^ 16 * 2 ^ 16 + i.fall.toNat % 2 ^ 16 * 2 ^ 32)

/-- LCTL (R474): EN reads 1 in every state but DOWN. -/
def Link.lctl (l : Link) : Word := w64 (b2n (decide (l.st ≠ .down)) + l.lto % 2 ^ 32 * 2 ^ 32)

/-! ### Control registers by number -/

/-- A register exists for a profile (R72, R75). -/
def crExists (ctl : Bool) (n : Nat) : Bool :=
  decide (n ≤ 0x01F) || (decide (0x040 ≤ n) && decide (n ≤ 0x04D) && !ctl) ||
  decide (n = 0x060) || decide (n = 0x061) ||
  (decide (0x070 ≤ n) && decide (n ≤ 0x072)) || (decide (0x090 ≤ n) && decide (n ≤ 0x092)) ||
  decide (n = 0x098) || decide (n = 0x099) || (decide (0x0A0 ≤ n) && decide (n ≤ 0x0A2)) ||
  (ctl && ((decide (0x100 ≤ n) && decide (n ≤ 0x11B)) || decide (n = 0x140)))

/-- The least privilege level of a register (R461, R481); 0 for every other register. -/
def crLevel (n : Nat) : Nat :=
  match n with
  | 0x101 | 0x102 | 0x103 | 0x104 | 0x10E | 0x116 | 0x140 => 1
  | 0x105 | 0x106 | 0x107 | 0x108 | 0x109 | 0x10A | 0x10B | 0x10C | 0x10D | 0x10F | 0x110 | 0x111 | 0x112
  | 0x113 | 0x114 | 0x115 | 0x117 | 0x118 | 0x119 | 0x11A | 0x11B => 2
  | _ => 0

/-- The virtual device a per-VD register acts on: VDSEL's, or at level 1 the reader's own (R461). -/
def State.selVd (s : State) : Nat := if s.level = 2 then fld s.me.priv.vdsel 5 0 else s.vd

/-- The cluster CLSEL names (R461). -/
def State.selCluster (s : State) : Nat := clusterAt (fld s.me.priv.clsel 7 0) (fld s.me.priv.clsel 14 8)

/-- A control register's value (R73, R138, R140). Write-only registers read zero (R9). -/
def State.crRead (s : State) (n : Nat) : Word :=
  let b := s.view
  let r := s.cr
  let p := s.me.priv
  match n with
  | 0x000 => cidOf s.focus.1
  | 0x001 => w64 b.vdid
  | 0x002 => b.kid
  | 0x003 => b.hblo
  | 0x004 => b.hbhi
  | 0x005 => r.budg
  | 0x006 => r.tstp
  | 0x007 => r.msgid
  | 0x008 => b.cause
  | 0x009 => b.faddr
  | 0x00A => b.fpc
  | 0x00B => b.rfh
  | 0x00C => b.smh
  | 0x00D => b.sqfh
  | 0x00E => r.fflg
  | 0x00F => s.cyc s.focus.1
  | 0x010 => b.qdep
  | 0x011 => b.sqlim
  | 0x012 => b.tsvc
  | 0x013 => r.actf
  | 0x014 => b.saveb
  | 0x015 => b.emrgb
  | 0x016 => s.ctxstWord s.focus.1
  | 0x017 => r.rfinf
  | 0x018 => s.me.sqstat s.focus.2.val
  | 0x019 => b.lrec
  | 0x01A => b.kstat
  | 0x01B => b.gmem
  | 0x01C => b.gpos
  | 0x01D => b.gbat
  | 0x01E => b.lqb
  | 0x01F => b.barst
  | 0x040 => r.fmta
  | 0x041 => r.fmtb
  | 0x042 => r.fmtc
  | 0x043 => r.scla
  | 0x044 => r.sclb
  | 0x045 => r.sclf
  | 0x046 => r.mmsk
  | 0x047 => r.encm
  | 0x048 => r.fctl
  | 0x049 => r.grow
  | 0x04A => r.pairc
  | 0x04B => r.pairt
  | 0x04C => r.gangt
  | 0x04D => s.mcfg s.focus.1
  | 0x060 => r.rngk
  | 0x061 => b.sfst
  | 0x070 => r.arh
  | 0x071 => r.sminf
  | 0x072 => r.scur
  | 0x090 => b.stpl
  | 0x091 => b.stfr
  | 0x092 => b.stst
  | 0x098 => b.sidr
  | 0x099 => b.pginf
  | 0x0A0 => b.rvtb
  | 0x0A1 => b.rvh
  | 0x0A2 => b.modid
  | 0x100 => w64 p.cprv
  | 0x101 => p.epc[levelIx p.cprv]
  | 0x102 => p.eprv[levelIx p.cprv]
  | 0x103 => p.tvec[levelIx p.cprv]
  | 0x104 => p.ipend
  | 0x105 => p.vdsel
  | 0x106 => (s.vdev s.selVd).s2base
  | 0x107 => (s.vdev s.selVd).s2len
  | 0x108 => (s.vdev s.selVd).bcap
  | 0x109 => (s.vdev s.selVd).apol
  | 0x10A => s.hrpt
  | 0x10B => p.clsel
  | 0x10C => (s.cluster s.selCluster).clown
  | 0x10D => Tab.get (s.cluster s.selCluster).perm (fld p.vdsel 5 0 * 8 + fld p.clsel 18 16) 0
  | 0x10E => s.vdst s.selVd
  | 0x10F => (s.vdev s.selVd).lqbv
  | 0x110 => p.isel
  | 0x111 => if fld p.isel 5 0 < 36 then (Tab.get s.islands (fld p.isel 5 0) Island.reset).ictl else 0
  | 0x112 => if fld p.isel 5 0 < 36 then (Tab.get s.islands (fld p.isel 5 0) Island.reset).power else 0
  | 0x113 => (s.vdev s.selVd).sidtb
  | 0x114 => p.psel
  | 0x115 => if fld p.psel 1 0 = 3 then 0 else Tab.get s.pctb (fld p.psel 1 0) 0
  | 0x117 => p.rsel
  | 0x118 => w64 (s.routeSet (fld p.rsel 11 0))
  | 0x119 => p.lsel
  | 0x11A => if fld p.lsel 4 0 < 24 then (Tab.get s.links (fld p.lsel 4 0) Link.reset).lctl else 0
  | 0x11B => s.modw
  | _ => 0

/-- The bits a written register keeps; its reserved bits are not stored (R10). -/
def crMask (n : Nat) : Word :=
  match n with
  | 0x00B | 0x00C | 0x0A1 | 0x10F => 0x0000_FFFF_FFFF_FFFF
  | 0x00D => 0x1F01
  | 0x101 | 0x103 => 0xFFFF_FFFF_FFFF_FFFE
  | 0x00E => 0x1F
  | 0x040 | 0x041 | 0x042 | 0x045 | 0x102 | 0x109 | 0x114 => 0x3
  | 0x043 | 0x044 => 0x3_FFFF
  | 0x046 => 0xFF_FFFF
  | 0x047 => 0xFFFF_7F07
  | 0x048 => 0x731
  | 0x04A => 0x1_7FFF
  | 0x04B | 0x04C => 0xFFFF_FFFF
  | 0x070 => 0x3_FFFF_FFFF_FFFF
  | 0x090 => 0x00FF_FFFF_FF03_FFFF
  | 0x091 => 0x1F
  | 0x098 => 0xFFFF
  | 0x105 | 0x110 => 0x3F
  | 0x10A => 0x7FFF_FFFF
  | 0x10B => 0x7_7FFF
  | 0x10D => 0x8000_0FFF_FFFF_FFFF
  | 0x113 => 0x1FF_FFFF_FFFF
  | 0x115 => 0x00FF_F1FF_FFFF_FFFF
  | 0x117 | 0x11B => 0xFFF
  | 0x118 => 0xFF_FFFF
  | 0x119 => 0x1F
  | _ => BitVec.allOnes 64

/-- A per-context register written (R139): the next instruction sees it. -/
def CtxRegs.write (r : CtxRegs) (n : Nat) (x : Word) : CtxRegs :=
  match n with
  | 0x00E => { r with fflg := x }
  | 0x040 => { r with fmta := x }
  | 0x041 => { r with fmtb := x }
  | 0x042 => { r with fmtc := x }
  | 0x043 => { r with scla := x }
  | 0x044 => { r with sclb := x }
  | 0x045 => { r with sclf := x }
  | 0x046 => { r with mmsk := x }
  | 0x047 => { r with encm := x }
  | 0x048 => { r with fctl := x }
  | 0x04A => { r with pairc := x }
  | 0x04B => { r with pairt := x }
  | 0x04C => { r with gangt := x }
  | 0x060 => { r with rngk := x }
  | 0x070 => { r with arh := x }
  | _ => r

/-! ### Lanes (R217 to R219) -/

/-- Lane i of width w. -/
def lane (x : VWord) (w i : Nat) : Nat := (x.toNat >>> (w * i)) % 2 ^ w

/-- A vector register from its lanes, lane 0 lowest. -/
def ofLanes (w : Nat) : List Nat → Nat
  | [] => 0
  | x :: rest => x % 2 ^ w + 2 ^ w * ofLanes w rest

/-- The lane function of a vector result: active lanes take f, the others keep the old value (R218). -/
def mapLanes (w n : Nat) (mask : Word) (old : VWord) (f : Nat → Nat) : VWord :=
  BitVec.ofNat 512 (ofLanes w ((List.range n).map fun i => if mask.getLsbD i then f i else lane old w i))

/-- A lane read as signed. -/
def toS (w x : Nat) : Int := if x % 2 ^ w < 2 ^ (w - 1) then (x % 2 ^ w : Nat) else (x % 2 ^ w : Nat) - (2 ^ w : Nat)
/-- A signed value as a lane. -/
def ofS (w : Nat) (x : Int) : Nat := (x % (2 ^ w : Nat)).toNat

end Sys2Proof.Machine
end

