-- ==== Sys2Proof/Machine/Flags.lean ====
section
/-! DEFINITION. Floating point and the flags it raises (R36 to R41, R136, R137): exact values on natural numbers,
one rounding to nearest even, and the five sticky flags of FFLG. -/

set_option Elab.async false

namespace Sys2Proof.Machine

/-! ### Formats and values -/

/-- A binary format: precision in bits, the hidden one included, and exponent width (R37, R41). -/
structure Fmt where
  prec : Nat
  ebits : Nat
  deriving DecidableEq, Repr

def fmt32 : Fmt := { prec := 24, ebits := 8 }
def fmt64 : Fmt := { prec := 53, ebits := 11 }
def fmtBf : Fmt := { prec := 8, ebits := 8 }

/-- Width of an encoding. -/
def Fmt.width (f : Fmt) : Nat := f.prec + f.ebits
/-- The exponent of the largest binade. -/
def Fmt.emax (f : Fmt) : Int := (2 ^ (f.ebits - 1) : Nat) - 1
/-- The exponent of the smallest normal binade. -/
def Fmt.emin (f : Fmt) : Int := 1 - f.emax
/-- The exponent of the last place of a subnormal. -/
def Fmt.qmin (f : Fmt) : Int := f.emin - ((f.prec : Int) - 1)
/-- All exponent bits, in place. -/
def Fmt.infBits (f : Fmt) : Nat := (2 ^ f.ebits - 1) * 2 ^ (f.prec - 1)
/-- The canonical quiet NaN (R38). -/
def Fmt.nan (f : Fmt) : Nat := f.infBits + 2 ^ (f.prec - 2)
/-- The sign bit, in place. -/
def Fmt.sign (f : Fmt) (neg : Bool) : Nat := if neg then 2 ^ (f.width - 1) else 0

/-- A value: NaN (with a clear quiet bit or not), an infinity, or the exact real (-1)^neg × m × 2^e. -/
inductive FVal where
  | nan (signalling : Bool)
  | inf (neg : Bool)
  | num (neg : Bool) (m : Nat) (e : Int)
  deriving DecidableEq, Repr

/-- Sticky flags as FFLG numbers them (R39): NX 1, UF 2, OF 4, DZ 8, NV 16. -/
abbrev Flags := Nat
def fNX : Flags := 1
def fUF : Flags := 2
def fOF : Flags := 4
def fDZ : Flags := 8
def fNV : Flags := 16

/-- Both sets of flags. -/
def orF (a b : Flags) : Flags := a ||| b

/-- The value an encoding holds. -/
def Fmt.read (f : Fmt) (x : Nat) : FVal :=
  let neg := decide (x / 2 ^ (f.width - 1) % 2 = 1)
  let ex := x / 2 ^ (f.prec - 1) % 2 ^ f.ebits
  let fr := x % 2 ^ (f.prec - 1)
  if ex = 2 ^ f.ebits - 1 then
    if fr = 0 then .inf neg else .nan (decide (fr / 2 ^ (f.prec - 2) % 2 = 0))
  else if ex = 0 then .num neg fr f.qmin
  else .num neg (fr + 2 ^ (f.prec - 1)) (f.qmin + ((ex : Int) - 1))

/-- m, rounded to nearest even at bit `sh`: a part below m's last place is given by `sticky`. -/
def roundShift (m sh : Nat) (sticky : Bool) : Nat :=
  if sh = 0 then m else
  let q := m / 2 ^ sh
  let r := m % 2 ^ sh
  let half := 2 ^ (sh - 1)
  if half < r ∨ (r = half ∧ (sticky ∨ q % 2 = 1)) then q + 1 else q

/-- Rounds (-1)^neg × (m + part) × 2^e, with 0 < part < 1 where `sticky`, to a format (R37): the encoding and the
flags NX, UF (tiny after rounding, and inexact) and OF. With `sticky`, m has at least prec + 2 bits. -/
def Fmt.round (f : Fmt) (neg : Bool) (m : Nat) (e : Int) (sticky : Bool) : Nat × Flags :=
  if m = 0 then (f.sign neg, 0) else
  let top := e + (Nat.log2 m : Int)
  let q := if top - ((f.prec : Int) - 1) < f.qmin then f.qmin else top - ((f.prec : Int) - 1)
  let sh := (q - e).toNat
  let up := (e - q).toNat
  let mant := roundShift (m * 2 ^ up) sh sticky
  let inexact := sticky || decide (m % 2 ^ sh ≠ 0)
  let tiny := decide (top < f.emin) &&
    !(decide (top = f.emin - 1) &&
      decide (roundShift (m * 2 ^ (e - (top - ((f.prec : Int) - 1))).toNat)
        ((top - ((f.prec : Int) - 1)) - e).toNat sticky = 2 ^ f.prec))
  let (mant, q) := if mant = 2 ^ f.prec then (2 ^ (f.prec - 1), q + 1) else (mant, q)
  if f.emax < q + ((f.prec : Int) - 1) ∧ 2 ^ (f.prec - 1) ≤ mant then
    (f.sign neg + f.infBits, orF fOF fNX)
  else
    let bits := if mant < 2 ^ (f.prec - 1) then mant
      else (q - f.qmin + 1).toNat * 2 ^ (f.prec - 1) + (mant - 2 ^ (f.prec - 1))
    (f.sign neg + bits, (if inexact then fNX else 0) ||| (if inexact && tiny then fUF else 0))

/-- A value rounded to a format; a NaN becomes the canonical one and raises NV when its quiet bit is clear (R38). -/
def Fmt.pack (f : Fmt) : FVal → Nat × Flags
  | .nan sig => (f.nan, if sig then fNV else 0)
  | .inf neg => (f.sign neg + f.infBits, 0)
  | .num neg m e => f.round neg m e false

/-- A NaN whose quiet bit is clear. -/
def FVal.sig : FVal → Bool
  | .nan b => b
  | .inf _ | .num _ _ _ => false

def FVal.isNan : FVal → Bool
  | .nan _ => true
  | .inf _ | .num _ _ _ => false

/-- NV for signalling inputs. -/
def sigFlags (x y : FVal) : Flags := if x.sig || y.sig then fNV else 0

/-- The sign, NaN apart. -/
def FVal.neg : FVal → Bool
  | .nan _ => false
  | .inf n => n
  | .num n _ _ => n

/-- The value with its sign inverted. -/
def FVal.negate : FVal → FVal
  | .nan b => .nan b
  | .inf n => .inf (!n)
  | .num n m e => .num (!n) m e

/-! ### Arithmetic on exact values -/

/-- A signed integer m × 2^e, as the exact sum of two such. An exact zero sum of operands of opposite sign is +0
(R37). -/
def addNum (n1 : Bool) (m1 : Nat) (e1 : Int) (n2 : Bool) (m2 : Nat) (e2 : Int) : FVal :=
  let e := if e1 < e2 then e1 else e2
  let a := m1 * 2 ^ (e1 - e).toNat
  let b := m2 * 2 ^ (e2 - e).toNat
  if n1 = n2 then .num n1 (a + b) e
  else if a = b then .num false 0 e
  else if b < a then .num n1 (a - b) e
  else .num n2 (b - a) e

/-- The exact sum, and NV for ∞ − ∞ (R136). -/
def FVal.add (x y : FVal) : FVal × Flags :=
  match x, y with
  | .nan _, _ => (.nan false, sigFlags x y)
  | _, .nan _ => (.nan false, sigFlags x y)
  | .inf a, .inf b => if a = b then (.inf a, 0) else (.nan false, fNV)
  | .inf a, .num _ _ _ => (.inf a, 0)
  | .num _ _ _, .inf b => (.inf b, 0)
  | .num a m e, .num b n d => (addNum a m e b n d, 0)

/-- The exact product, and NV for 0 × ∞. -/
def FVal.mul (x y : FVal) : FVal × Flags :=
  match x, y with
  | .nan _, _ => (.nan false, sigFlags x y)
  | _, .nan _ => (.nan false, sigFlags x y)
  | .inf a, .inf b => (.inf (a ^^ b), 0)
  | .inf a, .num b m _ => if m = 0 then (.nan false, fNV) else (.inf (a ^^ b), 0)
  | .num b m _, .inf a => if m = 0 then (.nan false, fNV) else (.inf (a ^^ b), 0)
  | .num a m e, .num b n d => (.num (a ^^ b) (m * n) (e + d), 0)

/-- An exact value of an operation, rounded once. -/
def Fmt.finish (f : Fmt) (r : FVal × Flags) : Nat × Flags :=
  let (x, fl) := f.pack r.1
  (x, orF fl r.2)

def Fmt.addF (f : Fmt) (x y : FVal) : Nat × Flags := f.finish (x.add y)
def Fmt.subF (f : Fmt) (x y : FVal) : Nat × Flags := f.finish (x.add y.negate)
def Fmt.mulF (f : Fmt) (x y : FVal) : Nat × Flags := f.finish (x.mul y)

/-- x × y + z with one rounding; NV for 0 × ∞ whatever z holds (R136). -/
def Fmt.fmaF (f : Fmt) (x y z : FVal) : Nat × Flags :=
  let (p, f1) := x.mul y
  let (r, f2) := p.add z
  f.finish (r, orF (orF f1 f2) (if z.sig then fNV else 0))

/-- x / y (R136). -/
def Fmt.divF (f : Fmt) (x y : FVal) : Nat × Flags :=
  match x, y with
  | .nan _, _ => (f.nan, sigFlags x y)
  | _, .nan _ => (f.nan, sigFlags x y)
  | .inf _, .inf _ => (f.nan, fNV)
  | .inf a, .num b _ _ => (f.sign (a ^^ b) + f.infBits, 0)
  | .num a _ _, .inf b => (f.sign (a ^^ b), 0)
  | .num a m e, .num b n d =>
    if n = 0 then (if m = 0 then (f.nan, fNV) else (f.sign (a ^^ b) + f.infBits, fDZ))
    else if m = 0 then (f.sign (a ^^ b), 0)
    else
      let k := f.prec + 3 + Nat.log2 n
      f.round (a ^^ b) (m * 2 ^ k / n) (e - d - (k : Int)) (decide (m * 2 ^ k % n ≠ 0))

/-- The integer square root of n below 2^b more than r, bit by bit. -/
def isqrtFrom (n : Nat) : Nat → Nat → Nat
  | 0, r => r
  | b + 1, r => let c := r + 2 ^ b; isqrtFrom n b (if c * c ≤ n then c else r)

/-- The integer square root. -/
def isqrt (n : Nat) : Nat := isqrtFrom n (Nat.log2 n / 2 + 1) 0

/-- √x (R136). -/
def Fmt.sqrtF (f : Fmt) (x : FVal) : Nat × Flags :=
  match x with
  | .nan b => (f.nan, if b then fNV else 0)
  | .inf n => if n then (f.nan, fNV) else (f.infBits, 0)
  | .num n m e =>
    if m = 0 then (f.sign n, 0)
    else if n then (f.nan, fNV)
    else
      let k := 2 * (f.prec + 2) + (if e % 2 = 0 then 0 else 1)
      let v := m * 2 ^ k
      let r := isqrt v
      f.round false r ((e - (k : Int)) / 2) (decide (r * r ≠ v))

/-! ### Comparisons, minimum, maximum, class (R136, R137) -/

/-- x < y for exact values that are no NaN; −0 = +0. -/
def FVal.lt (x y : FVal) : Bool :=
  match x, y with
  | .nan _, _ => false
  | _, .nan _ => false
  | .inf a, .inf b => a && !b
  | .inf a, .num _ _ _ => a
  | .num _ _ _, .inf b => !b
  | .num a m e, .num b n d =>
    match addNum a m e (!b) n d with
    | .num neg k _ => neg && decide (k ≠ 0)
    | .nan _ | .inf _ => false

/-- x = y for exact values; −0 = +0; false for a NaN. -/
def FVal.eq (x y : FVal) : Bool := !x.isNan && !y.isNan && !x.lt y && !y.lt x

/-- FEQ, FLT, FLE: the truth value and the flags. -/
def feqF (x y : FVal) : Bool × Flags := (x.eq y, sigFlags x y)
def fltF (x y : FVal) : Bool × Flags := (x.lt y, if x.isNan || y.isNan then fNV else 0)
def fleF (x y : FVal) : Bool × Flags := (x.lt y || x.eq y, if x.isNan || y.isNan then fNV else 0)

/-- The order of FMIN and FMAX: −0 below +0. -/
def FVal.below (x y : FVal) : Bool := x.lt y || (x.eq y && x.neg && !y.neg)

/-- FMIN and FMAX on encodings: the other operand beside one NaN, the canonical NaN for two (R136). -/
def Fmt.minMax (f : Fmt) (isMax : Bool) (a b : Nat) : Nat × Flags :=
  let x := f.read a
  let y := f.read b
  let fl := sigFlags x y
  if x.isNan && y.isNan then (f.nan, fl)
  else if x.isNan then (b, fl)
  else if y.isNan then (a, fl)
  else if isMax then (if x.below y then b else a, fl)
  else (if y.below x then b else a, fl)

/-- FCLASS (R137). -/
def Fmt.classOf (f : Fmt) (x : Nat) : Nat :=
  let neg := if x / 2 ^ (f.width - 1) % 2 = 1 then 0x100 else 0
  match f.read x with
  | .nan s => neg + (if s then 0x20 else 0x10)
  | .inf _ => neg + 8
  | .num _ m _ => neg + (if m = 0 then 1 else if m < 2 ^ (f.prec - 1) then 2 else 4)

/-! ### Conversions (R36) -/

/-- The integer a value rounds to, toward zero or to nearest even, and whether it differs from the value. -/
def roundInt (m : Nat) (e : Int) (nearest : Bool) : Nat × Bool :=
  if 0 ≤ e then (m * 2 ^ e.toNat, false)
  else
    let sh := (-e).toNat
    (if nearest then roundShift m sh false else m / 2 ^ sh, decide (m % 2 ^ sh ≠ 0))

/-- A floating value to an integer in [lo, hi]: judged on the rounded integer, saturating with NV (R36). -/
def toInt (x : FVal) (nearest : Bool) (lo hi : Int) : Int × Flags :=
  match x with
  | .nan _ => (0, fNV)
  | .inf n => (if n then lo else hi, fNV)
  | .num n m e =>
    let (k, inexact) := roundInt m e nearest
    let v : Int := if n then -(k : Int) else k
    if v < lo then (lo, fNV) else if hi < v then (hi, fNV) else (v, if inexact then fNX else 0)

/-- An integer as an exact value. -/
def ofInt (x : Int) : FVal := .num (decide (x < 0)) x.natAbs 0

/-! ### Formats by element type -/

/-- The format of a floating element type; binary32 for the others, which no floating operation names. -/
def etFmt : ETy → Fmt
  | .bf16 => fmtBf
  | .f64 => fmt64
  | .f32 | .i8 | .i16 | .i32 | .i64 => fmt32

/-- A binary32 encoding's value. -/
def read32 (x : Nat) : FVal := fmt32.read x

/-- round_f32 of an exact value, flags apart (R84). -/
def rnd32 (x : FVal) : Nat := (fmt32.pack x).1

/-- Sum, difference, product-and-sum, quotient and square root of binary32 encodings, each rounded once, flags
apart: what matrix jobs and factorisations compute with (R40, R51, R288). -/
def add32 (a b : Nat) : Nat := (fmt32.addF (read32 a) (read32 b)).1
def sub32 (a b : Nat) : Nat := (fmt32.subF (read32 a) (read32 b)).1
def mul32 (a b : Nat) : Nat := (fmt32.mulF (read32 a) (read32 b)).1
def div32 (a b : Nat) : Nat := (fmt32.divF (read32 a) (read32 b)).1
def sqrt32 (a : Nat) : Nat := (fmt32.sqrtF (read32 a)).1
/-- a + b × c. -/
def fma32 (a b c : Nat) : Nat := (fmt32.fmaF (read32 b) (read32 c) (read32 a)).1
/-- a − b × c. -/
def fms32 (a b c : Nat) : Nat := (fmt32.fmaF (read32 b).negate (read32 c) (read32 a)).1

/-- Puts the flags of an operation into FFLG (R40). -/
def State.flag (s : State) (fl : Flags) : State := s.orFlags (w64 fl)

end Sys2Proof.Machine
end

