-- ==== Sys2Proof/Machine/Scalar.lean ====
section
/-! DEFINITION. Majors 0x01 to 0x0A: integer operations, immediates, loads, stores, branches and jumps
(R123, R125 to R134). -/

set_option Elab.async false

namespace Sys2Proof.Machine

/-! ### Integer functions (R125, R126) -/

/-- The low n bits read as signed, on 64 bits (R84). -/
def sextN (x : Word) (n : Nat) : Word := (x.setWidth n).signExtend 64
/-- The low n bits (R84). -/
def zextN (x : Word) (n : Nat) : Word := (x.setWidth n).setWidth 64
/-- A truth value written to a register. -/
def flagWord (b : Bool) : Word := if b then 1 else 0
/-- The shift count: bits 5:0 (R125). -/
def sh6 (b : Word) : Nat := fld b 5 0
/-- The shift count of a 32-bit form: bits 4:0 (R125). -/
def sh5 (b : Word) : Nat := fld b 4 0
/-- Rotation to the left. -/
def rotl (a : Word) (n : Nat) : Word := (a <<< n) ||| (a >>> (64 - n))
/-- Rotation to the right. -/
def rotr (a : Word) (n : Nat) : Word := (a >>> n) ||| (a <<< (64 - n))

/-- The quotient of R126 at width w: truncating, saturating, with the end of the range for a zero divisor. -/
def divSat (w : Nat) (x y : Int) : Int :=
  if y = 0 then (if x < 0 then -(2 ^ (w - 1) : Nat) else (2 ^ (w - 1) : Nat) - 1)
  else
    let q := Int.tdiv x y
    if q > (2 ^ (w - 1) : Nat) - 1 then (2 ^ (w - 1) : Nat) - 1 else q

/-- The remainder of R126: exact, the dividend for a zero divisor. -/
def remExact (x y : Int) : Int := if y = 0 then x else x - Int.tdiv x y * y

/-- Unsigned division (R126). -/
def divuWord (a b : Word) : Word := if b = 0 then BitVec.allOnes 64 else a / b
/-- Unsigned remainder (R126). -/
def remuWord (a b : Word) : Word := if b = 0 then a else a % b

/-- A signed 64-bit value as a word. -/
def ofI (x : Int) : Word := BitVec.ofInt 64 x

/-- Leading zero bits (R125). -/
def clzWord (a : Word) : Nat := if a = 0 then 64 else 63 - Nat.log2 a.toNat
/-- Trailing zero bits below bit n, counted from bit 64 - n. -/
def ctzFrom (a : Word) : Nat → Nat
  | 0 => 64
  | n + 1 => if a.getLsbD (63 - n) then 63 - n else ctzFrom a n
/-- Trailing zero bits (R125). -/
def ctzWord (a : Word) : Nat := ctzFrom a 64
/-- One bits (R125). -/
def popWord (a : Word) : Nat := ((List.range 64).filter fun i => a.getLsbD i).length
/-- Bytes in reverse order (R125). -/
def bswpWord (a : Word) : Word := w64 (ofBytes (toBytes 8 a.toNat).reverse)

/-! ### Major 0x01: register and register (R125, R126) -/

/-- R125: a + b. -/
def execAdd (rd rs1 rs2 : GReg) (s : State) : Out :=
  writeG s rd (s.g rs1 + s.g rs2) 4

/-- R125: a − b. -/
def execSub (rd rs1 rs2 : GReg) (s : State) : Out :=
  writeG s rd (s.g rs1 - s.g rs2) 4

/-- R125: a AND b. -/
def execAnd (rd rs1 rs2 : GReg) (s : State) : Out :=
  writeG s rd (s.g rs1 &&& s.g rs2) 4

/-- R125: a OR b. -/
def execOr (rd rs1 rs2 : GReg) (s : State) : Out :=
  writeG s rd (s.g rs1 ||| s.g rs2) 4

/-- R125: a XOR b. -/
def execXor (rd rs1 rs2 : GReg) (s : State) : Out :=
  writeG s rd (s.g rs1 ^^^ s.g rs2) 4

/-- R125: a AND NOT b. -/
def execAndn (rd rs1 rs2 : GReg) (s : State) : Out :=
  writeG s rd (s.g rs1 &&& ~~~(s.g rs2)) 4

/-- R125: a OR NOT b. -/
def execOrn (rd rs1 rs2 : GReg) (s : State) : Out :=
  writeG s rd (s.g rs1 ||| ~~~(s.g rs2)) 4

/-- R125: a << b[5:0]. -/
def execSll (rd rs1 rs2 : GReg) (s : State) : Out :=
  writeG s rd (s.g rs1 <<< sh6 (s.g rs2)) 4

/-- R125: a >> b[5:0], zeros shifted in. -/
def execSrl (rd rs1 rs2 : GReg) (s : State) : Out :=
  writeG s rd (s.g rs1 >>> sh6 (s.g rs2)) 4

/-- R125: sa >> b[5:0]. -/
def execSra (rd rs1 rs2 : GReg) (s : State) : Out :=
  writeG s rd ((s.g rs1).sshiftRight (sh6 (s.g rs2))) 4

/-- R125: a rotated left by b[5:0]. -/
def execRol (rd rs1 rs2 : GReg) (s : State) : Out :=
  writeG s rd (rotl (s.g rs1) (sh6 (s.g rs2))) 4

/-- R125: a rotated right by b[5:0]. -/
def execRor (rd rs1 rs2 : GReg) (s : State) : Out :=
  writeG s rd (rotr (s.g rs1) (sh6 (s.g rs2))) 4

/-- R125: 1 if sa < sb, else 0. -/
def execSlt (rd rs1 rs2 : GReg) (s : State) : Out :=
  writeG s rd (flagWord ((s.g rs1).slt (s.g rs2))) 4

/-- R125: 1 if a < b, else 0. -/
def execSltu (rd rs1 rs2 : GReg) (s : State) : Out :=
  writeG s rd (flagWord ((s.g rs1).ult (s.g rs2))) 4

/-- R125: the smaller of sa, sb. -/
def execMin (rd rs1 rs2 : GReg) (s : State) : Out :=
  writeG s rd (if (s.g rs2).slt (s.g rs1) then s.g rs2 else s.g rs1) 4

/-- R125: the larger of sa, sb. -/
def execMax (rd rs1 rs2 : GReg) (s : State) : Out :=
  writeG s rd (if (s.g rs1).slt (s.g rs2) then s.g rs2 else s.g rs1) 4

/-- R125: the smaller of a, b. -/
def execMinu (rd rs1 rs2 : GReg) (s : State) : Out :=
  writeG s rd (if (s.g rs2).ult (s.g rs1) then s.g rs2 else s.g rs1) 4

/-- R125: the larger of a, b. -/
def execMaxu (rd rs1 rs2 : GReg) (s : State) : Out :=
  writeG s rd (if (s.g rs1).ult (s.g rs2) then s.g rs2 else s.g rs1) 4

/-- R125: the low 64 bits of a × b. -/
def execMul (rd rs1 rs2 : GReg) (s : State) : Out :=
  writeG s rd (s.g rs1 * s.g rs2) 4

/-- R125: the high half of the signed 128-bit product. -/
def execMulh (rd rs1 rs2 : GReg) (s : State) : Out :=
  writeG s rd (ofI ((s.g rs1).toInt * (s.g rs2).toInt / (2 ^ 64 : Nat))) 4

/-- R125: the high half of the unsigned product. -/
def execMulhu (rd rs1 rs2 : GReg) (s : State) : Out :=
  writeG s rd (w64 ((s.g rs1).toNat * (s.g rs2).toNat / 2 ^ 64)) 4

/-- R126: signed quotient. -/
def execDiv (rd rs1 rs2 : GReg) (s : State) : Out :=
  writeG s rd (ofI (divSat 64 (s.g rs1).toInt (s.g rs2).toInt)) 4

/-- R126: unsigned quotient. -/
def execDivu (rd rs1 rs2 : GReg) (s : State) : Out :=
  writeG s rd (divuWord (s.g rs1) (s.g rs2)) 4

/-- R126: signed remainder. -/
def execRem (rd rs1 rs2 : GReg) (s : State) : Out :=
  writeG s rd (ofI (remExact (s.g rs1).toInt (s.g rs2).toInt)) 4

/-- R126: unsigned remainder. -/
def execRemu (rd rs1 rs2 : GReg) (s : State) : Out :=
  writeG s rd (remuWord (s.g rs1) (s.g rs2)) 4

/-- R125: sext(a + b, 32). -/
def execAddw (rd rs1 rs2 : GReg) (s : State) : Out :=
  writeG s rd (sextN (s.g rs1 + s.g rs2) 32) 4

/-- R125: sext(a − b, 32). -/
def execSubw (rd rs1 rs2 : GReg) (s : State) : Out :=
  writeG s rd (sextN (s.g rs1 - s.g rs2) 32) 4

/-- R125: sext(a[31:0] << b[4:0], 32). -/
def execSllw (rd rs1 rs2 : GReg) (s : State) : Out :=
  writeG s rd (sextN (zextN (s.g rs1) 32 <<< sh5 (s.g rs2)) 32) 4

/-- R125: sext(a[31:0] >> b[4:0], 32). -/
def execSrlw (rd rs1 rs2 : GReg) (s : State) : Out :=
  writeG s rd (sextN (zextN (s.g rs1) 32 >>> sh5 (s.g rs2)) 32) 4

/-- R125: sext(sext(a, 32) >> b[4:0], 32). -/
def execSraw (rd rs1 rs2 : GReg) (s : State) : Out :=
  writeG s rd (sextN ((sextN (s.g rs1) 32).sshiftRight (sh5 (s.g rs2))) 32) 4

/-- R125: sext(a × b, 32). -/
def execMulw (rd rs1 rs2 : GReg) (s : State) : Out :=
  writeG s rd (sextN (s.g rs1 * s.g rs2) 32) 4

/-- R125: leading zero bits. -/
def execClz (rd rs1 : GReg) (s : State) : Out :=
  writeG s rd (w64 (clzWord (s.g rs1))) 4

/-- R125: trailing zero bits. -/
def execCtz (rd rs1 : GReg) (s : State) : Out :=
  writeG s rd (w64 (ctzWord (s.g rs1))) 4

/-- R125: one bits. -/
def execPopc (rd rs1 : GReg) (s : State) : Out :=
  writeG s rd (w64 (popWord (s.g rs1))) 4

/-- R125: bytes in reverse order. -/
def execBswp (rd rs1 : GReg) (s : State) : Out :=
  writeG s rd (bswpWord (s.g rs1)) 4

/-- R125: sext(a, 8). -/
def execSextb (rd rs1 : GReg) (s : State) : Out :=
  writeG s rd (sextN (s.g rs1) 8) 4

/-- R125: sext(a, 16). -/
def execSexth (rd rs1 : GReg) (s : State) : Out :=
  writeG s rd (sextN (s.g rs1) 16) 4

/-- R125: sext(a, 32). -/
def execSextw (rd rs1 : GReg) (s : State) : Out :=
  writeG s rd (sextN (s.g rs1) 32) 4

/-- R125: zext(a, 8). -/
def execZextb (rd rs1 : GReg) (s : State) : Out :=
  writeG s rd (zextN (s.g rs1) 8) 4

/-- R125: zext(a, 16). -/
def execZexth (rd rs1 : GReg) (s : State) : Out :=
  writeG s rd (zextN (s.g rs1) 16) 4

/-- R125: zext(a, 32). -/
def execZextw (rd rs1 : GReg) (s : State) : Out :=
  writeG s rd (zextN (s.g rs1) 32) 4

/-! ### Majors 0x02 to 0x05: immediates (R127 to R129) -/

/-- R127: a + i. -/
def execAddi (rd rs1 : GReg) (imm : BitVec 11) (s : State) : Out :=
  writeG s rd (s.g rs1 + sx imm) 4

/-- R127: a AND i. -/
def execAndi (rd rs1 : GReg) (imm : BitVec 11) (s : State) : Out :=
  writeG s rd (s.g rs1 &&& sx imm) 4

/-- R127: a OR i. -/
def execOri (rd rs1 : GReg) (imm : BitVec 11) (s : State) : Out :=
  writeG s rd (s.g rs1 ||| sx imm) 4

/-- R127: a XOR i. -/
def execXori (rd rs1 : GReg) (imm : BitVec 11) (s : State) : Out :=
  writeG s rd (s.g rs1 ^^^ sx imm) 4

/-- R127: 1 if sa < i, else 0. -/
def execSlti (rd rs1 : GReg) (imm : BitVec 11) (s : State) : Out :=
  writeG s rd (flagWord ((s.g rs1).slt (sx imm))) 4

/-- R127: 1 if a < zext(i, 64), else 0. -/
def execSltiu (rd rs1 : GReg) (imm : BitVec 11) (s : State) : Out :=
  writeG s rd (flagWord ((s.g rs1).ult (sx imm))) 4

/-- R127: sext(a + i, 32). -/
def execAddiw (rd rs1 : GReg) (imm : BitVec 11) (s : State) : Out :=
  writeG s rd (sextN (s.g rs1 + sx imm) 32) 4

/-- R128: a << sh. -/
def execSlli (rd rs1 : GReg) (sh : BitVec 6) (s : State) : Out :=
  writeG s rd (s.g rs1 <<< sh.toNat) 4

/-- R128: a >> sh. -/
def execSrli (rd rs1 : GReg) (sh : BitVec 6) (s : State) : Out :=
  writeG s rd (s.g rs1 >>> sh.toNat) 4

/-- R128: sa >> sh. -/
def execSrai (rd rs1 : GReg) (sh : BitVec 6) (s : State) : Out :=
  writeG s rd ((s.g rs1).sshiftRight sh.toNat) 4

/-- R128: a rotated left by sh. -/
def execRoli (rd rs1 : GReg) (sh : BitVec 6) (s : State) : Out :=
  writeG s rd (rotl (s.g rs1) sh.toNat) 4

/-- R128: sext(a[31:0] << sh, 32). -/
def execSlliw (rd rs1 : GReg) (sh : BitVec 5) (s : State) : Out :=
  writeG s rd (sextN (zextN (s.g rs1) 32 <<< sh.toNat) 32) 4

/-- R128: sext(a[31:0] >> sh, 32). -/
def execSrliw (rd rs1 : GReg) (sh : BitVec 5) (s : State) : Out :=
  writeG s rd (sextN (zextN (s.g rs1) 32 >>> sh.toNat) 32) 4

/-- R128: sext(sext(a, 32) >> sh, 32). -/
def execSraiw (rd rs1 : GReg) (sh : BitVec 5) (s : State) : Out :=
  writeG s rd (sextN ((sextN (s.g rs1) 32).sshiftRight sh.toNat) 32) 4

/-- R129: sext(imm19, 19) << 11. -/
def execLih (rd : GReg) (imm : BitVec 19) (s : State) : Out :=
  writeG s rd (sx imm <<< 11) 4

/-- R129: pc + (sext(imm19, 19) << 11). -/
def execAddpc (rd : GReg) (imm : BitVec 19) (s : State) : Out :=
  writeG s rd (s.pc + (sx imm <<< 11)) 4

/-! ### Majors 0x06 and 0x07: loads and stores (R117 to R121, R130, R131) -/

/-- A load of n bytes at an address, extended to rd, in an instruction of `len` bytes (R130). -/
def loadOp (s : State) (rd : GReg) (va : Word) (n : Nat) (ext : Word → Word) (len : Nat) : Out :=
  conclude s ((s.load va n).bind fun (x, s) => .ok ((s.setG rd (ext (w64 x))).advance len))

/-- A store of the low n bytes of a register at an address, in an instruction of `len` bytes (R131). -/
def storeOp (s : State) (va : Word) (n : Nat) (x : Word) (len : Nat) : Out :=
  conclude s ((s.store va n (x.toNat % 256 ^ n)).bind fun s => .ok (s.advance len))

/-- R130: a sign-extended byte. -/
def execLb (rd rs1 : GReg) (imm : BitVec 11) (s : State) : Out :=
  loadOp s rd (s.ea rs1 imm) 1 (sextN · 8) 4

/-- R130: a zero-extended byte. -/
def execLbu (rd rs1 : GReg) (imm : BitVec 11) (s : State) : Out :=
  loadOp s rd (s.ea rs1 imm) 1 id 4

/-- R130: a sign-extended halfword. -/
def execLh (rd rs1 : GReg) (imm : BitVec 11) (s : State) : Out :=
  loadOp s rd (s.ea rs1 imm) 2 (sextN · 16) 4

/-- R130: a zero-extended halfword. -/
def execLhu (rd rs1 : GReg) (imm : BitVec 11) (s : State) : Out :=
  loadOp s rd (s.ea rs1 imm) 2 id 4

/-- R130: a sign-extended word. -/
def execLw (rd rs1 : GReg) (imm : BitVec 11) (s : State) : Out :=
  loadOp s rd (s.ea rs1 imm) 4 (sextN · 32) 4

/-- R130: a zero-extended word. -/
def execLwu (rd rs1 : GReg) (imm : BitVec 11) (s : State) : Out :=
  loadOp s rd (s.ea rs1 imm) 4 id 4

/-- R130: a doubleword. -/
def execLd (rd rs1 : GReg) (imm : BitVec 11) (s : State) : Out :=
  loadOp s rd (s.ea rs1 imm) 8 id 4

/-- R131: the low byte of rs2. -/
def execSb (rs2 rs1 : GReg) (imm : BitVec 11) (s : State) : Out :=
  storeOp s (s.ea rs1 imm) 1 (s.g rs2) 4

/-- R131: the low halfword of rs2. -/
def execSh (rs2 rs1 : GReg) (imm : BitVec 11) (s : State) : Out :=
  storeOp s (s.ea rs1 imm) 2 (s.g rs2) 4

/-- R131: the low word of rs2. -/
def execSw (rs2 rs1 : GReg) (imm : BitVec 11) (s : State) : Out :=
  storeOp s (s.ea rs1 imm) 4 (s.g rs2) 4

/-- R131: rs2. -/
def execSd (rs2 rs1 : GReg) (imm : BitVec 11) (s : State) : Out :=
  storeOp s (s.ea rs1 imm) 8 (s.g rs2) 4

/-! ### Majors 0x08 to 0x0A: branches and jumps (R123, R132 to R134) -/

/-- A branch: the target where taken, else the next instruction, `len` bytes on (R132). -/
def branchOp (s : State) (taken : Bool) (t : Word) (len : Nat) : Out :=
  if taken then s.transfer t none else .next (s.advance len)

/-- R132: taken when a = b. -/
def execBeq (rs1 rs2 : GReg) (imm : BitVec 11) (s : State) : Out :=
  branchOp s (s.g rs1 == s.g rs2) (s.target imm) 4

/-- R132: taken when a ≠ b. -/
def execBne (rs1 rs2 : GReg) (imm : BitVec 11) (s : State) : Out :=
  branchOp s (s.g rs1 != s.g rs2) (s.target imm) 4

/-- R132: taken when sa < sb. -/
def execBlt (rs1 rs2 : GReg) (imm : BitVec 11) (s : State) : Out :=
  branchOp s ((s.g rs1).slt (s.g rs2)) (s.target imm) 4

/-- R132: taken when sa ≥ sb. -/
def execBge (rs1 rs2 : GReg) (imm : BitVec 11) (s : State) : Out :=
  branchOp s (!(s.g rs1).slt (s.g rs2)) (s.target imm) 4

/-- R132: taken when a < b. -/
def execBltu (rs1 rs2 : GReg) (imm : BitVec 11) (s : State) : Out :=
  branchOp s ((s.g rs1).ult (s.g rs2)) (s.target imm) 4

/-- R132: taken when a ≥ b. -/
def execBgeu (rs1 rs2 : GReg) (imm : BitVec 11) (s : State) : Out :=
  branchOp s (!(s.g rs1).ult (s.g rs2)) (s.target imm) 4

/-- R133: jumps pc-relative and links pc + 4. -/
def execJal (rd : GReg) (imm : BitVec 19) (s : State) : Out :=
  s.transfer (s.target imm) (some (rd, s.pc + 4))

/-- R134: jumps to rs1 plus an offset, MISALIGN for an odd target, and links pc + 4. -/
def execJalr (rd rs1 : GReg) (imm : BitVec 11) (s : State) : Out :=
  let t := s.ea rs1 imm
  if bitOf t 0 then trapOut s (Trap.at_ .misalign 0 t) else s.transfer t (some (rd, s.pc + 4))

end Sys2Proof.Machine
end

