-- ==== Sys2Proof/Machine/Queue.lean ====
section
/-! DEFINITION. Shared operations of the send queue and of the end of a task: entries, identifiers, reply slots
(R179 to R186, R193), the release reply (R186), and a context that becomes free (R147, R157, R160). -/

set_option Elab.async false

namespace Sys2Proof.Machine

/-! ### Limits (R180, R185, R192). A control core has no descriptor: its queues have their full size (log 16). -/

/-- SQLIM.LIM of a core. -/
def State.sqLim (s : State) (c : Nat) : Nat := if isControl c then 32 else fld (s.bank c).sqlim 5 0

/-- The QDEP limit of a class. -/
def State.qDepth (s : State) (c : Nat) (k : MClass) : Nat :=
  if isControl c then 16 else
  let q := (s.bank c).qdep
  match k with
  | .system => fld q 4 0
  | .reply => fld q 12 8
  | .ordered => fld q 20 16
  | .request => fld q 28 24

/-- SQFH.RRES; values above 16 act as 16. -/
def rres (sqfh : Word) : Nat := Nat.min 16 (fld sqfh 12 8)

/-- Entries in use (R179). -/
def Core.used (x : Core) : Nat := x.countEntries fun e => decide (e.st ≠ .free)

/-- Reply slots in use: reservations held and replies waiting (R185). -/
def Core.replySlots (x : Core) : Nat := x.countEntries (·.resv) + x.repliesWaiting

/-! ### Entries -/

/-- An entry by number. -/
def Core.entry (x : Core) (n : Nat) : Entry := if h : n < 32 then x.sendq[n] else Entry.free
def Core.setEntry (x : Core) (n : Nat) (e : Entry) : Core :=
  if h : n < 32 then { x with sendq := x.sendq.set n e } else x

/-- The lowest free entry. -/
def Core.freeEntry (x : Core) : Option Nat := firstIx (fun e => decide (e.st = .free)) x.sendq.toList 0

/-- The next identifier: the counter's value, past those that AWAIT and REFUSED entries hold (R183). -/
def Core.nextMid (x : Core) (m : BitVec 16) : Nat → BitVec 16
  | 0 => m
  | n + 1 =>
    if x.sendq.toList.any fun e =>
        (decide (e.st = .await) || decide (e.st = .refused)) && decide (e.mid = zx m)
    then x.nextMid (m + 1) n else m

/-- A HELD entry becomes READY (R179, R181, R183): its identifier, and its place in the order of departure. -/
def Core.readyEntry (x : Core) (n : Nat) : Core :=
  let e := x.entry n
  let (mid, x) := if e.isRply then (e.mid, x) else
    let m := x.nextMid x.bank.midc 33
    (zx m, { x with bank := { x.bank with midc := m + 1 } })
  { x with seq := x.seq + 1 }.setEntry n { e with st := .ready, mid := mid, seq := x.seq, away := false }

/-- DROPR's effect: the entry is free and its reservation released (R193). -/
def Core.dropEntry (x : Core) (n : Nat) : Core := x.setEntry n Entry.free

/-! ### The end of a task -/

/-- The core identifier and module that a delivered header's source fields name (R176). -/
def hdrCore (w1 : Word) : Nat := if bitOf w1 40 then controlCore (fld w1 5 0) else fld w1 17 0
def hdrMod (w1 : Word) : Nat := fld w1 29 18

/-- HADDR of a release reply (R186). -/
def releaseAddr : Word := 0x0000_FFFF_FFFE_0000

/-- The release reply of a consumed request (R186): it takes its place in the order of the core's READY entries now. -/
def State.sendRelease (s : State) (c : Nat) (m : Msg) : State :=
  let r := deviceMsg .release .reply releaseAddr c (hdrCore m.w1) (hdrMod m.w1) (s.bank c).vdid []
  let n := (s.core c).seq + 1
  (s.modCore c fun x => { x with seq := n }).post
    { r with mid := m.mid, w0 := releaseAddr ||| (m.mid <<< 48), order := n }

/-- The request of a context is consumed: a release reply, unless an RPLY has committed (R186). -/
def State.consume (s : State) (c : Nat) (i : Fin 4) : State :=
  let y := s.ctx c i
  match y.msg with
  | some m => if y.isRequest && !y.replied then s.sendRelease c m else s
  | none => s

/-- The context becomes FREE (R147). -/
def State.freeCtx (s : State) (c : Nat) (i : Fin 4) : State := s.putCtx c i Ctx.reset

/-- The task of a context ends and its message is consumed (R157, R160, R171). -/
def State.endTask (s : State) (c : Nat) (i : Fin 4) : State := (s.consume c i).freeCtx c i

end Sys2Proof.Machine
end

