-- ==== Sys2Proof/Machine/Task.lean ====
section
/-! DEFINITION. Major 0x0D, TASK (R154 to R161). A commit point leaves the context WAITING; what follows the commit is
the event CHUNK_COMMIT's. -/

set_option Elab.async false

namespace Sys2Proof.Machine

/-- HALT at the end of an instruction whose encoding is `enc`: the chunk commits, then the task ends (R157). -/
def haltOp (s : State) (enc : BitVec 32) : Out := fabricOnly s enc (.next (s.setWait (.commit .halt)))

/-- COMMIT of `len` bytes: a commit point (R155). -/
def commitOp (s : State) (enc : BitVec 32) (len : Nat) : Out :=
  fabricOnly s enc (.next (s.setWait (.commit (.next len))))

/-- HALT (R157). -/
def execHalt (s : State) : Out := haltOp s (encR 0x0D 0 0 0 0)

/-- A handler address is even and within HBLO to HBHI (R158, R187). -/
def Bank.handlerOk (b : Bank) (a : Nat) : Bool :=
  decide (a % 2 = 0) && decide (b.hblo.toNat ≤ a) && decide (a ≤ b.hbhi.toNat)

/-- HALTR: BOUNDS for a bad successor, else the chunk commits and the context is RETAINED (R158). -/
def execHaltr (rs1 : GReg) (s : State) : Out :=
  fabricOnly s (encR 0x0D 1 0 rs1 0)
    (if s.view.handlerOk (fld (s.g rs1) 47 0) then
      .next (s.setWait (.commit (.haltr (w64 (fld (s.g rs1) 47 0)))))
    else trapOut s (Trap.at_ .bounds 0 (s.g rs1)))

/-- COMMIT (R155). -/
def execCommit (s : State) : Out := commitOp s (encR 0x0D 2 0 0 0) 4

/-- ABORT: the chunk is rolled back, the message consumed, the context FREE (R160). -/
def execAbort (s : State) : Out :=
  fabricOnly s (encR 0x0D 3 0 0 0)
    (.next ((s.modMe fun x => x.discardChunk s.focus.2).endTask s.focus.1 s.focus.2))

/-- TRAPI: a commit point, then the trap TRAPI with FADDR = rs1; RESUME goes on at the next instruction (R161). -/
def execTrapi (rs1 : GReg) (s : State) : Out :=
  fabricOnly s (encR 0x0D 4 0 rs1 0)
    (.next (s.setWait (.commit (.suspend (Trap.at_ .trapi 0 (s.g rs1)) (s.pc + 4) s.pc))))

/-- BUDGQ: the budget left, from 1 to BUDG. The count itself is time, so the value is free in that range, below what an
earlier BUDGQ of the activation has returned (R156). -/
def execBudgq (rd : GReg) (s : State) : Out :=
  fabricOnly s (encR 0x0D 5 0 0 rd)
    (let (x, s) := s.draw
     let top := if s.cx.left = 0 then s.cr.budg.toNat else s.cx.left - 1
     let n := if top = 0 then 1 else 1 + x.toNat % top
     writeG (s.modCx fun y => { y with left := n }) rd (w64 n) 4)

end Sys2Proof.Machine
end

