-- ==== Sys2Proof/Machine/Message.lean ====
section
/-! DEFINITION. Majors 0x0E and 0x0F: sending (R176, R180, R184, R185, R193, R336) and rings (R194 to R196). -/

set_option Elab.async false

namespace Sys2Proof.Machine

/-! ### SEND, RPLY, SENDQ (R184) -/

/-- The three members. -/
inductive SendKind where
  | send | rply | sendq
  deriving DecidableEq, Repr

/-- The task's message may be answered: of class request, and no RPLY for it committed or in the chunk (R184). -/
def State.mayReply (s : State) : Bool :=
  let y := s.cx
  y.msg.isSome && y.isRequest && !y.replied &&
    !(s.me.sendq.toList.any fun e => e.isRply && decide (e.st = .held) && decide (e.ctx = s.focus.2.val))

/-- The header RPLY sends: LEN and REL of the operand, class reply, the request's source (R184). -/
def State.replyHeader (s : State) (hd : Word) : Word :=
  match s.cx.msg with
  | some m => (hd &&& 0x0000_009F_0000_0000) ||| (1 <<< 30) ||| (m.w1 &&& 0x0000_0100_3FFF_FFFF)
  | none => hd &&& 0x0000_009F_0000_0000

/-- The header's own checks, in the order of R184; RPLY's is checked too where the order says so. -/
def State.headerCheck (s : State) (kind : SendKind) (hd : Word) : Ans Unit :=
  (Ans.check (decide (fld hd 63 41 = 0) && decide (fld hd 38 37 = 0) && decide (lenOf hd ≤ 30))
    (Trap.bare .bounds 1)).bind fun _ =>
  (Ans.check (!bitOf hd 40 || decide (fld hd 17 6 = 0)) (Trap.bare .bounds 1)).bind fun _ =>
  (Ans.check (decide (kind = .rply) || decide (fld hd 31 30 ≠ 1)) (Trap.bare .bounds 1)).bind fun _ =>
  (Ans.check (decide (fld hd 31 30 ≠ 2) || decide (2 ≤ lenOf hd)) (Trap.bare .bounds 1)).bind fun _ =>
  Ans.check (!bitOf hd 39 || bitOf s.cr.scur 32) (Trap.bare .scope 1)

/-- What the search for an entry comes to (R180, R184, R185). -/
inductive Room where
  | entry (n : Nat)
  /-- No entry, or no reply slot: SENDQ's failure value and the SQF sub-cause. -/
  | none_ (fail : Word) (sub : Nat) (mayWait : Bool)
  deriving DecidableEq, Repr

/-- The entry a send takes. -/
def State.room (s : State) (kind : SendKind) (request : Bool) : Room :=
  let x := s.me
  let c := s.focus.1
  let lim := s.sqLim c
  let sqfh := s.view.sqfh
  let full := if kind = .rply then decide (lim ≤ x.used) else decide (lim ≤ x.used + rres sqfh)
  let mine (e : Entry) : Bool := decide (e.st = .held) && decide (e.ctx = s.focus.2.val)
  if full then
    .none_ 0xFFFF_FFFF_FFFF_FFFF 0 (x.sendq.toList.any fun e => decide (e.st ≠ .free) && !mine e)
  else if request && decide (s.qDepth c .reply ≤ x.replySlots) then
    .none_ 0xFFFF_FFFF_FFFF_FFFE 1
      ((x.sendq.toList.any fun e => e.resv && !mine e) || decide (0 < x.repliesWaiting))
  else
    match x.freeEntry with
    | some n => .entry n
    | none => .none_ 0xFFFF_FFFF_FFFF_FFFF 0 (x.sendq.toList.any fun e => decide (e.st ≠ .free) && !mine e)

/-- An entry is taken HELD by the executing context; a control core's is READY at once (R179, R339). -/
def State.takeEntry (s : State) (n : Nat) (e : Entry) : State :=
  let x := s.me
  let e := { e with
    rels := if e.rect = 0 then e.rels else s.cx.rels
    hyper := s.ctl && decide (s.level = 2) }
  let x := { x with seq := x.seq + 1 }.setEntry n { e with st := .held, ctx := s.focus.2.val, seq := x.seq }
  s.setMe (if s.ctl then x.readyEntry n else x)

/-- Takes the entry a send or an atomic needs, or waits, or traps SQF, or answers SENDQ's failure value in rd
(R184, R341). -/
def State.enter (s : State) (kind : SendKind) (request : Bool) (rd : GReg) (e : Entry) : Ans State :=
  match s.room kind request with
  | .entry n => .ok (((s.takeEntry n { e with resv := request }).setG rd (w64 n)).advance 4)
  | .none_ fail sub mayWait =>
    if kind = .sendq then .ok ((s.setG rd fail).advance 4)
    else if bitOf s.view.sqfh 0 && mayWait then .wait .again
    else .trap (Trap.bare .sqf sub)

/-- SEND, RPLY and SENDQ (R184, R336). -/
def sendOp (s : State) (kind : SendKind) (rd rs1 rs2 : GReg) : Out :=
  let a := s.g rs1
  let hd := s.g rs2
  conclude s <|
  (Ans.check (decide (kind = .rply) || s.ctl || decide (fld hd 31 30 ≠ 3)) (Trap.bare .priv 0)).bind fun _ =>
  (Ans.check (decide (fld a 2 0 = 0)) (Trap.at_ .misalign 0 a)).bind fun _ =>
  (Ans.check (decide (kind ≠ .rply) || s.mayReply) (Trap.bare .bounds 3)).bind fun _ =>
  let hd := if kind = .rply then s.replyHeader hd else hd
  (s.headerCheck kind hd).bind fun _ =>
  (s.load a 8).bind fun (w0, s) =>
  (s.loadWords (a + 16) (lenOf hd)).bind fun (p, s) =>
  (Ans.check (decide (fld hd 31 30 ≠ 2) || decide ((s.cr.tstp).toNat ≤ (p.getD 0 0).toNat))
    (Trap.bare .tsorder 0)).bind fun _ =>
  let mid := match s.cx.msg with
    | some m => m.mid
    | none => 0
  s.enter kind (decide (fld hd 31 30 = 0)) rd
    { Entry.free with
      hd := hd
      haddr := w64 (w0 % 2 ^ 48)
      mid := if kind = .rply then mid else 0
      payload := p
      rect := if bitOf hd 39 then s.cr.scur else 0
      isRply := decide (kind = .rply) }

/-- SEND (R184). -/
def execSend (rd rs1 rs2 : GReg) (s : State) : Out := sendOp s .send rd rs1 rs2

/-- RPLY (R184). -/
def execRply (rd rs1 rs2 : GReg) (s : State) : Out := sendOp s .rply rd rs1 rs2

/-- SENDQ (R184). -/
def execSendq (rd rs1 rs2 : GReg) (s : State) : Out := sendOp s .sendq rd rs1 rs2

/-! ### RESEND and DROPR (R193) -/

/-- A claim on a REFUSED entry, that acts at the commit: rd 0, or 1 where the entry cannot be claimed. -/
def claimOp (s : State) (rd rs1 : GReg) (drop : Bool) : Out :=
  let n := (s.g rs1).toNat
  let e := s.me.entry n
  conclude s <|
  if 31 < n ∨ e.st ≠ .refused ∨ (e.claim.isSome ∧ e.claim ≠ some s.focus.2.val) then
    .ok ((s.setG rd 1).advance 4)
  else if s.ctl then
    let x := s.me
    let x := if drop then x.dropEntry n else
      { x with seq := x.seq + 1 }.setEntry n { e with st := .ready, away := false, seq := x.seq }
    .ok (((s.setMe x).setG rd 0).advance 4)
  else
    let q := s.me.seq
    let s := s.modMe fun x => { x with seq := q + 1 }.setEntry n { e with claim := some s.focus.2.val }
    .ok (((s.addPend (if drop then .dropr n q else .resend n q)).setG rd 0).advance 4)

/-- RESEND: at the commit the entry is READY again (R193). -/
def execResend (rd rs1 : GReg) (s : State) : Out := claimOp s rd rs1 false

/-- DROPR: at the commit the entry is FREE (R193). -/
def execDropr (rd rs1 : GReg) (s : State) : Out := claimOp s rd rs1 true

/-! ### Rings (R194 to R196) -/

/-- The handle as the task sees it, RING SUB 1 where it is unset. -/
def State.ringHandle (s : State) (h : HReg) : Ans Word :=
  let x := s.view.ring h
  if hNlg x = 0 then .trap (Trap.bare .ring 1) else .ok x

/-- HSET: a ring in the TCM outside the code region, with HEAD and TAIL 0 (R196). -/
def execHset (h : HReg) (rs1 : GReg) (s : State) : Out :=
  let d := s.g rs1
  let ok := decide (fld d 63 26 = 0) && decide (3 ≤ fld d 21 18) && decide (fld d 21 18 ≤ 12) &&
    decide (1 ≤ hNlg d) && decide (hNlg d ≤ 10) && decide (hBase d % hSlot d = 0) &&
    decide (hBase d + hCount d * hSlot d ≤ 2 ^ 18) && decide (s.codeBytes s.focus.1 ≤ hBase d) && !s.ctl
  conclude s <|
  if !ok then .trap (Trap.bare .ring 0) else
  .ok (((s.touch h.toNat true).addPend (.ring h d)).advance 4)

/-- CWAIT and PWAIT: the checks, then a commit point; the wait follows the commit (R196). -/
def ringWaitOp (s : State) (produce : Bool) (rd : GReg) (h : HReg) (rs1 : GReg) : Out :=
  let n := (s.g rs1).toNat
  conclude s <|
  (s.ringHandle h).bind fun x =>
  if hCount x < n then .trap (Trap.bare .ring 2) else
  .wait (.commit (.ring produce h n rd))

/-- CWAIT (R196). -/
def execCwait (rd : GReg) (h : HReg) (rs1 : GReg) (s : State) : Out := ringWaitOp (s.touch h.toNat false) false rd h rs1

/-- PWAIT (R196). -/
def execPwait (rd : GReg) (h : HReg) (rs1 : GReg) (s : State) : Out := ringWaitOp (s.touch h.toNat false) true rd h rs1

/-- A handle with HEAD, or TAIL, moved on by n slots (R196). -/
def hMove (x : Word) (tail : Bool) (n : Nat) : Word :=
  if tail then setFld x 47 37 ((hTail x + n) % (2 * hCount x)) else setFld x 36 26 ((hHead x + n) % (2 * hCount x))

/-- CADV and PADV, having read the handle: HEAD, or TAIL, moves on by n slots, of as many as there are (R196). -/
def ringMoveOp (s : State) (produce : Bool) (h : HReg) (rs1 : GReg) : Out :=
  let n := (s.g rs1).toNat
  conclude s <|
  (s.ringHandle h).bind fun x =>
  if (if produce then hFree x else hFilled x) < n then .trap (Trap.bare .ring 3) else
  .ok (((s.touch h.toNat true).addPend (.ring h (hMove x produce n))).advance 4)

/-- CADV: HEAD moves on by n of the filled slots (R196). -/
def execCadv (h : HReg) (rs1 : GReg) (s : State) : Out := ringMoveOp (s.touch h.toNat false) false h rs1

/-- PADV: TAIL moves on by n of the free slots (R196). -/
def execPadv (h : HReg) (rs1 : GReg) (s : State) : Out := ringMoveOp (s.touch h.toNat false) true h rs1

/-- HQRY, having read the handle: the handle with its filled count (R196). -/
def ringQueryOp (s : State) (rd : GReg) (h : HReg) : Out :=
  conclude s <|
  (s.ringHandle h).bind fun x => .ok ((s.setG rd (w64 (fld x 47 0 + hFilled x * 2 ^ 48))).advance 4)

/-- HQRY (R196). -/
def execHqry (rd : GReg) (h : HReg) (s : State) : Out := ringQueryOp (s.touch h.toNat false) rd h

end Sys2Proof.Machine
end

