-- ==== Sys2Proof/Machine/Device.lean ====
section
/-! DEFINITION. What control registers of the module do when they are written: clusters (R462, R464), interrupts
(R461), peer links and route sets (R445, R448, R449, R474), port queues (R473), islands (R481). The instruction that
writes the register and the device's own event of the same name call the same operation. -/

set_option Elab.async false

namespace Sys2Proof.Machine

/-! ### Clusters (R462, R464) -/

/-- A copy of a core's state that holds a kernel of a virtual device. -/
def Bank.loadedFor (b : Bank) (v : Nat) : Bool := decide (b.vdid = v) && decide (b.kst ≠ .absent)

/-- The kernel of a virtual device is ABSENT on every core of a cluster. -/
def State.absentOn (s : State) (k v : Nat) : Bool :=
  (coresOf k).all fun c => !(s.core c).bank.loadedFor v && !(s.core c).other.loadedFor v

/-- The two copies change places. -/
def Core.swapped (x : Core) : Core := { x with bank := x.other, other := x.bank }

/-- The copy in use serves a virtual device: the one that has served it before, else the copy in use, whose values stay
(R183, R250; log 32). -/
def Core.serve (x : Core) (v : Nat) : Core :=
  if x.bank.vdid = v then x
  else if x.other.vdid = v then x.swapped
  else { x with bank := { x.bank with vdid := v } }

/-- The copies of a time-shared core serve two virtual devices (R464). One whose kernel is ABSENT leaves the core to the
other one where that alone is switched in. -/
def State.serveBoth (s : State) (x : Core) (a b : Nat) : Core :=
  let x := if x.bank.vdid = a ∨ x.bank.vdid = b then x else x.serve (if x.other.vdid = b then b else a)
  let o := if x.bank.vdid = a then b else a
  let x := { x with other := { x.other with vdid := o } }
  if x.bank.kst = .absent && (s.vdev o).switchedIn && !(s.vdev x.bank.vdid).switchedIn then x.swapped else x

/-- A core as an assignment leaves it. One that has come to another virtual device is not stopped for it, but for a STOP
whose sender has yet to be told. -/
def Core.comeTo (x y : Core) : Core :=
  if x.bank.vdid = y.bank.vdid || (x.stopBy.isSome && !x.saved) then y
  else { y with stopped := false, stopBy := none, saved := false, saveHalt := none }

/-- Gives a core the copies its cluster's new assignment asks for (R464). -/
def State.assignCore (s : State) (w : Word) (c : Nat) : State :=
  let a := fld w 5 0
  let b := fld w 13 8
  s.modCore c fun x =>
    x.comeTo (match bitOf w 6, bitOf w 14 with
      | true, true => s.serveBoth x a b
      | true, false => x.serve a
      | false, true => x.serve b
      | false, false => x)

/-- The cases in which a write to CLOWN is ignored (R462). -/
def State.clownIgnored (s : State) (k : Nat) (w : Word) : Bool :=
  let old := (s.cluster k).clown
  let moved (hi lo v : Nat) : Bool :=
    bitOf old v && (decide (fld old hi lo ≠ fld w hi lo) || !bitOf w v) && !s.absentOn k (fld old hi lo)
  let both := bitOf w 6 && bitOf w 14
  bitOf old 31 || moved 5 0 6 || moved 13 8 14 ||
  (both && decide (fld w 5 0 = fld w 13 8)) ||
  decide (fld w 20 16 < 4) || decide (28 < fld w 20 16) ||
  (both && s.slotTab.any fun (_, e) => bitOf e (fld w 5 0) && bitOf e (fld w 13 8))

/-- A write to CLOWN of a cluster (R462). A time-shared cluster's array is split and locked (R463). -/
def State.writeClown (s : State) (k : Nat) (x : Word) : State :=
  let w := x &&& 0x001F_7F7F
  if s.clownIgnored k w then s else
  let old := s.cluster k
  let both := bitOf w 6 && bitOf w 14
  let s := s.modCluster k fun y =>
    { y with
      clown := w
      split := if both then true else if old.shared then false else y.split
      locked := if both then true else if old.shared then false else y.locked }
  (coresOf k).foldl (fun s c => s.assignCore w c) s

/-! ### Interrupts (R461) -/

/-- Clears pending bits of a control core: bits written 1 (R9). -/
def State.clearIpend (s : State) (c : Nat) (x : Word) : State :=
  s.modCore c fun y => { y with priv := { y.priv with ipend := y.priv.ipend &&& ~~~x } }

/-- Sets pending bits of a control core. -/
def State.raiseIpend (s : State) (c : Nat) (x : Word) : State :=
  s.modCore c fun y => { y with priv := { y.priv with ipend := y.priv.ipend ||| x } }

/-! ### Peer links (R445, R448, R449, R474) -/

def State.link (s : State) (l : Nat) : Link := Tab.get s.links l Link.reset
def State.modLink (s : State) (l : Nat) (f : Link → Link) : State :=
  { s with links := Tab.put s.links l (f (s.link l)) }

/-- The identifier this module was assigned (R21, R461). -/
def State.moduleId (s : State) : Nat := if fld s.modw 11 0 = 0xFFF then 0 else fld s.modw 11 0

/-- The link report (R474): number, new state, cause. -/
def State.linkReport (s : State) (l cause : Nat) : State :=
  s.moduleReport 0xFF s.hrpt [w64 l, w64 (s.link l).st.code, w64 cause]

/-- A route set drains: each flit now on the set's links must be gone before the mask applies (R445). -/
def State.drain (s : State) (m mask : Nat) : State :=
  let old := Tab.get s.rsets m 0
  let marks := (List.range 24).filterMap fun l =>
    if old.testBit l then some (l, (s.link l).gone + (s.link l).replay.length) else none
  { s with drains := Tab.put s.drains m { mask := mask, marks := marks } }

/-- The active count of the route sets that a link belongs to changes: each drains (R445). -/
def State.drainLink (s : State) (l : Nat) : State :=
  s.rsets.foldl (fun s (m, mask) => if mask.testBit l then s.drain m (s.routeSet m) else s) s

/-- The link report of a change whose cause is none of those listed: a free one (log 23). -/
def State.linkReportFree (s : State) (l : Nat) : State :=
  let (x, s) := s.draw
  s.linkReport l x.toNat

/-- A message lost with a flit (R449): a request is refused at its sender, NOKERNEL; anything else is discarded. -/
def State.loseMsg (s : State) (m : Msg) : State :=
  match m.entry, decide (m.cls = .request) with
  | some e, true =>
    let v : Verdict := { core := m.src, entry := e, mid := fld m.w0 63 48, vd := m.vd, why := some 3 }
    if s.verdicts.getLast? = some v then s else { s with verdicts := s.verdicts ++ [v] }
  | _, _ => s

/-- A link goes DOWN (R448, R449): LOST counts its flits (R458). Both ends count flits from 0 again when it comes up (log 18). -/
def State.linkDown (s : State) (l cause : Nat) : State :=
  if (s.link l).st = .down then s else
  let lost := (s.link l).replay
  let s := s.modLink l fun y => { y with
    st := .down, lanes := 0, replay := [], naks := 0, attempt := 0, fromDown := true, sendSeq := 0, recvSeq := 0
    lost := y.lost + lost.length, gone := y.gone + lost.length }
  let s := lost.foldl (fun s (_, m) => s.loseMsg m) s
  (s.drainLink l).linkReport l cause

/-- LCTL.EN written 1 (R474). -/
def State.enableLink (s : State) (l : Nat) : State :=
  if (s.link l).st = .down then
    (s.modLink l fun y => { y with st := .training, attempt := 0, fromDown := true }).linkReport l 1
  else s

/-- LCTL.EN written 0 (R474). -/
def State.disableLink (s : State) (l : Nat) : State := s.linkDown l 1

/-- An UP or DEGRADED link goes to RESET: its replay buffer is kept (R448). -/
def State.resetLink (s : State) (l cause : Nat) : State :=
  match (s.link l).st with
  | .up | .degraded => (s.modLink l fun y => { y with st := .reset, naks := 0 }).linkReport l cause
  | .down | .training | .reset => s

/-- A write to LCTL of a link (R474). -/
def State.writeLctl (s : State) (l : Nat) (x : Word) : State :=
  if 24 ≤ l then s else
  let s := s.modLink l fun y => { y with lto := fld x 63 32 }
  let s := if bitOf x 0 then s.enableLink l else s.disableLink l
  if bitOf x 1 then s.resetLink l 1 else s

/-- A write to RSET of a module: the mask takes effect through a drain (R445, R474). -/
def State.writeRset (s : State) (m mask : Nat) : State :=
  if m = 0xFFF ∨ m = s.moduleId ∨ 0xFFF < m then s
  else s.drain m (mask % 2 ^ 24)

/-! ### Port contexts (R473) -/

/-- The context is one of the table and valid (R473). -/
def State.portValid (s : State) (port q : Nat) : Bool :=
  decide (port < 3) && decide (q ≤ fld (Tab.get s.pctb port 0) 55 44) && (Tab.look s.portCtxs (port * 4096 + q)).isSome

/-- The port writes a word of its context, and of its own copy. -/
def State.putPortWord (s : State) (port q off : Nat) (x : Word) : State :=
  let s := s.hyperWrite (s.portCtxAt port q + off) x
  match Tab.look s.portCtxs (port * 4096 + q) with
  | some ws => { s with portCtxs := Tab.put s.portCtxs (port * 4096 + q) (ws.set (off / 8) x) }
  | none => s

/-- Sets or clears STOPPED of a context. -/
def State.setStopped (s : State) (port q : Nat) (b : Bool) : State :=
  match s.hyperWord false 0 (s.portCtxAt port q) with
  | .ok x => s.putPortWord port q 0 (setFld x 7 7 (b2n b))
  | .error f => s.tableFails f

/-- The submissions of a queue. -/
def State.queue (s : State) (port q : Nat) : PortQueue :=
  Tab.get s.queues (port * 4096 + q) { tail := 0, head := 0 }
def State.setQueue (s : State) (port q : Nat) (x : PortQueue) : State :=
  { s with queues := Tab.put s.queues (port * 4096 + q) x }

/-- Command RESUME: STOPPED is cleared and the pair goes on at FAILIX (R473). -/
def State.portResume (s : State) (port q : Nat) : State :=
  if !s.portValid port q then s else
  let ix := fld (s.portWord port q 0x38) 15 0
  let s := s.setQueue port q { s.queue port q with head := ix }
  { s.setStopped port q false with portStops := s.portStops.filter fun e => decide (e ≠ (port, q)) }

/-- Command STOP: STOPPED is set once the requests in progress complete (R473). -/
def State.portStop (s : State) (port q : Nat) : State :=
  if !s.portValid port q then s else
  if s.portStops.contains (port, q) then s else { s with portStops := s.portStops ++ [(port, q)] }

/-- A write to PQCMD by the executing control core (R473). -/
def State.writePqcmd (s : State) (x : Word) : State :=
  let port := fld x 1 0
  let q := fld x 27 16
  if s.level < 2 ∧ fld (s.portWord port q 0) 5 0 ≠ s.vd then s else
  match fld x 35 32 with
  | 1 => s.portResume port q
  | 2 => s.portStop port q
  | _ => s

/-! ### Islands (R481) -/

def State.island (s : State) (i : Nat) : Island := Tab.get s.islands i Island.reset
def State.modIsland (s : State) (i : Nat) (f : Island → Island) : State :=
  { s with islands := Tab.put s.islands i (f (s.island i)) }

/-- A write to ICTL of an island: the divider and the bounds are due (R481). -/
def State.writeIctl (s : State) (i : Nat) (x : Word) : State :=
  if 36 ≤ i then s else
  s.modIsland i fun y =>
    { y with
      fdiv := fld x 3 0, rise := w64 (fld x 31 16), fall := w64 (fld x 47 32)
      fdivDue := y.fdivDue || decide (fld x 3 0 ≠ y.fdiv) }

end Sys2Proof.Machine
end

