-- ==== Sys2Proof/Machine/Scope.lean ====
section
/-! DEFINITION. Major 0x11, SCOPE (R335, R338, R339): RELS, ACQS and FENCE. -/

set_option Elab.async false

namespace Sys2Proof.Machine

/-- Lists the greater of two coherence indices for a word. -/
def Tab.raise (t : Tab Nat) (w n : Nat) : Tab Nat := if Tab.get t w 0 < n then Tab.put t w n else t

/-- Whether a store performed in a rectangle, or everywhere, is performed for a core (R333, R335). -/
def Performed.covers (p : Performed) (c : Nat) : Bool :=
  match p.rect with
  | none => true
  | some r => inRect r c

/-- The stores performed for a core, by word the latest of them: those of its cluster's couch and those it has loaded
are in its floors, the others in the list of stores performed (R333). -/
def State.covered (s : State) (c : Nat) : Tab Nat :=
  s.performed.foldl (fun t p => if p.covers c then t.raise p.word p.ix else t) (s.core c).floors

/-- ACQS of a core: its later loads take their floor from the stores performed for it now (R334). -/
def State.acquire (s : State) (c : Nat) : State := s.modCore c fun x => { x with floors := s.covered c }

/-- Stores become performed for every core, or for those of a rectangle. -/
def State.perform (s : State) (rect : Option Word) (stores : Tab Nat) : State :=
  { s with performed := stores.map (fun (w, n) => { rect := rect, word := w, ix := n }) ++ s.performed }

/-- A valid rectangle operand (R338). -/
def rectOk (r : Word) : Bool :=
  decide (fld r 63 32 = 0) && decide (fld r 7 0 ≤ fld r 23 16) && decide (fld r 15 8 ≤ fld r 31 24) &&
  decide (fld r 31 24 ≤ 127)

/-- RELS (R335, R338, R339). A control core's acts on its own completed stores at once. -/
def execRels (rs1 : GReg) (s : State) : Out :=
  let q := s.g rs1
  conclude s <|
  if !rectOk q then .trap (Trap.bare .scope 0) else
  let s := s.setCr { s.cr with scur := setFld q 32 32 1 }
  if s.ctl then .ok ((s.modCx fun y => { y with rels := s.covered s.focus.1 }).advance 4)
  else .ok ((s.addPend (.rels q)).advance 4)

/-- ACQS: the cache drops every line (R334, R339). -/
def execAcqs (s : State) : Out := .next ((s.acquire s.focus.1).advance 4)

/-- FENCE: waits until the stores of R339 are performed for every core of the module; a control core's are complete. -/
def execFence (s : State) : Out :=
  if s.ctl then .next ((s.perform none (s.covered s.focus.1)).advance 4)
  else .next (s.setWait (.fence s.cx.fence none 0))

end Sys2Proof.Machine
end

