-- ==== Sys2Proof/Machine/Jobs.lean ====
section
/-! DEFINITION. Shared operations of job slots: mailboxes (R257), submission (R250, R252, R255), and the end of a job
with its status word (R251, R255). -/

set_option Elab.async false

namespace Sys2Proof.Machine

/-- A job slot by number. -/
def Bank.job (b : Bank) (n : Nat) : Job := if h : n < 8 then b.jobs[n] else Job.reset
def Bank.setJob (b : Bank) (n : Nat) (j : Job) : Bank :=
  if h : n < 8 then { b with jobs := b.jobs.set n j } else b
def State.job (s : State) (c n : Nat) : Job := (s.bank c).job n
def State.setJob (s : State) (c n : Nat) (j : Job) : State := s.modBank c fun b => b.setJob n j

/-- The lowest slot that is FREE or ENDED (R252). -/
def Bank.freeSlot (b : Bank) : Option Nat :=
  firstIx (fun j => decide (j.st = .free) || decide (j.st = .ended)) b.jobs.toList 0

/-- n bytes from a TCM address on lie in the TCM outside the core's code region. -/
def State.inTcm (s : State) (a n : Nat) : Bool :=
  !s.ctl && decide (s.codeBytes s.focus.1 ≤ a) && decide (a + n ≤ 2 ^ 18)

/-- A mailbox: 0, or a multiple of 8 in the TCM outside the code region (R257); a translated address on a control
core (R277). -/
def State.mailboxOk (s : State) (m : Word) : Bool :=
  decide (m = 0) ||
    (decide (m.toNat % 8 = 0) && if s.ctl then decide (m.toNat < 2 ^ 48) else s.inTcm m.toNat 8)

/-- The trap of a mailbox that breaks its limits: JOB, SUB 3 (R256, R257). -/
def State.mailbox (s : State) (m : Word) : Ans Unit := Ans.check (s.mailboxOk m) (Trap.bare .job 3)

/-- The job identifier of a slot's job (R250). -/
def jobId (n : Nat) (j : Job) : Nat := n + j.gen.toNat * 8

/-- An invalidation (R371). -/
def Job.invalidating (j : Job) : Bool := decide (15 ≤ j.kind) && decide (j.kind ≤ 17)

/-- A copy (R271). -/
def Job.copying (j : Job) : Bool := decide (j.kind = 6) || decide (j.kind = 7)

/-- What a job holds of the moment of its kick: of a copy, the stores performed for the issuing core then, which its reads
come after (R345); of an invalidation, the stores that its cluster has performed for itself, and how far the coherence
order of each word had come (R372). -/
def State.atKick (s : State) (c : Nat) (j : Job) : Job :=
  if j.copying then { j with rels := s.covered c } else
  if !j.invalidating then j else
  { j with
    rels := (peersOf c).foldl (fun t d => (s.core d).floors.foldl (fun t (w, n) => t.raise w n) t) []
    tables := s.hist.map fun (w, h) => (w, h.length) }

/-- A JOB SUBMISSION (R252): the lowest slot that is FREE or ENDED is HELD with the operands sampled now, rd receives
the identifier, and the job is queued at the commit of the chunk; a control core's at once. -/
def State.submit (s : State) (rd : GReg) (kind : Nat) (mbox : Word) (tmA tmB : BitVec 256) (ops : List Word) :
    Ans State :=
  match s.me.bank.freeSlot with
  | none => .wait .again
  | some n =>
    let old := s.me.bank.job n
    let j := { Job.reset with
      st := if s.ctl then .queued else .held
      gen := old.gen + 1
      ctx := s.focus.2.val
      kind := kind
      mbox := mbox
      tmA := tmA
      tmB := tmB
      ops := ops
      cr := s.cr
      seq := s.seq
      sid := fld s.me.bank.sidr 15 0 }
    let j := if s.ctl then s.atKick s.focus.1 j else j
    let s := s.modMe fun x => x.modBank fun b =>
      { b.setJob n j with jobsBefore := Tab.put b.jobsBefore n old }
    let s := s.setG rd (w64 (jobId n j))
    if s.ctl then .ok ({ s with seq := s.seq + 1 }.advance 4) else .ok (s.setWait (.commit (.job n)))

/-- A job's status word (R251). -/
def statusWord (status kind jid dcode dlen : Nat) : Word :=
  w64 (status % 256 + kind % 256 * 2 ^ 8 + jid % 2 ^ 16 * 2 ^ 16 + dcode % 256 * 2 ^ 32 + dlen % 2 ^ 24 * 2 ^ 40)

/-- Statuses (R251). -/
def stDone : Nat := 0
def stTimeout : Nat := 1
def stGangmis : Nat := 2
def stPairlost : Nat := 3
def stFault : Nat := 4
def stCancel : Nat := 5
def stZpiv : Nat := 6
def stNpd : Nat := 7

/-! ### Memory for the device's own accesses on behalf of a core or a virtual device -/

/-- The place of an access that the device makes for a requester, or what stops it (R215, R306, R392): INTEG and UNCORR
raise the alarm and the machine check with no trap of a task (R383, R486). -/
def State.deviceFindAs (s : State) (q : Asker) (k : AccKind) (va : Word) : Except Trap Place × State :=
  match s.findAs q k va with
  | (.error t, s) => (.error t, s.deviceFails t)
  | (.ok f, s) =>
    match s.dataTrap f va 8 with
    | some t => (.error t, s.deviceFails t)
    | none => (.ok f.place, s)

/-- Stores bytes of one word at a place for a core, performed for every core (R345): a chunk of a hart of its cluster. -/
def State.devicePut (s : State) (c : Nat) (p : Place) (bs : List Byte) : State :=
  let cells := cellsFrom p.addr bs
  let s := if isControl c then s else s.hartMeets (clusterOf c) (cellsSig cells)
  let s := s.commitCells (agentsOf c) p.homes cells
  match regionOf p.addr with
  | .tcm | .spad => s
  | .hbm | .die => s.performNow (p.addr / 8)

/-- Stores a word at an address for a requester; the trap that stops it. -/
def State.devicePutWordAs (s : State) (q : Asker) (va x : Word) : Except Trap Unit × State :=
  match s.deviceFindAs q .store va with
  | (.error t, s) => (.error t, s)
  | (.ok p, s) => (.ok (), s.devicePut q.core p (toBytes 8 x.toNat))

/-- Stores words from an address upward, up to the first that fails. -/
def State.devicePutWordsAs (s : State) (q : Asker) (va : Word) : List Word → Except Trap Unit × State
  | [] => (.ok (), s)
  | x :: rest =>
    match s.devicePutWordAs q va x with
    | (.error t, s) => (.error t, s)
    | (.ok _, s) => s.devicePutWordsAs q (va + 8) rest

/-- The word at an address as the device reads it for a requester: the latest value. -/
def State.deviceGetAs (s : State) (q : Asker) (va : Word) : Except Trap Word × State :=
  match s.deviceFindAs q .load va with
  | (.error t, s) => (.error t, s)
  | (.ok p, s) => (.ok (s.wordAt p), s)

/-- n words from an address upward. -/
def State.deviceGetWordsAs (s : State) (q : Asker) (va : Word) : Nat → Except Trap (List Word) × State
  | 0 => (.ok [], s)
  | n + 1 =>
    match s.deviceGetAs q va with
    | (.error t, s) => (.error t, s)
    | (.ok x, s) =>
      match s.deviceGetWordsAs q (va + 8) n with
      | (.error t, s) => (.error t, s)
      | (.ok xs, s) => (.ok (x :: xs), s)

/-- The same for a core, under its own space. -/
def State.deviceFind (s : State) (c : Nat) (k : AccKind) (va : Word) : Except Trap Place × State :=
  s.deviceFindAs (s.asker c) k va
def State.devicePutWord (s : State) (c : Nat) (va x : Word) : Except Trap Unit × State :=
  s.devicePutWordAs (s.asker c) va x
def State.devicePutWords (s : State) (c : Nat) (va : Word) (ws : List Word) : Except Trap Unit × State :=
  s.devicePutWordsAs (s.asker c) va ws
def State.deviceGet (s : State) (c : Nat) (va : Word) : Except Trap Word × State := s.deviceGetAs (s.asker c) va
def State.deviceGetWords (s : State) (c : Nat) (va : Word) (n : Nat) : Except Trap (List Word) × State :=
  s.deviceGetWordsAs (s.asker c) va n

/-- An agent of the device that reaches the memory of a virtual device under a space: the placer, the mapper, a port
(R197, R307, R360, R444). -/
def vdAsker (agent v sid : Nat) : Asker := { core := deviceAgent, agent := agent, vd := v, sid := sid, level := 0 }

/-- The place of such an access, or what stops it: it is translated, and aligned (R360, R367, R468). -/
def State.vdFind (s : State) (q : Asker) (k : AccKind) (va : Word) : Except Trap Place × State :=
  if va.toNat % 8 ≠ 0 then (.error (Trap.at_ .misalign 0 va), s)
  else if va.toNat < 2 ^ 32 ∨ 2 ^ 48 ≤ va.toNat then (.error (Trap.at_ .perm 0 va), s)
  else s.deviceFindAs q k va

/-- The word at an address: the latest value. -/
def State.vdGet (s : State) (q : Asker) (va : Word) : Except Trap Word × State :=
  match s.vdFind q .load va with
  | (.error t, s) => (.error t, s)
  | (.ok p, s) => (.ok (s.wordAt p), s)

/-- n words from an address upward. -/
def State.vdGetWords (s : State) (q : Asker) (va : Word) : Nat → Except Trap (List Word) × State
  | 0 => (.ok [], s)
  | n + 1 =>
    match s.vdGet q va with
    | (.error t, s) => (.error t, s)
    | (.ok x, s) =>
      match s.vdGetWords q (va + 8) n with
      | (.error t, s) => (.error t, s)
      | (.ok xs, s) => (.ok (x :: xs), s)

/-- Stores a word at a place of translated memory, performed for every core. -/
def State.vdStore (s : State) (p : Place) (x : Word) : State :=
  (s.commitCells [] p.homes (cellsFrom p.addr (toBytes 8 x.toNat))).performNow (p.addr / 8)

/-- Stores a word at an address; the trap that stops it. -/
def State.vdPut (s : State) (q : Asker) (va x : Word) : Except Trap Unit × State :=
  match s.vdFind q .store va with
  | (.error t, s) => (.error t, s)
  | (.ok p, s) => (.ok (), s.vdStore p x)

/-- Stores words from an address upward, up to the first that fails. -/
def State.vdPutWords (s : State) (q : Asker) (va : Word) : List Word → Except Trap Unit × State
  | [] => (.ok (), s)
  | x :: rest =>
    match s.vdPut q va x with
    | (.error t, s) => (.error t, s)
    | (.ok _, s) => s.vdPutWords q (va + 8) rest

/-! ### Queues (R253, R275) -/

/-- The slice queue's kinds: matrix jobs and factorisations (R253, R286, R298). -/
def Job.slice (j : Job) : Bool := decide (j.kind ≤ 5) || (decide (8 ≤ j.kind) && decide (j.kind ≤ 13))

/-- The oldest outstanding job of a core that satisfies a test, with its slot. -/
def Bank.oldest (b : Bank) (p : Job → Bool) : Option (Nat × Job) :=
  (List.range 8).foldl (fun best n =>
    let j := b.job n
    if j.outstanding && p j then
      match best with
      | some (_, k) => if j.seq < k.seq then some (n, j) else best
      | none => some (n, j)
    else best) none

/-- The head of a core's slice queue: its oldest job that has not ended (R253). -/
def State.sliceHead (s : State) (c : Nat) : Option (Nat × Job) := (s.bank c).oldest Job.slice

/-! ### The end of a job -/

/-- The p registers due to be the identity become it, once every slice job kicked before has ended (R298). -/
def Bank.settlePerms (b : Bank) : Bank :=
  let turn (q : Nat) : Bool :=
    match b.oldest Job.slice with
    | some (_, j) => decide (q < j.seq)
    | none => true
  { b with
    p := (b.permsDue.filter fun e => turn e.1).foldl (fun p e => p.set e.2 identityPerm) b.p
    permsDue := b.permsDue.filter fun e => !turn e.1 }

/-- The status of a job stays in its slot, which is ENDED (R255). -/
def State.keepStatus (s : State) (c n status dcode dlen : Nat) : State :=
  let j := s.job c n
  s.modBank c fun b =>
    (b.setJob n { j with st := .ended, status := statusWord status j.kind (jobId n j) dcode dlen }).settlePerms

/-- THE END OF A JOB: the status is kept in the slot and stored to the mailbox (R255, R345). -/
def State.endJob (s : State) (c n status dcode dlen : Nat) : State :=
  let j := s.job c n
  let s := s.keepStatus c n status dcode dlen
  if j.mbox = 0 then s else (s.devicePutWordAs (s.copyAsker c j.sid) j.mbox (s.job c n).status).2

/-- The end that a committed JCAN gives a job of a fabric core: its status reaches the mailbox in a chunk of its own
(R270; log 51). -/
def State.endOwing (s : State) (c n dlen : Nat) : State :=
  let j := s.job c n
  let s := s.keepStatus c n stCancel 0 dlen
  if j.mbox = 0 then s else
  s.modCore c fun x => { x with
    owed := x.owed ++ [{ slot := n, mbox := j.mbox, sid := j.sid, status := (s.job c n).status }] }

/-- An owed status of a slot is stored. -/
def State.payOwed (s : State) (c n : Nat) : State :=
  match (s.core c).owed.find? fun o => decide (o.slot = n) with
  | none => s
  | some o =>
    let s := s.modCore c fun x => { x with owed := x.owed.erase o }
    (s.devicePutWordAs (s.copyAsker c o.sid) o.mbox o.status).2

/-- A job ends FAULT with a cause in DCODE (R251). -/
def State.faultJob (s : State) (c n : Nat) (dcode : Nat) : State := s.endJob c n stFault dcode 0

/-! ### Copies and their destinations (R270 to R273) -/

/-- The core a copy delivers to: of a remote TCM, or the issuing core (R271). -/
def Job.dest (j : Job) (c : Nat) : Nat :=
  let d := j.ops.getD 2 0
  if bitOf d 63 then fld d 35 18 else c

/-- The context is reserved for the copy of a slot of a core (R273). -/
def Ctx.reservedFor (y : Ctx) (c n : Nat) : Bool :=
  decide (y.st = .dormant) && (match y.msg with
    | some m => decide (m.src = c) && decide (m.entry = some n)
    | none => false)

/-- What tells another module that a copy goes no further: the job's identifier and the bytes that have left (R270, R272). -/
def recallMsg (c n : Nat) (j : Job) (v : Nat) : Msg :=
  let d := j.ops.getD 2 0
  deviceMsg .copy .system 0 c (fld d 35 18) (fld d 47 36) v [w64 (jobId n j), w64 j.done, 0xFF]

/-- A copy that ends without its delivery gives its reserved context back; one of another module is told (kind 0xFF). -/
def State.unreserve (s : State) (c n : Nat) : State :=
  let j := s.job c n
  let d := j.ops.getD 2 0
  if !j.copying then s
  else if bitOf d 63 && !s.localFor c (fld d 47 36) then s.post (recallMsg c n j (s.bank c).vdid)
  else
  s.modCore (j.dest c) fun x => { x with ctxs := x.ctxs.map fun y => if y.reservedFor c n then Ctx.reset else y }

/-! ### Memory as the harts of a cluster reach it (R260, R272, R287) -/

/-- The physical byte behind an offset of the map of R113 that is TCM or scratchpad, none where nothing backs it. -/
def State.localByte (s : State) (c a : Nat) : Option Nat :=
  if a < 2 ^ 18 then s.tcmByte c a
  else if 2 ^ 20 ≤ a ∧ a < 2 ^ 21 then s.spadByte c (a - 2 ^ 20)
  else none

/-- What is wrong with n bytes of TCM or scratchpad: not backed (PERM), or not correctable (UNCORR, with the place). -/
def State.localBad (s : State) (c a n : Nat) : Option (Cause × Nat) :=
  (List.range n).findSome? fun i =>
    match s.localByte c (a + i) with
    | none => some (.perm, 0)
    | some p => if s.uncorrectableAt p then some (.uncorr, p) else none

/-- A byte of a range is not backed (R113, R463). -/
def State.unbacked (s : State) (c a n : Nat) : Bool := (List.range n).any fun i => (s.localByte c (a + i)).isNone

/-- No codeword of the module is uncorrectable. -/
def State.sound (s : State) : Bool := s.uncorrectable.isEmpty && s.failedBanks.isEmpty

/-- n bytes of TCM or scratchpad as a number: committed state (R260, R287). What cannot be corrected is free (log 111). -/
def State.localRead (s : State) (c a n : Nat) : Nat :=
  let sound := s.sound
  ofBytes ((List.range n).map fun i =>
    let p := (s.localByte c (a + i)).getD 0
    if sound || !s.uncorrectableAt p then s.mem.byte p else Config.rotByte s.tick p)

/-- The first of n bytes of TCM or scratchpad whose codeword cannot be corrected. -/
def State.rotten (s : State) (c a n : Nat) : Option Nat :=
  if s.sound then none else
  (List.range n).findSome? fun i =>
    match s.localByte c (a + i) with
    | some p => if s.uncorrectableAt p then some p else none
    | none => none

/-- Cells for a list of bytes at an address of TCM or scratchpad. -/
def State.localCells (s : State) (c a : Nat) (bs : List Byte) : List (Nat × Byte) :=
  (cellsFrom a bs).filterMap fun (b, x) => (s.localByte c b).map fun p => (p, x)

/-- A chunk of a hart of a cluster that writes cells of TCM or scratchpad (R329). -/
def State.hartCells (s : State) (k : Nat) (cells : List (Nat × Byte)) : State :=
  (s.hartMeets k (cellsSig cells)).pokeCells cells

/-- A job meets what R261, R263 and R299 call an uncorrectable error, or an unbacked bank: it ends FAULT, and an
uncorrectable codeword is a machine check as well (R486). -/
def State.jobError (s : State) (c n : Nat) (e : Cause × Nat) : State :=
  let s := s.faultJob c n e.1.code
  if e.1 = .uncorr then s.checkOwners e.2 else s

end Sys2Proof.Machine
end

