-- ==== Sys2Proof/Machine/Group.lean ====
section
/-! DEFINITION. Majors 0x12 and 0x13: GROUP (R303 to R312) and BAR (R315 to R322). -/

set_option Elab.async false

namespace Sys2Proof.Machine

/-- A block occupies the core's cluster: GPOS is not 0 (R304). -/
def Bank.inBlock (b : Bank) : Bool := decide (b.gpos ≠ 0)

/-- What GID writes at levels 1 to 4 while a block occupies the cluster (R312). -/
def blockId (b : Bank) (core level : Nat) : Word :=
  let x := clusterX (clusterOf core) - fld b.gpos 7 0
  let y := clusterY (clusterOf core) - fld b.gpos 14 8
  match level with
  | 1 => w64 (x + y * 2 ^ 8 + (y * fld b.gpos 21 16 + x) * 2 ^ 16)
  | 2 => w64 (fld b.gpos 55 32 + fld b.gpos 21 16 * 2 ^ 32 + fld b.gpos 29 24 * 2 ^ 40)
  | 3 => b.gbat
  | _ => b.lrec

/-- GID: the core's identity at a level; BOUNDS, SUB 5 above level 4 (R312). -/
def execGid (rd rs1 : GReg) (s : State) : Out :=
  fabricOnly s (encR 0x12 0 0 rs1 rd) <|
  let l := (s.g rs1).toNat
  let b := s.view
  if 4 < l then trapOut s (Trap.bare .bounds 5)
  else if l = 0 then writeG s rd (w64 (s.focus.1 % 8)) 4
  else writeG s rd (if b.inBlock then blockId b s.focus.1 l else BitVec.allOnes 64) 4

/-- The limits of a spawn descriptor and of the launch record it names (R312). -/
def State.spawnOk (s : State) (d rec : List Word) : Bool :=
  let lrec := d.getD 0 0
  let range := d.getD 1 0
  let done := d.getD 2 0
  let bst := d.getD 3 0
  let count := fld range 47 24
  decide (lrec.toNat % 64 = 0) && decide (1 ≤ count) &&
  decide (fld range 23 0 + count ≤ fld (rec.getD 1 0) 40 16) && decide (done.toNat % 8 = 0) &&
  decide (bst.toNat % 64 = 0) && decide (bst ≠ 0) && decide ((rec.getD 3 0).toNat ≤ 4095) &&
  s.view.handlerOk (rec.getD 0 0).toNat

/-- GSPAWN: checks the descriptor and the record, and submits the job that enqueues the batch (R312). -/
def execGspawn (rd rs1 rs2 : GReg) (s : State) : Out :=
  fabricOnly s (encR 0x12 1 rs2 rs1 rd) <|
  let d := s.g rs1
  conclude s <|
  (Ans.check (decide (fld d 4 0 = 0)) (Trap.at_ .misalign 0 d)).bind fun _ =>
  (s.loadWords d 4).bind fun (ds, s) =>
  (s.loadWords (ds.getD 0 0) 4).bind fun (rec, s) =>
  (Ans.check (s.spawnOk ds rec) (Trap.bare .job 6)).bind fun _ =>
  (s.mailbox (s.g rs2)).bind fun _ =>
  s.submit rd 14 (s.g rs2) 0 0 (ds ++ [rec.getD 3 0])

/-- GDONE: leaves level 1 or 2 when the chunk commits; BOUNDS, SUB 5 for any other level (R305, R312). -/
def execGdone (rs1 : GReg) (s : State) : Out :=
  fabricOnly s (encR 0x12 2 0 rs1 0) <|
  let l := (s.g rs1).toNat
  conclude s <|
  (Ans.check (decide (l = 1) || decide (l = 2)) (Trap.bare .bounds 5)).bind fun _ =>
  .ok ((s.addPend (.gdone l)).advance 4)

/-! ### BAR (R321, R322) -/

/-- A BAR instruction: the payload is read, then a commit point; the membership test and the arrival belong to the
commit (R322). -/
def barOp (s : State) (func : Nat) (rd rs1 : GReg) : Out :=
  fabricOnly s (encR 0x13 func 0 rs1 rd)
    (.next (s.setWait (.commit (.barrier (decide (4 ≤ func)) (func % 4) ((s.g rs1).setWidth 32) rd))))

/-- BARR.AND (R322). -/
def execBarrAnd (rd rs1 : GReg) (s : State) : Out := barOp s 0 rd rs1
/-- BARR.OR (R322). -/
def execBarrOr (rd rs1 : GReg) (s : State) : Out := barOp s 1 rd rs1
/-- BARR.SUM (R322). -/
def execBarrSum (rd rs1 : GReg) (s : State) : Out := barOp s 2 rd rs1
/-- BARR.POPC (R322). -/
def execBarrPopc (rd rs1 : GReg) (s : State) : Out := barOp s 3 rd rs1
/-- BARG.AND (R322). -/
def execBargAnd (rd rs1 : GReg) (s : State) : Out := barOp s 4 rd rs1
/-- BARG.OR (R322). -/
def execBargOr (rd rs1 : GReg) (s : State) : Out := barOp s 5 rd rs1
/-- BARG.SUM (R322). -/
def execBargSum (rd rs1 : GReg) (s : State) : Out := barOp s 6 rd rs1
/-- BARG.POPC (R322). -/
def execBargPopc (rd rs1 : GReg) (s : State) : Out := barOp s 7 rd rs1

end Sys2Proof.Machine
end

