-- ==== Sys2Proof/Machine/Tile.lean ====
section
/-! DEFINITION. Majors 0x1B and 0x1C at issue: tensor maps (R244 to R246), matrix jobs (R257 to R268), waiting, polling
and cancelling (R269, R270), and copy descriptors (R271). What a job does when it runs is in `TileRun.lean` and
`Copy.lean`. -/

set_option Elab.async false

namespace Sys2Proof.Machine

/-! ### Tensor maps -/

/-- The map's region lies in TCM. -/
def tmInTcm (t : BitVec 256) : Bool := decide (tmBase t < 2 ^ 18)

/-- A valid map (R245), on a core whose code region ends at an address. -/
def mapFits (code : Nat) (t : BitVec 256) : Bool :=
  let b := tmBase t
  let last := b + tmSpan t
  decide (tmFld t 63 48 = 0) && decide (tmFld t 79 75 = 0) && decide (tmFld t 95 91 = 0) &&
  decide (tmFld t 127 99 = 0) && decide (tmFld t 255 160 = 0) &&
  decide (1 ≤ tmRows t) && decide (tmRows t ≤ 1024) && decide (1 ≤ tmCols t) && decide (tmCols t ≤ 1024) &&
  (decide (tmEt t = 0) || decide (tmEt t = 4) || decide (tmEt t = 5)) &&
  decide (tmCols t * tmSize t ≤ tmStride t) && decide (b % 8 = 0) && decide (tmStride t % 8 = 0) &&
  ((decide (code ≤ b) && decide (last ≤ 2 ^ 18)) || (decide (2 ^ 20 ≤ b) && decide (last ≤ 2 ^ 21)))

/-- A map is valid on the executing core. -/
def State.mapOk (s : State) (t : BitVec 256) : Bool := mapFits (s.codeBytes s.focus.1) t

/-- TMSET (R245, R246). -/
def execTmset (tmA : TMReg) (gs1 : GReg) (s : State) : Out :=
  fabricOnly s (encT 0x1B 0 0 gs1 0 tmA 0) <|
  let a := s.g gs1
  conclude s <|
  (Ans.check (decide (a.toNat % 32 = 0)) (Trap.at_ .misalign 0 a)).bind fun _ =>
  (s.loadWords a 4).bind fun (ws, s) =>
  let t := BitVec.ofNat 256 (ofBytes (wordsBytes ws))
  (Ans.check (s.mapOk t) (Trap.bare .job 1)).bind fun _ =>
  .ok (((s.touch (16 + tmA.toNat) true).addPend (.tmap tmA t)).advance 4)

/-- A job that names a map reads it; JOB, SUB 1 where it is unset (R246). -/
def State.useMap (s : State) (t : TMReg) : Ans (BitVec 256 × State) :=
  let m := s.view.tmap t
  if tmRows m = 0 then .trap (Trap.bare .job 1) else .ok (m, s.touch (16 + t.toNat) false)

/-- A matrix or factorisation instruction on a core of the half that serves the other virtual device (R463). -/
def State.halfOk (s : State) : Ans Unit :=
  let k := s.cluster (clusterOf s.focus.1)
  let mine := if s.focus.1 % 8 < 4 then fld k.clown 5 0 else fld k.clown 13 8
  Ans.check (!k.shared || decide (mine = s.vd)) (Trap.bare .vdperm 0)

/-- A map agrees with an input format: 8-bit code ET 0, BF16 ET 4, FP32 ET 5 (R247). -/
def kindEt (kind : Nat) : Nat := if kind = 0 then 0 else if kind = 1 then 4 else 5

/-! ### Matrix jobs -/

/-- The cluster PAIRC names is at distance 1 (R266). -/
def adjacent (k l : Nat) : Bool :=
  decide ((clusterX k = clusterX l ∧ (clusterY k = clusterY l + 1 ∨ clusterY l = clusterY k + 1)) ∨
    (clusterY k = clusterY l ∧ (clusterX k = clusterX l + 1 ∨ clusterX l = clusterX k + 1)))

/-- The cluster that PAIRC names. -/
def pairOf (pairc : Word) : Nat := clusterAt (fld pairc 7 0) (fld pairc 14 8)

/-- MGANG (R258, R266). -/
def execMgang (rd : GReg) (tmA tmB : TMReg) (gs1 gs2 : GReg) (s : State) : Out :=
  let enc := encT 0x1B 1 gs2 gs1 tmB tmA rd
  fabricOnly s enc <|
  let r := s.cr
  let opt := s.g gs2
  let paired := bitOf opt 0
  let ka := fld r.fmta 1 0
  let kb := fld r.fmtb 1 0
  let f := fld r.sclf 1 0
  conclude s <|
  (Ans.check (decide (ka ≠ 3) && decide (kb ≠ 3) && decide (f ≠ 3)) (illegalTrap enc)).bind fun _ =>
  s.halfOk.bind fun _ =>
  (s.useMap tmA).bind fun (a, s) => (s.useMap tmB).bind fun (b, s) =>
  (Ans.check (decide (tmRows a = 16) && decide (tmRows b = tmCols a) &&
    decide (tmCols b = if paired then 8 else 16) && tmInTcm a && tmInTcm b &&
    decide (16 ≤ tmCols a) && decide (tmEt a = kindEt ka) && decide (tmEt b = kindEt kb))
    (Trap.bare .job 2)).bind fun _ =>
  (Ans.check (decide (fld opt 63 1 = 0)) (Trap.bare .job 3)).bind fun _ =>
  (s.mailbox (s.g gs1)).bind fun _ =>
  (Ans.check (!paired || (!(s.cluster (clusterOf s.focus.1)).split && bitOf r.pairc 16 &&
    adjacent (clusterOf s.focus.1) (pairOf r.pairc))) (Trap.bare .job 4)).bind fun _ =>
  (Ans.check (decide (f = 0) || (decide (fld r.scla 17 0 % 32 = 0) && decide (fld r.sclb 17 0 % 32 = 0)))
    (Trap.bare .misalign 0)).bind fun _ =>
  s.submit rd 0 (s.g gs1) a b [opt]

/-- MZERO (R263). -/
def execMzero (rd gs1 : GReg) (s : State) : Out :=
  fabricOnly s (encT 0x1B 2 0 gs1 0 0 rd) <|
  conclude s <|
  s.halfOk.bind fun _ =>
  (s.mailbox (s.g gs1)).bind fun _ =>
  s.submit rd 1 (s.g gs1) 0 0 []

/-- Columns of a core's accumulator: 128, or 64 in half-array mode (R264). -/
def Cluster.columns (k : Cluster) : Nat := if k.split then 64 else 128

/-- MSTA (R263, R247). -/
def execMsta (rd : GReg) (tmA : TMReg) (gs1 : GReg) (s : State) : Out :=
  let enc := encT 0x1B 3 0 gs1 0 tmA rd
  fabricOnly s enc <|
  let kind := fld s.cr.fmtc 1 0
  let et := if kind = 0 then 5 else if kind = 1 then 4 else 0
  conclude s <|
  (Ans.check (decide (kind ≠ 3) && !(decide (kind = 2) && decide (fld s.cr.encm 1 0 = 3)))
    (illegalTrap enc)).bind fun _ =>
  s.halfOk.bind fun _ =>
  (s.useMap tmA).bind fun (a, s) =>
  (Ans.check (tmInTcm a && decide (tmRows a = 16) &&
    decide (tmCols a = (s.cluster (clusterOf s.focus.1)).columns) && decide (tmEt a = et))
    (Trap.bare .job 2)).bind fun _ =>
  (s.mailbox (s.g gs1)).bind fun _ =>
  s.submit rd 2 (s.g gs1) a 0 []

/-- MLDA (R263). -/
def execMlda (rd : GReg) (tmA : TMReg) (gs1 : GReg) (s : State) : Out :=
  fabricOnly s (encT 0x1B 4 0 gs1 0 tmA rd) <|
  conclude s <|
  s.halfOk.bind fun _ =>
  (s.useMap tmA).bind fun (a, s) =>
  (Ans.check (tmInTcm a && decide (tmRows a = 16) &&
    decide (tmCols a = (s.cluster (clusterOf s.focus.1)).columns) && decide (tmEt a = 5))
    (Trap.bare .job 2)).bind fun _ =>
  (s.mailbox (s.g gs1)).bind fun _ =>
  s.submit rd 3 (s.g gs1) a 0 []

/-- MSPLIT (R265). -/
def execMsplit (rd gs1 gs2 : GReg) (s : State) : Out :=
  fabricOnly s (encT 0x1B 5 gs2 gs1 0 0 rd) <|
  conclude s <|
  s.halfOk.bind fun _ =>
  (Ans.check (decide ((s.g gs2).toNat ≤ 1)) (Trap.bare .job 3)).bind fun _ =>
  (s.mailbox (s.g gs1)).bind fun _ =>
  s.submit rd 4 (s.g gs1) 0 0 [s.g gs2]

/-- DTLD (R268). -/
def execDtld (rd gs1 gs2 : GReg) (s : State) : Out :=
  fabricOnly s (encT 0x1B 6 gs2 gs1 0 0 rd) <|
  let n := (s.g gs2).toNat
  let a := s.g gs1
  conclude s <|
  (Ans.check (decide (n ≤ 4)) (Trap.bare .job 3)).bind fun _ =>
  (Ans.check (if n = 0 then decide (a.toNat % 64 = 0) && s.inTcm a.toNat 1024 else decide (gs1 = 0))
    (Trap.bare .job 3)).bind fun _ =>
  s.submit rd 5 0 0 0 [a, s.g gs2]

/-! ### JWAIT, JPOLL, JCAN (R269, R270, R294, R295, R299) -/

/-- A job that a JID names on a core. -/
inductive JobView where
  /-- No such job, or none any more: all ones. -/
  | none_
  /-- Not ended yet. -/
  | live
  | ended (n : Nat) (j : Job)
  deriving DecidableEq, Repr

/-- What a job identifier finds (R269). -/
def Bank.findJob (b : Bank) (x : Word) : JobView :=
  let n := fld x 2 0
  let j := b.job n
  if fld x 63 16 ≠ 0 ∨ j.gen.toNat ≠ fld x 15 3 then .none_ else
  match j.st with
  | .free | .held => .none_
  | .queued | .running | .parked => .live
  | .ended => .ended n j

/-- The job is a factorisation, that keeps a growth estimate (R294). -/
def Job.factor (j : Job) : Bool := decide (8 ≤ j.kind) && decide (j.kind ≤ 11)

/-- rd receives an ended job's status word, and GROW its growth estimate (R269, R294). -/
def State.giveStatus (s : State) (j : Job) (rd : GReg) : State :=
  let s := s.setG rd j.status
  if j.factor then s.setCr { s.cr with grow := zx j.gamma } else s

/-- JWAIT after its commit, for the executing context: it returns, traps or waits (R269, R295). -/
def State.jwaitGo (s : State) (x : Word) (rd : GReg) : State :=
  match s.me.bank.findJob x with
  | .none_ => ((s.modCx fun y => { y with st := .ready, wait := .none }).setG rd (BitVec.allOnes 64)).advance 4
  | .live => s.setWait (.jwait x rd)
  | .ended n j =>
    let s := s.modCx fun y => { y with st := .ready, wait := .none }
    if j.ptrap then
      let s := s.setJob s.focus.1 n { j with ptrap := false }
      s.takeTrap (Trap.at_ (if fld j.status 7 0 = stZpiv then .zpiv else .npd) 0 j.status) s.pc
    else (s.giveStatus j rd).advance 4

/-- JWAIT: a commit point, then the wait (R269). -/
def execJwait (rd gs1 : GReg) (s : State) : Out :=
  let x := s.g gs1
  if s.ctl then .next (s.jwaitGo x rd) else .next (s.setWait (.commit (.jwait x rd)))

/-- JPOLL: as JWAIT, without a commit point and without waiting; DLEN of a copy counts what is committed at its destination
(R251, R269). -/
def execJpoll (rd gs1 : GReg) (s : State) : Out :=
  let x := s.g gs1
  match s.me.bank.findJob x with
  | .none_ => writeG s rd (BitVec.allOnes 64) 4
  | .live =>
    let j := s.me.bank.job (fld x 2 0)
    writeG s rd (statusWord 0xFF j.kind x.toNat 0 (if j.copying then j.done / 8 else 0)) 4
  | .ended _ j => .next ((s.giveStatus j rd).advance 4)

/-- An FLU that ends before its last column leaves its permutation so far in p[PREG] (R299); `perm` is the record's. -/
def State.setPerm (s : State) (c r : Nat) (perm : List Nat) : State :=
  s.modBank c fun b => { b with p := b.p.set r perm }

/-- Bytes of the record's PERM, extended by the identity (R285, R289). -/
def State.recordPerm (s : State) (c : Nat) (j : Job) : List Nat :=
  let n := tmRows j.tmA
  (List.range 128).map fun i =>
    if i < n then s.localRead c ((j.ops.getD 0 0).toNat + 0x80 + i) 1 % 128 else i

/-! ### Heads and rounds (R259, R264, R266) -/

/-- The head of a core's slice queue, as one member of a gang. -/
structure Head where
  core : Nat
  slot : Nat
  job : Job
  deriving DecidableEq, Repr

/-- The option word's PAIR (R258). -/
def Job.paired (j : Job) : Bool := decide (j.kind = 0) && bitOf (j.ops.getD 0 0) 0

/-- An MGANG or an MSPLIT. -/
def Job.gang (j : Job) : Bool := decide (j.kind = 0) || decide (j.kind = 4)

/-- The cores of a gang: the cluster's, or those of a half in half-array mode (R264). -/
def State.gangCores (s : State) (k half : Nat) : List Nat :=
  if (s.cluster k).split then (List.range 4).map fun i => 8 * k + 4 * half + i else coresOf k

/-- The heads of those of the cores that have one. -/
def State.heads (s : State) (cores : List Nat) : List Head :=
  cores.filterMap fun c => (s.sliceHead c).map fun (n, j) => { core := c, slot := n, job := j }

/-- A gang job that waits at a head. -/
def Head.waits (h : Head) : Bool := h.job.gang && decide (h.job.st = .queued)

/-- The members' heads, where every one is a gang job that waits: a round forms (R259). -/
def State.round (s : State) (cores : List Nat) : Option (List Head) :=
  let hs := s.heads cores
  if hs.length = cores.length ∧ hs.all Head.waits then some hs else none

/-- What the heads of a round must agree in (R259). -/
def Job.gangKey (j : Job) : List Nat :=
  if j.kind = 4 then [4, (j.ops.getD 0 0).toNat]
  else [0, tmCols j.tmA, fld j.cr.fmta 1 0, fld j.cr.fmtb 1 0, fld j.cr.sclf 1 0, b2n j.paired]

/-- The heads agree. -/
def agree (hs : List Head) : Bool :=
  match hs with
  | [] => true
  | h :: rest => rest.all fun g => decide (g.job.gangKey = h.job.gangKey)

/-- A factorisation that has started and not ended is on the array of one of the cores (R286). -/
def State.arrayTaken (s : State) (cores : List Nat) : Bool :=
  (s.heads cores).any fun h => h.job.factor && (decide (h.job.st = .running) || decide (h.job.st = .parked))

/-- The cluster that all the heads of a paired round name; none where they name different ones, which then wait (R266;
log 117). -/
def partnerOf (hs : List Head) : Option Nat :=
  match hs with
  | [] => none
  | h :: rest =>
    if rest.all fun g => decide (pairOf g.job.cr.pairc = pairOf h.job.cr.pairc) then some (pairOf h.job.cr.pairc)
    else none

/-- The complete paired round of a cluster that names another one. -/
def State.pairedRound (s : State) (k partner : Nat) : Option (List Head) :=
  if (s.cluster k).split then none else
  match s.round (coresOf k) with
  | some hs => if hs.all (fun h => h.job.paired) ∧ agree hs ∧ partnerOf hs = some partner then some hs else none
  | none => none

/-- The round of the cluster, or of a half of it in half-array mode; an MSPLIT is a gang job of all eight cores in either
mode (R259, R264, R265). -/
def State.roundAt (s : State) (k half : Nat) : Option (List Head) :=
  match s.round (s.gangCores k half) with
  | none => none
  | some hs =>
    if (s.cluster k).split && hs.all (fun h => decide (h.job.kind = 4)) then s.round (coresOf k) else some hs

/-- A complete round goes on now: it starts or ends GANGMIS, but a paired one waits for its partner's, and any for a
factorisation on its array (R259, R266, R286). -/
def State.goesOn (s : State) (k : Nat) (hs : List Head) : Bool :=
  !s.arrayTaken (hs.map (·.core)) &&
  (!(agree hs && hs.any (fun h => h.job.paired)) ||
    match partnerOf hs with
    | some p => (s.pairedRound p k).isSome
    | none => false)

/-- The job of a slot is a member of a complete round, which starts in the cycle of its last kick (R280). -/
def State.inRound (s : State) (c n : Nat) : Bool :=
  match s.roundAt (clusterOf c) (c % 8 / 4) with
  | some hs => (hs.any fun h => decide (h.core = c) && decide (h.slot = n)) && s.goesOn (clusterOf c) hs
  | none => false

/-- The array, or the issuing core's half, is free for a factorisation of a core: no product runs there, no other
factorisation has started, and none of a lower core waits at its head (R286). -/
def State.arrayFree (s : State) (c : Nat) : Bool :=
  let hs := s.heads (s.gangCores (clusterOf c) (c % 8 / 4))
  hs.all fun h => decide (h.core = c) ||
    !((decide (h.job.kind = 0) && decide (h.job.st = .running)) ||
      (h.job.factor && (decide (h.job.st ≠ .queued) || decide (h.core < c))))

/-- A job that is RUNNING though no step of it is done: a member of a complete round, or a job at the head of the slice
queue that is no gang job and, for a factorisation, finds its array free (R255, R280, R286). -/
def State.started (s : State) (c n : Nat) : Bool :=
  let j := s.job c n
  if j.gang then s.inRound c n
  else j.slice && decide ((s.sliceHead c).map (·.1) = some n) && (!j.factor || s.arrayFree c)

/-- A copy that runs ends CANCEL behind its current segment; one whose segment waits at another module is called back
there (R270; log 108). -/
def State.cancelCopy (s : State) (c n : Nat) : State :=
  let j := s.job c n
  let s := s.setJob c n { j with cancel := true }
  if j.flying = 0 then s else s.post (recallMsg c n j (s.bank c).vdid)

/-- The cancel of a JCAN at its commit (R270, R299): a QUEUED or PARKED job ends CANCEL, a running copy or
factorisation will, any other running job is unaffected (R280); `runs` says that a queued one has started. `finish`
ends it with a DLEN. A factorisation cancelled before its first step has no growth estimate: the value is free (log
19); an FLU's permutation so far is the identity, and its register has it in the job's turn (R298). -/
def State.cancelWith (s : State) (finish : State → Nat → State) (c n gen : Nat) (runs : Bool) : State :=
  let j := s.job c n
  if j.gen.toNat ≠ gen then s else
  match j.st with
  | .queued =>
    if runs then (if j.factor then s.setJob c n { j with cancel := true } else s) else
    let (x, s) := if j.factor then s.draw else (0, s)
    let s := s.setJob c n { j with gamma := x.setWidth 32 }
    let s := if j.kind = 8 then
        s.modBank c fun b => { b with permsDue := b.permsDue ++ [(j.seq, fld j.cr.fctl 5 4)] }
      else s
    finish s 0
  | .parked =>
    let s := if j.kind = 8 then s.setPerm c (fld j.cr.fctl 5 4) (s.recordPerm c j) else s
    finish (s.unreserve c n) (if j.copying then j.done / 8 else 0)
  | .running =>
    if j.copying then s.cancelCopy c n else if j.factor then s.setJob c n { j with cancel := true } else s
  | .free | .held | .ended => s

/-- The cancel of a job of a fabric core by a committed JCAN. -/
def State.cancelJob (s : State) (c n gen : Nat) : State := 
  s.cancelWith (fun s dlen => s.endOwing c n dlen) c n gen (s.started c n)

/-- The cancel of a job at once: by a JCAN of a control core, or in a drain. -/
def State.cancelNow (s : State) (c n gen : Nat) (runs : Bool) : State :=
  s.cancelWith (fun s dlen => s.endJob c n stCancel 0 dlen) c n gen runs

/-- JCAN (R270). -/
def execJcan (rd gs1 : GReg) (s : State) : Out :=
  let x := s.g gs1
  let n := fld x 2 0
  conclude s <|
  match s.me.bank.findJob x with
  | .none_ | .ended _ _ => .ok ((s.setG rd 1).advance 4)
  | .live =>
    let s := s.setG rd 0
    let t := if s.ctl then s.cancelNow s.focus.1 n (fld x 15 3) (s.started s.focus.1 n)
      else s.addPend (.jcan n (fld x 15 3))
    .ok (t.advance 4)

/-! ### CPY and CPYR (R271) -/

/-- DST names a remote TCM. -/
def dstRemote (d : Word) : Bool := bitOf d 63

/-- The limits of a copy descriptor (R271). -/
def copyOk (ring : Bool) (ws : List Word) : Bool :=
  let src := ws.getD 0 0
  let dst := ws.getD 1 0
  let len := ws.getD 2 0
  let h := ws.getD 3 0
  decide (src.toNat % 8 = 0) && decide (fld dst 2 0 = 0) &&
  (!dstRemote dst || decide (fld dst 62 48 = 0)) &&
  decide (fld len 23 0 % 8 = 0) && decide (8 ≤ fld len 23 0) &&
  decide (fld len 31 24 = 0) && decide (fld len 63 36 = 0) && decide (fld h 63 48 = 0) &&
  (if ring then dstRemote dst && decide (h = 0) else decide (fld len 35 32 = 0))

/-- CPY and CPYR: the descriptor is read and checked, and the job submitted; one off its alignment traps MISALIGN (R271;
log 118). -/
def copyOp (s : State) (ring : Bool) (rd gs1 gs2 : GReg) : Out :=
  let a := s.g gs1
  conclude s <|
  (Ans.check (decide (a.toNat % 32 = 0)) (Trap.at_ .misalign 0 a)).bind fun _ =>
  (s.loadWords a 4).bind fun (ws, s) =>
  (Ans.check (copyOk ring ws) (Trap.bare .job 5)).bind fun _ =>
  (s.mailbox (s.g gs2)).bind fun _ =>
  s.submit rd (if ring then 7 else 6) (s.g gs2) 0 0 (a :: ws)

/-- CPY (R271). -/
def execCpy (rd gs1 gs2 : GReg) (s : State) : Out := copyOp s false rd gs1 gs2

/-- CPYR (R271). -/
def execCpyr (rd gs1 gs2 : GReg) (s : State) : Out := copyOp s true rd gs1 gs2

end Sys2Proof.Machine
end

