-- ==== Sys2Proof/Machine/Life.lean ====
section
/-! DEFINITION. The life of a task (R145 to R171): its activation (R71, R74, R170, R190, R203), the run queue (R152,
R153), the end of a wait (R147), the watchdog kill (R166, R214, R215), fault notices (R208), and the service messages
RESUME and KILL (R171). -/

set_option Elab.async false

namespace Sys2Proof.Machine

/-- An operation of the executing context, done for another one. -/
def State.asCtx (s : State) (c : Nat) (i : Fin 4) (f : State → State) : State :=
  { f { s with focus := (c, i) } with focus := s.focus }

/-! ### The order of the networks (R177, R178) -/

/-- The network a message travels on: the four classes', or the report network, which carries the reports and the fault
notices alone (R177, R178, R208). -/
def Msg.network (m : Msg) : Nat :=
  match m.kind with
  | .report | .fault => 4
  | .task | .release | .scopeMiss | .start | .notice | .port | .atomic | .copy | .verdict | .ring | .copyEnd | .done =>
    m.cls.code

/-- The segments of copies and their answers, which have no order with messages (R275, R359). -/
def Msg.ofCopy (m : Msg) : Bool := decide (m.kind = .copy) || decide (m.kind = .copyEnd)

/-- Two messages have one source, one destination and one network, and keep their order there. -/
def Msg.sameWay (m n : Msg) : Bool :=
  !m.ofCopy && !n.ofCopy &&
  decide (m.src = n.src) && decide (m.dst = n.dst) && decide (m.dmod = n.dmod) && decide (m.network = n.network)

/-- A message goes ahead of another: it became READY earlier, where both are of a core's queue, or it was sent earlier;
`sent` tells the latter (R177, R186). -/
def Msg.ahead (m n : Msg) (sent : Bool) : Bool :=
  m.sameWay n && if 0 < m.order ∧ 0 < n.order then decide (m.order < n.order) else sent

/-- The message of a place in the networks is first of its source, destination and network (R177, R178). -/
def State.firstInNet (s : State) (ix : Nat) (m : Msg) : Bool :=
  s.net.zipIdx.all fun (n, i) => decide (i = ix) || !n.ahead m (decide (i < ix))

/-! ### The permission table (R465) -/

/-- The permission table of a core's cluster passes a destination (R465). What a control core of another module runs is
seen there (R446). -/
def State.permits (s : State) (c v : Nat) (hd : Word) : Bool :=
  if isControl c then true else
  let d := fld hd 17 0
  let m := fld hd 29 18
  if bitOf hd 40 then
    let x := s.core (controlCore (fld hd 5 0))
    !s.localMod m || decide (x.bank.vdid = v) || decide (x.priv.cprv = 2)
  else
    let t := (s.cluster (clusterOf c)).perm
    (List.range 8).any fun i =>
      let e := Tab.get t (v * 8 + i) 0
      bitOf e 63 && inRect (w64 (fld e 31 0)) d &&
        (decide (fld e 43 32 = m) || (s.localMod (fld e 43 32) && s.localMod m))

/-- The core whose atomic thread performs an atomic, none where a memory controller does (R340). -/
def AtomicOp.thread (c : Nat) (a : AtomicOp) : Option Nat :=
  match regionOf a.place with
  | .tcm => some c
  | .spad => some (8 * clusterOf c + (a.place - 2 ^ 41 - 2 ^ 36) % 2 ^ 20 / 8 % 8)
  | .hbm | .die => none

/-- The verdict of the permission table on an entry that becomes READY, from which answers are exempt (R465). An atomic's
destination is the core that owns its address; memory is none (log 97). -/
def State.entryPasses (s : State) (c : Nat) (e : Entry) : Bool :=
  let v := (s.bank c).vdid
  e.isRply ||
  match e.atomic with
  | some a =>
    match a.thread c with
    | some d => s.permits c v (w64 (d + 0xFFF * 2 ^ 18))
    | none => true
  | none => s.permits c v e.hd

/-! ### The banks of a kernel (R202, R203, R463) -/

/-- G: the banks the core's virtual device owns. -/
def State.banks (s : State) (c : Nat) : Nat :=
  let k := s.cluster (clusterOf c)
  if !k.shared then 32
  else if (s.bank c).vdid = fld k.clown 5 0 then fld k.clown 20 16 else 32 - fld k.clown 20 16
/-- The first of them. -/
def State.firstBank (s : State) (c : Nat) : Nat :=
  let k := s.cluster (clusterOf c)
  if !k.shared || decide ((s.bank c).vdid = fld k.clown 5 0) then 0 else fld k.clown 20 16

/-- P: the banks of one scratch part, of the banks owned at LOADING (R463). -/
def State.partBanks (s : State) (c : Nat) : Nat :=
  let k := (s.bank c).kernel
  (k.banks - k.cb - k.rb) / 4

/-- First address of a context's scratch part, and the address behind it. -/
def State.partBase (s : State) (c : Nat) (i : Fin 4) : Nat :=
  ((s.bank c).kernel.cb + i.val * s.partBanks c) * 8192
def State.partTop (s : State) (c : Nat) (i : Fin 4) : Nat := s.partBase c i + s.partBanks c * 8192

/-- The image slot of a context (R190). -/
def State.imageSlot (s : State) (c : Nat) (i : Fin 4) : Nat := s.partTop c i - 256

/-- g2 at activation (R203). -/
def State.stackTop (s : State) (c : Nat) (i : Fin 4) : Word :=
  let k := (s.bank c).kernel
  if k.stk then k.stkva + w64 (4 * k.ordinal + i.val + 1) * k.stkspan else w64 (s.imageSlot c i)

/-- The budget cap of a virtual device (R201, R461). -/
def State.budgetCap (s : State) (v : Nat) : Nat :=
  let n := (s.vdev v).bcap.toNat
  if 1 ≤ n ∧ n ≤ 2 ^ 20 then n else 2 ^ 20

/-- BUDG at activation (R201). -/
def State.budget (s : State) (c : Nat) (handler : Word) : Nat :=
  let b := s.bank c
  let cls := ((b.kernel.classes.find? fun e => decide (e.1 = handler)).map (·.2)).getD 0
  Nat.min (b.kernel.budc.getD cls 1) (s.budgetCap b.vdid)

/-! ### Activation -/

/-- What a context is started with. -/
structure Start where
  pc : Word
  msg : Msg
  ret : Bool
  tstp : Word
  msgid : Word
  rfinf : Word
  sminf : Word
  /-- The message may be answered by RPLY. -/
  request : Bool
  deriving DecidableEq, Repr

/-- Scratch that is not retained: byte by byte the device returns what an earlier activation left, or zero (R116). -/
def State.blurScratch (s : State) (c : Nat) (i : Fin 4) : State :=
  let (n, s) := s.pick
  match s.tcmByte c (s.partBase c i) with
  | none => s
  | some p =>
    { s with mem := s.mem.filter fun (a, _) =>
        !(decide (p ≤ a) && decide (a < p + s.partBanks c * 8192) && n.testBit (a - p)) }

/-- The per-context registers at activation (R74, R170). -/
def State.startCr (s : State) (c : Nat) (a : Start) (forced : Bool) : CtxRegs :=
  let k := (s.bank c).kernel
  { CtxRegs.reset with
    budg := w64 (s.budget c a.pc)
    tstp := a.tstp
    msgid := a.msgid
    actf := w64 (b2n a.ret + b2n forced * 2 + a.msg.abcnt * 4)
    rfinf := a.rfinf
    sminf := a.sminf
    pairc := k.pairc
    pairt := k.pairt
    gangt := k.gangt
    rngk := k.rngk }

/-- The general registers at activation (R71). -/
def State.startRegs (s : State) (c : Nat) (i : Fin 4) (a : Start) (forced : Bool) : Regs :=
  let k := (s.bank c).kernel
  let r := { Regs.reset with pc := a.pc, cr := s.startCr c a forced }
  ((((((r.put 2 (s.stackTop c i)).put 3 k.gp).put 4 (w64 ((32 - k.rb) * 8192))).put 5
    (w64 (s.imageSlot c i))).put 6 a.msg.w1).put 7 (a.msg.payload.getD 0 0)).put 8 (a.msg.payload.getD 1 0)

/-- The words of an image. -/
def Msg.image (m : Msg) : List Word := m.w0 :: m.w1 :: m.payload

/-- A context is given its registers and its image; it is `st` from now on. -/
def State.seat (s : State) (c : Nat) (i : Fin 4) (a : Start) (st : CtxSt) : State :=
  let forced := decide (a.msg.abcnt = 4)
  let r := s.startRegs c i a forced
  let s := s.putCtx c i { Ctx.reset with
    regs := r
    ckpt := r
    st := st
    anch := forced
    msg := some a.msg
    isRequest := a.request
    fence := s.covered c }
  s.pokeCells (s.localCells c (s.imageSlot c i) (wordsBytes a.msg.image))

/-- The activation of a context (R71, R116, R147). -/
def State.activate (s : State) (c : Nat) (i : Fin 4) (a : Start) (st : CtxSt) : State :=
  (if a.ret then s else s.blurScratch c i).seat c i a st

/-! ### The run queue (R152, R153, R191, R337) -/

/-- What the run queue takes next. -/
inductive Pick where
  | refusal (r : Refused)
  /-- A message, by its class and its place in the queue. -/
  | message (cls : MClass) (ix : Nat) (m : Msg)
  deriving DecidableEq, Repr

/-- The rank of an ordered message: timestamp, source core address, identifier (R152, R311). -/
def Msg.rank (m : Msg) : List Nat := [(m.payload.getD 0 0).toNat, hdrCore m.w1, m.mid.toNat]

/-- The key of a domain on a cluster. -/
def domainKey (v : Nat) (d : Word) : Nat := v * 2 ^ 64 + d.toNat

/-- The effective rank of an ordered message at its acceptance: the header as it is delivered (R311). -/
def State.effective (s : State) (c : Nat) (m : Msg) : List Nat :=
  let r := m.rank
  let top := Tab.get (s.cluster (clusterOf c)).domains (domainKey m.vd m.domain) []
  (if rankLt r top then top else r) ++ r

/-- The ordered message with the lowest rank, and its place. -/
def lowestRank : List Msg → Nat → Option (Nat × Msg)
  | [], _ => none
  | m :: rest, i =>
    match lowestRank rest (i + 1) with
    | none => some (i, m)
    | some (j, n) => if rankLt n.rank m.rank then some (j, n) else some (i, m)

/-- The head of a queue. -/
def headOf (cls : MClass) : List Msg → Option Pick
  | [] => none
  | m :: _ => some (.message cls 0 m)

/-- The order of R152: system, refusals and replies, ordered, request; a request ahead of all where SINCE is 7 (R153). -/
def Core.pick (x : Core) : Option Pick :=
  let request := headOf .request x.qReq
  if x.since = 7 ∧ request.isSome then request else
  (headOf .system x.qSys).or <|
  (x.refusals.head?.map Pick.refusal).or <|
  (headOf .reply x.qReply).or <|
  ((lowestRank x.qOrd 0).map fun (i, m) => Pick.message .ordered i m).or request

/-- The handler a choice starts at (R71, R191, R337). -/
def Bank.handlerOf (b : Bank) : Pick → Word
  | .refusal _ => w64 (fld b.rfh 47 0)
  | .message _ _ m => if m.kind = .scopeMiss then w64 (fld b.smh 47 0) else w64 (fld m.w0 47 0)

/-- The choice taken off its queue. -/
def Core.takePick (x : Core) : Pick → Core
  | .refusal _ => { x with refusals := x.refusals.tail }
  | .message cls ix _ => x.setQueue cls ((x.queue cls).eraseIdx ix)

/-- The context RETAINED longest that satisfies a test (R152). -/
def Core.longest (x : Core) (p : Ctx → Bool) : Option (Fin 4) :=
  ([0, 1, 2, 3] : List (Fin 4)).foldl (fun best i =>
    let y := x.ctx i
    if y.st ≠ .retained ∨ !p y then best else
    match best with
    | none => some i
    | some j => if y.age < (x.ctx j).age then some i else best) none

/-- The context a handler starts in, and whether its scratch is retained: the longest RETAINED for it, else a FREE one,
else the longest RETAINED is reclaimed (R147, R152). -/
def Core.place (x : Core) (handler : Word) : Option (Fin 4 × Bool) :=
  match x.longest fun y => decide (y.succ = handler) with
  | some i => some (i, true)
  | none =>
    match ([0, 1, 2, 3] : List (Fin 4)).find? fun i => decide ((x.ctx i).st = .free) with
    | some i => some (i, false)
    | none => (x.longest fun _ => true).map fun i => (i, false)

/-- The image a refusal task is given: the refused one as it was sent, with REFD set (R191). -/
def Entry.image (e : Entry) (n abcnt : Nat) : Msg where
  w0 := w64 (fld e.haddr 47 0) ||| (e.mid <<< 48)
  w1 := setFld e.hd 38 38 1
  payload := e.payload
  kind := .task
  mid := e.mid
  src := 0
  dst := 0
  dmod := 0
  vd := 0
  entry := some n
  barred := false
  rect := 0
  rels := []
  abcnt := abcnt
  eff := []
  order := 0
  hyper := false

/-- What the context of a choice is started with (R71, R170, R191, R337). -/
def Core.startOf (x : Core) (p : Pick) (ret : Bool) : Start :=
  let pc := x.bank.handlerOf p
  match p with
  | .refusal r =>
    { pc := pc, msg := r.image, ret := ret, tstp := 0, msgid := r.image.mid
      rfinf := w64 (r.entry + r.why * 2 ^ 8 + 2 ^ 16), sminf := 0, request := false }
  | .message cls _ m =>
    { pc := pc, msg := m, ret := ret
      tstp := if cls = .ordered then m.payload.getD 0 0 else 0
      msgid := if m.kind = .start then w64 (fld (m.payload.getD 0 0) 15 0) else w64 (fld m.w0 63 48)
      rfinf := 0
      sminf := if m.kind = .scopeMiss then w64 (fld m.rect 31 0 + 2 ^ 32) else 0
      request := decide (cls = .request) }

/-- SINCE after a start (R153); it stays 7 where a delivery starts at 7 with a request waiting (log 93). -/
def Core.countStart (x : Core) (request : Bool) : Core :=
  { x with since := if request then 0 else if x.qReq.isEmpty then x.since else Nat.min 7 (x.since + 1) }

/-- The core may start tasks: it runs a kernel in ACTIVE of a virtual device that is switched in, has not received
STOP, and has executed its service messages (R171, R172, R207, R466). A control core starts none: how a message leaves
its queue is log 91. -/
def State.mayStart (s : State) (c : Nat) : Bool :=
  let x := s.core c
  !isControl c && !(s.cluster (clusterOf c)).lost && !x.stopped && decide (x.bank.kst = .active) && x.svc.isEmpty &&
    (s.vdev x.bank.vdid).switchedIn

/-- A refusal task or scope-miss whose handler fails the bounds is dropped and reported (R191, R337). -/
def State.dropPick (s : State) (c : Nat) (p : Pick) : State :=
  let b := s.bank c
  let s := s.modCore c fun x => x.takePick p
  match p with
  | .refusal r =>
    let mine (e : Entry) : Bool := decide (e.st = .refused) && decide (e.mid = r.image.mid)
    (s.modCore c fun x => if mine (x.entry r.entry) then x.dropEntry r.entry else x).deviceReport c b.tsvc .bounds 2
      b.rfh r.image.mid.toNat []
  | .message _ _ m => s.deviceReport c b.tsvc .bounds 8 b.smh (fld m.w0 63 48) []

/-- A choice's handler was not checked at its arrival, and fails now. -/
def Bank.badPick (b : Bank) (p : Pick) : Bool :=
  match p with
  | .refusal _ => !b.handlerOk (b.handlerOf p).toNat
  | .message _ _ m => decide (m.kind = .scopeMiss) && !b.handlerOk (b.handlerOf p).toNat

/-- TASK_START (R152, R153). A control core runs no handlers: there it is the hardware's giving the message that stands
first to the software, and the message leaves its queue (log 91). -/
def execTaskStart (core : Nat) (s : State) : Out :=
  let x := s.core core
  if isControl core then
    match x.pick with
    | none => .next s
    | some p => .next (s.putCore core (x.takePick p))
  else if !s.mayStart core then .next s else
  match x.pick with
  | none => .next s
  | some p =>
    match x.place (x.bank.handlerOf p) with
    | none => .next s
    | some (i, ret) =>
      if x.bank.badPick p then .next (s.dropPick core p) else
      let a := x.startOf p ret
      let s := s.putCore core ((x.takePick p).countStart a.request)
      .next (s.activate core i a .ready)

/-- A control core that has run nothing since READY comes to run: the spec says neither when nor where, and its first
address is a free value; its privilege level stays as reset left it (R25, R479; log 91). -/
def State.startControl (s : State) (c : Nat) : State :=
  let (x, s) := s.draw
  let r := { Regs.reset with pc := pcWord (s.core c).priv.cprv x }
  s.putCtx c 0 { Ctx.reset with regs := r, ckpt := r, st := .ready, anch := true }

/-! ### The end of a wait (R147, R148) -/

/-- A context of a core goes on at the next instruction with a result in rd. After a commit point the checkpoint is
recorded now (R148). -/
def State.complete (s : State) (c : Nat) (i : Fin 4) (rd : GReg) (x : Word) (ckpt : Bool) : State :=
  s.modCtx c i fun y =>
    let r := y.regs.put rd x
    let r := { r with pc := r.pc + 4 }
    { y with regs := r, st := .ready, wait := .none, ckpt := if ckpt then r else y.ckpt }

/-- A ring has the level that CWAIT or PWAIT waits for; the slot's address (R196). -/
def ringReady (h : Word) (produce : Bool) (n : Nat) : Option Word :=
  if n ≤ (if produce then hFree h else hFilled h) then
    some (w64 (if produce then hTailAddr h else hHeadAddr h))
  else none

/-- CONTEXT_WAKE: the condition a WAITING context waits for is met (R147). A commit, a barrier, the atomic thread, a
revolution, the special-function unit, the riddle and WFI have events of their own. A control core that runs nothing
comes to run (log 91). -/
def execContextWake (core ctx : Nat) (s : State) : Out :=
  match ctxNo ctx with
  | none => .next s
  | some i =>
    let y := s.ctx core i
    if isControl core && decide (core < controlCore 64) && decide (i = 0) && decide (y.st = .free) then
      .next (s.startControl core)
    else if y.st ≠ .waiting then .next s else
    match y.wait with
    | .again => .next (s.modCtx core i fun y => { y with st := .ready, wait := .none })
    | .result rd x => .next (s.complete core i rd x true)
    | .ring produce h n rd =>
      match ringReady ((s.bank core).ring h) produce n with
      | some a => .next (s.complete core i rd a true)
      | none => .next s
    | .jwait j rd =>
      match (s.bank core).findJob j with
      | .live => .next s
      | .none_ | .ended _ _ =>
        .next (s.asCtx core i fun s =>
          let s := s.jwaitGo j rd
          if s.cx.st = .ready then s.modCx fun y => { y with ckpt := y.regs } else s)
    | .fence stores window rd =>
      let s := s.perform none stores
      match window with
      | none => .next (s.complete core i 0 0 false)
      | some w =>
        match Tab.look s.windows w with
        | some g =>
          let n := g.count + 1
          let s := { s with windows := Tab.put s.windows w { g with count := n } }
          .next (s.complete core i rd n false)
        | none => .next (s.complete core i rd 0 false)
    | .none | .commit _ | .barrier _ _ _ | .thread _ | .rev _ _ _ _ | .sfu _ _ _ | .draw _ _ _ | .wfi => .next s

/-! ### The watchdog kill and the dead queue (R166, R214, R215) -/

/-- Words of a header from an address upward, each reached with store permission and read; the address of the first
that cannot be reached otherwise. -/
def State.deadWords (s : State) (c : Nat) (va : Word) : Nat → Except Word (List Word) × State
  | 0 => (.ok [], s)
  | n + 1 =>
    match s.deviceFind c .store va with
    | (.error _, s) => (.error va, s)
    | (.ok _, s) =>
      match s.deviceGet c va with
      | (.error _, s) => (.error va, s)
      | (.ok x, s) =>
        match s.deadWords c (va + 8) n with
        | (.error a, s) => (.error a, s)
        | (.ok xs, s) => (.ok (x :: xs), s)

/-- PUT, TAKE, CAP, LOST and EBASE of the dead-queue header at a translated address (R214): every word of it is
reached, or the header is unreachable. -/
def State.deadHeader (s : State) (c : Nat) (va : Word) : Except Word (List Word) × State :=
  if va = 0 ∨ va.toNat < 2 ^ 32 then (.error va, s) else s.deadWords c va 5

/-- The move of a message to the dead queue (R215): none where it was moved, or counted LOST in a full queue; the
address that could not be reached otherwise. `report` holds CAUSE, FADDR, FPC and CID. -/
def State.deadMove (s : State) (c : Nat) (m : Msg) (report : List Word) : Option Word × State :=
  let va := (s.bank c).kernel.dqva
  match s.deadHeader c va with
  | (.error a, s) => (some a, s)
  | (.ok h, s) =>
    let put := h.getD 0 0
    let cap := h.getD 2 0
    let lost := h.getD 3 0
    let bump (s : State) : State := (s.devicePutWord c (va + 24) (lost + 1)).2
    if cap.toNat ≤ (put - h.getD 1 0).toNat then (none, bump s) else
    let s := (s.devicePutWord c va (put + 1)).2
    let e := h.getD 4 0 + w64 (put.toNat % cap.toNat * 512)
    let image := m.image ++ List.replicate (32 - m.image.length) 0
    if e.toNat < 2 ^ 32 then (some e, bump s) else
    match s.devicePutWords c e (image ++ report) with
    | (.error t, s) => (some (t.faddr.getD e), bump s)
    | (.ok _, s) =>
      match s.devicePutWord c (e + 504) (put + 1) with
      | (.error _, s) => (some (e + 504), bump s)
      | (.ok _, s) => (none, s)

/-- The cores of a rectangle of clusters (R204, R205). -/
def rectCores (rect : Word) : List Nat :=
  let x0 := fld rect 7 0
  let y0 := fld rect 15 8
  (List.range (fld rect 31 24 + 1 - y0)).flatMap fun dy =>
    (List.range (fld rect 23 16 + 1 - x0)).flatMap fun dx => coresOf (clusterAt (x0 + dx) (y0 + dy))

/-- The kernel of a core enters FAULTED after an anchored kill, and notices go to its other cores (R207, R208). -/
def State.faultKernel (s : State) (c : Nat) : State :=
  let b := s.bank c
  if b.kst ≠ .active then s else
  let s := s.modBank c fun b => { b with kst := .faulted }
  ((rectCores b.kernel.rect).filter fun d => decide (d ≠ c)).foldl
    (fun s d => s.post (deviceMsg .fault .system 0 c d 0xFFF b.vdid [w64 b.kernel.serial])) s

/-- A waiting context is killed: its arrival at a barrier stays, with no context to release (R317, R319); its request
to the atomic thread is performed with no register to write (R401), and its CMWAIT is discarded (R434). -/
def State.orphan (s : State) (c : Nat) (i : Fin 4) : State :=
  match (s.ctx c i).wait with
  | .barrier _ _ _ =>
    let mark (l : List Arrival) : List Arrival :=
      l.map fun a => if a.core = c ∧ a.ctx = i.val then { a with ctx := 4 } else a
    let fix (r : Round) : Round := { r with arrivals := mark r.arrivals, held := mark r.held }
    let s := s.modCluster (clusterOf c) fun k => { k with rounds := k.rounds.map fun (v, r) => (v, fix r) }
    { s with
      blocks := s.blocks.map fun b => { b with round := fix b.round }
      releasing := s.releasing.map fun x => { x with parts := x.parts.map fun (a, r) => ((mark [a]).headD a, r) } }
  | .thread _ =>
    let mark (l : List ThreadReq) : List ThreadReq :=
      l.map fun q => if q.ctx = i.val then { q with live := false } else q
    s.modCore c fun x => { x with reqs := mark x.reqs, held := x.held.filter fun q => decide (q.ctx ≠ i.val) }
  | _ => s

/-- BUDGET_EXPIRY: the count of a READY, RUNNING or WAITING task reaches BUDG (R165, R166, R207). -/
def execBudgetExpiry (core ctx : Nat) (s : State) : Out :=
  match ctxNo ctx with
  | none => .next s
  | some i =>
    let y := s.ctx core i
    if isControl core || !y.running then .next s else
    hartEvent s fun s =>
    let s := (s.orphan core i).modCore core fun x => x.discardChunk i
    let t (sub : Nat) (a : Word) : Trap := Trap.at_ .budget sub a
    if y.anch then
      let s := s.record core i (t 1 0) true y.regs.pc
      let s := s.endTask core i
      .next ((s.faultKernel core).reportTrap core (t 1 0))
    else
      let word := causeWord Cause.budget.code 0 false i.val y.regs.cr.msgid.toNat
      let m := y.msg.getD (Entry.free.image 0 0)
      let s := s.putCtx core i { y with st := .suspended }
      let (fail, s) := s.deadMove core m [word, 0, y.regs.pc, cidOf core]
      let t := match fail with
        | some a => t 2 a
        | none => t 0 0
      let s := s.record core i t false y.regs.pc
      .next ((s.endTask core i).reportTrap core t)

/-- FAULT_NOTICE: a notice of the loader arrives (R207, R208), for the kernel of the LOAD that its sender ran. -/
def execFaultNotice (core vd : Nat) (s : State) : Out :=
  let mine (e : Msg × Nat) : Bool :=
    decide (e.1.kind = .fault) && decide (e.1.dst = core) && decide (e.1.vd = vd) && s.firstInNet e.2 e.1
  match s.net.zipIdx.find? mine with
  | none => .next s
  | some (m, n) =>
    let hit (b : Bank) : Bank :=
      if b.vdid = vd ∧ b.kst = .active ∧ w64 b.kernel.serial = m.payload.getD 0 0 then { b with kst := .faulted } else b
    .next ({ s with net := s.net.eraseIdx n }.modCore core fun x => { x with bank := hit x.bank, other := hit x.other })

/-! ### RESUME and KILL (R171, R276) -/

/-- The operation of a service message: HADDR minus the service base (R171). -/
def Msg.svcOp (m : Msg) : Nat := fld m.w0 47 0 - 0xFFFF_FFFF_FF00

/-- The head of the service messages, where it has the operation given; the state without it. -/
def State.takeSvc (s : State) (c op : Nat) : Option (Msg × State) :=
  match (s.core c).svc with
  | m :: rest => if m.svcOp = op then some (m, s.modCore c fun x => { x with svc := rest }) else none
  | [] => none

/-- The object of RESUME and KILL: none where the message names nothing. -/
inductive SvcObject where
  | context (i : Fin 4)
  | slot (n : Nat)
  | nothing
  deriving DecidableEq, Repr

def Msg.svcObject (m : Msg) : SvcObject :=
  match m.payload with
  | [] => .nothing
  | x :: _ =>
    match ctxNo x.toNat with
    | some i => .context i
    | none => if 8 ≤ x.toNat ∧ x.toNat ≤ 15 then .slot (x.toNat - 8) else .nothing

/-- A core has run out: no context is READY, RUNNING, WAITING or DORMANT, no job QUEUED or RUNNING, and each request to
the atomic thread has been performed, that of a killed task as well (R172, R279, R401). -/
def Core.quiet (x : Core) : Bool :=
  x.reqs.isEmpty && x.held.isEmpty && x.owed.isEmpty &&
  (x.ctxs.toList.all fun y => !y.running && decide (y.st ≠ .dormant)) &&
  x.bank.jobs.all fun j => !(decide (j.st = .queued) || decide (j.st = .running))

/-- The core's contexts, queues and entries do not move: its save is complete, or halted by a fault with nothing set going
since (R172, R174). -/
def Core.atRest (x : Core) : Bool := x.saved || (x.saveHalt.isSome && x.quiet)

/-- A halted save whose core RESUME or KILL has changed is written anew from its start (R173, R174; log 94). -/
def State.spoilSave (s : State) (c : Nat) : State :=
  s.modCore c fun x => { x with saveHalt := x.saveHalt.map fun h => (0, h.2) }

/-- RESUME: a SUSPENDED context is READY, a PARKED copy goes on (R171). A core whose save is complete holds none: they are
in its record. -/
def execResume (core : Nat) (s : State) : Out :=
  match s.takeSvc core 0 with
  | none => .next s
  | some (m, s) =>
    if (s.core core).saved then .next s else
    match m.svcObject with
    | .context i =>
      if (s.ctx core i).st = .suspended then
        .next ((s.modCtx core i fun y => { y with st := .ready, wait := .none }).spoilSave core)
      else .next s
    | .slot n =>
      let j := s.job core n
      if j.st = .parked ∧ j.copying then .next ((s.setJob core n { j with st := .running }).spoilSave core) else .next s
    | .nothing => .next s

/-- KILL: a SUSPENDED context is FREE and its message consumed, a PARKED copy ends FAULT (R171, R276). -/
def execKill (core : Nat) (s : State) : Out :=
  match s.takeSvc core 1 with
  | none => .next s
  | some (m, t) =>
    if (t.core core).saved then .next t else
    match m.svcObject with
    | .context i =>
      if (t.ctx core i).st = .suspended then
        .next (((t.modCore core fun x => x.discardChunk i).endTask core i).spoilSave core)
      else .next t
    | .slot n =>
      let j := t.job core n
      if j.st = .parked ∧ j.copying then
        hartEvent s fun s =>
          let s := s.modCore core fun x => { x with svc := x.svc.tail }
          .next (((s.unreserve core n).endJob core n stFault j.status.toNat (j.done / 8)).spoilSave core)
      else .next t
    | .nothing => .next t

end Sys2Proof.Machine
end

