-- ==== Sys2Proof/Machine/GroupRun.lean ====
section
/-! DEFINITION. What groups do beside their instructions: barrier rounds (R315 to R320, R324), leaving and completing a
block (R305, R309, R310), launch queues (R306, R312), the placer (R307, R308) and the launch mapper (R198). -/

set_option Elab.async false

namespace Sys2Proof.Machine

/-! ### The copy of a core that serves a virtual device (R464) -/

/-- Changes the copy of a core that serves a virtual device. -/
def Core.modCopy (x : Core) (v : Nat) (f : Bank → Bank) : Core :=
  if x.bank.vdid = v then { x with bank := f x.bank }
  else if x.other.vdid = v then { x with other := f x.other }
  else x

/-- GMEM of the copy that serves a virtual device; 0 where none does. -/
def Core.gmemOf (x : Core) (v : Nat) : Word :=
  if x.bank.vdid = v then x.bank.gmem else if x.other.vdid = v then x.other.gmem else 0

/-- KSTAT.ST of that copy. -/
def Core.kstOf (x : Core) (v : Nat) : KSt :=
  if x.bank.vdid = v then x.bank.kst else if x.other.vdid = v then x.other.kst else .absent

/-! ### Rounds (R315, R316) -/

def Round.idle : Round := { arrivals := [], held := [] }

/-- An arrival enters the round, or is held behind an earlier one of its core (R316). -/
def Round.add (r : Round) (a : Arrival) : Round :=
  if r.arrivals.any fun b => decide (b.core = a.core) then { r with held := r.held ++ [a] }
  else { r with arrivals := r.arrivals ++ [a] }

/-- The round after a release: the held arrivals enter it, the first of each core (R319). -/
def Round.after (r : Round) : Round := r.held.foldl Round.add .idle

/-- The clusters of a block. -/
def Block.clusters (b : Block) : List Nat :=
  (List.range b.bh).flatMap fun dy => (List.range b.bw).map fun dx => clusterAt (b.x0 + dx) (b.y0 + dy)

/-- The cores of a block. -/
def Block.cores (b : Block) : List Nat := b.clusters.flatMap coresOf

/-- The block of a virtual device that occupies a cluster. -/
def State.blockAt (s : State) (v k : Nat) : Option Block :=
  s.blocks.find? fun b => decide (b.vd = v) && b.clusters.contains k

/-- Replaces the block that occupies the same place. -/
def State.putBlock (s : State) (b : Block) : State :=
  { s with blocks := s.blocks.map fun c => if c.vd = b.vd ∧ c.x0 = b.x0 ∧ c.y0 = b.y0 then b else c }

/-- The rectangle of a block, as SCUR lays one out. -/
def Block.rect (b : Block) : Word :=
  w64 (b.x0 + b.y0 * 2 ^ 8 + (b.x0 + b.bw - 1) * 2 ^ 16 + (b.y0 + b.bh - 1) * 2 ^ 24)

/-- RARR or GARR of a core's copy for a virtual device (R324). -/
def State.setArr (s : State) (c v : Nat) (block waits : Bool) : State :=
  let n := if block then 33 else 32
  s.modCore c fun x => x.modCopy v fun b => { b with barst := setFld b.barst n n (b2n waits) }

/-- The core is a member of the barrier named (R315). -/
def State.member (s : State) (c : Nat) (block : Bool) : Bool :=
  let b := s.bank c
  bitOf b.gmem (if block then 1 else 0) && (!block || (s.blockAt b.vdid (clusterOf c)).isSome)

/-- A committed arrival (R316, R322). -/
def State.arrive (s : State) (c : Nat) (i : Fin 4) (block : Bool) (op : Nat) (pl : BitVec 32) (rd : GReg) : State :=
  let v := (s.bank c).vdid
  let a : Arrival := { core := c, ctx := i.val, pl := pl, op := op, rd := rd, rels := if block then s.covered c else [] }
  let s := s.setArr c v block true
  if block then
    match s.blockAt v (clusterOf c) with
    | none => s
    | some b => s.putBlock { b with round := b.round.add a }
  else
    s.modCluster (clusterOf c) fun k =>
      { k with rounds := Tab.put k.rounds v ((Tab.get k.rounds v .idle).add a) }

/-! ### Release (R318, R319, R320) -/

/-- The combination of a round's payloads: 0 AND, 1 OR, 2 SUM, 3 POPC (R319). -/
def combine (op : Nat) (as : List Arrival) : Word :=
  match op with
  | 0 => zx (as.foldl (fun x a => x &&& a.pl) (BitVec.allOnes 32))
  | 1 => zx (as.foldl (fun x a => x ||| a.pl) 0)
  | 2 => as.foldl (fun x a => x + sx a.pl) 0
  | _ => w64 (as.filter fun a => decide (a.pl ≠ 0)).length

/-- The completion test: the round holds an arrival, and every member has arrived (R318). -/
def passes (members : List Nat) (r : Round) : Bool :=
  !r.arrivals.isEmpty && members.all fun c => r.arrivals.any fun a => decide (a.core = c)

/-- The rounds that pass one after another, as the held arrivals of each enter the next, and the round that then gathers:
`n` is the most that can pass. -/
def Round.passing (members : List Nat) : Nat → Round → List (List Arrival) × Round
  | 0, r => ([], r)
  | n + 1, r =>
    if passes members r then
      let (done, q) := r.after.passing members n
      (r.arrivals :: done, q)
    else ([], r)

/-- The completion test at the end of a cycle (R318, R319): each round that passes takes an arrival with it. -/
def Round.test (members : List Nat) (r : Round) : List (List Arrival) × Round :=
  r.passing members (r.arrivals.length + r.held.length)

/-- A round is released (R319): a release sets out to each cluster that has a participant. -/
def State.startRelease (s : State) (v : Nat) (clusters : List Nat) (rect : Option Word) (as : List Arrival) : State :=
  let here (k : Nat) : List (Arrival × Word) :=
    (as.filter fun a => decide (clusterOf a.core = k)).map fun a => (a, combine a.op as)
  let one (k : Nat) : Release :=
    { vd := v, cluster := k, rect := rect, rels := as.map (·.rels), parts := here k, counts := true }
  { s with releasing := s.releasing ++ (clusters.filter fun k => !(here k).isEmpty).map one }

/-- The members of a virtual device among cores. -/
def State.members (s : State) (v bit : Nat) (cores : List Nat) : List Nat :=
  cores.filter fun c => bitOf ((s.core c).gmemOf v) bit

/-- The completion test of the cluster barrier of a virtual device. -/
def State.testCluster (s : State) (k v : Nat) : State :=
  let (done, r) := (Tab.get (s.cluster k).rounds v .idle).test (s.members v 0 (coresOf k))
  let s := s.modCluster k fun x => { x with rounds := Tab.put x.rounds v r }
  done.foldl (fun s as => s.startRelease v [k] none as) s

/-- The completion test of a block's barrier. -/
def State.testBlock (s : State) (b : Block) : State :=
  let (done, r) := b.round.test (s.members b.vd 1 b.cores)
  done.foldl (fun s as => s.startRelease b.vd b.clusters (some b.rect) as) (s.putBlock { b with round := r })

/-- The completion tests of the barriers of a cluster, and of the blocks on it, at the end of a cycle with an arrival, a
departure or a placement (R318). -/
def State.testRounds (s : State) (k : Nat) : State :=
  let s := (s.cluster k).rounds.foldl (fun s (v, _) => s.testCluster k v) s
  (s.blocks.filter fun b => b.clusters.contains k).foldl State.testBlock s

/-- An arrival of a core waits at a barrier (R324): in its round, or for a release that is on its way. -/
def State.arrivalWaits (s : State) (c v : Nat) (block : Bool) : Bool :=
  let r : Round :=
    if block then ((s.blockAt v (clusterOf c)).map (·.round)).getD .idle
    else Tab.get (s.cluster (clusterOf c)).rounds v .idle
  (r.arrivals ++ r.held ++ (s.releasing.filter fun x => decide (x.vd = v) && (x.rect.isSome == block)).flatMap
    fun x => x.parts.map (·.1)).any fun a => decide (a.core = c)

/-- The release reaches one arrival: its context goes on with the result, where it still waits, and BARST counts the
round (R319, R324). -/
def State.releaseOne (s : State) (x : Release) (a : Arrival) (result : Word) : State :=
  let block := x.rect.isSome
  let lo := if block then 16 else 0
  let s := s.modCore a.core fun y => y.modCopy x.vd fun b =>
    if x.counts then { b with barst := setFld b.barst (lo + 15) lo (fld b.barst (lo + 15) lo + 1) } else b
  let s := s.setArr a.core x.vd block (s.arrivalWaits a.core x.vd block)
  match ctxNo a.ctx with
  | none => s
  | some i => s.complete a.core i a.rd result true

/-- The release of a round reaches a cluster, all its participants in one step (R319). That of a block barrier makes the
participants' stores visible in the block's rectangle, and each participant acquires (R320). -/
def State.release (s : State) (x : Release) : State :=
  let s := x.rels.foldl (fun s r => match x.rect with
    | some rect => s.perform (some rect) r
    | none => s) s
  let s := x.parts.foldl (fun s (a, _) => if x.rect.isSome then s.acquire a.core else s) s
  x.parts.foldl (fun s (a, r) => s.releaseOne x a r) s

/-- BARRIER_RELEASE: the first release on its way to a cluster, of its own barrier or of that of a block on it, reaches it
(R319, R325). -/
def execBarrierRelease (cluster : Nat) (block : Bool) (s : State) : Out :=
  match s.releasing.zipIdx.find? fun (x, _) => decide (x.cluster = cluster) && (x.rect.isSome == block) with
  | some (x, n) => .next ({ s with releasing := s.releasing.eraseIdx n }.release x)
  | none => .next s

/-! ### Blocks complete (R309, R310) -/

/-- The word at an address of a virtual device, 0 where it cannot be read. -/
def State.vdWord (s : State) (q : Asker) (va : Word) : Word × State :=
  match s.vdGet q va with
  | (.ok x, s) => (x, s)
  | (.error _, s) => (0, s)

/-- A field of a batch state record, or the completion word, changes by a number of blocks. -/
def State.vdAdd (s : State) (q : Asker) (va x : Word) : State :=
  let (old, s) := s.vdWord q va
  (s.vdPut q va (old + x)).2

/-- The placer and the mapper as they reach the memory of a virtual device. -/
def placer (v sid : Nat) : Asker := vdAsker deviceAgent v sid

/-- The counts of a batch after one of its blocks has completed: the last one adds to the completion word (R309, R310). -/
def State.countBlock (s : State) (b : Block) (abend : Bool) : State :=
  let q := placer b.vd b.sid
  let s := if abend then s.vdAdd q (b.gbat + 24) 1 else s
  let (old, s) := s.vdWord q b.gbat
  let s := (s.vdPut q b.gbat (old - 1)).2
  if old ≠ 1 then s else
  let s := (s.vdPut q (b.gbat + 16) 2).2
  if b.doneva = 0 then s else s.vdAdd q b.doneva (w64 b.count)

/-- A block completes: its barrier is tested for the last time (log 46), its cores leave it, its clusters' gangs re-form,
the batch's counts change, and the last block adds to the completion word (R305, R309, R310, R315). Every store of the
block's cores is performed for every core first. The cluster barriers are tested once the gangs have re-formed (R313,
R318). -/
def State.completeBlock (s : State) (b : Block) (abend : Bool) : State :=
  let k := clusterAt b.x0 b.y0
  let s := s.testBlock b
  let s := { s with blocks := s.blocks.filter fun c => !(c.vd = b.vd && c.clusters.contains k) }
  let s := b.cores.foldl (fun s c => s.modCore c fun x => x.modCopy b.vd fun k =>
    { k with lrec := 0, gpos := 0, gbat := 0, gmem := 1, barst := setFld k.barst 33 33 0 }) s
  let s := b.cores.foldl (fun s c => s.perform none (s.core c).floors) s
  let s := s.countBlock b abend
  b.clusters.foldl State.testRounds (s.modVd b.vd fun d => { d with placing := true })

/-- The block of a virtual device on a cluster completes where no core of it is a member any more (R309). -/
def State.checkBlock (s : State) (v k : Nat) (abend : Bool) : State :=
  match s.blockAt v k with
  | none => s
  | some b => if (s.members v 1 b.cores).isEmpty then s.completeBlock b abend else s

/-! ### Launch queues (R306, R312) -/

/-- Address of the descriptor of launch queue q of a core's kernel. -/
def Bank.queueAt (b : Bank) (q : Nat) : Word := b.lqb + w64 (64 * q)

/-- GSPAWN's job: the batch is enqueued, or the queue is full (R312). -/
def State.enqueue (s : State) (c : Nat) (j : Job) : Except Trap Bool × State :=
  let b := s.bank c
  let q := b.queueAt (j.ops.getD 4 0).toNat
  match s.deviceGetWords c q 4 with
  | (.error t, s) => (.error t, s)
  | (.ok ws, s) =>
    let put := ws.getD 0 0
    let cap := ws.getD 2 0
    if cap.toNat ≤ (put - ws.getD 1 0).toNat then (.ok false, s) else
    let range := j.ops.getD 1 0
    let entry := [j.ops.getD 0 0, setFld range 63 48 (fld b.kid 15 0), j.ops.getD 2 0, j.ops.getD 3 0]
    match s.devicePutWords c (ws.getD 3 0 + w64 (32 * (put.toNat % cap.toNat))) entry with
    | (.error t, s) => (.error t, s)
    | (.ok _, s) =>
      match s.devicePutWords c (j.ops.getD 3 0) [w64 (fld range 47 24), 0, 0, 0] with
      | (.error t, s) => (.error t, s)
      | (.ok _, s) =>
        match s.devicePutWord c q (put + 1) with
        | (.error t, s) => (.error t, s)
        | (.ok _, s) => (.ok true, s)

/-- GSPAWN_ENQUEUE (R312). -/
def execGspawnEnqueue (core slot : Nat) (s : State) : Out :=
  let j := s.job core slot
  if j.kind ≠ 14 ∨ j.st ≠ .queued then .next s else
  hartEvent s fun s =>
  match s.enqueue core j with
  | (.error t, s) => .next (s.faultJob core slot t.cause.code)
  | (.ok true, s) => .next (s.endJob core slot stDone 0 0)
  | (.ok false, s) => .next (s.faultJob core slot 0x82)

/-! ### The placer (R307, R308) -/

/-- The first core of a virtual device that holds a kernel of it of some kind, with that copy. -/
def State.kernelWith (s : State) (v : Nat) (p : Bank → Bool) : Option (Nat × Bank) :=
  ((s.clustersOf v).flatMap coresOf).findSome? fun c =>
    let x := s.core c
    let ok (b : Bank) : Bool := decide (b.vdid = v) && p b
    if ok x.bank then some (c, x.bank) else if ok x.other then some (c, x.other) else none

/-- The kernel has its registers: it is past LOADING and not ABSENT. -/
def Bank.loadedIn (b : Bank) : Bool := decide (b.kst ≠ .absent) && decide (b.kst ≠ .loading)

/-- The copy whose LQB and SIDR the mapper and the placer reach the launch queues with: any kernel of the virtual device
that has been loaded, in whatever state (R197, R306). -/
def State.queueKernel (s : State) (v : Nat) : Option (Nat × Bank) := s.kernelWith v Bank.loadedIn

/-- A copy that holds the kernel of an identifier, past LOADING (R306). -/
def State.batchKernel (s : State) (v kid : Nat) : Option Bank :=
  (s.kernelWith v fun b => b.loadedIn && decide (fld b.kid 15 0 = kid)).map (·.2)

/-- The rectangle of clusters at an origin is free for a kernel of a virtual device, and lies in one die (R307). -/
def State.rectFree (s : State) (v kid x0 y0 bw bh : Nat) : Bool :=
  decide (1 ≤ bw) && decide (bw ≤ 32) && decide (1 ≤ bh) && decide (bh ≤ 32) &&
  decide (x0 / 32 = (x0 + bw - 1) / 32) && decide (y0 / 32 = (y0 + bh - 1) / 32) &&
  decide (x0 + bw ≤ 256) && decide (y0 + bh ≤ 128) &&
  (List.range bh).all fun dy => (List.range bw).all fun dx =>
    let k := clusterAt (x0 + dx) (y0 + dy)
    (s.cluster k).vds.contains v && (s.blockAt v k).isNone &&
    (coresOf k).all fun c =>
      let x := s.core c
      let ok (b : Bank) : Bool := decide (b.vdid = v) && decide (b.kst = .active) && decide (fld b.kid 15 0 = kid)
      ok x.bank || ok x.other

/-- The order in which origins are tried: increasing y, and for each y increasing x (R307). -/
def originLt (a b : Nat × Nat) : Bool := decide (a.2 < b.2) || (decide (a.2 = b.2) && decide (a.1 < b.1))

/-- The first origin whose rectangle is free. -/
def State.origin (s : State) (v kid bw bh : Nat) : Option (Nat × Nat) :=
  ((s.clustersOf v).map fun k => (clusterX k, clusterY k)).foldl (fun best o =>
    if !s.rectFree v kid o.1 o.2 bw bh then best else
    match best with
    | none => some o
    | some p => if originLt o p then some o else best) none

/-- The start message of a placed block to one of its cores (R308). -/
def startMsg (c v num : Nat) (entry args : Word) : Msg := deviceMsg .start .system entry c c 0xFFF v [w64 num, args]

/-- The block is placed on all its clusters (R308). -/
def State.placeBlock (s : State) (b : Block) (entry args : Word) : State :=
  let gpos := w64 (b.x0 + b.y0 * 2 ^ 8 + b.bw * 2 ^ 16 + b.bh * 2 ^ 24 + b.num % 2 ^ 24 * 2 ^ 32)
  let stale (x : Release) : Bool := decide (x.vd = b.vd) && x.rect.isSome && b.clusters.contains x.cluster
  let s := { s with
    blocks := s.blocks ++ [b]
    releasing := s.releasing.map fun x => if stale x then { x with counts := false } else x }
  let s := b.cores.foldl (fun s c => s.modCore c fun x => x.modCopy b.vd fun k =>
    { k with lrec := b.lrec, gpos := gpos, gbat := w64 (fld b.gbat 47 0), gmem := 3
             barst := setFld (setFld k.barst 31 16 0) 33 33 0 }) s
  let s := b.clusters.foldl State.testRounds s
  b.cores.foldl (fun s c => s.post (startMsg c b.vd b.num entry args)) s

/-- The limits of a batch entry that stand in the entry itself (R306, R312). -/
def entryOk (d : List Word) : Bool :=
  let bst := d.getD 3 0
  decide ((d.getD 0 0).toNat % 64 = 0) && decide (1 ≤ fld (d.getD 1 0) 47 24) && decide ((d.getD 2 0).toNat % 8 = 0) &&
  decide (bst.toNat % 64 = 0) && decide (bst ≠ 0)

/-- Those that the launch record it names has a part in: the last is that of its kernel, where a core holds it. A shape
that no rectangle in one die has is none of them: such a batch waits (R307; log 104). -/
def recordFits (kb : Option Bank) (d rec : List Word) : Bool :=
  let range := d.getD 1 0
  decide (fld range 23 0 + fld range 47 24 ≤ fld (rec.getD 1 0) 40 16) &&
    kb.all fun b => b.handlerOk (rec.getD 0 0).toNat

/-- What the head batch of a queue comes to. -/
inductive BatchHead where
  /-- The queue has no work, or its next block waits. -/
  | waits
  /-- The entry places nothing: its address (R306). -/
  | bad (entry : Word)
  /-- The next block can be placed; `last` where it is the batch's last. -/
  | block (b : Block) (entry args : Word) (placed : Word)
  deriving DecidableEq, Repr

/-- The next block of a batch entry (R306, R307): it waits until its kernel is ACTIVE on a free rectangle. Its records are
reached under its kernel's space, or the queues' where no core holds that kernel (log 40). -/
def State.nextBlock (s : State) (v sid : Nat) (e : Word) (d : List Word) (kb : Option Bank) : BatchHead × State :=
  let sid := (kb.map fun b => fld b.sidr 15 0).getD sid
  let q := placer v sid
  match s.vdGetWords q (d.getD 0 0) 4 with
  | (.error _, s) => (.bad e, s)
  | (.ok rec, s) =>
    if !recordFits kb d rec then (.bad e, s) else
    let bst := d.getD 3 0
    let (placed, s) := s.vdWord q (bst + 8)
    let shape := rec.getD 1 0
    match s.origin v (fld (d.getD 1 0) 63 48) (fld shape 5 0) (fld shape 11 6) with
    | none => (.waits, s)
    | some (x, y) =>
      (.block { vd := v, x0 := x, y0 := y, bw := fld shape 5 0, bh := fld shape 11 6
                num := fld (d.getD 1 0) 23 0 + placed.toNat, lrec := d.getD 0 0, gbat := bst
                doneva := d.getD 2 0, count := fld (d.getD 1 0) 47 24, sid := sid
                round := .idle } (w64 (fld (rec.getD 0 0) 47 0)) (rec.getD 2 0) placed, s)

/-- The head batch of launch queue q (R306, R307). -/
def State.headBatch (s : State) (v q : Nat) : BatchHead × State :=
  match s.queueKernel v with
  | none => (.waits, s)
  | some (_, b) =>
    let a := placer v (fld b.sidr 15 0)
    match s.vdGetWords a (b.queueAt q) 4 with
    | (.error _, s) => (.waits, s)
    | (.ok ws, s) =>
      let take := ws.getD 1 0
      let cap := (ws.getD 2 0).toNat
      if ws.getD 0 0 = take ∨ cap = 0 then (.waits, s) else
      let e := ws.getD 3 0 + w64 (32 * (take.toNat % cap))
      match s.vdGetWords a e 4 with
      | (.error _, s) => (.bad e, s)
      | (.ok d, s) =>
        if !entryOk d then (.bad e, s) else
        s.nextBlock v (fld b.sidr 15 0) e d (s.batchKernel v (fld (d.getD 1 0) 63 48))

/-- TAKE of a queue rises by 1. -/
def State.raiseTake (s : State) (v q : Nat) : State :=
  match s.queueKernel v with
  | none => s
  | some (_, b) => s.vdAdd (placer v (fld b.sidr 15 0)) (b.queueAt q + 8) 1

/-- The slots in the order in which they are served: from the one after the last served on (R307). -/
def Vd.slotOrder (d : Vd) : List (Nat × Nat) :=
  (List.range 64).filterMap fun i =>
    let n := (d.lastSlot + 1 + i) % 64
    (Tab.look d.slots n).map fun q => (n, q)

/-- The first of the slots, in the order given, whose head batch does not wait. -/
def State.serveSlots (s : State) (v : Nat) : List (Nat × Nat) → Option (Nat × Nat × BatchHead) × State
  | [] => (none, s)
  | (n, q) :: rest =>
    match s.headBatch v q with
    | (.waits, s) => s.serveSlots v rest
    | (h, s) => (some (n, q, h), s)

/-- The placer serves the mapped slots in turn and places the first block that it can (R307, R308). A turn in which it
places nothing is its last until the next boundary or completion. -/
def State.serve (s : State) (v : Nat) : State :=
  let d := s.vdev v
  if !d.placing || !d.switchedIn then s else
  match s.serveSlots v d.slotOrder with
  | (none, s) => s.modVd v fun d => { d with placing := false }
  | (some (n, q, h), s) =>
    let s := s.modVd v fun d => { d with lastSlot := n }
    match h with
    | .waits => s
    | .bad e =>
      let c := ((s.queueKernel v).map (·.1)).getD 0
      (s.raiseTake v q).deviceReport c s.hrpt .job 6 e 0 []
    | .block b entry args placed =>
      let s := s.placeBlock b entry args
      let a := placer v b.sid
      let s := (s.vdPut a (b.gbat + 8) (placed + 1)).2
      let s := if placed = 0 then (s.vdPut a (b.gbat + 16) 1).2 else s
      if placed.toNat + 1 = b.count then s.raiseTake v q else s

/-- BLOCK_PLACE (R307, R308). -/
def execBlockPlace (vd : Nat) (s : State) : Out := .next (s.serve vd)

/-- The placer goes on until it places nothing more: what it does in one cycle, up to n placements. -/
def State.serveAll (s : State) (v : Nat) : Nat → State
  | 0 => s
  | n + 1 => if (s.vdev v).placing then (s.serve v).serveAll v n else s

/-! ### The launch mapper (R198) -/

/-- Whether a launch queue has work: PUT and TAKE differ (R306). -/
def State.hasWork (s : State) (a : Asker) (b : Bank) (q : Nat) : Bool × State :=
  let (put, s) := s.vdWord a (b.queueAt q)
  let (take, s) := s.vdWord a (b.queueAt q + 8)
  (decide (put ≠ take), s)

/-- The queues of a virtual device that have work, in rising number. -/
def State.queuesWithWork (s : State) (v : Nat) : List Nat × State :=
  match s.queueKernel v with
  | none => ([], s)
  | some (_, b) =>
    (List.range 4096).foldr (fun q (l, s) =>
      let (w, s) := s.hasWork (placer v (fld b.sidr 15 0)) b q
      (if w then q :: l else l, s)) ([], s)

/-- Inserts a queue where it belongs: greater age first, then lower number. -/
def insertQueue (age : Nat → Nat) (q : Nat) : List Nat → List Nat
  | [] => [q]
  | p :: rest => if age p < age q ∨ (age p = age q ∧ q < p) then q :: p :: rest else p :: insertQueue age q rest

/-- The slots after a boundary: a queue that stays mapped keeps its slot, the others take the free ones in order. -/
def mapSlots (old : Tab Nat) (chosen : List Nat) : Tab Nat :=
  let kept := old.filter fun (_, q) => chosen.contains q
  let rest := chosen.filter fun q => !(kept.any fun (_, p) => decide (p = q))
  let free := (List.range 64).filter fun n => (Tab.look kept n).isNone
  (free.zip rest).foldl (fun t (n, q) => Tab.put t n q) kept

/-- The mapper at a boundary of a virtual device (R198); `place` gives the placer its turn (R307). -/
def State.mapLaunch (s : State) (place : Bool) (v : Nat) : State :=
  let (work, s) := s.queuesWithWork v
  s.modVd v fun d =>
    let mapped (q : Nat) : Bool := d.slots.any fun (_, p) => decide (p = q)
    let ages : Tab Nat := work.foldl (fun t q => if mapped q then t else Tab.put t q (Tab.get d.ages q 0 + 1)) []
    let sorted := work.foldl (fun l q => insertQueue (fun q => Tab.get ages q 0) q l) []
    { d with ages := ages, slots := mapSlots d.slots (sorted.take 64), placing := place }

end Sys2Proof.Machine
end

