-- ==== Sys2Proof/Machine/Save.lean ====
section
/-! DEFINITION. Pre-emption (R172 to R174, R279): STOP, the save record at SAVEB, START and CONTINUE, and the change of
the copy a time-shared core runs (R464, R467). -/

set_option Elab.async false

namespace Sys2Proof.Machine

/-! ### The save record's words (R173). The images' inner layout is the model's: only the restore reads it. -/

/-- Words up to a length, zeros behind them. -/
def padTo (n : Nat) (ws : List Word) : List Word := ws.take n ++ List.replicate (n - ws.length) 0

/-- A vector register as 8 words. -/
def vWords (x : VWord) : List Word := (List.range 8).map fun i => x.extractLsb' (64 * i) 64
/-- Eight words as a vector register. -/
def wordsV (ws : List Word) : VWord := BitVec.ofNat 512 (ofBytes (wordsBytes (padTo 8 ws)))

/-- Per-context control registers, in a fixed order. -/
def CtxRegs.words (r : CtxRegs) : List Word :=
  [r.budg, r.tstp, r.msgid, r.fflg, r.actf, r.rfinf, r.sminf, r.fmta, r.fmtb, r.fmtc, r.scla, r.sclb, r.sclf, r.mmsk,
   r.encm, r.fctl, r.grow, r.pairc, r.pairt, r.gangt, r.rngk, r.arh, r.scur]

/-- The registers those words give; reserved bits are not stored (R10). -/
def CtxRegs.ofWords (ws : List Word) : CtxRegs where
  budg := ws.getD 0 0
  tstp := ws.getD 1 0
  msgid := ws.getD 2 0 &&& 0xFFFF
  fflg := ws.getD 3 0 &&& crMask 0x00E
  actf := ws.getD 4 0 &&& 0x1F
  rfinf := ws.getD 5 0 &&& 0x1_031F
  sminf := ws.getD 6 0 &&& 0x1_FFFF_FFFF
  fmta := ws.getD 7 0 &&& crMask 0x040
  fmtb := ws.getD 8 0 &&& crMask 0x041
  fmtc := ws.getD 9 0 &&& crMask 0x042
  scla := ws.getD 10 0 &&& crMask 0x043
  sclb := ws.getD 11 0 &&& crMask 0x044
  sclf := ws.getD 12 0 &&& crMask 0x045
  mmsk := ws.getD 13 0 &&& crMask 0x046
  encm := ws.getD 14 0 &&& crMask 0x047
  fctl := ws.getD 15 0 &&& crMask 0x048
  grow := ws.getD 16 0 &&& 0xFFFF_FFFF
  pairc := ws.getD 17 0 &&& crMask 0x04A
  pairt := ws.getD 18 0 &&& crMask 0x04B
  gangt := ws.getD 19 0 &&& crMask 0x04C
  rngk := ws.getD 20 0 &&& crMask 0x060
  arh := ws.getD 21 0 &&& crMask 0x070
  scur := ws.getD 22 0 &&& 0x1_FFFF_FFFF

/-- Half a context image: pc, g1 to g31, v0 to v15, k1 to k7 and the control registers. -/
def Regs.words (r : Regs) : List Word :=
  padTo 256 (r.pc :: r.g.toList.tail ++ r.v.toList.flatMap vWords ++ r.k.toList.tail ++ r.cr.words)

/-- The registers of half a context image. -/
def Regs.ofWords (ws : List Word) : Regs where
  pc := pcWord 0 (ws.getD 0 0)
  g := Vector.ofFn fun i : Fin 32 => if i.val = 0 then 0 else ws.getD i.val 0
  v := Vector.ofFn fun i : Fin 16 => wordsV ((ws.drop (32 + 8 * i.val)).take 8)
  k := Vector.ofFn fun i : Fin 8 => if i.val = 0 then 0 else ws.getD (159 + i.val) 0
  cr := CtxRegs.ofWords (ws.drop 167)

/-- A receive-queue image: ABCNT stands in bits 63:48 of the header word. -/
def Msg.words (m : Msg) : List Word :=
  padTo 32 (m.w0 :: (m.w1 ||| w64 (m.abcnt * 2 ^ 48)) :: m.payload)

/-- A receive queue of 16 images. -/
def queueWords (q : List Msg) : List Word := padTo 512 (q.flatMap Msg.words)

/-- The code of an entry's state. -/
def EntSt.code : EntSt → Nat
  | .free => 0 | .held => 1 | .ready => 2 | .refused => 3 | .await => 4

/-- A send-queue entry's image: its state and marks stand in the header's free bits; an atomic's operands in the
payload, but not the memory that its address was found to name. -/
def Entry.words (e : Entry) : List Word :=
  let marks := e.st.code * 2 ^ 56 + b2n e.resv * 2 ^ 55 + b2n e.isRply * 2 ^ 54 + e.why % 4 * 2 ^ 60 +
    b2n e.atomic.isSome * 2 ^ 62
  let body : List Word := match e.atomic with
    | some a => [w64 a.op, a.addr, a.v, a.w, w64 a.n, a.haddr, w64 (b2n a.rel)]
    | none => e.payload
  padTo 32 ((w64 (fld e.haddr 47 0) ||| (e.mid <<< 48)) :: (e.hd ||| w64 marks) :: body)

/-- The code of a job slot's state in its image. -/
def JobSt.code : JobSt → Nat
  | .free => 0 | .held => 1 | .queued => 2 | .running => 3 | .parked => 4 | .ended => 5

/-- A job slot image: state, generation and KIND, the latest status, and a parked job's progress and operands. -/
def Job.words (j : Job) : List Word :=
  padTo 8 (w64 (j.st.code + j.gen.toNat * 2 ^ 8 + j.kind * 2 ^ 24) :: j.status :: w64 j.done :: j.ops)

/-- A context's image: the registers, the checkpoint, and what is left of the budget count behind the registers (R173). -/
def Ctx.image (y : Ctx) : List Word := y.regs.words.take 255 ++ [w64 y.left] ++ y.ckpt.words

/-- The contexts a test holds for, as a mask. -/
def ctxMask (x : Core) (p : CtxSt → Bool) : Nat :=
  ([0, 1, 2, 3] : List (Fin 4)).foldl (fun n i => n + b2n (p (x.ctx i).st) * 2 ^ i.val) 0

/-- The save record of a core (R173). -/
def Core.record (x : Core) : List Word :=
  let counts := x.qSys.length % 32 + x.qReply.length % 32 * 2 ^ 5 + x.qOrd.length % 32 * 2 ^ 10 +
    x.qReq.length % 32 * 2 ^ 15 + x.used % 64 * 2 ^ 20 + x.since % 8 * 2 ^ 32
  let refused := x.sendq.toList.zipIdx.foldl (fun n (e, i) => n + b2n (decide (e.st = .refused)) * 2 ^ i) 0
  let flags := refused + ctxMask x (fun t => decide (t = .retained)) * 2 ^ 32 +
    ctxMask x (fun t => decide (t = .suspended)) * 2 ^ 36
  padTo 8 [w64 counts, w64 flags] ++
  padTo 24 (x.ctxs.toList.map fun y => if y.st = .retained then y.succ else 0) ++
  (x.ctxs.toList.flatMap Ctx.image) ++
  (queueWords x.qSys ++ queueWords x.qReply ++ queueWords x.qOrd ++ queueWords x.qReq) ++
  (x.sendq.toList.flatMap Entry.words) ++ (x.bank.jobs.toList.flatMap Job.words)

/-! ### Reading a record (R173) -/

/-- Words n to n + m of a record. -/
def part (ws : List Word) (n m : Nat) : List Word := (ws.drop n).take m

/-- The count of a queue, by the lowest bit of its field. -/
def countAt (ws : List Word) (lo : Nat) : Nat := fld (ws.getD 0 0) (lo + 4) lo

/-- First word of queue q and entry i of a record. -/
def imageAt (q i : Nat) : Nat := 0x4100 / 8 + q * 512 + i * 32
/-- First word of send-queue entry i, and of job slot i. -/
def entryAt (i : Nat) : Nat := 0x8100 / 8 + i * 32
def jobAt (i : Nat) : Nat := 0xA100 / 8 + i * 8

/-- A SUSPENDED context's registers name more aborts than there can be (R173). -/
def badAborts (ws : List Word) : Bool :=
  (List.range 4).any fun i => bitOf (ws.getD 1 0) (36 + i) &&
    (decide (4 < fld (ws.getD (32 + 512 * i + 171) 0) 4 2) || decide (4 < fld (ws.getD (32 + 512 * i + 256 + 171) 0) 4 2))

/-- A queue's count is one that a save writes: within the limit of the queue, or that of the save itself, which stands above
it where messages have come back to the head of a full queue (R149, R175; log 106). -/
def goodCount (n limit : Nat) (saved : List Msg) : Bool := decide (n ≤ limit) || decide (n = saved.length)

/-- Some field names a value that no save writes (R173). -/
def Bank.badRecord (b : Bank) (v : Saved) (ws : List Word) : Bool :=
  !goodCount (countAt ws 0) (fld b.qdep 4 0) v.qSys || !goodCount (countAt ws 5) (fld b.qdep 12 8) v.qReply ||
  !goodCount (countAt ws 10) (fld b.qdep 20 16) v.qOrd || !goodCount (countAt ws 15) (fld b.qdep 28 24) v.qReq ||
  decide (fld b.sqlim 5 0 < fld (ws.getD 0 0) 25 20) || badAborts ws ||
  ((List.range 4).any fun q => (List.range (Nat.min 16 (countAt ws (5 * q)))).any fun i =>
    decide (4 < fld (ws.getD (imageAt q i + 1) 0) 63 48)) ||
  ((List.range 32).any fun i => decide (4 < fld (ws.getD (entryAt i + 1) 0) 58 56)) ||
  ((List.range 8).any fun i =>
    let st := fld (ws.getD (jobAt i) 0) 7 0
    !(decide (st = 0) || decide (st = 4) || decide (st = 5)))

/-- A message as the record's image gives it; what the image does not hold is as the save left it. A message that the save
did not have is one of the virtual device's. -/
def Msg.ofWords (v : Nat) (old : Option Msg) (ws : List Word) : Msg :=
  let w1 := w64 (fld (ws.getD 1 0) 47 0)
  let m := old.getD (deviceMsg .task .request 0 0 0 0xFFF v [])
  { m with
    w0 := ws.getD 0 0
    w1 := w1
    payload := (ws.drop 2).take (Nat.min 30 (lenOf w1))
    mid := w64 (fld (ws.getD 0 0) 63 48)
    abcnt := fld (ws.getD 1 0) 63 48 }

/-- A receive queue as the record gives it; the record has room for 16 images, and what stands behind them is as the save
left it (log 106). The rank of an ordered message that software has changed is taken anew, as at an acceptance (R311). -/
def State.queueOf (s : State) (c : Nat) (old : List Msg) (ws : List Word) (q : Nat) : List Msg :=
  let n := countAt ws (5 * q)
  ((List.range (Nat.min 16 n)).map fun i =>
    let m := Msg.ofWords (s.bank c).vdid old[i]? (part ws (imageAt q i) 32)
    if q = 2 ∧ old[i]? ≠ some m then { m with eff := s.effective c m } else m) ++ (old.take n).drop 16

/-- A send-queue entry as the record gives it. -/
def Entry.ofWords (old : Entry) (ws : List Word) : Entry :=
  let h := ws.getD 1 0
  let st : EntSt := match fld h 58 56 with
    | 0 => .free | 1 => .held | 2 => .ready | 3 => .refused | _ => .await
  if st = .free then Entry.free else
  { old with
    st := st
    hd := w64 (fld h 40 0)
    haddr := w64 (fld (ws.getD 0 0) 47 0)
    mid := w64 (fld (ws.getD 0 0) 63 48)
    resv := bitOf h 55
    isRply := bitOf h 54
    why := fld h 61 60
    payload := if bitOf h 62 then [] else (ws.drop 2).take (Nat.min 30 (lenOf h))
    atomic := if !bitOf h 62 then none else some
      { op := fld (ws.getD 2 0) 3 0
        addr := ws.getD 3 0
        place := (old.atomic.map (·.place)).getD 0
        home := (old.atomic.map (·.home)).getD none
        v := ws.getD 4 0
        w := ws.getD 5 0
        n := if ws.getD 6 0 = 4 then 4 else 8
        haddr := w64 (fld (ws.getD 7 0) 47 0)
        rel := bitOf (ws.getD 8 0) 0 } }

/-- A job slot as the record gives it. -/
def Job.ofWords (old : Job) (ws : List Word) : Job :=
  let h := ws.getD 0 0
  { old with
    st := match fld h 7 0 with
      | 0 => .free | 4 => .parked | _ => .ended
    gen := BitVec.ofNat 13 (fld h 20 8)
    kind := fld h 31 24
    status := ws.getD 1 0
    done := (ws.getD 2 0).toNat
    ops := if fld h 7 0 ≠ 4 then old.ops else (ws.drop 3).take (if old.st = .parked then old.ops.length else 5) }

/-- A context as the record gives it: SUSPENDED, RETAINED or FREE (R172, R173). Of both mask bits SUSPENDED's counts (log
107). -/
def Ctx.ofWords (old : Ctx) (ws : List Word) (i : Nat) : Ctx :=
  let flags := ws.getD 1 0
  let r := Regs.ofWords (part ws (32 + 512 * i) 256)
  let k := Regs.ofWords (part ws (32 + 512 * i + 256) 256)
  let n := Nat.min (ws.getD (32 + 512 * i + 255) 0).toNat r.cr.budg.toNat
  if bitOf flags (36 + i) then
    { old with regs := r, ckpt := k, st := .suspended, anch := true, wait := .none, left := n }
  else if bitOf flags (32 + i) then { old with regs := r, ckpt := k, st := .retained, succ := ws.getD (8 + i) 0 }
  else Ctx.reset

/-- An atomic whose address software has changed names its memory anew, as the entry's virtual device reaches it; none
where the address cannot be stored to (R173). -/
def State.placeEntry (s : State) (c : Nat) (old e : Entry) : Option Entry × State :=
  match e.atomic with
  | none => (some e, s)
  | some a =>
    if (old.atomic.map fun b => (b.addr, b.n)) = some (a.addr, a.n) then (some e, s)
    else if a.addr.toNat % a.n ≠ 0 then (none, s) else
    match s.find c .store a.addr with
    | (.error _, s) => (none, s)
    | (.ok f, s) => (some { e with atomic := some { a with place := f.place.addr, home := f.place.home } }, s)

/-- The send queue as a record gives it: the permission table sees an entry again that software has changed (R465). -/
def State.entriesOf (s : State) (c : Nat) (ws : List Word) : List (Entry × Nat) → Option (List Entry) × State
  | [] => (some [], s)
  | (old, i) :: rest =>
    match s.placeEntry c old (old.ofWords (part ws (entryAt i) 32)) with
    | (none, s) => (none, s)
    | (some e, s) =>
      let e := if e = old ∨ e.st ≠ .ready then e else { e with barred := !s.entryPasses c e }
      match s.entriesOf c ws rest with
      | (some es, s) => (some (e :: es), s)
      | (none, s) => (none, s)

/-- The refusals that go with a send queue read from a record: those of the save, with the images of the entries that
software has changed and without those it has made something else, and those of the entries it has made REFUSED
(R173, R191). -/
def refusalsOf (saved : List Refused) (old new : List Entry) : List Refused :=
  let e (l : List Entry) (n : Nat) : Entry := l.getD n Entry.free
  let kept := saved.filterMap fun r =>
    let x := e new r.entry
    if x = e old r.entry then some r
    else if x.st = .refused then some { r with image := x.image r.entry r.image.abcnt, why := x.why } else none
  let made := (List.range 32).filter fun n => decide ((e new n).st = .refused) && decide ((e old n).st ≠ .refused)
  kept ++ made.map fun n => { entry := n, image := (e new n).image n 0, why := (e new n).why }

/-- The core that a record, its send queue, and what was kept beside it give (R173). The entries' images say which of them
are REFUSED, and how many are in use; the flags and the count that repeat it are not read (log 107). -/
def State.restored (s : State) (c : Nat) (v : Saved) (ws : List Word) (es : List Entry) : Core :=
  let x := s.core c
  { x with
    ctxs := v.ctxs.mapIdx fun i y => y.ofWords ws i
    sendq := Vector.ofFn fun i : Fin 32 => es.getD i.val Entry.free
    qSys := s.queueOf c v.qSys ws 0
    qReply := s.queueOf c v.qReply ws 1
    qOrd := s.queueOf c v.qOrd ws 2
    qReq := s.queueOf c v.qReq ws 3
    refusals := refusalsOf v.refusals v.sendq.toList es
    since := fld (ws.getD 0 0) 34 32
    bank := { x.bank with
      save := none
      jobs := x.bank.jobs.mapIdx fun i j => j.ofWords (part ws (jobAt i) 8) } }

/-! ### START (R173, R467) -/

/-- PARKED jobs go on where they stopped (R279, R299). -/
def Bank.resumeJobs (b : Bank) : Bank :=
  { b with jobs := b.jobs.map fun j =>
      if j.st ≠ .parked then j
      else if j.factor then { j with st := .running, prep := false } else { j with st := .running } }

/-- A core runs again: it is no longer stopped. -/
def State.unstop (s : State) (c : Nat) : State :=
  s.modCore c fun x =>
    { x with stopped := false, stopBy := none, saved := false, saveHalt := none, bank := x.bank.resumeJobs }

/-- START of a core whose save is complete: the record is restored, or the core stays stopped and a report tells of it
(R173). A record that cannot be read is reported with the fault it met (log 99); so is an atomic that no address backs. -/
def State.startSaved (s : State) (c : Nat) : State :=
  let b := s.bank c
  match b.save with
  | none => s.unstop c
  | some v =>
    if v.asIs then
      (s.modCore c fun x => { x with sendq := v.sendq, bank := { x.bank with save := none } }).unstop c else
    match s.deviceGetWords c b.saveb (0xA300 / 8) with
    | (.error t, s) => s.deviceReport c b.tsvc t.cause t.sub (t.faddr.getD 0) 0 [t.pginf.getD 0]
    | (.ok ws, s) =>
      let bad (s : State) : State := s.deviceReport c b.tsvc .bounds 14 b.saveb 0 []
      if b.badRecord v ws then bad s else
      match s.entriesOf c ws v.sendq.toList.zipIdx with
      | (none, s) => bad s
      | (some es, s) => (s.putCore c (s.restored c v ws es)).unstop c

/-- The other copy of a time-shared core becomes the one it runs (R464). -/
def State.swapCopy (s : State) (c : Nat) : State := s.modCore c Core.swapped

/-- START of a core for a virtual device that enters a slot (R467): on a time-shared core it takes effect once the
leaving virtual device's save is complete. -/
def State.startCore (s : State) (v c : Nat) : State :=
  let x := s.core c
  if x.bank.vdid = v then (if x.stopped && x.saved then s.startSaved c else s)
  else if x.other.vdid = v && (s.cluster (clusterOf c)).shared then
    if x.stopped && x.saved then (s.swapCopy c).startSaved c
    else if x.stopped then s else s.stopCore c none
  else s

/-! ### The save (R172, R174, R279) -/

/-- Stores a record's words from an offset on; the offset and the trap where a store fails. -/
def State.putRecord (s : State) (c : Nat) (base : Word) : Nat → List Word → Option (Nat × Trap) × State
  | _, [] => (none, s)
  | off, x :: rest =>
    match s.devicePutWord c (base + w64 off) x with
    | (.error t, s) => (some (off, t), s)
    | (.ok _, s) => s.putRecord c base (off + 8) rest

/-- The completion message to STOP's sender (R172). The spec gives it no HADDR: it is a free value (log 20). -/
def State.saveDone (s : State) (c : Nat) : State :=
  match (s.core c).stopBy with
  | none => s
  | some (d, m) =>
    let (h, s) := s.draw
    s.post (deviceMsg .done .system (w64 (fld h 47 0)) c d m (s.bank c).vdid [])

/-- The save is complete: the contexts, queues and entries are in the record. The core then starts for the virtual device
that is switched in: the other one of a time-shared core, whatever stopped this one, or the same one where a slot
boundary stopped it (R467). -/
def State.finishSave (s : State) (c : Nat) (kept : Option Saved) : State :=
  let s := s.saveDone c
  let x := s.core c
  let slot := decide (x.stopBy = none)
  let s := s.putCore c { x with
    saved := true
    saveHalt := none
    ctxs := Core.reset.ctxs
    sendq := Core.reset.sendq
    qSys := []
    qReply := []
    qOrd := []
    qReq := []
    refusals := []
    since := 0
    bank := { x.bank with save := kept } }
  let shared := (s.cluster (clusterOf c)).shared
  if (s.vdev x.bank.vdid).switchedIn then (if slot then s.startSaved c else s)
  else if shared && (s.vdev x.other.vdid).switchedIn then (s.swapCopy c).startSaved c
  else s

/-- The save from an offset on: complete, or halted by a fault with a continuation record and a report (R174). -/
def State.saveFrom (s : State) (c off : Nat) : State :=
  let x := s.core c
  match s.putRecord c x.bank.saveb off (x.record.drop (off / 8)) with
  | (none, s) =>
    s.finishSave c (some
      { ctxs := x.ctxs, sendq := x.sendq, qSys := x.qSys, qReply := x.qReply, qOrd := x.qOrd, qReq := x.qReq
        refusals := x.refusals, since := x.since, asIs := false })
  | (some (o, t), s) =>
    let a := t.faddr.getD 0
    let s := (s.devicePutWords c (x.bank.emrgb + w64 (2048 * (c % 8))) (padTo 8 [w64 o, a])).2
    let s := s.modCore c fun y => { y with saveHalt := some (o, a) }
    s.deviceReport c x.bank.tsvc .pageW 0 a 0 [t.pginf.getD 0]

/-- A core that has received STOP, has run out and has not begun its save. -/
def State.maySave (s : State) (c : Nat) : Bool :=
  let x := s.core c
  !isControl c && x.stopped && !x.saved && x.saveHalt.isNone && x.quiet

/-- SAVE_RECORD_WRITE (R172). A core without a kernel has nothing to write. -/
def execSaveRecordWrite (core : Nat) (s : State) : Out :=
  if !s.maySave core then .next s else
  hartEvent s fun s =>
  let k := (s.bank core).kst
  if k = .absent ∨ k = .loading then .next (s.finishSave core none) else .next (s.saveFrom core 0)

/-! ### STOP, START and CONTINUE as service messages (R171) -/

/-- STOP (R172); a core that has received it before goes on with that one (log 94). -/
def execStop (core : Nat) (s : State) : Out :=
  match s.takeSvc core 2 with
  | none => .next s
  | some (m, s) =>
    .next (s.stopCore core (some (hdrCore m.w1, hdrMod m.w1)))

/-- START (R173). At a core that is not stopped, or whose save is not complete, it changes nothing (log 94). -/
def execStart (core : Nat) (s : State) : Out :=
  match s.takeSvc core 3 with
  | none => .next s
  | some (_, s) =>
    let x := s.core core
    if x.stopped && x.saved then .next (s.startSaved core) else .next s

/-- CONTINUE: a halted save goes on (R174); where none is halted it changes nothing (log 94). It waits for a task that a
RESUME has set going since (R172; log 94). -/
def execContinueSave (core : Nat) (s : State) : Out :=
  if (s.core core).saveHalt.isSome && !(s.core core).quiet then .next s else
  hartEvent s fun s =>
  match s.takeSvc core 4 with
  | none => .next s
  | some (_, s) =>
    match (s.core core).saveHalt with
    | none => .next s
    | some (off, _) => .next ((s.modCore core fun x => { x with saveHalt := none }).saveFrom core off)

end Sys2Proof.Machine
end

