-- ==== Sys2Proof/Machine/Ctl.lean ====
section
/-! DEFINITION. Major 0x0C: control registers (R9, R10, R73, R75, R138 to R140). -/

set_option Elab.async false

namespace Sys2Proof.Machine

/-- The traps of an access to a control register, write or read, whose instruction's encoding is `enc` (R75, R361). -/
def State.crTrap (s : State) (n : Nat) (write : Bool) (enc : BitVec 32) : Option Trap :=
  if !crExists s.ctl n then some (illegalTrap enc)
  else if s.ctl && decide (s.level < crLevel n) then some (Trap.bare .priv 0)
  else if s.ctl && write && decide (n = 0x098) && decide (s.level < 1) then some (Trap.bare .priv 0)
  else none

/-- The per-core register of a number that a chunk can write (R139). -/
def crCoreReg (ctl : Bool) (n : Nat) : Option CoreReg :=
  match n with
  | 0x00B => some .rfh
  | 0x00C => some .smh
  | 0x00D => some .sqfh
  | 0x090 => some .stpl
  | 0x091 => some .stfr
  | 0x0A1 => some .rvh
  | 0x098 => if ctl then some .sidr else none
  | _ => none

/-- A write to STPL is ignored while tensors or versions are live (R388). -/
def Bank.poolLive (b : Bank) : Bool := decide (fld b.stst 14 0 ≠ 0)

/-- A write to a register of the control profile (R461, R481). -/
def State.privWrite (s : State) (n : Nat) (x : Word) : State :=
  let p := s.me.priv
  let put (q : Priv) : State := s.modMe fun y => { y with priv := q }
  match n with
  | 0x101 => put { p with epc := p.epc.set (levelIx p.cprv) x }
  | 0x102 => put { p with eprv := p.eprv.set (levelIx p.cprv) x }
  | 0x103 => put { p with tvec := p.tvec.set (levelIx p.cprv) x }
  | 0x104 => s.clearIpend s.focus.1 x
  | 0x105 => put { p with vdsel := x }
  | 0x106 => s.modVd s.selVd fun d => { d with s2base := x }
  | 0x107 => s.modVd s.selVd fun d => { d with s2len := x }
  | 0x108 => s.modVd s.selVd fun d => { d with bcap := x }
  | 0x109 => s.modVd s.selVd fun d => { d with apol := x }
  | 0x10A => { s with hrpt := x }
  | 0x10B => put { p with clsel := x }
  | 0x10C => s.writeClown s.selCluster x
  | 0x10D => s.modCluster s.selCluster fun k =>
      { k with perm := Tab.put k.perm (fld p.vdsel 5 0 * 8 + fld p.clsel 18 16) x }
  | 0x10F => s.modVd s.selVd fun d => { d with lqbv := x }
  | 0x110 => put { p with isel := x }
  | 0x111 => s.writeIctl (fld p.isel 5 0) x
  | 0x113 => s.modVd s.selVd fun d => { d with sidtb := x }
  | 0x114 => put { p with psel := x }
  | 0x115 => if fld p.psel 1 0 = 3 then s else s.writePctb (fld p.psel 1 0) x
  | 0x116 => s.writePqcmd x
  | 0x117 => put { p with rsel := x }
  | 0x118 => s.writeRset (fld p.rsel 11 0) x.toNat
  | 0x119 => put { p with lsel := x }
  | 0x11A => s.writeLctl (fld p.lsel 4 0) x
  | 0x11B => { s with modw := x }
  | 0x140 => s.modVd s.vd fun d => { d with
      loads := d.loads ++ [{ block := x, core := s.focus.1, sid := fld s.me.bank.sidr 15 0, level := p.cprv }] }
  | _ => s

/-- A write to a control register: reserved bits are not stored, a read-only register keeps its value (R9, R10). -/
def State.crWrite (s : State) (n : Nat) (x : Word) : State :=
  let x := x &&& crMask n
  match crCoreReg s.ctl n with
  | some r => if n = 0x090 ∧ s.view.poolLive then s else s.addPend (.reg r x)
  | none => if 0x100 ≤ n then s.privWrite n x else s.setCr (s.cr.write n x)

/-- A later count than one read before, by a free number of cycles (R140; log 6): a 64-bit count does not come round. -/
def laterCyc (old : Word) (n : Nat) : Word := w64 (old.toNat + 1 + n % (2 ^ 64 - 1 - old.toNat))

/-- The count CYC has reached since it was last read (R140; log 6). -/
def State.advanceCycOf (s : State) (c : Nat) : State :=
  s.modIsland (islandOf c) fun i => { i with cyc := laterCyc i.cyc (Config.elapsed s.tick) }

/-- The executing core reads CYC. -/
def State.advanceCyc (s : State) : State := s.advanceCycOf s.focus.1

/-- CRW, CRSET and CRCLR: rd receives the old value; `f old` is written (R138). KLDB's address must be a multiple of
64 (R205). -/
def crOp (s : State) (rd : GReg) (cr : BitVec 11) (enc : BitVec 32) (f : Word → Word) : Out :=
  let n := cr.toNat
  match s.crTrap n true enc with
  | some t => trapOut s t
  | none =>
    let s := if n = 0x00F then s.advanceCyc else s
    let old := s.crRead n
    let new := f old
    if n = 0x140 ∧ new.toNat % 64 ≠ 0 then trapOut s (Trap.at_ .misalign 0 new) else
    conclude s (.ok (((s.crWrite n new).setG rd old).advance 4))

/-- CRR (R138). -/
def execCrr (rd : GReg) (cr : BitVec 11) (s : State) : Out :=
  match s.crTrap cr.toNat false (encI 0x0C 0 cr 0 rd) with
  | some t => trapOut s t
  | none =>
    let s := if cr.toNat = 0x00F then s.advanceCyc else s
    writeG s rd (s.crRead cr.toNat) 4

/-- CRW (R138). -/
def execCrw (rd : GReg) (cr : BitVec 11) (rs1 : GReg) (s : State) : Out :=
  crOp s rd cr (encI 0x0C 1 cr rs1 rd) fun _ => s.g rs1

/-- CRSET (R138). -/
def execCrset (rd : GReg) (cr : BitVec 11) (rs1 : GReg) (s : State) : Out :=
  crOp s rd cr (encI 0x0C 2 cr rs1 rd) fun old => old ||| s.g rs1

/-- CRCLR (R138). -/
def execCrclr (rd : GReg) (cr : BitVec 11) (rs1 : GReg) (s : State) : Out :=
  crOp s rd cr (encI 0x0C 3 cr rs1 rd) fun old => old &&& ~~~(s.g rs1)

end Sys2Proof.Machine
end

