-- ==== Sys2Proof/Machine/Vector.lean ====
section
/-! DEFINITION. Majors 0x14 to 0x18: element-wise arithmetic, vector memory, permutations and reductions
(R217 to R230, with R53 to R55). -/

set_option Elab.async false

namespace Sys2Proof.Machine

/-! ### Lanes with flags (R218) -/

/-- The lanes of a result with the flags they raise: active lanes take f, the others keep the old value. -/
def mapFlag (w n : Nat) (mask : Word) (old : VWord) (f : Nat → Nat × Flags) : VWord × Flags :=
  let rs := (List.range n).map fun i => if mask.getLsbD i then f i else (lane old w i, 0)
  (BitVec.ofNat 512 (ofLanes w (rs.map (·.1))), rs.foldl (fun a r => orF a r.2) 0)

/-- A vector result with its flags, and the next instruction. -/
def writeV (s : State) (vd : VReg) (r : VWord × Flags) : Out := .next (((s.setV vd r.1).flag r.2).advance 4)

/-- The active lanes, lowest first. -/
def activeLanes (n : Nat) (mask : Word) : List Nat := (List.range n).filter fun i => mask.getLsbD i

/-! ### Majors 0x14 and 0x15 (R221 to R224) -/

/-- The lane result of a member for an integer type of width w (R221). -/
def intLane (func w a b c : Nat) : Nat :=
  let m := 2 ^ w
  let sa := toS w a
  let sb := toS w b
  let sh := b % w
  match func with
  | 0 => (a + b) % m
  | 1 => (a + m - b) % m
  | 2 => a * b % m
  | 3 => (a * b + c) % m
  | 4 => if sb < sa then b else a
  | 5 => if sa < sb then b else a
  | 6 => a &&& b
  | 7 => a ||| b
  | 8 => a ^^^ b
  | 9 => a * 2 ^ sh % m
  | 10 => a / 2 ^ sh
  | 11 => ofS w (sa / (2 ^ sh : Nat))
  | 12 => ofS w (divSat w sa sb)
  | 13 => ofS w (if sa < 0 then -sa else sa)
  | 14 => (m - a) % m
  | 19 => ofS w (sa * sb / (2 ^ w : Nat))
  | 21 => if b < a then b else a
  | _ => if a < b then b else a

/-- The lane result of a member for a floating type, with its flags (R221). -/
def fltLane (func : Nat) (f : Fmt) (a b c : Nat) : Nat × Flags :=
  match func with
  | 0 => f.addF (f.read a) (f.read b)
  | 1 => f.subF (f.read a) (f.read b)
  | 2 => f.mulF (f.read a) (f.read b)
  | 3 => f.fmaF (f.read a) (f.read b) (f.read c)
  | 4 => f.minMax false a b
  | 5 => f.minMax true a b
  | 6 => (a &&& b, 0)
  | 7 => (a ||| b, 0)
  | 8 => (a ^^^ b, 0)
  | 12 => f.divF (f.read a) (f.read b)
  | 13 => (a % 2 ^ (f.width - 1), 0)
  | _ => (a ^^^ 2 ^ (f.width - 1), 0)

/-- The lane result of a member (R221). -/
def laneOp (func : Nat) (et : ETy) (a b c : Nat) : Nat × Flags :=
  if et.isInt then (intLane func et.width a b c, 0) else fltLane func (etFmt et) a b c

/-- A lane compare: 15 equal, 16 less, 17 less or equal, 20 less unsigned (R222). -/
def laneCmp (func : Nat) (et : ETy) (a b : Nat) : Bool × Flags :=
  let w := et.width
  if et.isInt then
    (match func with
      | 15 => decide (a = b)
      | 16 => decide (toS w a < toS w b)
      | 17 => decide (toS w a ≤ toS w b)
      | _ => decide (a < b), 0)
  else
    let f := etFmt et
    match func with
    | 15 => feqF (f.read a) (f.read b)
    | 16 => fltF (f.read a) (f.read b)
    | _ => fleF (f.read a) (f.read b)

/-- Operand b of the VX form: the scalar's low w bits (R221). -/
def State.scalar (s : State) (et : ETy) (gs : GReg) : Nat → Nat := fun _ => (s.g gs).toNat % 2 ^ et.width

/-- Operand b of the V form. -/
def State.lanes (s : State) (et : ETy) (v : VReg) : Nat → Nat := fun i => lane (s.v v) et.width i

/-- An arithmetic member (R221). -/
def arithOp (s : State) (func : Nat) (et : ETy) (vd vs2 : VReg) (b : Nat → Nat) (k : KReg) : Out :=
  writeV s vd (mapFlag et.width et.lanes (s.k k) (s.v vd) fun i =>
    laneOp func et (s.lanes et vs2 i) (b i) (s.lanes et vd i))

/-- A compare member: the mask of active lanes whose condition holds (R222). -/
def cmpOp (s : State) (func : Nat) (et : ETy) (kd : KReg) (vs2 : VReg) (b : Nat → Nat) (k : KReg) : Out :=
  let mask := s.k k
  let rs := (List.range et.lanes).map fun i =>
    if mask.getLsbD i then laneCmp func et (s.lanes et vs2 i) (b i) else (false, 0)
  let bits := ofLanes 1 (rs.map fun r => b2n r.1)
  .next (((s.setK kd (w64 bits)).flag (rs.foldl (fun a r => orF a r.2) 0)).advance 4)

/-- VSEL: every lane, from b where the selector's bit is 1 (R223). -/
def selOp (s : State) (et : ETy) (vd vs2 : VReg) (b : Nat → Nat) (k : KReg) : Out :=
  writeV s vd (mapFlag et.width et.lanes (BitVec.allOnes 64) 0 fun i =>
    (if (s.k k).getLsbD i then b i else s.lanes et vs2 i, 0))

/-- R221: a + b. -/
def execVadd (et : ETy) (vd vs2 vs1 : VReg) (k : KReg) (s : State) : Out := arithOp s 0 et vd vs2 (s.lanes et vs1) k

/-- R221: a − b. -/
def execVsub (et : ETy) (vd vs2 vs1 : VReg) (k : KReg) (s : State) : Out := arithOp s 1 et vd vs2 (s.lanes et vs1) k

/-- R221: a × b. -/
def execVmul (et : ETy) (vd vs2 vs1 : VReg) (k : KReg) (s : State) : Out := arithOp s 2 et vd vs2 (s.lanes et vs1) k

/-- R221: a × b + c, rounded once. -/
def execVfma (et : ETy) (vd vs2 vs1 : VReg) (k : KReg) (s : State) : Out := arithOp s 3 et vd vs2 (s.lanes et vs1) k

/-- R221: the minimum. -/
def execVmin (et : ETy) (vd vs2 vs1 : VReg) (k : KReg) (s : State) : Out := arithOp s 4 et vd vs2 (s.lanes et vs1) k

/-- R221: the maximum. -/
def execVmax (et : ETy) (vd vs2 vs1 : VReg) (k : KReg) (s : State) : Out := arithOp s 5 et vd vs2 (s.lanes et vs1) k

/-- R221: a AND b. -/
def execVand (et : ETy) (vd vs2 vs1 : VReg) (k : KReg) (s : State) : Out := arithOp s 6 et vd vs2 (s.lanes et vs1) k

/-- R221: a OR b. -/
def execVor (et : ETy) (vd vs2 vs1 : VReg) (k : KReg) (s : State) : Out := arithOp s 7 et vd vs2 (s.lanes et vs1) k

/-- R221: a XOR b. -/
def execVxor (et : ETy) (vd vs2 vs1 : VReg) (k : KReg) (s : State) : Out := arithOp s 8 et vd vs2 (s.lanes et vs1) k

/-- R221: a << b. -/
def execVshl (et : ETy) (vd vs2 vs1 : VReg) (k : KReg) (s : State) : Out := arithOp s 9 et vd vs2 (s.lanes et vs1) k

/-- R221: a >> b, zeros shifted in. -/
def execVshr (et : ETy) (vd vs2 vs1 : VReg) (k : KReg) (s : State) : Out := arithOp s 10 et vd vs2 (s.lanes et vs1) k

/-- R221: a >> b, the sign shifted in. -/
def execVsra (et : ETy) (vd vs2 vs1 : VReg) (k : KReg) (s : State) : Out := arithOp s 11 et vd vs2 (s.lanes et vs1) k

/-- R221: a / b. -/
def execVdiv (et : ETy) (vd vs2 vs1 : VReg) (k : KReg) (s : State) : Out := arithOp s 12 et vd vs2 (s.lanes et vs1) k

/-- R221: the high half of the signed product. -/
def execVmulh (et : ETy) (vd vs2 vs1 : VReg) (k : KReg) (s : State) : Out := arithOp s 19 et vd vs2 (s.lanes et vs1) k

/-- R221: the unsigned minimum. -/
def execVminu (et : ETy) (vd vs2 vs1 : VReg) (k : KReg) (s : State) : Out := arithOp s 21 et vd vs2 (s.lanes et vs1) k

/-- R221: the unsigned maximum. -/
def execVmaxu (et : ETy) (vd vs2 vs1 : VReg) (k : KReg) (s : State) : Out := arithOp s 22 et vd vs2 (s.lanes et vs1) k

/-- R221: the absolute value; floating types clear the sign bit. -/
def execVabs (et : ETy) (vd vs2 : VReg) (k : KReg) (s : State) : Out := arithOp s 13 et vd vs2 (fun _ => 0) k

/-- R221: 0 − a; floating types invert the sign bit. -/
def execVneg (et : ETy) (vd vs2 : VReg) (k : KReg) (s : State) : Out := arithOp s 14 et vd vs2 (fun _ => 0) k

/-- R222: a = b. -/
def execVcmpeq (et : ETy) (kd : KReg) (vs2 vs1 : VReg) (k : KReg) (s : State) : Out := cmpOp s 15 et kd vs2 (s.lanes et vs1) k

/-- R222: a < b. -/
def execVcmplt (et : ETy) (kd : KReg) (vs2 vs1 : VReg) (k : KReg) (s : State) : Out := cmpOp s 16 et kd vs2 (s.lanes et vs1) k

/-- R222: a ≤ b. -/
def execVcmple (et : ETy) (kd : KReg) (vs2 vs1 : VReg) (k : KReg) (s : State) : Out := cmpOp s 17 et kd vs2 (s.lanes et vs1) k

/-- R222: a < b, unsigned. -/
def execVcmpltu (et : ETy) (kd : KReg) (vs2 vs1 : VReg) (k : KReg) (s : State) : Out := cmpOp s 20 et kd vs2 (s.lanes et vs1) k

/-- R223: selects lanes. -/
def execVsel (et : ETy) (vd vs2 vs1 : VReg) (k : KReg) (s : State) : Out := selOp s et vd vs2 (s.lanes et vs1) k

/-- R221: a + b, with a scalar b. -/
def execVaddVx (et : ETy) (vd vs2 : VReg) (gs : GReg) (k : KReg) (s : State) : Out := arithOp s 0 et vd vs2 (s.scalar et gs) k

/-- R221: a − b, with a scalar b. -/
def execVsubVx (et : ETy) (vd vs2 : VReg) (gs : GReg) (k : KReg) (s : State) : Out := arithOp s 1 et vd vs2 (s.scalar et gs) k

/-- R221: a × b, with a scalar b. -/
def execVmulVx (et : ETy) (vd vs2 : VReg) (gs : GReg) (k : KReg) (s : State) : Out := arithOp s 2 et vd vs2 (s.scalar et gs) k

/-- R221: a × b + c, rounded once, with a scalar b. -/
def execVfmaVx (et : ETy) (vd vs2 : VReg) (gs : GReg) (k : KReg) (s : State) : Out := arithOp s 3 et vd vs2 (s.scalar et gs) k

/-- R221: the minimum, with a scalar b. -/
def execVminVx (et : ETy) (vd vs2 : VReg) (gs : GReg) (k : KReg) (s : State) : Out := arithOp s 4 et vd vs2 (s.scalar et gs) k

/-- R221: the maximum, with a scalar b. -/
def execVmaxVx (et : ETy) (vd vs2 : VReg) (gs : GReg) (k : KReg) (s : State) : Out := arithOp s 5 et vd vs2 (s.scalar et gs) k

/-- R221: a AND b, with a scalar b. -/
def execVandVx (et : ETy) (vd vs2 : VReg) (gs : GReg) (k : KReg) (s : State) : Out := arithOp s 6 et vd vs2 (s.scalar et gs) k

/-- R221: a OR b, with a scalar b. -/
def execVorVx (et : ETy) (vd vs2 : VReg) (gs : GReg) (k : KReg) (s : State) : Out := arithOp s 7 et vd vs2 (s.scalar et gs) k

/-- R221: a XOR b, with a scalar b. -/
def execVxorVx (et : ETy) (vd vs2 : VReg) (gs : GReg) (k : KReg) (s : State) : Out := arithOp s 8 et vd vs2 (s.scalar et gs) k

/-- R221: a << b, with a scalar b. -/
def execVshlVx (et : ETy) (vd vs2 : VReg) (gs : GReg) (k : KReg) (s : State) : Out := arithOp s 9 et vd vs2 (s.scalar et gs) k

/-- R221: a >> b, zeros shifted in, with a scalar b. -/
def execVshrVx (et : ETy) (vd vs2 : VReg) (gs : GReg) (k : KReg) (s : State) : Out := arithOp s 10 et vd vs2 (s.scalar et gs) k

/-- R221: a >> b, the sign shifted in, with a scalar b. -/
def execVsraVx (et : ETy) (vd vs2 : VReg) (gs : GReg) (k : KReg) (s : State) : Out := arithOp s 11 et vd vs2 (s.scalar et gs) k

/-- R221: a / b, with a scalar b. -/
def execVdivVx (et : ETy) (vd vs2 : VReg) (gs : GReg) (k : KReg) (s : State) : Out := arithOp s 12 et vd vs2 (s.scalar et gs) k

/-- R221: the high half of the signed product, with a scalar b. -/
def execVmulhVx (et : ETy) (vd vs2 : VReg) (gs : GReg) (k : KReg) (s : State) : Out := arithOp s 19 et vd vs2 (s.scalar et gs) k

/-- R221: the unsigned minimum, with a scalar b. -/
def execVminuVx (et : ETy) (vd vs2 : VReg) (gs : GReg) (k : KReg) (s : State) : Out := arithOp s 21 et vd vs2 (s.scalar et gs) k

/-- R221: the unsigned maximum, with a scalar b. -/
def execVmaxuVx (et : ETy) (vd vs2 : VReg) (gs : GReg) (k : KReg) (s : State) : Out := arithOp s 22 et vd vs2 (s.scalar et gs) k

/-- R222: a = b, with a scalar b. -/
def execVcmpeqVx (et : ETy) (kd : KReg) (vs2 : VReg) (gs : GReg) (k : KReg) (s : State) : Out := cmpOp s 15 et kd vs2 (s.scalar et gs) k

/-- R222: a < b, with a scalar b. -/
def execVcmpltVx (et : ETy) (kd : KReg) (vs2 : VReg) (gs : GReg) (k : KReg) (s : State) : Out := cmpOp s 16 et kd vs2 (s.scalar et gs) k

/-- R222: a ≤ b, with a scalar b. -/
def execVcmpleVx (et : ETy) (kd : KReg) (vs2 : VReg) (gs : GReg) (k : KReg) (s : State) : Out := cmpOp s 17 et kd vs2 (s.scalar et gs) k

/-- R222: a < b, unsigned, with a scalar b. -/
def execVcmpltuVx (et : ETy) (kd : KReg) (vs2 : VReg) (gs : GReg) (k : KReg) (s : State) : Out := cmpOp s 20 et kd vs2 (s.scalar et gs) k

/-- R223: selects the scalar or the lane. -/
def execVselVx (et : ETy) (vd vs2 : VReg) (gs : GReg) (k : KReg) (s : State) : Out := selOp s et vd vs2 (s.scalar et gs) k

/-- R224: the lowest active lane, sign-extended for integers and zero-extended for floating types; 0 where no lane is
active. -/
def execVext (et : ETy) (gd : GReg) (vs2 : VReg) (k : KReg) (s : State) : Out :=
  match activeLanes et.lanes (s.k k) with
  | [] => writeG s gd 0 4
  | i :: _ =>
    let x := s.lanes et vs2 i
    writeG s gd (if et.isInt then ofI (toS et.width x) else w64 x) 4

/-! ### Major 0x16: memory (R225 to R227) -/

/-- The address of each active lane's element. -/
abbrev Elems := List (Nat × Word)

/-- The elements of a form: the active lanes with their addresses. -/
def State.elems (s : State) (et : ETy) (k : KReg) (addr : Nat → Word) : Elems :=
  (activeLanes et.lanes (s.k k)).map fun i => (i, addr i)

/-- Loads the elements in lane order: the trap is that of the lowest active lane that meets one (R226). -/
def State.loadElems (s : State) (n : Nat) : Elems → Ans (List (Nat × Nat) × State)
  | [] => .ok ([], s)
  | (i, a) :: rest => (s.load a n).bind fun (x, s) =>
    (s.loadElems n rest).bind fun (xs, s) => .ok ((i, x) :: xs, s)

/-- A vector load: active lanes receive their elements (R225). -/
def vloadOp (s : State) (et : ETy) (vd : VReg) (k : KReg) (addr : Nat → Word) : Out :=
  conclude s <| (s.loadElems et.bytes (s.elems et k addr)).bind fun (xs, s) =>
    .ok ((s.setV vd (mapLanes et.width et.lanes (s.k k) (s.v vd) fun i => Tab.get xs i 0)).advance 4)

/-- The places of the elements to store, in lane order (R226). -/
def State.findElems (s : State) (n : Nat) (x : Nat → Nat) : Elems → Ans (List (Place × List Byte) × State)
  | [] => .ok ([], s)
  | (i, a) :: rest => (s.storeFind a n).bind fun (p, s) =>
    (s.findElems n x rest).bind fun (ps, s) => .ok ((p, toBytes n (x i)) :: ps, s)

/-- Writes the elements in lane order (R227). -/
def State.writeElems (s : State) : List (Place × List Byte) → Ans State
  | [] => .ok s
  | (p, bs) :: rest => (s.writePlace p bs).bind fun s => s.writeElems rest

/-- New entries a store needs: words of the TCM, or of other memories, that the chunk does not hold (R119, R227). -/
def Chunk.newWords (k : Chunk) (ps : List (Place × List Byte)) (tcm : Bool) : Nat :=
  let ws := (ps.filter fun (p, _) => decide (regionOf p.addr = .tcm) == tcm).map fun (p, _) => p.addr / 8
  (ws.eraseDups.filter fun w => !(k.words tcm).contains w).length

/-- A store of the whole instruction finds too few entries (R119, R227). -/
def Chunk.tooFull (k : Chunk) (ps : List (Place × List Byte)) : Bool :=
  decide (512 < (k.words true).length + k.newWords ps true) ||
  decide (64 < (k.words false).length + k.newWords ps false)

/-- A vector store (R225, R227). -/
def vstoreOp (s : State) (n : Nat) (x : Nat → Nat) (es : Elems) : Out :=
  conclude s <| (s.findElems n x es).bind fun (ps, s) =>
    if !s.ctl && s.cx.chunk.tooFull ps then .wait (.commit .again)
    else (s.writeElems ps).bind fun s => .ok (s.advance 4)

/-- Consecutive elements from A on. -/
def unitAddr (a : Word) (et : ETy) : Nat → Word := fun i => a + w64 (i * et.bytes)
/-- Elements a stride apart. -/
def strideAddr (a stride : Word) : Nat → Word := fun i => a + w64 i * stride
/-- Elements at the indices of a vector (R225). -/
def State.indexAddr (s : State) (a : Word) (et : ETy) (vi : VReg) : Nat → Word :=
  fun i => a + ofI (toS et.width (s.lanes et vi i) * et.bytes)

/-- R225: a vector at a multiple of 64. -/
def execVld (et : ETy) (vd : VReg) (gs1 : GReg) (k : KReg) (s : State) : Out :=
  if (s.g gs1).toNat % 64 ≠ 0 then trapOut s (Trap.at_ .misalign 0 (s.g gs1))
  else vloadOp s et vd k (unitAddr (s.g gs1) et)

/-- R225: a vector to a multiple of 64. -/
def execVst (et : ETy) (vd : VReg) (gs1 : GReg) (k : KReg) (s : State) : Out :=
  if (s.g gs1).toNat % 64 ≠ 0 then trapOut s (Trap.at_ .misalign 0 (s.g gs1))
  else vstoreOp s et.bytes (s.lanes et vd) (s.elems et k (unitAddr (s.g gs1) et))

/-- R225: a strided load. -/
def execVlds (et : ETy) (vd : VReg) (gs1 gs2 : GReg) (k : KReg) (s : State) : Out :=
  vloadOp s et vd k (strideAddr (s.g gs1) (s.g gs2))

/-- R225: a strided store. -/
def execVsts (et : ETy) (vd : VReg) (gs1 gs2 : GReg) (k : KReg) (s : State) : Out :=
  vstoreOp s et.bytes (s.lanes et vd) (s.elems et k (strideAddr (s.g gs1) (s.g gs2)))

/-- R225: a gather. -/
def execVgath (et : ETy) (vd : VReg) (gs1 : GReg) (vi : VReg) (k : KReg) (s : State) : Out :=
  vloadOp s et vd k (s.indexAddr (s.g gs1) et vi)

/-- R225: a scatter. -/
def execVscat (et : ETy) (vd : VReg) (gs1 : GReg) (vi : VReg) (k : KReg) (s : State) : Out :=
  vstoreOp s et.bytes (s.lanes et vd) (s.elems et k (s.indexAddr (s.g gs1) et vi))

/-- R225: one element, read once, into every active lane. -/
def execVldb (et : ETy) (vd : VReg) (gs1 : GReg) (k : KReg) (s : State) : Out :=
  match activeLanes et.lanes (s.k k) with
  | [] => .next (s.advance 4)
  | _ :: _ =>
    conclude s <| (s.load (s.g gs1) et.bytes).bind fun (x, s) =>
      .ok ((s.setV vd (mapLanes et.width et.lanes (s.k k) (s.v vd) fun _ => x)).advance 4)

/-- R225: a predicate register from memory. -/
def execVldk (kd : KReg) (gs1 : GReg) (s : State) : Out :=
  conclude s <| (s.load (s.g gs1) 8).bind fun (x, s) => .ok ((s.setK kd (w64 x)).advance 4)

/-- R225: a predicate register to memory; k0 stores all ones. -/
def execVstk (kd : KReg) (gs1 : GReg) (s : State) : Out :=
  vstoreOp s 8 (fun _ => (s.k kd).toNat) [(0, s.g gs1)]

/-! ### Major 0x17: permutations (R228) -/

/-- A permutation: active lanes copy, no flag is set. -/
def permOp (s : State) (et : ETy) (vd : VReg) (k : KReg) (f : Nat → Nat) : Out :=
  writeV s vd (mapLanes et.width et.lanes (s.k k) (s.v vd) f, 0)

/-- R228: byte x[5:0] of vs2, or 0. -/
def execVpermb (vd vs2 vs1 : VReg) (k : KReg) (s : State) : Out :=
  permOp s .i8 vd k fun i =>
    let x := s.lanes .i8 vs1 i
    if 128 ≤ x then 0 else s.lanes .i8 vs2 (x % 64)

/-- R228: lane 0. -/
def execVbcst (et : ETy) (vd vs2 : VReg) (k : KReg) (s : State) : Out :=
  permOp s et vd k fun _ => s.lanes et vs2 0

/-- Set bits of a mask below bit i. -/
def bitsBelow (m : Word) (i : Nat) : Nat := (activeLanes i m).length

/-- R228: every lane receives the number of set bits below it. -/
def execViota (et : ETy) (vd : VReg) (k : KReg) (s : State) : Out :=
  writeV s vd (mapLanes et.width et.lanes (BitVec.allOnes 64) 0 fun i => bitsBelow (s.k k) i, 0)

/-- R228: the active lanes, packed from lane 0; the rest is 0. -/
def execVcompr (et : ETy) (vd vs2 : VReg) (k : KReg) (s : State) : Out :=
  let xs := (activeLanes et.lanes (s.k k)).map (s.lanes et vs2)
  writeV s vd (mapLanes et.width et.lanes (BitVec.allOnes 64) 0 fun i => xs.getD i 0, 0)

/-- R228: low lanes spread over the active lanes. -/
def execVexpnd (et : ETy) (vd vs2 : VReg) (k : KReg) (s : State) : Out :=
  permOp s et vd k fun i => s.lanes et vs2 (bitsBelow (s.k k) i)

/-- R228: lane i + d, with d the signed low byte of vs1. -/
def execVslide (et : ETy) (vd vs2 vs1 : VReg) (k : KReg) (s : State) : Out :=
  let d := toS 8 (lane (s.v vs1) 8 0)
  permOp s et vd k fun i =>
    let j := (i : Int) + d
    if 0 ≤ j ∧ j < et.lanes then s.lanes et vs2 j.toNat else 0

/-- R228: lane 0 of vs1 goes to lane j of vd. -/
def execVins (et : ETy) (vd vs2 vs1 : VReg) (s : State) : Out :=
  let j := lane (s.v vs2) 64 0 % et.lanes
  writeV s vd (mapLanes et.width et.lanes (w64 (2 ^ j)) (s.v vd) fun _ => s.lanes et vs1 0, 0)

/-- R228: the low halves, interleaved. -/
def execVzip (et : ETy) (vd vs2 vs1 : VReg) (k : KReg) (s : State) : Out :=
  permOp s et vd k fun i => s.lanes et (if i % 2 = 0 then vs2 else vs1) (i / 2)

/-- R228: the even lanes of vs2, then those of vs1. -/
def execVunzip (et : ETy) (vd vs2 vs1 : VReg) (k : KReg) (s : State) : Out :=
  permOp s et vd k fun i =>
    if i < et.lanes / 2 then s.lanes et vs2 (2 * i) else s.lanes et vs1 (2 * (i - et.lanes / 2))

/-! ### Major 0x18: reductions (R53, R54, R229) -/

/-- A partial sum, none for a lane with no element. -/
abbrev Part := Option Nat

/-- A rounded sum of partial sums, with the flags so far (R53). -/
def addPart (f : Fmt) (a b : Part) (fl : Flags) : Part × Flags :=
  match a, b with
  | none, b => (b, fl)
  | a, none => (a, fl)
  | some x, some y => let (z, g) := f.addF (f.read x) (f.read y); (some z, orF fl g)

/-- One level of the fixed tree (R53). -/
def treeLevel (f : Fmt) : List Part → Flags → List Part × Flags
  | a :: b :: rest, fl =>
    let (c, fl) := addPart f a b fl
    let (cs, fl) := treeLevel f rest fl
    (c :: cs, fl)
  | ps, fl => (ps, fl)

/-- The fixed tree over 2^n parts (R53). -/
def treeSum (f : Fmt) : Nat → List Part → Flags → Nat × Flags
  | 0, ps, fl => ((ps.headD none).getD 0, fl)
  | n + 1, ps, fl => let (qs, fl) := treeLevel f ps fl; treeSum f n qs fl

/-- The number of levels over the lanes of a type. -/
def treeDepth (et : ETy) : Nat := Nat.log2 et.lanes

/-- Lane i of a floating vector, widened exactly for bf16 (R53). -/
def widen (et : ETy) (x : Nat) : Nat := if et = .bf16 then x * 2 ^ 16 else x

/-- The format a reduction works in (R53). -/
def sumFmt (et : ETy) : Fmt := if et = .f64 then fmt64 else fmt32

/-- A vector with one value in its lowest bits. -/
def lowVec (x : Nat) : VWord := BitVec.ofNat 512 x

/-- R229: the sum of the active lanes. The tree's value is packed once at the end: a rounding to bf16 for bf16 lanes, and
exact for f32 and f64 but that a NaN that passed through alone becomes the canonical one (R38). -/
def execVrsum (et : ETy) (vd vs2 : VReg) (k : KReg) (s : State) : Out :=
  let act := activeLanes et.lanes (s.k k)
  if et.isInt then
    writeV s vd (lowVec ((act.foldl (fun a i => a + s.lanes et vs2 i) 0) % 2 ^ et.width), 0)
  else
    let ps : List Part := (List.range et.lanes).map fun i =>
      if (s.k k).getLsbD i then some (widen et (s.lanes et vs2 i)) else none
    let (x, fl) := treeSum (sumFmt et) (treeDepth et) ps 0
    let (y, g) := (etFmt et).pack ((sumFmt et).read x)
    writeV s vd (lowVec y, orF fl g)

/-- The greatest or least of a list of encodings that are no NaN; +0 is above −0 (R54). -/
def pickFlt (f : Fmt) (isMax : Bool) : List Nat → Nat
  | [] => 0
  | [x] => x
  | x :: rest =>
    let y := pickFlt f isMax rest
    let below := (f.read x).below (f.read y)
    if isMax then (if below then y else x) else (if below then x else y)

/-- The greatest or least of a list of signed lanes. -/
def pickInt (w : Nat) (isMax : Bool) : List Nat → Nat
  | [] => 0
  | [x] => x
  | x :: rest =>
    let y := pickInt w isMax rest
    let less := decide (toS w x < toS w y)
    if isMax then (if less then y else x) else (if less then x else y)

/-- NV for an active NaN whose quiet bit is clear. -/
def sigOf (f : Fmt) (xs : List Nat) : Flags := if xs.any fun x => (f.read x).sig then fNV else 0

/-- VRMAX and VRMIN (R54, R229). -/
def extremeOp (s : State) (isMax : Bool) (et : ETy) (vd vs2 : VReg) (k : KReg) : Out :=
  let xs := (activeLanes et.lanes (s.k k)).map (s.lanes et vs2)
  if et.isInt then writeV s vd (lowVec (pickInt et.width isMax xs), 0)
  else
    let f := etFmt et
    let x := if xs.any fun x => (f.read x).isNan then f.nan else pickFlt f isMax xs
    writeV s vd (lowVec x, sigOf f xs)

/-- R229: the greatest active lane. -/
def execVrmax (et : ETy) (vd vs2 : VReg) (k : KReg) (s : State) : Out := extremeOp s true et vd vs2 k

/-- R229: the least active lane. -/
def execVrmin (et : ETy) (vd vs2 : VReg) (k : KReg) (s : State) : Out := extremeOp s false et vd vs2 k

/-- a is less than b, as lanes of a type. -/
def laneLess (et : ETy) (a b : Nat) : Bool :=
  if et.isInt then decide (toS et.width a < toS et.width b) else ((etFmt et).read a).lt ((etFmt et).read b)

/-- The lowest of the listed lanes that holds the greatest value; +0 and −0 are equal (R54). -/
def argMax (et : ETy) (x : Nat → Nat) : Nat → List Nat → Nat
  | best, [] => best
  | best, i :: rest => argMax et x (if laneLess et (x best) (x i) then i else best) rest

/-- R229: the index of the greatest active lane; the lowest NaN lane; all ones where no lane is active. -/
def execVrarg (et : ETy) (vd vs2 : VReg) (k : KReg) (s : State) : Out :=
  let x := s.lanes et vs2
  let f := etFmt et
  match activeLanes et.lanes (s.k k) with
  | [] => writeV s vd (lowVec (2 ^ 64 - 1), 0)
  | i :: rest =>
    if et.isInt then writeV s vd (lowVec (argMax et x i rest), 0)
    else
      let fl := sigOf f ((i :: rest).map x)
      match (i :: rest).find? fun j => (f.read (x j)).isNan with
      | some j => writeV s vd (lowVec j, fl)
      | none => writeV s vd (lowVec (argMax et x i rest), fl)

/-- R229: the number of one bits over the active lanes. -/
def execVrpopc (et : ETy) (vd vs2 : VReg) (k : KReg) (s : State) : Out :=
  let n := (activeLanes et.lanes (s.k k)).foldl (fun a i => a + popWord (w64 (s.lanes et vs2 i))) 0
  writeV s vd (lowVec n, 0)

/-! ### VROWST (R55, R230) -/

/-- Adds element e to the partial sums of 16 lanes: lane e mod 16 (R53). `step` is the lane's addition. -/
def rowParts (step : Part → Nat → Nat × Flags) : List Nat → Nat → List Part → Flags → List Part × Flags
  | [], _, ps, fl => (ps, fl)
  | x :: rest, e, ps, fl =>
    let l := e % 16
    let (y, g) := step (ps.getD l none) x
    rowParts step rest (e + 1) (ps.set l (some y)) (orF fl g)

/-- A row sum by the order of R53. -/
def rowSum (step : Part → Nat → Nat × Flags) (xs : List Nat) (fl : Flags) : Nat × Flags :=
  let (ps, fl) := rowParts step xs 0 (List.replicate 16 none) fl
  treeSum fmt32 4 ps fl

/-- Mean and variance of a row of binary32 encodings (R55), with the flags of every rounding. An infinite or NaN
element makes both results NaN. -/
def rowStats (xs : List Nat) : (Nat × Nat) × Flags :=
  let r := fmt32.read
  let x0 := xs.headD 0
  let n := ofInt xs.length
  let ds := xs.map fun x => fmt32.subF (r x) (r x0)
  let fl := ds.foldl (fun a d => orF a d.2) 0
  let sum (p : Part) (d : Nat) : Nat × Flags :=
    match p with
    | none => (d, 0)
    | some a => fmt32.addF (r a) (r d)
  let sq (p : Part) (d : Nat) : Nat × Flags :=
    fmt32.fmaF (r d) (r d) (match p with
      | none => .num false 0 0
      | some a => r a)
  let (s1, fl) := rowSum sum (ds.map (·.1)) fl
  let (s2, fl) := rowSum sq (ds.map (·.1)) fl
  let (m1, f1) := fmt32.divF (r s1) n
  let (mean, f2) := fmt32.addF (r x0) (r m1)
  let (ss, f3) := fmt32.mulF (r s1) (r s1)
  let (t, f4) := fmt32.divF (r ss) n
  let (v1, f5) := fmt32.subF (r s2) (r t)
  let (var, f6) := fmt32.divF (r v1) n
  let fl := [f1, f2, f3, f4, f5, f6].foldl orF fl
  let var := if !(r var).isNan && (r var).neg then 0 else var
  let finite (x : Nat) : Bool :=
    match r x with
    | .num _ _ _ => true
    | _ => false
  if xs.all finite then ((mean, var), fl) else ((fmt32.nan, fmt32.nan), fl)

/-- R230: the statistics of a row in memory. -/
def execVrowst (et : ETy) (vd vs2 : VReg) (s : State) : Out :=
  let a := w64 (lane (s.v vs2) 64 0)
  let n := lane (s.v vs2) 64 1
  let out (s : State) (mean var : Nat) (fl : Flags) : State :=
    ((s.setV vd (lowVec (mean + var * 2 ^ 32))).flag fl).advance 4
  if n = 0 ∨ 2 ^ 24 < n then .next (out s fmt32.nan fmt32.nan fNV) else
  conclude s <|
  (s.loadElems et.bytes ((List.range n).map fun e => (e, a + w64 (e * et.bytes)))).bind fun (xs, s) =>
    let ((mean, var), fl) := rowStats (xs.map fun x => widen et x.2)
    .ok (out s mean var fl)

end Sys2Proof.Machine
end

