-- ==== Sys2Proof/Machine/Sfu.lean ====
section
/-! DEFINITION. Major 0x19: special functions (R231 to R238). The tables hold the function's values at the seams and at
the middles of the segments, rounded to binary32 (R232); they were worked out from the functions themselves. -/

set_option Elab.async false

namespace Sys2Proof.Machine

/-! ### The shipped tables (R232) -/

/-- 2^z at the seams of [0, 1] (R232). -/
def exp2Nodes : List Nat :=
  [0x3F800000, 0x3F82CD87, 0x3F85AAC3, 0x3F88980F, 0x3F8B95C2, 0x3F8EA43A, 0x3F91C3D3, 0x3F94F4F0] ++
  [0x3F9837F0, 0x3F9B8D3A, 0x3F9EF532, 0x3FA27043, 0x3FA5FED7, 0x3FA9A15B, 0x3FAD583F, 0x3FB123F6] ++
  [0x3FB504F3, 0x3FB8FBAF, 0x3FBD08A4, 0x3FC12C4D, 0x3FC5672A, 0x3FC9B9BE, 0x3FCE248C, 0x3FD2A81E] ++
  [0x3FD744FD, 0x3FDBFBB8, 0x3FE0CCDF, 0x3FE5B907, 0x3FEAC0C7, 0x3FEFE4BA, 0x3FF5257D, 0x3FFA83B3] ++
  [0x40000000]

/-- 2^z at the middles of the segments of [0, 1] (R232). -/
def exp2Mids : List Nat :=
  [0x3F8164D2, 0x3F843A29, 0x3F871F62, 0x3F8A14D5, 0x3F8D1ADF, 0x3F9031DC, 0x3F935A2B, 0x3F96942D] ++
  [0x3F99E046, 0x3F9D3EDA, 0x3FA0B051, 0x3FA43516, 0x3FA7CD94, 0x3FAB7A3A, 0x3FAF3B79, 0x3FB311C4] ++
  [0x3FB6FD92, 0x3FBAFF5B, 0x3FBF179A, 0x3FC346CD, 0x3FC78D75, 0x3FCBEC15, 0x3FD06334, 0x3FD4F35B] ++
  [0x3FD99D16, 0x3FDE60F5, 0x3FE33F89, 0x3FE8396A, 0x3FED4F30, 0x3FF28177, 0x3FF7D0DF, 0x3FFD3E0C]

/-- log2 z at the seams of [1, 2] (R232). -/
def log2Nodes : List Nat :=
  [0x00000000, 0x3D35D69C, 0x3DB31FB8, 0x3E0462C4, 0x3E2E00D2, 0x3E567AF1, 0x3E7DE0B6, 0x3E92203D] ++
  [0x3EA4D3C2, 0x3EB7110E, 0x3EC8DDD4, 0x3EDA3F60, 0x3EEB3A9F, 0x3EFBD42B, 0x3F060828, 0x3F0DF989] ++
  [0x3F15C01A, 0x3F1D5DA0, 0x3F24D3C2, 0x3F2C2411, 0x3F335004, 0x3F3A58FF, 0x3F41404F, 0x3F480731] ++
  [0x3F4EAED0, 0x3F553848, 0x3F5BA4A4, 0x3F61F4E5, 0x3F6829FB, 0x3F6E44CD, 0x3F744636, 0x3F7A2F04] ++
  [0x3F800000]

/-- log2 z at the middles of the segments of [1, 2] (R232). -/
def log2Mids : List Nat :=
  [0x3CB73CB4, 0x3D8759C5, 0x3DDE4212, 0x3E19574F, 0x3E42615F, 0x3E6A4F72, 0x3E88983F, 0x3E9B8926] ++
  [0x3EAE00D2, 0x3EC0052B, 0x3ED19BB0, 0x3EE2C97D, 0x3EF39355, 0x3F01FED4, 0x3F0A0650, 0x3F11E20F] ++
  [0x3F1993E3, 0x3F211D84, 0x3F28808C, 0x3F2FBE80, 0x3F36D8CB, 0x3F3DD0C8, 0x3F44A7BA, 0x3F4B5ED7] ++
  [0x3F51F740, 0x3F587209, 0x3F5ED039, 0x3F6512C7, 0x3F6B3A9F, 0x3F7148A1, 0x3F773DA4, 0x3F7D1A71]

/-- 1/z at the seams of [1, 2] (R232). -/
def recipNodes : List Nat :=
  [0x3F800000, 0x3F7C0FC1, 0x3F783E10, 0x3F74898D, 0x3F70F0F1, 0x3F6D7304, 0x3F6A0EA1, 0x3F66C2B4] ++
  [0x3F638E39, 0x3F607038, 0x3F5D67C9, 0x3F5A740E, 0x3F579436, 0x3F54C77B, 0x3F520D21, 0x3F4F6475] ++
  [0x3F4CCCCD, 0x3F4A4588, 0x3F47CE0C, 0x3F4565C8, 0x3F430C31, 0x3F40C0C1, 0x3F3E82FA, 0x3F3C5264] ++
  [0x3F3A2E8C, 0x3F381703, 0x3F360B61, 0x3F340B41, 0x3F321643, 0x3F302C0B, 0x3F2E4C41, 0x3F2C7692] ++
  [0x3F2AAAAB, 0x3F28E83F, 0x3F272F05, 0x3F257EB5, 0x3F23D70A, 0x3F2237C3, 0x3F20A0A1, 0x3F1F1166] ++
  [0x3F1D89D9, 0x3F1C09C1, 0x3F1A90E8, 0x3F191F1A, 0x3F17B426, 0x3F164FDA, 0x3F14F209, 0x3F139A86] ++
  [0x3F124925, 0x3F10FDBC, 0x3F0FB824, 0x3F0E7835, 0x3F0D3DCB, 0x3F0C08C1, 0x3F0AD8F3, 0x3F09AE41] ++
  [0x3F088889, 0x3F0767AB, 0x3F064B8A, 0x3F053408, 0x3F042108, 0x3F03126F, 0x3F020821, 0x3F010204] ++
  [0x3F000000]

/-- 1/z at the middles of the segments of [1, 2] (R232). -/
def recipMids : List Nat :=
  [0x3F7E03F8, 0x3F7A232D, 0x3F76603E, 0x3F72B9D6, 0x3F6F2EB7, 0x3F6BBDB3, 0x3F6865AC, 0x3F652598] ++
  [0x3F61FC78, 0x3F5EE95C, 0x3F5BEB62, 0x3F5901B2, 0x3F562B81, 0x3F53680D, 0x3F50B6A0, 0x3F4E168A] ++
  [0x3F4B8728, 0x3F4907DA, 0x3F46980C, 0x3F443730, 0x3F41E4BC, 0x3F3FA030, 0x3F3D6910, 0x3F3B3EE7] ++
  [0x3F392144, 0x3F370FBB, 0x3F3509E7, 0x3F330F63, 0x3F311FD4, 0x3F2F3ADE, 0x3F2D602B, 0x3F2B8F6A] ++
  [0x3F29C84A, 0x3F280A81, 0x3F2655C4, 0x3F24A9CF, 0x3F23065E, 0x3F216B31, 0x3F1FD80A, 0x3F1E4CAD] ++
  [0x3F1CC8E1, 0x3F1B4C70, 0x3F19D723, 0x3F1868C8, 0x3F17012E, 0x3F15A025, 0x3F144581, 0x3F12F114] ++
  [0x3F11A2B4, 0x3F105A38, 0x3F0F177A, 0x3F0DDA52, 0x3F0CA29C, 0x3F0B7034, 0x3F0A42F8, 0x3F091AC7] ++
  [0x3F07F781, 0x3F06D905, 0x3F05BF37, 0x3F04A9FA, 0x3F039930, 0x3F028CC0, 0x3F01848E, 0x3F008081]

/-- 1/√z at the seams of [1, 4] (R232). -/
def rsqrtNodes : List Nat :=
  [0x3F800000, 0x3F7C1764, 0x3F785B42, 0x3F74C867, 0x3F715BEF, 0x3F6E133E, 0x3F6AEBF5, 0x3F67E3ED] ++
  [0x3F64F92E, 0x3F6229ED, 0x3F5F7483, 0x3F5CD76E, 0x3F5A514A, 0x3F57E0CF, 0x3F5584CD, 0x3F533C2E] ++
  [0x3F5105EC, 0x3F4EE116, 0x3F4CCCCD, 0x3F4AC83F, 0x3F48D2AB, 0x3F46EB5A, 0x3F4511A3, 0x3F4344E6] ++
  [0x3F41848F, 0x3F3FD012, 0x3F3E26EB, 0x3F3C889F, 0x3F3AF4BA, 0x3F396ACE, 0x3F37EA74, 0x3F36734A] ++
  [0x3F3504F3, 0x3F32416A, 0x3F2F9D53, 0x3F2D166C, 0x3F2AAAAB, 0x3F285835, 0x3F261D5F, 0x3F23F8A2] ++
  [0x3F21E89B, 0x3F1FEC04, 0x3F1E01B3, 0x3F1C2896, 0x3F1A5FB2, 0x3F18A61F, 0x3F16FB06, 0x3F155DA2] ++
  [0x3F13CD3A, 0x3F124925, 0x3F10D0C3, 0x3F0F6381, 0x3F0E00D5, 0x3F0CA83F, 0x3F0B5948, 0x3F0A137D] ++
  [0x3F08D677, 0x3F07A1D2, 0x3F067532, 0x3F05503E, 0x3F0432A5, 0x3F031C1A, 0x3F020C52, 0x3F01030A] ++
  [0x3F000000]

/-- 1/√z at the middles of the segments of [1, 4] (R232). -/
def rsqrtMids : List Nat :=
  [0x3F7E05EC, 0x3F7A33F9, 0x3F768CDC, 0x3F730D8A, 0x3F6FB345, 0x3F6C7B90, 0x3F69642A, 0x3F666B02] ++
  [0x3F638E39, 0x3F60CC16, 0x3F5E2305, 0x3F5B9193, 0x3F59166B, 0x3F56B051, 0x3F545E22, 0x3F521ED0] ++
  [0x3F4FF162, 0x3F4DD4ED, 0x3F4BC89B, 0x3F49CBA2, 0x3F47DD45, 0x3F45FCD6, 0x3F4429AF, 0x3F426337] ++
  [0x3F40A8DE, 0x3F3EFA1C, 0x3F3D5671, 0x3F3BBD67, 0x3F3A2E8C, 0x3F38A975, 0x3F372DBF, 0x3F35BB09] ++
  [0x3F339F19, 0x3F30EB96, 0x3F2E565C, 0x3F2BDD46, 0x3F297E62, 0x3F2737F0, 0x3F250855, 0x3F22EE1D] ++
  [0x3F20E7F5, 0x3F1EF4A4, 0x3F1D130E, 0x3F1B422C, 0x3F19810C, 0x3F17CED0, 0x3F162AA9, 0x3F1493D9] ++
  [0x3F1309AF, 0x3F118B87, 0x3F1018C6, 0x3F0EB0E0, 0x3F0D534F, 0x3F0BFF97, 0x3F0AB544, 0x3F0973E8] ++
  [0x3F083B1E, 0x3F070A87, 0x3F05E1C7, 0x3F04C08B, 0x3F03A682, 0x3F029362, 0x3F0186E2, 0x3F0080C1]

/-- 1/(1 + e^−z) at the seams of [−16, 16] (R232). -/
def sigmoidNodes : List Nat :=
  [0x33F1AADC, 0x3447389A, 0x34A43AE2, 0x3507627D, 0x355F362C, 0x35B801BB, 0x3617B013, 0x367A172D] ++
  [0x36CE2A0F, 0x3729F3FB, 0x378C1A08, 0x37E6FC72, 0x383E6997, 0x389CF6C3, 0x3901637B, 0x39554F03] ++
  [0x39AFD1EF, 0x3A10E859, 0x3A6ED39C, 0x3AC4C351, 0x3B220BBC, 0x3B855ECA, 0x3BDB4FB4, 0x3C340294] ++
  [0x3C9357D1, 0x3CF02034, 0x3D4241A2, 0x3D9B5B89, 0x3DF420A9, 0x3E3ACDC2, 0x3E89B2B1, 0x3EC14D03] ++
  [0x3F000000, 0x3F1F597F, 0x3F3B26A8, 0x3F514C90, 0x3F617BEB, 0x3F6C948F, 0x3F73DBE6, 0x3F787EFE] ++
  [0x3F7B6541, 0x3F7D2FF6, 0x3F7E4961, 0x3F7EF542, 0x3F7F5DF4, 0x3F7F9D9E, 0x3F7FC44B, 0x3F7FDBC6] ++
  [0x3F7FEA06, 0x3F7FF2AB, 0x3F7FF7EA, 0x3F7FFB18, 0x3F7FFD06, 0x3F7FFE32, 0x3F7FFEE8, 0x3F7FFF56] ++
  [0x3F7FFF99, 0x3F7FFFC1, 0x3F7FFFDA, 0x3F7FFFE9, 0x3F7FFFF2, 0x3F7FFFF8, 0x3F7FFFFB, 0x3F7FFFFD] ++
  [0x3F7FFFFE]

/-- 1/(1 + e^−z) at the middles of the segments of [−16, 16] (R232). -/
def sigmoidMids : List Nat :=
  [0x341B274F, 0x347FCE10, 0x34D2E020, 0x352DD660, 0x358F4DFE, 0x35EC44EF, 0x3642C557, 0x36A08FA6] ++
  [0x37045C20, 0x375A3931, 0x37B3E4AD, 0x38144B7C, 0x38747DC5, 0x38C98A97, 0x392621E6, 0x3988F05F] ++
  [0x39E1BC65, 0x3A3A092D, 0x3A994A41, 0x3AFC8A7D, 0x3B4FECC9, 0x3BAB0D97, 0x3C0C8895, 0x3C666B21] ++
  [0x3CBC3B0A, 0x3D18E414, 0x3D761D6B, 0x3DC34695, 0x3E1799AF, 0x3E640B81, 0x3EA442B1, 0x3EE02A67] ++
  [0x3F0FEACD, 0x3F2DDEA8, 0x3F46FD20, 0x3F5A1994, 0x3F67972D, 0x3F709E29, 0x3F7671BF, 0x3F7A1E28] ++
  [0x3F7C6653, 0x3F7DCDDE, 0x3F7EA9E5, 0x3F7F3013, 0x3F7F81BB, 0x3F7FB35B, 0x3F7FD17E, 0x3F7FE3C8] ++
  [0x3F7FEEE2, 0x3F7FF59E, 0x3F7FF9B4, 0x3F7FFC2E, 0x3F7FFDAF, 0x3F7FFE98, 0x3F7FFF26, 0x3F7FFF7C] ++
  [0x3F7FFFB0, 0x3F7FFFCF, 0x3F7FFFE2, 0x3F7FFFEE, 0x3F7FFFF5, 0x3F7FFFF9, 0x3F7FFFFC, 0x3F7FFFFE]

/-- tanh z at the seams of [0, 8] (R232). -/
def tanhNodes : List Nat :=
  [0x00000000, 0x3DFEACC9, 0x3E7ACBF5, 0x3EB77A9F, 0x3EEC9A9F, 0x3F0DFA3F, 0x3F22991F, 0x3F343328] ++
  [0x3F42F7D6, 0x3F4F2E5B, 0x3F59291E, 0x3F613C53, 0x3F67B7CC, 0x3F6CE37D, 0x3F70FDFD, 0x3F743C4F] ++
  [0x3F76CA83, 0x3F78CCA7, 0x3F7A5FEB, 0x3F7B9BBB, 0x3F7C92C1, 0x3F7D53CA, 0x3F7DEA85, 0x3F7E6026] ++
  [0x3F7EBBE9, 0x3F7F0376, 0x3F7F3B3D, 0x3F7F66B6, 0x3F7F8896, 0x3F7FA2FB, 0x3F7FB78C, 0x3F7FC791] ++
  [0x3F7FD40C, 0x3F7FDDC4, 0x3F7FE556, 0x3F7FEB3C, 0x3F7FEFD4, 0x3F7FF367, 0x3F7FF631, 0x3F7FF85C] ++
  [0x3F7FFA0D, 0x3F7FFB5E, 0x3F7FFC64, 0x3F7FFD30, 0x3F7FFDD0, 0x3F7FFE4C, 0x3F7FFEAC, 0x3F7FFEF7] ++
  [0x3F7FFF32, 0x3F7FFF5F, 0x3F7FFF83, 0x3F7FFF9F, 0x3F7FFFB4, 0x3F7FFFC5, 0x3F7FFFD2, 0x3F7FFFDC] ++
  [0x3F7FFFE4, 0x3F7FFFEA, 0x3F7FFFEF, 0x3F7FFFF3, 0x3F7FFFF6, 0x3F7FFFF8, 0x3F7FFFFA, 0x3F7FFFFB] ++
  [0x3F7FFFFC]

/-- tanh z at the middles of the segments of [0, 8] (R232). -/
def tanhMids : List Nat :=
  [0x3D7FAACD, 0x3E3DC7FD, 0x3E9AFCC5, 0x3ED2B94F, 0x3F028438, 0x3F18ABF0, 0x3F2BC480, 0x3F3BEC1C] ++
  [0x3F495FDA, 0x3F546DE6, 0x3F5D6A85, 0x3F64A852, 0x3F6A737A, 0x3F6F0F5B, 0x3F72B5B8, 0x3F7596FF] ++
  [0x3F77DB1E, 0x3F79A28F, 0x3F7B077E, 0x3F7C1ED6, 0x3F7CF939, 0x3F7DA3D0, 0x3F7E28FB, 0x3F7E90E0] ++
  [0x3F7EE1E8, 0x3F7F2115, 0x3F7F5254, 0x3F7F78B4, 0x3F7F969B, 0x3F7FADE8, 0x3F7FC00E, 0x3F7FCE32] ++
  [0x3F7FD935, 0x3F7FE1C9, 0x3F7FE878, 0x3F7FEDAC, 0x3F7FF1BA, 0x3F7FF4E2, 0x3F7FF758, 0x3F7FF942] ++
  [0x3F7FFAC0, 0x3F7FFBE9, 0x3F7FFCD1, 0x3F7FFD85, 0x3F7FFE11, 0x3F7FFE7F, 0x3F7FFED4, 0x3F7FFF16] ++
  [0x3F7FFF4A, 0x3F7FFF72, 0x3F7FFF92, 0x3F7FFFAA, 0x3F7FFFBD, 0x3F7FFFCC, 0x3F7FFFD7, 0x3F7FFFE0] ++
  [0x3F7FFFE7, 0x3F7FFFED, 0x3F7FFFF1, 0x3F7FFFF4, 0x3F7FFFF7, 0x3F7FFFF9, 0x3F7FFFFB, 0x3F7FFFFC]

/-- ½(1 + tanh(√(2/π)(z + 0.044715 z³))) at the seams of [−8, 8] (R232). -/
def geluNodes : List Nat :=
  [0x1BEAD144, 0x1E971B21, 0x211E0D6B, 0x23874223, 0x25BEAE23, 0x27DEE539, 0x29D97F89, 0x2BB259BE] ++
  [0x2D7773FC, 0x2F1233F0, 0x3094200E, 0x320188F8, 0x3344DD22, 0x3482DC66, 0x3599358C, 0x369F064D] ++
  [0x37935102, 0x38753AB3, 0x39389BCD, 0x39FD0CCB, 0x3A9EEB8B, 0x3B380D67, 0x3BC5B666, 0x3C4612F4] ++
  [0x3CB9F7C5, 0x3D2451A5, 0x3D891E47, 0x3DD8BCAF, 0x3E229E91, 0x3E682918, 0x3E9DFD26, 0x3ECD7702] ++
  [0x3F000000, 0x3F19447F, 0x3F31016D, 0x3F45F5BA, 0x3F57585C, 0x3F64E86A, 0x3F6EDC37, 0x3F75BAE6] ++
  [0x3F7A3042, 0x3F7CE7B4, 0x3F7E7493, 0x3F7F47F3, 0x3F7FB08A, 0x3F7FE05E, 0x3F7FF476, 0x3F7FFC2B] ++
  [0x3F7FFED9, 0x3F7FFFB0, 0x3F7FFFED, 0x3F7FFFFC, 0x3F7FFFFF, 0x3F800000, 0x3F800000, 0x3F800000] ++
  [0x3F800000, 0x3F800000, 0x3F800000, 0x3F800000, 0x3F800000, 0x3F800000, 0x3F800000, 0x3F800000] ++
  [0x3F800000]

/-- ½(1 + tanh(√(2/π)(z + 0.044715 z³))) at the middles of the segments of [−8, 8] (R232). -/
def geluMids : List Nat :=
  [0x1D416520, 0x1FE032CC, 0x2253F05A, 0x24A47821, 0x26D2F483, 0x28E11D1B, 0x2AC932E6, 0x2C979F8F] ++
  [0x2E41FB0D, 0x2FD411D0, 0x314772D4, 0x32A27357, 0x33E6B835, 0x350FCD62, 0x361E640B, 0x371B2F70] ++
  [0x3808273C, 0x38D75E96, 0x399A9282, 0x3A4AA885, 0x3AF43D3F, 0x3B881D32, 0x3C0D1CB7, 0x3C88C76F] ++
  [0x3CF90A80, 0x3D55C2C8, 0x3DAD89DB, 0x3E05991A, 0x3E437E3B, 0x3E883734, 0x3EB52B4C, 0x3EE688CB] ++
  [0x3F0CBB9A, 0x3F256A5A, 0x3F3BE466, 0x3F4F2071, 0x3F5E99B9, 0x3F6A4EC5, 0x3F72A3D4, 0x3F7837AC] ++
  [0x3F7BB9C5, 0x3F7DCB8D, 0x3F7EEFC6, 0x3F7F85E1, 0x3F7FCD56, 0x3F7FECAE, 0x3F7FF945, 0x3F7FFDDF] ++
  [0x3F7FFF65, 0x3F7FFFD8, 0x3F7FFFF7, 0x3F7FFFFE, 0x3F800000, 0x3F800000, 0x3F800000, 0x3F800000] ++
  [0x3F800000, 0x3F800000, 0x3F800000, 0x3F800000, 0x3F800000, 0x3F800000, 0x3F800000, 0x3F800000]

/-- sin πz at the seams of [0, ½] (R232). -/
def sinpiNodes : List Nat :=
  [0x00000000, 0x3D48FB30, 0x3DC8BD36, 0x3E164083, 0x3E47C5C2, 0x3E78CFCC, 0x3E94A031, 0x3EAC7CD4] ++
  [0x3EC3EF15, 0x3EDAE880, 0x3EF15AEA, 0x3F039C3D, 0x3F0E39DA, 0x3F187FC0, 0x3F226799, 0x3F2BEB4A] ++
  [0x3F3504F3, 0x3F3DAEF9, 0x3F45E403, 0x3F4D9F02, 0x3F54DB31, 0x3F5B941A, 0x3F61C598, 0x3F676BD8] ++
  [0x3F6C835E, 0x3F710908, 0x3F74FA0B, 0x3F7853F8, 0x3F7B14BE, 0x3F7D3AAC, 0x3F7EC46D, 0x3F7FB10F] ++
  [0x3F800000]

/-- sin πz at the middles of the segments of [0, ½] (R232). -/
def sinpiMids : List Nat :=
  [0x3CC90AB0, 0x3D96A905, 0x3DFAB273, 0x3E2F10A2, 0x3E605C13, 0x3E888E93, 0x3EA09AE5, 0x3EB8442A] ++
  [0x3ECF7BCA, 0x3EE63375, 0x3EFC5D27, 0x3F08F59B, 0x3F13682A, 0x3F1D7FD1, 0x3F273656, 0x3F3085BB] ++
  [0x3F396842, 0x3F41D870, 0x3F49D112, 0x3F514D3D, 0x3F584853, 0x3F5EBE05, 0x3F64AA59, 0x3F6A09A7] ++
  [0x3F6ED89E, 0x3F731447, 0x3F76BA07, 0x3F79C79D, 0x3F7C3B28, 0x3F7E1324, 0x3F7F4E6D, 0x3F7FEC43]

/-- √z at the seams of [1, 4] (R232). -/
def sqrtNodes : List Nat :=
  [0x3F800000, 0x3F81FC10, 0x3F83F07B, 0x3F85DD98, 0x3F87C3B6, 0x3F89A320, 0x3F8B7C1A, 0x3F8D4EE4] ++
  [0x3F8F1BBD, 0x3F90E2DC, 0x3F92A476, 0x3F9460BE, 0x3F9617E3, 0x3F97CA11, 0x3F997774, 0x3F9B2032] ++
  [0x3F9CC471, 0x3F9E6455, 0x3FA00000, 0x3FA19792, 0x3FA32B2B, 0x3FA4BAE7, 0x3FA646E1, 0x3FA7CF36] ++
  [0x3FA953FD, 0x3FAAD550, 0x3FAC5345, 0x3FADCDF3, 0x3FAF456F, 0x3FB0B9CC, 0x3FB22B20, 0x3FB3997C] ++
  [0x3FB504F3, 0x3FB7D375, 0x3FBA9728, 0x3FBD5087, 0x3FC00000, 0x3FC2A5FE, 0x3FC542E1, 0x3FC7D706] ++
  [0x3FCA62C2, 0x3FCCE665, 0x3FCF623A, 0x3FD1D689, 0x3FD44395, 0x3FD6A99B, 0x3FD908D9, 0x3FDB6186] ++
  [0x3FDDB3D7, 0x3FE00000, 0x3FE24630, 0x3FE48695, 0x3FE6C15A, 0x3FE8F6A9, 0x3FEB26A9, 0x3FED517F] ++
  [0x3FEF7751, 0x3FF1983E, 0x3FF3B46A, 0x3FF5CBF2, 0x3FF7DEF6, 0x3FF9ED91, 0x3FFBF7DF, 0x3FFDFDFC] ++
  [0x40000000]

/-- √z at the middles of the segments of [1, 4] (R232). -/
def sqrtMids : List Nat :=
  [0x3F80FF02, 0x3F82F734, 0x3F84E7EE, 0x3F86D182, 0x3F88B43D, 0x3F8A9067, 0x3F8C6641, 0x3F8E360B] ++
  [0x3F900000, 0x3F91C456, 0x3F938341, 0x3F953CF2, 0x3F96F196, 0x3F98A15A, 0x3F9A4C65, 0x3F9BF2DF] ++
  [0x3F9D94EC, 0x3F9F32AF, 0x3FA0CC4A, 0x3FA261DC, 0x3FA3F383, 0x3FA5815A, 0x3FA70B7F, 0x3FA8920A] ++
  [0x3FAA1514, 0x3FAB94B5, 0x3FAD1104, 0x3FAE8A16, 0x3FB00000, 0x3FB172D6, 0x3FB2E2AC, 0x3FB44F93] ++
  [0x3FB66D96, 0x3FB936A1, 0x3FBBF51B, 0x3FBEA979, 0x3FC15428, 0x3FC3F58D, 0x3FC68E06, 0x3FC91DEC] ++
  [0x3FCBA592, 0x3FCE2545, 0x3FD09D4E, 0x3FD30DF3, 0x3FD57775, 0x3FD7DA10, 0x3FDA35FE, 0x3FDC8B77] ++
  [0x3FDEDAAE, 0x3FE123D4, 0x3FE36719, 0x3FE5A4A9, 0x3FE7DCAE, 0x3FEA0F50, 0x3FEC3CB7, 0x3FEE6507] ++
  [0x3FF08862, 0x3FF2A6EA, 0x3FF4C0C0, 0x3FF6D603, 0x3FF8E6CE, 0x3FFAF340, 0x3FFCFB72, 0x3FFEFF7F]

/-- A segment: y0, y1 and d (R231). -/
structure Segment where
  y0 : FVal
  y1 : FVal
  d : FVal
  deriving DecidableEq, Repr

/-- Segment j of a shipped table: d = round(2 (y0 + y1) − 4 ym) (R232). -/
def shipped (nodes mids : List Nat) (j : Nat) : Segment :=
  let y0 := read32 (nodes.getD j 0)
  let y1 := read32 (nodes.getD (j + 1) 0)
  let ym := read32 (mids.getD j 0)
  let two := FVal.num false 2 0
  let four := FVal.num true 4 0
  let d := (((y0.add y1).1.mul two).1.add (ym.mul four).1).1
  { y0 := y0, y1 := y1, d := read32 (rnd32 d) }

/-- p := y0 + u (y1 − y0) + u (u − 1) d, exactly (R231); as the formula stands where y1 or d is not finite (log 114). -/
def Segment.eval (g : Segment) (u : FVal) : FVal :=
  let one := FVal.num true 1 0
  let a := (g.y0.add (u.mul (g.y1.add g.y0.negate).1).1).1
  (a.add ((u.mul (u.add one).1).1.mul g.d).1).1

/-! ### Exact reductions -/

/-- The floor of an exact value. -/
def floorOf : FVal → Int
  | .num neg m e =>
    let n : Nat := if 0 ≤ e then m * 2 ^ e.toNat else m / 2 ^ (-e).toNat
    if !neg then n
    else if 0 ≤ e then -(n : Int)
    else if m % 2 ^ (-e).toNat = 0 then -(n : Int) else -(n : Int) - 1
  | _ => 0

/-- x − n for an integer n. -/
def minusInt (x : FVal) (n : Int) : FVal := (x.add (ofInt (-n))).1

/-- x × 2^n. An exponent beyond every format's range acts as one just beyond it. -/
def scaleBy (x : FVal) (n : Int) : FVal :=
  match x with
  | .num neg m e => .num neg m (e + (if n < -8000 then -8000 else if 8000 < n then 8000 else n))
  | y => y

/-- A table evaluated at z, with the first seam t0, Δ = 2^w and n segments from `base` on (R231). -/
def tableAt (seg : Nat → Segment) (base n : Nat) (t0 : Int) (w : Int) (z : FVal) : FVal :=
  let v := scaleBy (minusInt z t0) (-w)
  let j := (floorOf v).toNat
  let j := if n ≤ j then n - 1 else j
  (seg (base + j)).eval (minusInt v j)

/-- |x| = z × 2^e with z in [1, 2), for m × 2^q with m not 0. -/
def normal (m : Nat) (q : Int) : FVal × Int :=
  let t : Nat := Nat.log2 m
  (.num false m (-(t : Int)), q + t)

/-- x < n. -/
def ltInt (x : FVal) (n : Int) : Bool := x.lt (ofInt n)

def posZero : FVal := .num false 0 0
def negZero : FVal := .num true 0 0

/-! ### The functions (R232) -/

/-- id 0, and id 1 on x × E. -/
def exp2Of (x : FVal) : FVal :=
  match x with
  | .nan b => .nan b
  | .inf true => posZero
  | .inf false => .inf false
  | x =>
    let n := floorOf x
    scaleBy (tableAt (shipped exp2Nodes exp2Mids) 0 32 0 (-5) (minusInt x n)) n

/-- e + p of ids 2 and 3. -/
def log2Of (x : FVal) : FVal :=
  match x with
  | .nan b => .nan b
  | .inf true => .nan false
  | .inf false => .inf false
  | .num _ 0 _ => .inf true
  | .num true _ _ => .nan false
  | .num false m q =>
    let (z, e) := normal m q
    ((ofInt e).add (tableAt (shipped log2Nodes log2Mids) 0 32 1 (-5) z)).1

/-- id 4. -/
def recipOf (x : FVal) : FVal :=
  match x with
  | .nan b => .nan b
  | .inf n => .num n 0 0
  | .num n 0 _ => .inf n
  | .num n m q =>
    let (z, e) := normal m q
    let p := scaleBy (tableAt (shipped recipNodes recipMids) 0 64 1 (-6) z) (-e)
    if n then p.negate else p

/-- x = z × 2^(2q) with z in [1, 4). -/
def evenNormal (m : Nat) (e0 : Int) : FVal × Int :=
  let (z, e) := normal m e0
  if e % 2 = 0 then (z, e / 2) else (scaleBy z 1, (e - 1) / 2)

/-- The tables of ids 5 and 6: Δ is 2^−5 below 2 and 2^−4 from 2 on. -/
def rootTable (nodes mids : List Nat) (z : FVal) : FVal :=
  if ltInt z 2 then tableAt (shipped nodes mids) 0 32 1 (-5) z else tableAt (shipped nodes mids) 32 32 2 (-4) z

/-- id 5. -/
def rsqrtOf (x : FVal) : FVal :=
  match x with
  | .nan b => .nan b
  | .inf true => .nan false
  | .inf false => posZero
  | .num n 0 _ => .inf n
  | .num true _ _ => .nan false
  | .num false m e =>
    let (z, q) := evenNormal m e
    scaleBy (rootTable rsqrtNodes rsqrtMids z) (-q)

/-- id 6. -/
def sqrtOf (x : FVal) : FVal :=
  match x with
  | .nan b => .nan b
  | .inf true => .nan false
  | .inf false => .inf false
  | .num n 0 _ => .num n 0 0
  | .num true _ _ => .nan false
  | .num false m e =>
    let (z, q) := evenNormal m e
    scaleBy (rootTable sqrtNodes sqrtMids z) q

/-- p of ids 7 and 9, on [−16, 16). -/
def sigmoidAt (x : FVal) : FVal := tableAt (shipped sigmoidNodes sigmoidMids) 0 64 (-16) (-1) x

/-- id 7. -/
def sigmoidOf (x : FVal) : FVal :=
  match x with
  | .nan b => .nan b
  | x => if ltInt x (-16) then posZero else if ltInt x 16 then sigmoidAt x else ofInt 1

/-- id 8. -/
def tanhOf (x : FVal) : FVal :=
  match x with
  | .nan b => .nan b
  | .inf n => .num n 1 0
  | .num n 0 _ => .num n 0 0
  | .num n m e =>
    let z := FVal.num false m e
    let p := if ltInt z 8 then tableAt (shipped tanhNodes tanhMids) 0 64 0 (-3) z else ofInt 1
    if n then p.negate else p

/-- ids 9 and 10: x × p on [−b, b). -/
def gatedOf (p : FVal → FVal) (b : Int) (x : FVal) : FVal :=
  match x with
  | .nan c => .nan c
  | .num n 0 _ => .num n 0 0
  | x => if ltInt x (-b) then negZero else if ltInt x b then (x.mul (p x)).1 else x

/-- p of id 10. -/
def geluAt (x : FVal) : FVal := tableAt (shipped geluNodes geluMids) 0 64 (-8) (-2) x

/-- ids 11 and 12 on their argument. -/
def sinpiAt (x : FVal) : FVal :=
  let v := minusInt x (2 * floorOf (scaleBy x (-1)))
  let minus := !ltInt v 1
  let v := if minus then minusInt v 1 else v
  let w := ((ofInt 1).add v.negate).1
  let z := if w.lt v then w else v
  match tableAt (shipped sinpiNodes sinpiMids) 0 32 0 (-6) z with
  | .num _ 0 _ => posZero
  | p => if minus then p.negate else p

/-- id 11. -/
def sinpiOf (x : FVal) : FVal :=
  match x with
  | .nan b => .nan b
  | .inf _ => .nan false
  | .num true 0 _ => negZero
  | x => sinpiAt x

/-- id 12. -/
def cospiOf (x : FVal) : FVal :=
  match x with
  | .nan b => .nan b
  | .inf _ => .nan false
  | x => sinpiAt (x.add (.num false 1 (-1))).1

/-- A user table at x; a slot that holds none gives NaN (R234). -/
def userOf (t : Option UserTable) (x : FVal) : FVal :=
  match t, x with
  | none, _ => .nan false
  | some _, .nan b => .nan b
  | some t, x =>
    let x0 := read32 t.x0.toNat
    let last := (x0.add (scaleBy (ofInt t.n) t.we)).1
    if x.lt x0 then read32 t.low.toNat
    else if !x.lt last then read32 t.high.toNat
    else
      let v := scaleBy (x.add x0.negate).1 (-t.we)
      let j := (floorOf v).toNat
      let (y0, y1, d) := t.segs.getD j (0, 0, 0)
      let g : Segment :=
        { y0 := read32 y0.toNat, y1 := read32 y1.toNat, d := if t.lin then posZero else read32 d.toNat }
      g.eval (minusInt v j)

/-- The exact result of a function before its one rounding (R232, R234). -/
def sfuExact (fn : Nat) (user : List (Option UserTable)) (x : FVal) : FVal :=
  match fn with
  | 0 => exp2Of x
  | 1 => exp2Of (x.mul (read32 0x3FB8AA3B)).1
  | 2 => log2Of x
  | 3 => ((log2Of x).mul (read32 0x3F317218)).1
  | 4 => recipOf x
  | 5 => rsqrtOf x
  | 6 => sqrtOf x
  | 7 => sigmoidOf x
  | 8 => tanhOf x
  | 9 => gatedOf sigmoidAt 16 x
  | 10 => gatedOf geluAt 8 x
  | 11 => sinpiOf x
  | 12 => cospiOf x
  | n => userOf (user.getD (n - 13) none) x

/-! ### VSFN and VGACT (R236 to R238) -/

/-- The evaluating forms: the results are worked out from the operands now; the cluster's unit serves one request of 16
lanes, or two for bf16, and the context waits meanwhile (R238). A control core does not share a unit. -/
def sfuOp (s : State) (fn : BitVec 4) (et : ETy) (vd vs2 : VReg) (k : KReg) (up : Option VReg) : Out :=
  let id := fn.toNat
  let f := etFmt et
  let user := s.view.user
  let res := mapLanes et.width et.lanes (s.k k) (s.v vd) fun i =>
    let y := sfuExact id user (f.read (s.lanes et vs2 i))
    (f.pack (match up with
      | none => y
      | some v => (y.mul (f.read (s.lanes et v i))).1)).1
  let s := if 13 ≤ id then s.touch (24 + (id - 13)) false else s
  if s.ctl then .next ((s.setV vd res).advance 4)
  else .next (s.setWait (.sfu vd res (if et = .bf16 then 2 else 1)))

/-- VSFN: fn of each lane (R237). -/
def execVsfn (fn : BitVec 4) (et : ETy) (vd vs2 : VReg) (k : KReg) (s : State) : Out := sfuOp s fn et vd vs2 k none

/-- VGACT: fn of each lane times the up value, rounded once (R237). -/
def execVgact (fn : BitVec 4) (et : ETy) (vd vs2 vs1 : VReg) (k : KReg) (s : State) : Out :=
  sfuOp s fn et vd vs2 k (some vs1)

/-! ### VSTBL (R234, R235) -/

/-- A record is invalid (R235). -/
def userInvalid (ws : List Word) : Bool :=
  let h := ws.getD 0 0
  let we := toS 8 (fld h 23 16)
  let x0 := read32 (fld h 63 32)
  let finite := match x0 with
    | .num _ _ _ => true
    | _ => false
  decide (fld h 7 6 = 3) || decide (fld h 15 9 ≠ 0) || decide (fld h 31 24 ≠ 0) ||
  decide (we < -24) || decide (24 < we) || !finite ||
  (List.range (fld h 5 0 + 1)).any fun j => decide (fld (ws.getD (3 + 2 * j) 0) 63 32 ≠ 0)

/-- The table a record holds. -/
def userTable (ws : List Word) : UserTable :=
  let h := ws.getD 0 0
  let ends := ws.getD 1 0
  let n := fld h 5 0 + 1
  let b (x : Nat) : F32 := BitVec.ofNat 32 x
  { n := n
    lin := bitOf h 8
    we := toS 8 (fld h 23 16)
    x0 := b (fld h 63 32)
    low := b (fld ends 31 0)
    high := b (fld ends 63 32)
    segs := (List.range n).map fun j =>
      (b (fld (ws.getD (2 + 2 * j) 0) 31 0), b (fld (ws.getD (2 + 2 * j) 0) 63 32),
       b (fld (ws.getD (3 + 2 * j) 0) 31 0)) }

/-- MONOK's check (R235). -/
def monoOk (ws : List Word) : Bool :=
  let t := userTable ws
  let v (x : F32) : FVal := read32 x.toNat
  let le (a b : FVal) : Bool := a.lt b || a.eq b
  let ys := t.segs.map fun (y0, y1, _) => (v y0, v y1)
  let noNan := !(v t.low).isNan && !(v t.high).isNan &&
    t.segs.all fun (y0, y1, d) => !(v y0).isNan && !(v y1).isNan && !(v d).isNan
  let first := (ys.head?.map (·.1)).getD posZero
  let last := (ys.getLast?.map (·.2)).getD posZero
  let seams (r : FVal → FVal → Bool) : Bool :=
    (List.range (t.n - 1)).all fun j =>
      r ((ys.getD j (posZero, posZero)).2) ((ys.getD (j + 1) (posZero, posZero)).1)
  noNan && match fld (ws.getD 0 0) 7 6 with
    | 1 => le (v t.low) first && seams le && le last (v t.high)
    | 2 => le first (v t.low) && seams (fun a b => le b a) && le (v t.high) last
    | _ => true

/-- VSTBL: checks the record in TCM and loads it into slot t (R235, R236). -/
def execVstbl (t : BitVec 4) (vs2 : VReg) (s : State) : Out :=
  let a := w64 (lane (s.v vs2) 64 0)
  let n := t.toNat
  let perm := Trap.at_ .perm 0 a
  conclude s <|
  (Ans.check (decide (a.toNat % 64 = 0)) (Trap.at_ .misalign 0 a)).bind fun _ =>
  (Ans.check (!s.ctl && decide (a.toNat + 32 ≤ 2 ^ 18)) perm).bind fun _ =>
  (s.load a 8).bind fun (h, _) =>
  let m := 2 + 2 * (h % 64 + 1)
  (Ans.check (decide (a.toNat + 8 * m ≤ 2 ^ 18)) perm).bind fun _ =>
  (s.loadWords a m).bind fun (ws, s) =>
  let s := s.touch (24 + n) true
  .ok ((if userInvalid ws then s.addPend (.user n none false)
    else s.addPend (.user n (some (userTable ws)) (monoOk ws))).advance 4)

end Sys2Proof.Machine
end

