-- ==== Sys2Proof/Machine/Convert.lean ====
section
/-! DEFINITION. Major 0x1A: conversions, 8-bit codes and the generator (R36, R42 to R47, R239 to R241). -/

set_option Elab.async false

namespace Sys2Proof.Machine

/-! ### The decode table (R42 to R44) -/

/-- E8M10 of a finite value (−1)^s × m × 2^e that is exact in it: the upper 19 bits of its binary32 encoding (R42). -/
def e8m10 (s : Bool) (m : Nat) (e : Int) : Nat := (fmt32.pack (.num s m e)).1 / 2 ^ 13

/-- The value of code c in presets 1 to 4 (R44). -/
def presetCode (p c : Nat) : Nat :=
  let s := decide (128 ≤ c)
  match p with
  | 2 =>
    let e := c / 4 % 32
    let m := c % 4
    if e = 31 then (if m = 0 then (if s then 0x7FC00 else 0x3FC00) else 0x3FE00)
    else if e = 0 then e8m10 s m (-16) else e8m10 s (4 + m) ((e : Int) - 17)
  | 3 => e8m10 s (toS 8 c).natAbs 0
  | 4 => e8m10 false c 0
  | _ =>
    let e := c / 8 % 16
    let m := c % 8
    if e = 15 ∧ m = 7 then 0x3FE00
    else if e = 0 then e8m10 s m (-9) else e8m10 s (8 + m) ((e : Int) - 10)

/-- e8m10(c): the value of a code in a core's table (R43). -/
def DecodeTable.code (t : DecodeTable) (c : Nat) : Nat :=
  if t.preset = 0 then (t.words.getD c 0).toNat else presetCode t.preset c

/-- The binary32 encoding of a code's value (R42). -/
def DecodeTable.f32 (t : DecodeTable) (c : Nat) : Nat := t.code c * 2 ^ 13

/-- The value of a code. -/
def DecodeTable.value (t : DecodeTable) (c : Nat) : FVal := read32 (t.f32 c)

/-! ### The encoder (R46, R47) -/

/-- a ≤ b for values that are no NaN; false beside a NaN. -/
def leF (a b : FVal) : Bool := a.lt b || a.eq b

/-- |v|. -/
def absF : FVal → FVal
  | .nan b => .nan b
  | .inf _ => .inf false
  | .num _ m e => .num false m e

/-- The search of the table mode over [lo, hi] (R47). -/
def searchCode (t : DecodeTable) (m : FVal) : Nat → Nat → Nat → Nat
  | 0, lo, _ => lo
  | fuel + 1, lo, hi =>
    if hi ≤ lo then lo else
    let mid := (lo + hi + 1) / 2
    if leF (t.value mid) m then searchCode t m fuel mid hi else searchCode t m fuel lo (mid - 1)

/-- The code of an exact value in table mode (R47). -/
def tableCode (t : DecodeTable) (encm : Word) (v : FVal) : Nat :=
  if v.isNan then fld encm 31 24 else
  let s := if v.neg then 0x80 else 0
  let m := absF v
  let top := fld encm 14 8
  if (t.value top).lt m then (if bitOf encm 2 then fld encm 23 16 ||| s else top ||| s) else
  let c := searchCode t m 8 0 top
  let c :=
    if c < top ∧ (t.value c).lt m then
      let h := scaleBy ((t.value c).add (t.value (c + 1))).1 (-1)
      if h.lt m || (m.eq h && decide (c % 2 = 1)) then c + 1 else c
    else c
  c ||| s

/-- The 8-bit code of an exact value (R47). -/
def encodeCode (t : DecodeTable) (encm : Word) (v : FVal) : Nat :=
  match fld encm 1 0 with
  | 1 => if v.isNan then 0 else ofS 8 (toInt v true (-128) 127).1
  | 2 => if v.isNan then 0 else ofS 8 (toInt v true 0 255).1
  | _ => tableCode t encm v

/-! ### Conversions between lanes (R36, R240) -/

/-- Signed saturation to w bits. -/
def satS (w : Nat) (x : Int) : Nat :=
  let top : Int := (2 ^ (w - 1) : Nat) - 1
  ofS w (if top < x then top else if x < -top - 1 then -top - 1 else x)

/-- One lane converted from type et to type dt, with its flags (R240). -/
def convLane (et dt : ETy) (x : Nat) : Nat × Flags :=
  match et.isInt, dt.isInt with
  | true, true => (satS dt.width (toS et.width x), 0)
  | true, false => (etFmt dt).pack (ofInt (toS et.width x))
  | false, true =>
    let (n, fl) := toInt ((etFmt et).read x) true (-(2 ^ (dt.width - 1) : Nat)) ((2 ^ (dt.width - 1) : Nat) - 1)
    (ofS dt.width n, fl)
  | false, false => (etFmt dt).pack ((etFmt et).read x)

/-- VCVT: the low lanes, as many as both types have (R240). -/
def execVcvt (et : ETy) (vd vs2 : VReg) (dt : ETy) (k : KReg) (s : State) : Out :=
  let n := Nat.min et.lanes dt.lanes
  let low : Word := w64 (2 ^ n - 1)
  writeV s vd (mapFlag dt.width dt.lanes (s.k k &&& low) (s.v vd) fun i => convLane et dt (s.lanes et vs2 i))

/-- The half-width type of VPACK (R240). -/
def halfType : ETy → ETy
  | .i16 => .i8 | .i32 => .i16 | .i64 => .i32 | .f32 => .bf16 | .f64 => .f32
  | .i8 => .i8 | .bf16 => .bf16

/-- VPACK: vs2 into the low half, vs1 into the high half (R240). -/
def execVpack (et : ETy) (vd vs2 vs1 : VReg) (k : KReg) (s : State) : Out :=
  let dt := halfType et
  let h := dt.lanes / 2
  writeV s vd (mapFlag dt.width dt.lanes (s.k k) (s.v vd) fun i =>
    convLane et dt (if i < h then s.lanes et vs2 i else s.lanes et vs1 (i - h)))

/-- VDEC: codes through the decode table in effect (R45, R239). A user table's NaN entry gives the canonical NaN (R38). -/
def execVdec (et : ETy) (vd vs2 : VReg) (q : BitVec 4) (k : KReg) (s : State) : Out :=
  let t := s.view.dtab
  let f := etFmt et
  writeV s vd (mapLanes et.width et.lanes (s.k k) (s.v vd) fun i =>
    let c := s.lanes .i8 vs2 (q.toNat * et.lanes + i)
    (f.pack (t.value c)).1, 0)

/-- VENC: lanes to codes; ENCM.MODE 3 traps ILLEGAL (R46, R239). -/
def execVenc (et : ETy) (vd vs2 : VReg) (q : BitVec 4) (k : KReg) (s : State) : Out :=
  let encm := s.cr.encm
  if fld encm 1 0 = 3 then trapOut s (illegalTrap (encV 26 2 vs2 q k et.code vd)) else
  let t := s.view.dtab
  let at_ := q.toNat * et.lanes
  let mask : Word := w64 (((s.k k).toNat % 2 ^ et.lanes) * 2 ^ at_)
  writeV s vd (mapLanes 8 64 mask (s.v vd) fun i =>
    encodeCode t encm ((etFmt et).read (s.lanes et vs2 (i - at_))), 0)

/-- VNIB: nibbles to bytes (R239). -/
def execVnib (vd vs2 : VReg) (m : BitVec 4) (k : KReg) (s : State) : Out :=
  writeV s vd (mapLanes 8 64 (s.k k) (s.v vd) fun i =>
    let b := s.lanes .i8 vs2 (32 * b2n (m.getLsbD 0) + i / 2)
    let v := if i % 2 = 0 then b % 16 else b / 16
    if m.getLsbD 1 then ofS 8 (toS 4 v) else v, 0)

/-- VSCL: a × 2^n, rounded once (R239). -/
def execVscl (et : ETy) (vd vs2 vs1 : VReg) (k : KReg) (s : State) : Out :=
  let f := etFmt et
  writeV s vd (mapFlag et.width et.lanes (s.k k) (s.v vd) fun i =>
    f.pack (scaleBy (f.read (s.lanes et vs2 i)) (toS et.width (s.lanes et vs1 i))))

/-! ### The generator (R241) -/

/-- 32 bits rotated left by 7. -/
def rotl7 (x : Nat) : Nat := (x * 2 ^ 7 + x / 2 ^ 25) % 2 ^ 32

/-- One mixing step. -/
def mixStep (z : Nat) : Nat := (z ^^^ (z / 2 ^ 16)) * 0x2C8B4A35 % 2 ^ 32

/-- The 32 bits the generator gives for a counter under a key (R241). -/
def rng (key : Word) (cc : Nat) : Nat :=
  let c := cc % 2 ^ 64
  let z := (c % 2 ^ 32) ^^^ fld key 31 0 ^^^ rotl7 ((c / 2 ^ 32) ^^^ fld key 63 32)
  let z := mixStep (mixStep z)
  z ^^^ (z / 2 ^ 16)

/-- A generator value as binary32 in [0, 1) (R241). -/
def rngF32 (z : Nat) : Nat := (fmt32.pack (.num false (z / 2 ^ 8) (-24))).1

/-- VRNG (R241). -/
def execVrng (et : ETy) (vd vs2 : VReg) (k : KReg) (s : State) : Out :=
  let c := lane (s.v vs2) 64 0
  writeV s vd (mapLanes et.width et.lanes (s.k k) (s.v vd) fun i =>
    let z := rng s.cr.rngk (c + i)
    if et = .f32 then rngF32 z else z, 0)

end Sys2Proof.Machine
end

