-- ==== Sys2Proof/Machine/Atom.lean ====
section
/-! DEFINITION. Major 0x10, ATOM (R340 to R344): the issue of an atomic, and the read-modify-write its owner
performs. -/

set_option Elab.async false

namespace Sys2Proof.Machine

/-! ### What an atomic computes (R342) -/

/-- The new value of the n bytes, and FAIL. -/
def atomicNew (op n old v w : Nat) : Nat × Bool :=
  let m := 2 ^ (8 * n)
  let v := v % m
  let w := w % m
  let pick (b : Bool) (x y : Nat) : Nat × Bool := (if b then x else y, false)
  let f := if n = 4 then fmt32 else fmt64
  match op with
  | 0 => ((old + v) % m, false)
  | 1 => (old &&& v, false)
  | 2 => (old ||| v, false)
  | 3 => (old ^^^ v, false)
  | 4 => pick (decide (toS (8 * n) old < toS (8 * n) v)) v old
  | 5 => pick (decide (toS (8 * n) v < toS (8 * n) old)) v old
  | 6 => pick (decide (old < v)) v old
  | 7 => pick (decide (v < old)) v old
  | 9 => if old = v then (w, false) else (old, true)
  | 10 => (if v ≤ old then 0 else (old + 1) % m, false)
  | 11 => if old + v < m ∧ old + v ≤ w then (old + v, false) else (old, true)
  | 12 => ((f.addF (f.read old) (f.read v)).1, false)
  | 13 => ((f.minMax true old v).1, false)
  | _ => (v, false)

/-- Old value and FAIL of an atomic that was performed, with the state; or the owner fault (R344). -/
abbrev AtomicDone := Except Trap ((Nat × Bool) × State)

/-- The place of a port context's doorbell word, as the port reaches it (R473). -/
def State.doorbellAt (s : State) (port q : Nat) : Option Nat :=
  let ctl := s.portWord port q 0
  let a : Asker := { core := deviceAgent, agent := portAgent port, vd := fld ctl 5 0, sid := fld ctl 31 16, level := 0 }
  match (s.findAs a .store (s.portWord port q 0x30)).1 with
  | .ok f => some f.place.addr
  | .error _ => none

/-- The atomic hart tells a port of an atomic on the doorbell word of its context: the port reads the context, and the new
value is the new submission tail, an index into the queue (R473; log 105). -/
def State.tellQueue (s : State) (a new port q : Nat) : State :=
  if s.portValid port q && decide (s.doorbellAt port q = some (a / 8 * 8)) then
    let s := s.portRead port q
    s.setQueue port q { s.queue port q with tail := new % 2 ^ fld (s.portWord port q 0x28) 3 0 }
  else s

/-- The same for every context that a port holds; an atomic on CTL of a context is seen as a store is. -/
def State.tellPorts (s : State) (a new : Nat) : State :=
  let s := s.portsSee a
  s.portCtxs.foldl (fun s (k, _) => s.tellQueue a new (k / 4096) (k % 4096)) s

/-- The owner's read and write of the n bytes, between which no other access comes (R340, R342). An atomic on
translated memory is performed for every core at once (R333); `sharers` are those whose later loads its store floors: a
control core that issues it itself (R334). -/
def State.performAtomic (s : State) (sharers : List Nat) (a : AtomicOp) : AtomicDone :=
  let p : Place := { addr := a.place, home := a.home }
  match s.readFails p a.n with
  | some (cause, sub, host) => .error { Trap.at_ cause sub a.addr with host := host, owner := p.owner }
  | none =>
    let old := ofBytes (s.bytesAt p a.n)
    let (new, fail) := atomicNew a.op a.n old a.v.toNat a.w.toNat
    let bs := toBytes a.n new
    match regionOf p.addr with
    | .tcm => .ok ((old, fail), s.hartWrite ((p.addr - 2 ^ 41) / 2 ^ 18 / 8) none p.addr bs)
    | .spad => .ok ((old, fail), s.hartWrite ((p.addr - 2 ^ 41 - 2 ^ 36) / 2 ^ 20) none p.addr bs)
    | .hbm | .die =>
      .ok ((old, fail),
        ((s.commitCells sharers p.homes (cellsFrom p.addr bs)).performNow (p.addr / 8)).tellPorts p.addr new)

/-! ### The issue (R341, R344) -/

/-- The atomic that an instruction asks for, at the place found for it. -/
def State.atomicOp (s : State) (op : Nat) (a : Word) (p : Place) (rs2 : GReg) : AtomicOp where
  op := op
  addr := a
  place := p.addr
  home := p.home
  v := s.g rs2
  w := s.g (rs2 + 1)
  n := if bitOf s.cr.arh 48 then 4 else 8
  haddr := w64 (fld s.cr.arh 47 0)
  rel := bitOf s.cr.arh 49

/-- An atomic of a fabric core takes a send-queue entry; one of a control core is performed before the next instruction
(R341, R344). -/
def atomicIssue (s : State) (op : Nat) (rd rs1 rs2 : GReg) : Out :=
  let a := s.g rs1
  let n := if bitOf s.cr.arh 48 then 4 else 8
  let h := fld s.cr.arh 47 0
  conclude s <|
  if a.toNat % n ≠ 0 then .trap (Trap.at_ .misalign 0 a) else
  match s.find s.focus.1 .store a with
  | (.error t, _) => .trap t
  | (.ok f, s) =>
    let s := s.noteUse f.translated f.lg a
    let x := s.atomicOp op a f.place rs2
    if s.ctl then
      match s.performAtomic [s.focus.1] x with
      | .error t => .trap { t with translated := f.translated }
      | .ok ((old, _), s) => .ok ((s.setG rd (w64 old)).advance 4)
    else if h ≠ 0 ∧ !s.view.handlerOk h then .trap (Trap.bare .bounds 7)
    else s.enter .send (decide (h ≠ 0)) rd { Entry.free with haddr := w64 h, atomic := some x }

/-- AADD: the owner's new value is old + v (R342). -/
def execAadd (rd rs1 rs2 : GReg) (s : State) : Out := atomicIssue s 0 rd rs1 rs2

/-- AAND: the owner's new value is old AND v (R342). -/
def execAand (rd rs1 rs2 : GReg) (s : State) : Out := atomicIssue s 1 rd rs1 rs2

/-- AOR: the owner's new value is old OR v (R342). -/
def execAor (rd rs1 rs2 : GReg) (s : State) : Out := atomicIssue s 2 rd rs1 rs2

/-- AXOR: the owner's new value is old XOR v (R342). -/
def execAxor (rd rs1 rs2 : GReg) (s : State) : Out := atomicIssue s 3 rd rs1 rs2

/-- AMAX: the owner's new value is the signed maximum (R342). -/
def execAmax (rd rs1 rs2 : GReg) (s : State) : Out := atomicIssue s 4 rd rs1 rs2

/-- AMIN: the owner's new value is the signed minimum (R342). -/
def execAmin (rd rs1 rs2 : GReg) (s : State) : Out := atomicIssue s 5 rd rs1 rs2

/-- AMAXU: the owner's new value is the unsigned maximum (R342). -/
def execAmaxu (rd rs1 rs2 : GReg) (s : State) : Out := atomicIssue s 6 rd rs1 rs2

/-- AMINU: the owner's new value is the unsigned minimum (R342). -/
def execAminu (rd rs1 rs2 : GReg) (s : State) : Out := atomicIssue s 7 rd rs1 rs2

/-- ASWP: the owner's new value is v (R342). -/
def execAswp (rd rs1 rs2 : GReg) (s : State) : Out := atomicIssue s 8 rd rs1 rs2

/-- ACAS: the owner's new value is w where old = v (R342). -/
def execAcas (rd rs1 rs2 : GReg) (s : State) : Out := atomicIssue s 9 rd rs1 rs2

/-- AINCW: the owner's new value is old + 1, or 0 at the bound v (R342). -/
def execAincw (rd rs1 rs2 : GReg) (s : State) : Out := atomicIssue s 10 rd rs1 rs2

/-- ABFA: the owner's new value is old + v, where it does not exceed w (R342). -/
def execAbfa (rd rs1 rs2 : GReg) (s : State) : Out := atomicIssue s 11 rd rs1 rs2

/-- AFADD: the owner's new value is the rounded sum (R342). -/
def execAfadd (rd rs1 rs2 : GReg) (s : State) : Out := atomicIssue s 12 rd rs1 rs2

/-- AFMAX: the owner's new value is the maximum of R136 (R342). -/
def execAfmax (rd rs1 rs2 : GReg) (s : State) : Out := atomicIssue s 13 rd rs1 rs2

/-- AMXR: the owner's new value is v, the reset value (R342). -/
def execAmxr (rd rs1 rs2 : GReg) (s : State) : Out := atomicIssue s 14 rd rs1 rs2

end Sys2Proof.Machine
end

