-- ==== Sys2Proof/Machine/Revolve.lean ====
section
/-! DEFINITION. Revolutions (R452 to R455): the ring table, what a leader does with RVBEG and RVEND, and the contexts
that wait for it. -/

set_option Elab.async false

namespace Sys2Proof.Machine

/-- The ring of number r of a virtual device: the ring table is the virtual device's (R452). -/
def ringKey (v r : Nat) : Nat := v * 64 + r

def State.ring (s : State) (key : Nat) : Ring := Tab.get s.rings key Ring.reset
def State.putRing (s : State) (key : Nat) (g : Ring) : State := { s with rings := Tab.put s.rings key g }

/-- Results of RVBEG and RVEND (R455). -/
def notMem : Word := 0xFFFF_FFFF_FFFF_FFFF
def badRev : Word := 0xFFFF_FFFF_FFFF_FFFE
def revAborted : Word := 0xFFFF_FFFF_FFFF_FFFD

/-- The members an entry of the ring table names; none where the entry breaks the rules of R452. -/
def entryMembers (ws : List Word) : List (Nat × Nat) :=
  let n := fld (ws.getD 0 0) 4 0
  let ms := (ws.drop 1).take n
  if fld (ws.getD 0 0) 63 5 ≠ 0 ∨ n < 2 ∨ 30 < n ∨ ms.any (fun w => decide (fld w 63 30 ≠ 0)) then []
  else ms.map fun w => (fld w 17 0, fld w 29 18)

/-- The members of ring r of a virtual device as a core reads its entry, under its copy for it (R464): none where it cannot
be read. -/
def State.readMembers (s : State) (c v r : Nat) : List (Nat × Nat) × State :=
  let b := (s.core c).copyOf v
  match s.deviceGetWordsAs { s.asker c with vd := v, sid := fld b.sidr 15 0 } (b.rvtb + w64 (256 * r)) 32 with
  | (.ok ws, s) => (entryMembers ws, s)
  | (.error _, s) => ([], s)

/-- The members of a ring as they count now: the sample while the ring is not IDLE, else the entry (R452). -/
def State.ringMembers (s : State) (c v r : Nat) (g : Ring) : List (Nat × Nat) × State :=
  if g.st = .idle then s.readMembers c v r else (g.members, s)

/-- The place of a core of this module among the members. -/
def State.memberIx (s : State) (ms : List (Nat × Nat)) (c : Nat) : Option Nat :=
  firstIx (fun m => decide (m.1 = c) && s.localMod m.2) ms 0

/-- Gives a result to the RVENDs of a ring's revolution that the leader has taken: those of members in ENDED (R453, R455).
A request that is still on its way to the leader waits for the leader's own answer. -/
def State.answerRing (s : State) (key : Nat) (g : Ring) (x : Word) : State :=
  let taken (c : Nat) : Bool :=
    match s.memberIx g.members c with
    | some i => g.ended.getLsbD i
    | none => false
  let one (c : Nat) (y : Ctx) : Ctx :=
    match y.wait with
    | .rev true r n rd => if r = key ∧ n = g.cur ∧ taken c then { y with wait := .result rd x } else y
    | _ => y
  { s with cores := s.cores.map fun (c, x) => (c, { x with ctxs := x.ctxs.map (one c) }) }

/-- The word a tag is (R453). -/
def Ring.tag (g : Ring) : Word := w64 (g.cur % 2 ^ 48 + g.epoch.toNat * 2 ^ 48)

/-- The mask of all members. -/
def Ring.all (g : Ring) : BitVec 30 := BitVec.ofNat 30 (2 ^ g.members.length - 1)

/-- A bit of the masks. -/
def ringBit (i : Nat) : BitVec 30 := BitVec.ofNat 30 (2 ^ i)

/-- What the leader does with RVBEG of revolution n by member i: the answer and the ring (R453, R455). -/
def Ring.begin_ (g : Ring) (ms : List (Nat × Nat)) (n i : Nat) : Word × Ring :=
  match g.st with
  | .aborted => (revAborted, g)
  | .idle =>
    if n = g.cur + 1 then
      let g := { g with st := .opened, cur := n, begun := ringBit i, ended := 0, members := ms }
      (g.tag, g)
    else (badRev, g)
  | .opened =>
    if n = g.cur then
      let g := { g with begun := g.begun ||| ringBit i }
      (g.tag, g)
    else (badRev, g)

/-- What the leader does with RVEND of revolution n by member i: an answer at once, or none while the revolution is
open; and the ring (R453, R455). -/
def Ring.end_ (g : Ring) (n i : Nat) : Option Word × Ring :=
  match g.st with
  | .aborted => (some revAborted, g)
  | .idle => (some badRev, g)
  | .opened =>
    if n ≠ g.cur ∨ g.begun &&& ringBit i = 0 then (some badRev, g) else
    let g := { g with ended := g.ended ||| ringBit i }
    if g.ended = g.all then (some 0, { g with st := .idle }) else (none, g)

/-- The leader is this module's. -/
def State.leads (s : State) (ms : List (Nat × Nat)) : Bool :=
  match ms with
  | (_, m) :: _ => s.localMod m
  | [] => true

/-! ### What a change of the ring does (R453, R454) -/

/-- The ring notices that a module sends to its own members: the revolution in bits 47:0 of the tag, and why (R454). -/
def State.ringNotices (s : State) (key : Nat) (g : Ring) (tag word : Word) : State :=
  (g.members.filter fun m => s.localMod m.2).foldl (fun s (c, _) =>
    let v := key / 64
    let h := ((s.core c).copyOf v).rvh
    s.post (deviceMsg .notice .system h c c 0xFFF v [w64 (key % 64), tag, word])) s

/-- The ring's state changes on a module: the RVENDs taken are answered, and notices sent, with the loss's cause in
bits 15:8 (R453, R454). -/
def State.ringMoved (s : State) (key : Nat) (old new : Ring) : State :=
  let s := s.putRing key new
  match old.st, new.st with
  | .opened, .idle => s.answerRing key new 0
  | .opened, .aborted => (s.answerRing key new revAborted).ringNotices key new new.tag (w64 (1 + new.cause * 256))
  | .aborted, .idle => s.ringNotices key new old.tag (w64 (2 + new.cause * 256))
  | _, _ => s

/-- The modules of other members, each once. -/
def Ring.others (g : Ring) (s : State) : List (Nat × Nat) :=
  g.members.foldl (fun l m => if s.localMod m.2 || l.any (fun o => decide (o.2 = m.2)) then l else l ++ [m]) []

/-- The leader's message that updates the copies of other modules: number, state, CUR, EPOCH, BEGUN and ENDED, the
cause of a loss, and the members (R453). -/
def Ring.update (g : Ring) (key : Nat) : List Word :=
  [w64 3, w64 (key % 64), w64 g.st.code, w64 g.cur, w64 g.epoch.toNat, w64 (g.begun.toNat + g.ended.toNat * 2 ^ 32),
    w64 g.cause] ++ g.members.map fun m => w64 (m.1 + m.2 * 2 ^ 18)

/-- The leader's state of a ring changes, here and in every copy. -/
def State.ringChange (s : State) (key : Nat) (new : Ring) : State :=
  let old := s.ring key
  if new = old then s else
  let s := s.ringMoved key old new
  let src := ((new.members.head?).map (·.1)).getD 0
  (new.others s).foldl (fun s m => s.post (deviceMsg .ring .system 0 src m.1 m.2 (key / 64) (new.update key))) s

/-- A copy as an update gives it. -/
def ringOfUpdate (ws : List Word) : Ring :=
  let st : RingSt := match (ws.getD 2 0).toNat with
    | 1 => .opened
    | 2 => .aborted
    | _ => .idle
  { st := st
    cur := (ws.getD 3 0).toNat
    epoch := BitVec.ofNat 16 (ws.getD 4 0).toNat
    begun := BitVec.ofNat 30 (fld (ws.getD 5 0) 29 0)
    ended := BitVec.ofNat 30 (fld (ws.getD 5 0) 61 32)
    members := (ws.drop 7).map fun w => (fld w 17 0, fld w 29 18)
    cause := (ws.getD 6 0).toNat }

/-! ### Requests to the leader (R455) -/

/-- A request of member i reaches this module's ring controller: the answer, where there is one now. A second RVEND of a
member waits as its first (R455). -/
def State.ringRequest (s : State) (key : Nat) (ms : List (Nat × Nat)) (fin : Bool) (n i : Nat) :
    Option Word × State :=
  let g := s.ring key
  if fin then
    let (a, h) := g.end_ n i
    (a, s.ringChange key h)
  else
    let (a, h) := g.begin_ ms n i
    (some a, s.ringChange key h)

/-- RVBEG and RVEND of a context after their commit (R455). The leader decides whether the core is a member; one on another
module is asked over a link. -/
def State.revGo (s : State) (c : Nat) (i : Fin 4) (fin : Bool) (r n : Nat) (rd : GReg) : State :=
  let v := (s.bank c).vdid
  let key := ringKey v r
  let wait (w : Wait) (s : State) : State := s.modCtx c i fun y => { y with st := .waiting, wait := w }
  let (ms, s) := s.ringMembers c v r (s.ring key)
  match ms with
  | [] => wait (.result rd notMem) s
  | (c0, m0) :: _ =>
    if !s.leads ms then
      (wait (.rev fin key n rd) s).post
        (deviceMsg .ring .system 0 c c0 m0 v [w64 (b2n fin), w64 r, w64 n, w64 i.val])
    else
    match s.memberIx ms c with
    | none => wait (.result rd notMem) s
    | some m =>
      let s := wait (.rev fin key n rd) s
      match s.ringRequest key ms fin n m with
      | (some x, s) => wait (.result rd x) s
      | (none, s) => s

end Sys2Proof.Machine
end

