-- ==== Sys2Proof/Machine/Commit.lean ====
section
/-! DEFINITION. The commit of a chunk (R148, R311, R328 to R332, R335, R341): when the couch takes it, what it makes
lasting, and what the context does then. -/

set_option Elab.async false

namespace Sys2Proof.Machine

/-! ### Which chunk the couch takes (R87, R311, R329) -/

/-- The context waits at a commit point, and its task is the oldest of its domain. -/
def State.atCommit (s : State) (c : Nat) (i : Fin 4) : Bool := (s.ctx c i).atPoint && s.oldestInDomain c i

/-- A chunk at its commit need not wait: each protected chunk that it would wait for is in a circle with it (R329). -/
def State.free_ (s : State) (p : Nat × Fin 4) : Bool :=
  (s.waitsFor p).all fun q => (s.reaches [q] 32).contains p

/-- The chunk of a context is ready to commit. -/
def State.readyToCommit (s : State) (p : Nat × Fin 4) : Bool := s.atCommit p.1 p.2 && s.free_ p

/-- The order in which the couch takes ready chunks: forced, ordered by effective rank, others; then by core and
context (R329). -/
def State.couchBefore (s : State) (p q : Nat × Fin 4) : Bool :=
  let a := s.ctx p.1 p.2
  let b := s.ctx q.1 q.2
  let place := decide (p.1 < q.1) || (decide (p.1 = q.1) && decide (p.2 < q.2))
  let kind (y : Ctx) : Nat := if y.forced then 0 else if y.ordered.isSome then 1 else 2
  if kind a ≠ kind b then decide (kind a < kind b) else
  match kind a, a.ordered, b.ordered with
  | 1, some m, some n => if rankLt m.eff n.eff then true else if rankLt n.eff m.eff then false else place
  | _, _, _ => place

/-- The couch takes the chunk of a context now (R329). -/
def State.couchTakes (s : State) (p : Nat × Fin 4) : Bool :=
  s.readyToCommit p &&
  (clusterCtxs (clusterOf p.1)).all fun q => decide (q = p) || !(s.readyToCommit q && s.couchBefore q p)

/-! ### What the commit makes lasting -/

/-- An entry becomes READY: its identifier, its place in the order, and the verdict of the permission table (R181, R183,
R465). -/
def State.readyEntry (s : State) (c n : Nat) : State :=
  let e := (s.core c).entry n
  s.modCore c fun x => (x.setEntry n { e with barred := !s.entryPasses c e }).readyEntry n

/-- A committed write or act of the chunk (R139, R270, R335). -/
def State.applyPend (s : State) (c : Nat) (i : Fin 4) (p : Pend) : State :=
  match p with
  | .jcan slot gen => s.cancelJob c slot gen
  | .resend _ _ | .dropr _ _ => s
  | .rels _ => s.modCtx c i fun y => { y with rels := s.covered c }
  | .reg _ _ | .ring _ _ | .tmap _ _ | .user _ _ _ | .gdone _ => s.modBank c fun b => b.apply p

/-- What a chunk's commit does to an entry of the send queue (R179, R193). -/
inductive SendAct where
  | ready (entry : Nat)
  | resend (entry : Nat)
  | dropr (entry : Nat)
  deriving DecidableEq, Repr

/-- The acts of the chunk of a context on the send queue, in execution order (R181). -/
def Core.sendActs (x : Core) (i : Fin 4) (pend : List Pend) : List SendAct :=
  let mine (n : Nat) : Bool := decide ((x.entry n).st = .held) && decide ((x.entry n).ctx = i.val)
  byKey <| ((List.range 32).filter mine).map (fun n => ((x.entry n).seq, SendAct.ready n)) ++
    pend.filterMap fun p =>
      match p with
      | .resend n q => some (q, .resend n)
      | .dropr n q => some (q, .dropr n)
      | _ => none

/-- A scope that a RELS of the chunk names. -/
def Chunk.releases (k : Chunk) (rect : Word) : Bool :=
  k.pend.any fun p =>
    match p with
    | .rels q => decide (fld q 31 0 = fld rect 31 0)
    | _ => false

/-- The stores an entry's release covers: those of the RELS that its own chunk holds, or of the task's last (R335); all
of them for a release atomic (R341). -/
def State.entryRels (s : State) (c : Nat) (k : Chunk) (e : Entry) : Tab Nat :=
  match e.atomic with
  | some a => if a.rel then s.covered c else []
  | none => if e.rect ≠ 0 ∧ k.releases e.rect then s.covered c else e.rels

/-- One act of a chunk on the send queue. RESEND and DROPR act on an entry that is still REFUSED (R179, R193). -/
def State.sendAct (s : State) (c : Nat) (i : Fin 4) (k : Chunk) (a : SendAct) : State :=
  match a with
  | .ready n =>
    let e := (s.core c).entry n
    let r := s.entryRels c k e
    let s := s.modCore c fun x => x.setEntry n { e with rels := r }
    let s := if e.isRply then s.modCtx c i fun y => { y with replied := true } else s
    s.readyEntry c n
  | .resend n =>
    let e := (s.core c).entry n
    if e.st ≠ .refused then s else
    s.modCore c fun x => { x with seq := x.seq + 1 }.setEntry n
      { e with st := .ready, away := false, claim := none, barred := !s.entryPasses c e, seq := x.seq }
  | .dropr n => if ((s.core c).entry n).st = .refused then s.modCore c fun x => x.dropEntry n else s

/-- The sends, atomics and answers of a chunk become READY, and its RESENDs and DROPRs act, in execution order (R179,
R181, R193). -/
def State.releaseEntries (s : State) (c : Nat) (i : Fin 4) (k : Chunk) : State :=
  ((s.core c).sendActs i k.pend).foldl (fun s a => s.sendAct c i k a) s

/-- The highest rank committed in the domain of an ordered task rises (R311). -/
def State.raiseDomain (s : State) (k : Nat) (y : Ctx) : State :=
  match y.ordered with
  | none => s
  | some m =>
    s.modCluster k fun x =>
      let key := domainKey m.vd m.domain
      let old := Tab.get x.domains key []
      { x with domains := if rankLt old m.rank then Tab.put x.domains key m.rank else x.domains }

/-- THE COMMIT of the chunk of a context (R329, R332): the chunks that it meets are aborted or restarted; its stores,
its register writes and its sends take effect; the task is anchored, and every count of aborts is 0 (R148, R151). The
chunk is committed before its cancels act, so that no hart of theirs meets it. -/
def State.commitChunk (s : State) (c : Nat) (i : Fin 4) : State :=
  let k := clusterOf c
  let y := s.ctx c i
  let s := s.couchAborts k y.chunk.wsig (some (c, i))
  let s := s.commitCells (clusterAgents k) y.chunk.homes y.chunk.cells
  let s := s.raiseDomain k y
  let s := s.modCtx c i fun y =>
    { y with chunk := Chunk.empty, anch := true, restarts := 0, msg := y.msg.map fun m => { m with abcnt := 0 } }
  let s := y.chunk.pend.foldl (fun s p => s.applyPend c i p) s
  let s := s.releaseEntries c i y.chunk
  s.modCtx c i fun y => { y with fence := s.covered c }

/-- The chunk holds a GDONE. -/
def Chunk.leaves (k : Chunk) : Bool :=
  k.pend.any fun p =>
    match p with
    | .gdone _ => true
    | _ => false

/-! ### What follows (R148) -/

/-- The context goes on at an address, from a new checkpoint. -/
def State.goOn (s : State) (c : Nat) (i : Fin 4) (len : Nat) : State :=
  s.modCtx c i fun y =>
    let r := { y.regs with pc := y.regs.pc + w64 len }
    { y with regs := r, ckpt := r, st := .ready, wait := .none }

/-- The context waits for something after its commit. -/
def State.waitOn (s : State) (c : Nat) (i : Fin 4) (w : Wait) : State :=
  s.modCtx c i fun y => { y with st := .waiting, wait := w }

/-- An anchored task's trap: the record, the report, and the suspension (R163, R164, R167). -/
def State.suspend (s : State) (c : Nat) (i : Fin 4) (t : Trap) (resumeAt fpc : Word) : State :=
  let s := s.record c i t true fpc
  let s := s.modCtx c i fun y =>
    let r := { y.regs with pc := resumeAt }
    { y with regs := r, ckpt := r, st := .suspended, wait := .none }
  (s.reportTrap c t).trapCheck t

/-- HALTR after its commit (R158). -/
def State.retain (s : State) (c : Nat) (i : Fin 4) (succ : Word) : State :=
  let s := s.consume c i
  s.modCore c fun x =>
    { x with ages := x.ages + 1 }.putCtx i { Ctx.reset with st := .retained, succ := succ, age := x.ages }

/-- A job is queued at the commit of its chunk (R252, R253, R255). -/
def State.queueJob (s : State) (c slot : Nat) : State :=
  let j := s.job c slot
  { s.setJob c slot { s.atKick c j with st := .queued, seq := s.seq } with seq := s.seq + 1 }

/-- A request to the atomic thread of the core (R395, R430); a CMWAIT is held aside (R434). -/
def State.askThread (s : State) (c : Nat) (q : ThreadReq) : State :=
  s.modCore c fun x =>
    if q.comm && decide (q.op = 2) then { x with held := x.held ++ [q] } else { x with reqs := x.reqs ++ [q] }

/-- What the context does once its chunk has committed. -/
def State.afterCommit (s : State) (c : Nat) (i : Fin 4) (a : After) : State :=
  match a with
  | .next len => s.goOn c i len
  | .again => s.goOn c i 0
  | .halt => s.endTask c i
  | .haltr succ => s.retain c i succ
  | .suspend t resumeAt fpc => s.suspend c i t resumeAt fpc
  | .barrier block op pl rd =>
    let pc := (s.ctx c i).regs.pc
    if s.member c block then (s.waitOn c i (.barrier block op rd)).arrive c i block op pl rd
    else s.suspend c i (Trap.bare .bounds 6) pc pc
  | .ring produce h n rd => s.waitOn c i (.ring produce h n rd)
  | .jwait j rd =>
    s.asCtx c i fun s =>
      let s := s.jwaitGo j rd
      if s.cx.st = .ready then s.modCx fun y => { y with ckpt := y.regs } else s
  | .job slot => (s.queueJob c slot).goOn c i 4
  | .stitch op a desc rd =>
    (s.waitOn c i (.thread rd)).askThread c
      { ctx := i.val, comm := false, op := op, a := a, ops := desc, rd := rd, live := true }
  | .comm op rec ops rd =>
    (s.waitOn c i (.thread rd)).askThread c
      { ctx := i.val, comm := true, op := op, a := w64 rec, ops := ops, rd := rd, live := true }
  | .rev fin r n rd => s.revGo c i fin r n rd

/-- The instruction that follows the commit is a barrier's. -/
def After.arrives (a : After) : Bool :=
  match a with
  | .barrier _ _ _ _ => true
  | _ => false

/-- The commit of a chunk, what follows it, then the completion of a block that its GDONE left, and the completion tests of
the barriers (R313, R318, R322). -/
def State.commitAnd (s : State) (c : Nat) (i : Fin 4) (a : After) : State :=
  let left := (s.ctx c i).chunk.leaves
  let s := (s.commitChunk c i).afterCommit c i a
  let s := if left then s.checkBlock (s.bank c).vdid (clusterOf c) false else s
  if left || a.arrives then s.testRounds (clusterOf c) else s

/-- CHUNK_COMMIT (R329). -/
def execChunkCommit (core ctx : Nat) (s : State) : Out :=
  match ctxNo ctx with
  | none => .next s
  | some i =>
    if isControl core || !s.couchTakes (core, i) then .next s else
    match (s.ctx core i).wait with
    | .commit a => .next (s.commitAnd core i a)
    | _ => .next s

end Sys2Proof.Machine
end

