-- ==== Sys2Proof/Machine/Net.lean ====
section
/-! DEFINITION. The networks (R177 to R192, R336, R337): an entry departs, a message is stripped, arrives, is accepted
or refused, and the sender learns of it; the links that messages of other modules take (R445); and the atomics that
their owners perform (R340 to R344). -/

set_option Elab.async false

namespace Sys2Proof.Machine

/-! ### Routes to other modules (R445) -/

/-- An active link of a route set. -/
def Link.active (l : Link) : Bool :=
  match l.st with
  | .up | .degraded | .reset => true
  | .training => !l.fromDown
  | .down => false

/-- The link carries messages now. -/
def Link.carries (l : Link) : Bool := decide (l.st = .up) || decide (l.st = .degraded)

/-- The active links of a module's route set, in increasing number. -/
def State.activeLinks (s : State) (m : Nat) : List Nat :=
  (List.range 24).filter fun l => (Tab.get s.rsets m 0).testBit l && (s.link l).active

/-- The number of a core as routes take it. -/
def coreNo (c : Nat) : Nat := if isControl c then c - 0x4000_0000 else c

/-- Flits of 240 bytes a message fills (R447). -/
def Msg.flits (m : Msg) : Nat := (8 * (2 + m.payload.length) + 239) / 240

/-- The link a message to another module takes now; none while its route set drains, or its link does not carry, or
has no room in its replay buffer (R445, R447). -/
def State.route (s : State) (m : Msg) : Option Nat :=
  if (Tab.look s.drains m.dmod).isSome then none else
  let ls := s.activeLinks m.dmod
  match ls[(coreNo m.src ^^^ coreNo m.dst) % ls.length]? with
  | none => none
  | some l =>
    if (s.link l).carries && decide ((s.link l).replay.length + m.flits ≤ 512) then some l else none

/-- A message leaves over a link: its flits stay in the replay buffer until they are acknowledged (R447). -/
def State.sendLink (s : State) (l : Nat) (m : Msg) : State :=
  s.modLink l fun y =>
    { y with
      replay := y.replay ++ (List.range m.flits).map fun i => ((y.sendSeq + i) % 4096, m)
      sendSeq := (y.sendSeq + m.flits) % 4096 }

/-! ### Departure (R177, R181) -/

/-- The message a READY entry sends. -/
def State.entryMsg (s : State) (c n : Nat) (e : Entry) : Msg where
  w0 := w64 (fld e.haddr 47 0) ||| (e.mid <<< 48)
  w1 := e.hd
  payload := e.payload
  kind := .task
  mid := e.mid
  src := c
  dst := hdrCore e.hd
  dmod := hdrMod e.hd
  vd := (s.bank c).vdid
  entry := some n
  barred := e.barred
  rect := e.rect
  rels := e.rels
  abcnt := 0
  eff := []
  order := e.seq + 1
  hyper := e.hyper

/-- The way of an entry of a core: destination, module and class; this module has one name (R21, R177). -/
def State.wayOf (s : State) (c : Nat) (e : Entry) : Nat × Nat × MClass :=
  (hdrCore e.hd, if s.localFor c (hdrMod e.hd) then 0xFFF else hdrMod e.hd, clsOf e.hd)

/-- No entry of the core that became READY before a place in its order, and has not departed, goes a way. -/
def State.firstOnWay (s : State) (c : Nat) (way : Nat × Nat × MClass) (seq : Nat) : Bool :=
  (s.core c).sendq.toList.all fun f =>
    !(decide (f.st = .ready) && !f.away && f.atomic.isNone && decide (f.seq < seq) && decide (s.wayOf c f = way))

/-- ENTRY_DEPART: a READY entry departs (R181, R445). -/
def execEntryDepart (core entry : Nat) (s : State) : Out :=
  let x := s.core core
  let e := x.entry entry
  let m := s.entryMsg core entry e
  if e.st ≠ .ready ∨ e.away ∨ e.atomic.isSome ∨ !s.firstOnWay core (s.wayOf core e) e.seq ∨ x.atRest then .next s
  else if !s.localFor core m.dmod && (s.route m).isNone then .next s
  else .next ((s.modCore core fun x => x.setEntry entry { e with away := true }).post m)

/-! ### Stripping (R336, R337) -/

/-- The message stays on this module: its networks give this module one name (R21). -/
def Msg.here (m : Msg) : Bool := decide (m.dmod = 0xFFF)

/-- A release-tagged message outside its scope. -/
def Msg.outOfScope (m : Msg) : Bool := bitOf m.w1 39 && (!m.here || !inRect m.rect m.dst)

/-- The scope-miss message to the source of a stripped message (R337). -/
def scopeMissOf (m : Msg) : Msg :=
  { m with
    w1 := setFld (setFld m.w1 39 39 0) 37 37 1
    kind := .scopeMiss
    dst := m.src
    dmod := 0xFFF
    entry := none
    barred := false
    rels := [] }

/-- SCOPE_STRIP: a router or a link port outside the scope strips the tag (R336, R337). -/
def execScopeStrip (ix : Nat) (s : State) : Out :=
  match s.net[ix]? with
  | none => .next s
  | some m =>
    if m.kind ≠ .task ∨ !m.outOfScope then .next s else
    let t := { m with w1 := setFld (setFld m.w1 39 39 0) 37 37 1, rect := 0, rels := [] }
    .next ({ s with net := s.net.set ix t }.post (scopeMissOf m))

/-! ### Arrival (R187 to R189) -/

/-- A source on another module: its core, and its module plus 1 above it (`remoteCore`). -/
def remoteCore (c m : Nat) : Nat := c + (m + 1) * 2 ^ 32
/-- The core and the module of a source; this module is 0xFFF. -/
def srcCore (x : Nat) : Nat := x % 2 ^ 32
def srcMod (x : Nat) : Nat := if x < 2 ^ 32 then 0xFFF else x / 2 ^ 32 - 1

/-- Word 1 as acceptance writes it: the source in place of the destination (R176, R188). A scope-miss message keeps
the header of the stripped one (R337). -/
def Msg.delivered (m : Msg) : Word :=
  if m.kind = .scopeMiss then m.w1 else
  let c := srcCore m.src
  (m.w1 &&& ~~~(0x0000_0100_3FFF_FFFF)) |||
    w64 (coreNo c % 2 ^ 18 + srcMod m.src % 2 ^ 12 * 2 ^ 18 + b2n (isControl c) * 2 ^ 40)

/-- What becomes of a message at its destination core. -/
inductive Fate where
  | waits
  | refused (why : Nat)
  | discarded
  /-- Discarded, with a report BOUNDS of a sub-cause. -/
  | reported (sub : Nat)
  | service
  /-- A release reply, or a reply whose HADDR fails, frees its AWAIT entry; a good reply fills the slot too. -/
  | released (entry : Nat)
  | badReply (entry : Nat)
  | answer (entry : Nat)
  | accepted
  deriving DecidableEq, Repr

/-- HADDR of a message. -/
def Msg.haddr (m : Msg) : Nat := fld m.w0 47 0

/-- A service message by its address (R171). -/
def Msg.isService (m : Msg) : Bool :=
  decide (m.kind = .task) && decide (m.cls = .system) && decide (0xFFFF_FFFF_FF00 ≤ m.haddr)

/-- A service message comes from a control core of the virtual device or from the hypervisor (R171). -/
def State.serviceFrom (s : State) (c : Nat) (m : Msg) : Bool :=
  isControl (srcCore m.src) &&
  (m.hyper || if isControl c then decide ((s.bank c).vdid = m.vd) else (s.cluster (clusterOf c)).vds.contains m.vd)

/-- An earlier entry of the sender has not departed: a release reply keeps its place behind it (R186). -/
def State.releaseHeld (s : State) (m : Msg) : Bool :=
  decide (m.kind = .release) && decide (m.src < 2 ^ 32) && !s.firstOnWay m.src (m.dst, m.dmod, m.cls) (m.order - 1)

/-- The AWAIT entry a reply answers (R187). -/
def Core.awaiting (x : Core) (m : Msg) : Option Nat :=
  firstIx (fun e => decide (e.st = .await) && decide (e.mid = w64 (fld m.w0 63 48))) x.sendq.toList 0

/-- The acceptance that a reply answers is still on its way to the sender. -/
def State.verdictPending (s : State) (c : Nat) (m : Msg) : Bool :=
  s.verdicts.any fun v =>
    decide (v.core = c) && v.why.isNone && decide (((s.core c).entry v.entry).mid = w64 (fld m.w0 63 48))

/-- What becomes of a reply (R186, R187, R189). -/
def State.replyFate (s : State) (c : Nat) (m : Msg) : Fate :=
  let x := s.core c
  let release := decide (m.haddr = releaseAddr.toNat)
  match x.awaiting m with
  | none => if s.verdictPending c m then .waits else if release then .discarded else .reported 15
  | some n =>
    if release then .released n
    else if !isControl c && !x.bank.handlerOk m.haddr then .badReply n
    else .answer n

/-- Room in the queue of the message's class: accepted, refused QFULL, or it waits in its network (R187). A control core's
queue gets room as log 91 says. -/
def State.roomFate (s : State) (c : Nat) (m : Msg) : Fate :=
  let k := m.cls
  if ((s.core c).queue k).length < s.qDepth c k then .accepted
  else if k = .request then .refused 0 else .waits

/-- A copy of a core runs a kernel of a virtual device: ACTIVE, FAULTED or DRAINING. -/
def Bank.runs (b : Bank) (v : Nat) : Bool :=
  decide (b.vdid = v) && (decide (b.kst = .active) || decide (b.kst = .faulted) || decide (b.kst = .draining))

/-- The checks of R187 at a fabric core. The hypervisor's messages meet the kernel check with the virtual device of the
control core that runs it (log 96). -/
def State.fabricFate (s : State) (c : Nat) (m : Msg) : Fate :=
  let x := s.core c
  let task := decide (m.kind = .task)
  let reply := decide (m.cls = .reply)
  if (task && m.barred) || (m.isService && !s.serviceFrom c m) then .refused 2
  else if (s.cluster (clusterOf c)).lost || (!x.bank.runs m.vd && !x.other.runs m.vd) then (if task && !reply then .refused 3 else .discarded)
  else if !x.bank.runs m.vd then .waits
  else if m.isService then (if m.svcOp ≤ 4 then .service else .refused 1)
  else if x.atRest then .waits
  else if reply then s.replyFate c m
  else if decide (m.kind ≠ .scopeMiss) && !x.bank.handlerOk m.haddr then
    (if task then .refused 1 else if m.kind = .notice then .reported 12 else .discarded)
  else s.roomFate c m

/-- A message of a fabric core of another module, other than an answer, to a control core that runs neither the
system image of its virtual device nor the hypervisor (R446, R465). -/
def State.foreign (s : State) (c : Nat) (m : Msg) : Bool :=
  let x := s.core c
  decide (2 ^ 32 ≤ m.src) && !isControl (srcCore m.src) && decide (m.cls ≠ .reply) &&
    !(decide (x.bank.vdid = m.vd) || decide (x.priv.cprv = 2))

/-- The checks at a control core: it has no kernel (R187). RESUME and KILL name its PARKED copies (R171, R276, R277). -/
def State.controlFate (s : State) (c : Nat) (m : Msg) : Fate :=
  if decide (m.kind = .task) && (m.barred || s.foreign c m) then .refused 2
  else if m.isService then (if !s.serviceFrom c m then .refused 2 else if m.svcOp ≤ 4 then .service else .refused 1)
  else if m.cls = .reply then s.replyFate c m
  else s.roomFate c m

/-- What becomes of a message at a core of this module. -/
def State.fate (s : State) (m : Msg) : Fate := if isControl m.dst then s.controlFate m.dst m else s.fabricFate m.dst m

/-- The sender will learn what became of its entry (R179). A sender on another module learns over a link. -/
def State.tell (s : State) (m : Msg) (why : Option Nat) : State :=
  match m.entry with
  | none => s
  | some n =>
    if m.src < 2 ^ 32 then
      { s with verdicts := s.verdicts ++
          [{ core := m.src, entry := n, mid := fld m.w0 63 48, vd := m.vd, why := why }] }
    else
      let code := match why with
        | some x => x + 1
        | none => 0
      let v := deviceMsg .verdict .reply 0 m.dst (srcCore m.src) (srcMod m.src) m.vd [w64 n, w64 code]
      s.post { v with w0 := w64 (fld m.w0 63 48 * 2 ^ 48) }

/-- The release that a message carries takes effect at its acceptance (R335). -/
def State.releasedBy (s : State) (m : Msg) : State :=
  if m.rels.isEmpty then s else s.perform (some m.rect) m.rels

/-- A message enters the receive queue of its class (R188); a release it carries takes effect first (R335). -/
def State.enqueueMsg (s : State) (m : Msg) : State :=
  let s := s.releasedBy m
  let n := { m with w1 := m.delivered, eff := if m.cls = .ordered then s.effective m.dst { m with w1 := m.delivered } else [] }
  let s := s.modCore m.dst fun x => x.setQueue m.cls (x.queue m.cls ++ [n])
  if isControl m.dst then s.raiseIpend m.dst 2 else s

/-- The fate of a message takes effect. -/
def State.deliver (s : State) (m : Msg) (f : Fate) : State :=
  let c := m.dst
  let b := s.bank c
  let mid := fld m.w0 63 48
  let freed (n : Nat) : State := s.modCore c fun x => x.dropEntry n
  match f with
  | .waits => s.post m
  | .refused why => s.tell m (some why)
  | .discarded => s.tell m none
  | .reported sub =>
    let (fa, s) := if sub = 12 then s.draw else (w64 m.haddr, s)
    (s.tell m none).deviceReport c b.tsvc .bounds sub fa mid []
  | .service => ((s.releasedBy m).modCore c fun x => { x with svc := x.svc ++ [{ m with w1 := m.delivered }] }).tell m none
  | .released n => (freed n).tell m none
  | .badReply n => ((freed n).tell m none).deviceReport c b.tsvc .bounds 4 (w64 m.haddr) mid []
  | .answer n => ((freed n).enqueueMsg m).tell m none
  | .accepted => (s.enqueueMsg m).tell m none

/-! ### The sender learns (R179, R191, R209) -/

/-- The verdict of a place, where its core can take it and no earlier one of the entry waits. -/
def State.verdictAt (s : State) (ix : Nat) : Option Verdict :=
  match s.verdicts[ix]? with
  | none => none
  | some r =>
    let x := s.core r.core
    if (s.verdicts.take ix).any (fun q => decide (q.core = r.core) && decide (q.entry = r.entry)) then none
    else if !isControl r.core && (x.atRest || decide (x.bank.vdid ≠ r.vd)) then none
    else some r

/-- ENTRY_ACCEPTED (R179). -/
def execEntryAccepted (ix : Nat) (s : State) : Out :=
  match s.verdictAt ix with
  | none => .next s
  | some r =>
    if r.why.isSome then .next s else
    let e := (s.core r.core).entry r.entry
    let s := { s with verdicts := s.verdicts.eraseIdx ix }
    if e.st ≠ .ready ∨ !e.away ∨ e.mid.toNat ≠ r.mid then .next s
    else if clsOf e.hd = .request ∧ !e.gone then
      .next (s.modCore r.core fun x => x.setEntry r.entry { e with st := .await, away := false })
    else .next (s.modCore r.core fun x => x.dropEntry r.entry)

/-- A refused entry: REFUSED, and its refusal task queued with the image as it was sent (R179, R191). A control core runs
no tasks, and none is queued there (log 102). An entry whose kernel has reached ABSENT since it was sent is freed
(R209). -/
def Core.refuse (x : Core) (control : Bool) (n why : Nat) : Core :=
  let e := x.entry n
  if e.gone then x.dropEntry n else
  let e := { e with st := .refused, away := false, why := why }
  let x := x.setEntry n e
  if control then x else { x with refusals := x.refusals ++ [{ entry := n, image := e.image n 0, why := why }] }

/-- ENTRY_REFUSED (R191). An accepted request that its core's kernel left unserved is refused as well (R209). -/
def execEntryRefused (ix : Nat) (s : State) : Out :=
  match s.verdictAt ix with
  | none => .next s
  | some r =>
    match r.why with
    | none => .next s
    | some why =>
      let e := (s.core r.core).entry r.entry
      let s := { s with verdicts := s.verdicts.eraseIdx ix }
      if !((e.st = .ready ∧ e.away) ∨ e.st = .await) ∨ e.mid.toNat ≠ r.mid then .next s
      else .next (s.modCore r.core fun x => x.refuse (isControl r.core) r.entry why)

/-! ### Atomics at their owner (R340 to R344) -/

/-- The owner of an atomic: an atomic thread, or the memory controller of a line (R340). -/
def AtomicOp.owner (c : Nat) (a : AtomicOp) : Nat := (a.thread c).getD (2 ^ 32 + a.place / 64)

/-- No atomic of the core to the same owner became READY earlier (R341). -/
def Core.firstAtomic (x : Core) (c : Nat) (e : Entry) (a : AtomicOp) : Bool :=
  x.sendq.toList.all fun f =>
    match f.atomic with
    | some b => !(decide (f.st = .ready) && decide (f.seq < e.seq) && decide (b.owner c = a.owner c))
    | none => true

/-- The reply of a fetching atomic (R344). -/
def atomicReply (c vd : Nat) (e : Entry) (a : AtomicOp) (old dcode : Nat) (fail : Bool) : Msg :=
  let w1 := w64 (fld a.addr 47 0 + dcode * 2 ^ 48 + b2n fail * 2 ^ 63)
  let m := deviceMsg .atomic .reply a.haddr c c 0xFFF vd [w64 old, w1]
  { m with w0 := w64 (fld a.haddr 47 0) ||| (e.mid <<< 48), mid := e.mid }

/-- The entry of a performed atomic: AWAIT where it fetches, free otherwise; the reply, or the report of a fault
(R344). -/
def State.atomicDone (s : State) (c n : Nat) (e : Entry) (a : AtomicOp) (r : Except Trap (Nat × Bool)) : State :=
  let b := s.bank c
  if a.haddr = 0 then
    let s := s.modCore c fun x => x.dropEntry n
    match r with
    | .ok _ => s
    | .error t => s.deviceReport c b.tsvc t.cause t.sub a.addr e.mid.toNat []
  else
    let s := s.modCore c fun x => if e.gone then x.dropEntry n else x.setEntry n { e with st := .await }
    match r with
    | .ok (old, fail) => s.post (atomicReply c b.vdid e a old 0 fail)
    | .error t => s.post (atomicReply c b.vdid e a 0 t.cause.code false)

/-- The atomic may be performed now: the interlock holds it while it overlaps a job's result range (R121, R340). -/
def State.mayPerform (s : State) (c : Nat) (e : Entry) (a : AtomicOp) : Bool :=
  let x := s.core c
  decide (e.st = .ready) && x.firstAtomic c e a && !x.atRest &&
  !(decide (regionOf a.place = .tcm) &&
    (s.interlocked c a.addr.toNat a.n false || s.owedHolds c a.addr.toNat a.place a.n 0))

end Sys2Proof.Machine
end

