-- ==== Sys2Proof/Machine/Copy.lean ====
section
/-! DEFINITION. The copy unit (R271 to R277): segments, deliveries that start a handler, and ring deliveries. -/

set_option Elab.async false

namespace Sys2Proof.Machine

/-! ### The job -/

/-- Operands of a copy: [descriptor, SRC, DST, LEN, HADDR]. -/
def Job.src (j : Job) : Word := j.ops.getD 1 0
def Job.dst (j : Job) : Word := j.ops.getD 2 0
def Job.len (j : Job) : Nat := fld (j.ops.getD 3 0) 23 0
def Job.hnd (j : Job) : Word := w64 (fld (j.ops.getD 4 0) 47 0)
def Job.ringNo (j : Job) : HReg := BitVec.ofNat 4 (fld (j.ops.getD 3 0) 35 32)

/-- The copy goes to the TCM of a core. -/
def Job.remote (j : Job) : Bool := bitOf j.dst 63

/-- The module of a remote destination. -/
def Job.dmod (j : Job) : Nat := fld j.dst 47 36

/-- Two copies of one core whose segments keep their order: to one destination core, or to one local memory (R275). -/
def Job.sameDest (a b : Job) : Bool :=
  if a.remote || b.remote then a.remote && b.remote && decide (fld a.dst 47 18 = fld b.dst 47 18)
  else decide (a.dst.toNat < 2 ^ 32 ↔ b.dst.toNat < 2 ^ 32)

/-- A copy waits for a RESUME, a context or a ring slot: the copy unit passes it over. -/
def Job.held (j : Job) : Bool :=
  decide (j.st = .parked) || (decide (j.st = .running) && !j.prep)

/-- A copy to another module. -/
def State.leaves (s : State) (c : Nat) (j : Job) : Bool := j.remote && !s.localFor c j.dmod

/-- A delivery that has its context waits while the kernel there is FAULTED: that core starts no task (R208). -/
def State.blocked (s : State) (c : Nat) (j : Job) : Bool :=
  decide (j.kind = 6) && decide (j.hnd ≠ 0) && !s.leaves c j &&
    decide ((s.bank (j.dest c)).kst = .faulted)

/-- No copy of the core that was kicked before it, for the same destination, is held or has a segment on its way: segments
keep kick order (R275). -/
def State.inTurn (s : State) (c : Nat) (j : Job) : Bool :=
  (List.range 8).all fun m =>
    let o := s.job c m
    !(o.outstanding && o.copying && (o.held || s.blocked c o || decide (o.flying ≠ 0)) && decide (o.seq < j.seq) && o.sameDest j)

/-- The copy that the copy unit serves next for a core: the oldest that is not held and has no segment on its way, and is
cancelled, or has something to send and keeps the order of R275. -/
def State.nextCopy (s : State) (c : Nat) : Option (Nat × Job) :=
  (s.bank c).oldest fun j =>
    j.copying && !j.held && decide (j.flying = 0) &&
      (j.cancel || (decide (j.done < j.len) && !s.blocked c j && s.inTurn c j))

/-- The slots of the copies that wait for a context, or a ring slot, in kick order. -/
def Bank.waitingCopies (b : Bank) (kind : Nat) : List Nat :=
  byKey ((List.range 8).filterMap fun n =>
    let j := b.job n
    if j.kind = kind ∧ j.st = .running ∧ !j.prep then some (j.seq, n) else none)

/-! ### Faults (R272, R276) -/

/-- The copy ends FAULT; what it has committed stands. -/
def State.faultCopy (s : State) (c n dcode : Nat) : State :=
  (s.unreserve c n).endJob c n stFault dcode ((s.job c n).done / 8)

/-- A segment meets a trap condition: a page fault parks the job with a report, anything else ends it (R276). What the
failing access raises beside it has been raised. -/
def State.copyTrap (s : State) (c n : Nat) (t : Trap) : State :=
  let j := s.job c n
  match t.cause with
  | .pageR | .pageW =>
    let s := s.setJob c n { j with st := .parked, prep := true, status := w64 t.cause.code }
    s.deviceReport c (if t.stage2 then s.hrpt else (s.bank c).tsvc) t.cause t.sub (t.faddr.getD 0) (jobId n j)
      [t.pginf.getD 0]
  | _ => s.faultCopy c n t.cause.code

/-! ### Before the first segment (R272, R273) -/

/-- The header a copy's permission check reads: destination core and module. -/
def Job.header (j : Job) : Word := w64 (fld j.dst 35 18 + j.dmod * 2 ^ 18)

/-- The checks of R272 at a destination of this module, for a copy of a virtual device: none where it must wait, else a
DCODE, 0 for none. A cluster that has left the partition map has no kernel (R29). -/
def State.landing (s : State) (d v : Nat) (j : Job) : Option Nat :=
  let x := s.core d
  let off := fld j.dst 17 0
  if (s.cluster (clusterOf d)).lost || (!x.bank.runs v && !x.other.runs v) then some 0x80
  else if !x.bank.runs v || x.atRest then none
  else if decide (j.hnd ≠ 0) && !x.bank.handlerOk j.hnd.toNat then some Cause.bounds.code
  else if decide (j.kind = 6) &&
      (decide (off < s.codeBytes d) || decide (2 ^ 18 < off + j.len) || s.unbacked d off j.len)
  then some Cause.perm.code else some 0

/-- What the checks of a copy to a core of this module come to (R272). -/
def State.copyChecks (s : State) (c : Nat) (j : Job) : Option Nat :=
  let v := (s.bank c).vdid
  if !s.permits c v j.header then some Cause.vdperm.code else s.landing (j.dest c) v j

/-- A core may be given a context: its kernel starts tasks (R29, R172, R208). -/
def State.takesDelivery (s : State) (d : Nat) : Bool :=
  let x := s.core d
  !(s.cluster (clusterOf d)).lost && !x.stopped && decide (x.bank.kst = .active) && (s.vdev x.bank.vdid).switchedIn

/-- The image of a delivery's context (R273). -/
def copyMsg (c d n : Nat) (j : Job) : Msg :=
  let off := if j.remote then w64 (fld j.dst 17 0) else j.dst
  { deviceMsg .copy .reply j.hnd c d 0xFFF 0 [off, w64 j.len] with
    w0 := w64 (fld j.hnd 47 0 + jobId n j * 2 ^ 48)
    w1 := hdrWord (coreNo (srcCore c)) (srcMod c) 1 2 (isControl (srcCore c))
    mid := w64 (jobId n j)
    entry := some n }

/-- The context a delivery takes: a FREE one, else the longest RETAINED is reclaimed (R147, R273). -/
def Core.roomFor (x : Core) : Option (Fin 4) :=
  match ([0, 1, 2, 3] : List (Fin 4)).find? fun i => decide ((x.ctx i).st = .free) with
  | some i => some i
  | none => x.longest fun _ => true

/-- A context of the destination is reserved: DORMANT (R147, R273). -/
def State.reserve (s : State) (c n : Nat) (j : Job) : Option State :=
  let d := j.dest c
  if !s.takesDelivery d then none else
  match (s.core d).roomFor with
  | none => none
  | some i =>
    let s := s.blurScratch d i
    some (s.putCtx d i { Ctx.reset with st := .dormant, msg := some (copyMsg c d n j) })

/-- The delivery is complete: its context is READY (R147, R273). -/
def State.startDelivery (s : State) (c n : Nat) (j : Job) : State :=
  let d := j.dest c
  match ([0, 1, 2, 3] : List (Fin 4)).find? fun i => (s.ctx d i).reservedFor c n with
  | none => s
  | some i =>
    let m := copyMsg c d n j
    let s := s.modCore d fun x => x.countStart false
    s.seat d i { pc := j.hnd, msg := { m with entry := none }, ret := false, tstp := 0, msgid := m.mid, rfinf := 0
                 sminf := 0, request := false } .ready

/-- The copy starts a handler: not one of a control core to its own memory. -/
def Job.starts (j : Job) (c : Nat) : Bool := decide (j.hnd ≠ 0) && (j.remote || !isControl c)

/-- A copy before its first segment: the checks, and the reservation. Answers the state in which it goes on, ends or
waits. -/
def State.prepare (s : State) (c n : Nat) (j : Job) : State :=
  let checks := if j.remote && s.localFor c j.dmod then s.copyChecks c j
    else if j.remote then (if s.permits c (s.bank c).vdid j.header then some 0 else some Cause.vdperm.code)
    else if decide (j.hnd ≠ 0) && !isControl c && !(s.bank c).handlerOk j.hnd.toNat then some Cause.bounds.code
    else some 0
  let waiting := s.setJob c n { j with st := .running, prep := false }
  match checks with
  | none => waiting
  | some (e + 1) => s.faultCopy c n (e + 1)
  | some 0 =>
    if j.kind = 6 ∧ j.starts c ∧ (!j.remote ∨ s.localFor c j.dmod) then
      match s.reserve c n j with
      | some s => s.setJob c n { j with st := .running, prep := true }
      | none => waiting
    else s.setJob c n { j with st := .running, prep := true }

/-! ### Segments -/

/-- The places of words at a local destination, or the trap of the first that cannot be stored to. -/
def State.storePlaces (s : State) (q : Asker) (va : Word) : Nat → Except Trap (List Place) × State
  | 0 => (.ok [], s)
  | n + 1 =>
    match s.findAs q .store va with
    | (.error t, s) => (.error t, s.deviceFails t)
    | (.ok f, s) =>
      match s.storeTrap f va 8 with
      | some t => (.error t, s.deviceFails t)
      | none =>
        match s.storePlaces q (va + 8) n with
        | (.error t, s) => (.error t, s)
        | (.ok ps, s) => (.ok (f.place :: ps), s)

/-- Writes a segment to local memory as one chunk of the copy unit (R272, R329). -/
def State.writePlaces (s : State) (c : Nat) (ps : List Place) (ws : List Word) : State :=
  let cells := (ps.zip ws).foldl (fun (t : Tab Byte) (p, w) =>
    (cellsFrom p.addr (toBytes 8 w.toNat)).foldl (fun t (a, b) => Tab.put t a b) t) []
  let homes := ps.foldl (fun (t : Tab Home) p =>
    match p.home with
    | some h => Tab.put t (p.addr / 64) h
    | none => t) []
  let s := if isControl c then s else s.hartMeets (clusterOf c) (cellsSig cells)
  s.commitCells (agentsOf c) homes cells

/-- A segment has been committed: the copy goes on, ends CANCEL after a JCAN, or is done (R270, R273). -/
def State.segmentDone (s : State) (c n bytes : Nat) : State :=
  let j := s.job c n
  let j := { j with done := j.done + bytes }
  let s := s.setJob c n j
  if j.done = j.len then
    let s := if j.kind = 6 ∧ j.starts c then s.startDelivery c n j else s
    s.endJob c n stDone 0 (j.done / 8)
  else if j.cancel then (s.unreserve c n).endJob c n stCancel 0 (j.done / 8)
  else s

/-- A copy segment on its way to another module: the job's identifier, bytes before it, kind and ring, offset, length,
handler, and the words (R272). -/
def segmentMsg (c n : Nat) (j : Job) (v : Nat) (ws : List Word) : Msg :=
  deviceMsg .copy .system 0 c (fld j.dst 35 18) j.dmod v
    ([w64 (jobId n j), w64 j.done, w64 (j.kind + j.ringNo.toNat * 256), w64 (fld j.dst 17 0), w64 j.len, j.hnd] ++ ws)

/-- A segment of a copy to another module leaves by its links; the next one follows when the answer has come that it is
committed (R275, R447; log 108). -/
def State.segmentOut (s : State) (c n : Nat) (j : Job) (ws : List Word) : State :=
  let m := segmentMsg c n j (s.bank c).vdid ws
  match s.route m with
  | some l => (s.sendLink l m).setJob c n { j with flying := 8 * ws.length }
  | none => s

/-- Bytes of the next segment: any size up to 4,096 bytes (R272); a ring delivery is one chunk (R274). -/
def State.segmentSize (s : State) (j : Job) : Nat × State :=
  let left := (j.len - j.done) / 8
  if j.kind = 7 then (left, s) else
  let (k, s) := s.pick
  let top := Nat.min 512 left
  (if top = 0 then 0 else 1 + k % top, s)

/-- Where a ring delivery stands (R274). -/
inductive RingRoom where
  | fault
  | full
  | slot (at_ : Nat) (next : Word)
  deriving DecidableEq, Repr

/-- The committed handle at the destination; a payload longer than a slot cannot be delivered. -/
def State.ringRoom (s : State) (c : Nat) (j : Job) : RingRoom :=
  let h := (s.bank (j.dest c)).ring j.ringNo
  if hNlg h = 0 ∨ hSlot h < j.len then .fault
  else if hFree h = 0 then .full
  else .slot (hTailAddr h) (setFld h 47 37 ((hTail h + 1) % (2 * hCount h)))

/-- A core seen with the copy of a virtual device in use (R464). -/
def State.seenBy (s : State) (d v : Nat) : State :=
  s.modCore d fun x => if x.bank.vdid ≠ v ∧ x.other.vdid = v then x.swapped else x

/-- The words of a segment in the TCM of a core, as the map of the virtual device places them: the cells, and the first byte
of them whose codeword cannot be corrected. -/
def State.segmentCells (s : State) (d v a : Nat) (ws : List Word) : List (Nat × Byte) × Option Nat :=
  let cells := (s.seenBy d v).localCells d a (wordsBytes ws)
  (cells, (cells.find? fun (b, _) => s.uncorrectableAt b).map (·.1))

/-- A ring delivery: the payload and the handle, in one chunk of the destination's copy unit (R195, R274, R329). -/
def State.fillSlot (s : State) (d : Nat) (h : HReg) (next : Word) (cells : List (Nat × Byte)) : State :=
  let s := (s.hartMeets (clusterOf d) (cellsSig cells ||| pseudoBit d h.toNat)).pokeCells cells
  s.modBank d fun b => b.apply (.ring h next)

/-- A segment with its words read is written at its destination (R272, R274). -/
def State.writeSegment (s : State) (c n : Nat) (j : Job) (ws : List Word) : State :=
  let d := j.dest c
  let v := (s.bank c).vdid
  let bytes := 8 * ws.length
  if !j.remote then
    match s.storePlaces (s.copyAsker c j.sid) (j.dst + w64 j.done) ws.length with
    | (.error t, s) => s.copyTrap c n t
    | (.ok ps, s) => (s.writePlaces c ps ws).segmentDone c n bytes
  else if s.leaves c j then s.segmentOut c n j ws
  else if j.kind = 6 then
    match s.segmentCells d v (fld j.dst 17 0 + j.done) ws with
    | (_, some a) => (s.faultCopy c n Cause.uncorr.code).checkOwners a
    | (cells, none) => (s.hartCells (clusterOf d) cells).segmentDone c n bytes
  else
    match s.ringRoom c j with
    | .fault => s.faultCopy c n Cause.ring.code
    | .full => s.setJob c n { j with prep := false }
    | .slot a next =>
      match s.segmentCells d v a ws with
      | (_, some b) => (s.faultCopy c n Cause.uncorr.code).checkOwners b
      | (cells, none) => (s.fillSlot d j.ringNo next cells).segmentDone c n bytes

/-- The word at an address as a load of the copy unit gives it: as a core's load, but nothing older than what was performed
for the issuing core at the kick (R272, R334, R345; log 109). -/
def State.unitGet (s : State) (q : Asker) (kick : Tab Nat) (va : Word) : Except Trap Word × State :=
  match s.deviceFindAs q .load va with
  | (.error t, s) => (.error t, s)
  | (.ok p, s) =>
    let (x, s) := s.loadFrom q.agent (Tab.get kick (p.addr / 8) 0) p
    (.ok x, s)

/-- n words from an address upward. -/
def State.unitGetWords (s : State) (q : Asker) (kick : Tab Nat) (va : Word) : Nat → Except Trap (List Word) × State
  | 0 => (.ok [], s)
  | n + 1 =>
    match s.unitGet q kick va with
    | (.error t, s) => (.error t, s)
    | (.ok x, s) =>
      match s.unitGetWords q kick (va + 8) n with
      | (.error t, s) => (.error t, s)
      | (.ok xs, s) => (.ok (x :: xs), s)

/-- The copy unit serves a segment of a copy that has begun, or its cancel. -/
def State.runSegment (s : State) (c n : Nat) (j : Job) : State :=
  if j.cancel then (s.unreserve c n).endJob c n stCancel 0 (j.done / 8)
  else if j.done = j.len then s
  else
    let (k, s) := s.segmentSize j
    match s.unitGetWords (s.copyAsker c j.sid) j.rels (j.src + w64 j.done) k with
    | (.error t, s) => s.copyTrap c n t
    | (.ok ws, s) => s.writeSegment c n j ws

/-- A copy is prepared, and its first segment served where it may go on. -/
def State.begin_ (s : State) (c n : Nat) (j : Job) : State :=
  let s := s.prepare c n j
  let j := s.job c n
  if j.st = .running ∧ j.prep then s.runSegment c n j else s

/-- The cluster's copy unit comes to a core now: no core between the one last served and it has a copy to serve
(R275). A control core's copies run on its I/O die's unit. -/
def State.copyTurn (s : State) (c : Nat) : Bool :=
  if isControl c then true else
  let k := clusterOf c
  let last := (s.cluster k).copyLast
  let mine := (c + 8 - last % 8 - 1) % 8
  (coresOf k).all fun d => decide (mine ≤ (d + 8 - last % 8 - 1) % 8) || (s.nextCopy d).isNone

/-- COPY_SEGMENT: the copy unit serves the next segment of a core's copies (R272, R275). -/
def execCopySegment (core : Nat) (s : State) : Out :=
  if !s.copyTurn core then .next s else
  match s.nextCopy core with
  | none => .next s
  | some (n, j) =>
    hartEvent s fun s =>
    let s := if isControl core then s else s.modCluster (clusterOf core) fun k => { k with copyLast := core % 8 }
    match j.st with
    | .queued => .next (s.begin_ core n j)
    | .running => .next (s.runSegment core n j)
    | .free | .held | .parked | .ended => .next s

/-- A waiting copy is cancelled, or tries again where it keeps kick order (R270, R273 to R275). -/
def State.retryOne (s : State) (c n : Nat) : State :=
  let j := s.job c n
  if j.cancel then (s.unreserve c n).endJob c n stCancel 0 (j.done / 8)
  else if (List.range 8).all fun m =>
      let o := s.job c m
      !(o.outstanding && o.copying && decide (o.seq < j.seq) && decide (o.done < o.len) && o.sameDest j)
  then s.begin_ c n j else s

/-- The waiting copies of a core try again, each once. -/
def State.retry (s : State) (core kind : Nat) : State :=
  ((s.bank core).waitingCopies kind).foldl (fun s n => s.retryOne core n) s

/-- CONTEXT_RESERVE_RETRY: the deliveries of a core that wait try again to reserve their contexts (R273). -/
def execContextReserveRetry (core : Nat) (s : State) : Out := hartEvent s fun s => .next (s.retry core 6)

/-- RING_DELIVERY_RETRY: the refused ring deliveries of a core try again (R274). -/
def execRingDeliveryRetry (core : Nat) (s : State) : Out := hartEvent s fun s => .next (s.retry core 7)

end Sys2Proof.Machine
end

