-- ==== Sys2Proof/Machine/Seq.lean ====
section
/-! DEFINITION. Major 0x1E and the cluster's shared units (R238, R403 to R415): RIDL, DRAW, SPARK and SRES at issue, the
riddle's work, and the service of the special-function unit. -/

set_option Elab.async false

namespace Sys2Proof.Machine

/-! ### SPARK and SRES (R404 to R408) -/

/-- A record or batch offset is valid: a multiple of 64 outside the code region. -/
def State.offsetOk (s : State) (a : Nat) : Bool := decide (a % 64 = 0) && decide (s.codeBytes s.focus.1 ≤ a)

/-- A word of the TCM as the task loads it. -/
def State.tcmLoad (s : State) (a n : Nat) : Ans (Nat × State) := s.load (w64 a) n

/-- The common checks: the record or batch, and the handle. -/
def State.seqCheck (s : State) (y x : Word) : Ans Word :=
  (Ans.check (decide (fld x 63 20 = 0)) (Trap.bare .bounds 10)).bind fun _ =>
  (Ans.check (decide (y.toNat % 64 = 0)) (Trap.at_ .misalign 0 y)).bind fun _ =>
  (Ans.check (decide (y.toNat ≤ 0x3FFC0) && decide (s.codeBytes s.focus.1 ≤ y.toNat)) (Trap.at_ .perm 0 y)).bind
    fun _ => s.ringHandle (BitVec.ofNat 4 (fld x 19 16))

/-- The codes SPARK and SRES return (R408). -/
def seqFull : Word := 0xFFFF_FFFF_FFFF_FFFF
def seqEmpty : Word := 0xFFFF_FFFF_FFFF_FFFE
def seqState : Word := 0xFFFF_FFFF_FFFF_FFFD

/-- A handle moved on, as PADV or CADV moves it (R195). -/
def State.moveRing (s : State) (h : HReg) (x : Word) : State :=
  ((s.touch h.toNat false).touch h.toNat true).addPend (.ring h x)

/-- SPARK (R404, R408). -/
def execSpark (rd gs1 gs2 : GReg) (s : State) : Out :=
  fabricOnly s (encT 0x1E 2 gs2 gs1 0 0 rd) <|
  let y := s.g gs1
  let x := s.g gs2
  let h : HReg := BitVec.ofNat 4 (fld x 19 16)
  let a := y.toNat
  conclude s <|
  (s.seqCheck y x).bind fun hw =>
  (s.tcmLoad a 8).bind fun (w, s) =>
  (s.tcmLoad (a + 0x20) 8).bind fun (bw, s) =>
  let b := bw % 2 ^ 18
  let r := w / 2 ^ 8 % 2 ^ 8
  let code (s : State) (c : Word) : Ans State := .ok ((s.setG rd c).advance 4)
  if w % 8 ≠ 1 ∨ 15 < r ∨ !s.offsetOk b then code s seqState else
  (s.tcmLoad (b + 0x40 + 4 * r) 4).bind fun (e, s) =>
  if e % 2 ^ 18 ≠ a then code s seqState else
  let s := s.touch h.toNat false
  if hFree hw = 0 then code s seqFull else
  (s.tcmLoad b 8).bind fun (hdr, s) =>
  let word := setFld (setFld (setFld (w64 w) 2 0 2) 15 8 0xFF) 31 16 (fld x 15 0)
  (s.store (w64 b) 8 (w64 hdr &&& ~~~(w64 (2 ^ r))).toNat).bind fun s =>
  (s.store (w64 (b + 0x40 + 4 * r)) 4 0).bind fun s =>
  (s.store y 8 word.toNat).bind fun s =>
  (s.store (w64 (hTailAddr hw)) 8 a).bind fun s =>
  .ok (((s.moveRing h (hMove hw true 1)).setG rd 0).advance 4)

/-- The lowest vacant row of a batch, from row `r` on with n rows left. -/
def State.vacantRow (s : State) (b r : Nat) : Nat → Ans (Option Nat × State)
  | 0 => .ok (none, s)
  | n + 1 => (s.tcmLoad (b + 0x40 + 4 * r) 4).bind fun (e, s) =>
    if e = 0 then .ok (some r, s) else s.vacantRow b (r + 1) n

/-- SRES (R404, R408). -/
def execSres (rd gs1 gs2 : GReg) (s : State) : Out :=
  fabricOnly s (encT 0x1E 3 gs2 gs1 0 0 rd) <|
  let y := s.g gs1
  let x := s.g gs2
  let h : HReg := BitVec.ofNat 4 (fld x 19 16)
  let b := y.toNat
  let layer := fld x 15 0
  let code (s : State) (c : Word) : Ans State := .ok ((s.setG rd c).advance 4)
  conclude s <|
  (s.seqCheck y x).bind fun hw =>
  let s := s.touch h.toNat false
  if hFilled hw = 0 then code s seqEmpty else
  (s.tcmLoad (hHeadAddr hw) 8).bind fun (aw, s) =>
  let a := aw % 2 ^ 18
  if !s.offsetOk a then code s seqState else
  (s.tcmLoad a 8).bind fun (w, s) =>
  if w % 8 ≠ 2 ∨ w / 2 ^ 16 % 2 ^ 16 ≠ layer then code s seqState else
  (s.tcmLoad b 8).bind fun (hdr, s) =>
  if hdr / 2 ^ 16 % 2 ^ 16 ≠ layer then code s seqState else
  (s.vacantRow b 0 16).bind fun (row, s) =>
  match row with
  | none => code s seqFull
  | some r =>
    (s.store (w64 (b + 0x40 + 4 * r)) 4 a).bind fun s =>
    (s.store y 8 (w64 hdr ||| w64 (2 ^ r)).toNat).bind fun s =>
    (s.store (w64 a) 8 (setFld (setFld (w64 w) 2 0 1) 15 8 r).toNat).bind fun s =>
    .ok (((s.moveRing h (hMove hw false 1)).setG rd (w64 r)).advance 4)

/-! ### RIDL (R412, R413) -/

/-- Fields of a RIDL descriptor: [descriptor, SRC, SHAPE, MAP, DST]. -/
structure Ridl where
  src : Nat
  n : Nat
  k : Nat
  mode : Nat
  t : Nat
  c : Nat
  dst : Nat
  deriving DecidableEq, Repr

/-- The fields of a job's operand words. -/
def ridlOf (ws : List Word) : Ridl where
  src := fld (ws.getD 0 0) 47 0
  n := fld (ws.getD 1 0) 15 0
  k := fld (ws.getD 1 0) 23 16 + 1
  mode := fld (ws.getD 1 0) 25 24
  t := fld (ws.getD 2 0) 15 0
  c := fld (ws.getD 2 0) 31 16
  dst := fld (ws.getD 3 0) 47 0

/-- Element size in bytes. -/
def Ridl.size (r : Ridl) : Nat := if r.mode = 1 then 8 else if r.mode = 2 then 2 else 4

/-- A range lies within the TCM or within the scratchpad. -/
def localRange (a n : Nat) : Bool := decide (a + n ≤ 2 ^ 18) || (decide (2 ^ 20 ≤ a) && decide (a + n ≤ 2 ^ 21))

/-- The limits of R412. -/
def ridlOk (ws : List Word) : Bool :=
  let r := ridlOf ws
  let map := ws.getD 2 0
  decide (r.mode ≠ 3) && decide (1 ≤ r.n) && decide (r.n ≤ 32768) && decide (r.src % r.size = 0) &&
  localRange r.src (r.n * r.size) && decide (r.dst % 8 = 0) && localRange r.dst (8 * r.k) &&
  (if r.mode = 1 then decide (map = 0) else decide (1 ≤ r.t) && decide (r.c < r.t) && decide (fld map 63 32 = 0)) &&
  (decide (r.src + r.n * r.size ≤ r.dst) || decide (r.dst + 8 * r.k ≤ r.src))

/-- RIDL: the descriptor is read and checked, and the job submitted (R412). -/
def execRidl (rd gs1 gs2 : GReg) (s : State) : Out :=
  fabricOnly s (encT 0x1E 0 gs2 gs1 0 0 rd) <|
  let a := s.g gs1
  conclude s <|
  (Ans.check (decide (a.toNat % 32 = 0) && decide (a.toNat + 32 ≤ 2 ^ 18)) (Trap.bare .job 7)).bind fun _ =>
  (s.loadWords a 4).bind fun (ws, s) =>
  (Ans.check (ridlOk ws) (Trap.bare .job 7)).bind fun _ =>
  (s.mailbox (s.g gs2)).bind fun _ =>
  s.submit rd 18 (s.g gs2) 0 0 (a :: ws)

/-- An entry of a list: score as binary32 bits, id, input index. -/
structure Scored where
  score : Nat
  id : Nat
  ix : Nat
  deriving DecidableEq, Repr

/-- The order of R413 among scores that are numbers: score descending, +0 = −0, ties to the lower id, then the lower
index. -/
def Scored.before (a b : Scored) : Bool :=
  let x := read32 a.score
  let y := read32 b.score
  if y.lt x then true else if x.lt y then false
  else decide (a.id < b.id) || (decide (a.id = b.id) && decide (a.ix < b.ix))

/-- Puts an entry in its place. -/
def insertScored (e : Scored) : List Scored → List Scored
  | [] => [e]
  | f :: rest => if e.before f then e :: f :: rest else f :: insertScored e rest

/-- The first k entries in order, NaN entries dropped. -/
def topK (k : Nat) (es : List Scored) : List Scored :=
  es.foldl (fun l e => if (read32 e.score).isNan then l else (insertScored e l).take k) []

/-- Entry i of the input (R413). -/
def State.ridlEntry (s : State) (c : Nat) (r : Ridl) (i : Nat) : Scored :=
  let x := s.localRead c (r.src + r.size * i) r.size
  match r.mode with
  | 1 => { score := x % 2 ^ 32, id := x / 2 ^ 32, ix := i }
  | 2 => { score := x * 2 ^ 16, id := i * r.t + r.c, ix := i }
  | _ => { score := x, id := i * r.t + r.c, ix := i }

/-- The riddle comes to a core's RIDL now: no core between the one last served and it has one queued (R413). -/
def State.riddleTurn (s : State) (c : Nat) : Bool :=
  let k := clusterOf c
  let last := (s.cluster k).riddleLast
  let turn (d : Nat) : Nat := (d + 8 - last % 8 - 1) % 8
  (coresOf k).all fun d =>
    decide (turn c ≤ turn d) || ((s.bank d).oldest fun j => decide (j.kind = 18)).isNone

/-- RIDL_RUN: the riddle runs a core's oldest RIDL (R413). -/
def execRidlRun (core : Nat) (s : State) : Out :=
  hartEvent s fun s =>
  match (s.bank core).oldest fun j => decide (j.kind = 18) with
  | none => .next s
  | some (n, j) =>
    if !s.riddleTurn core then .next s else
    let s := s.modCluster (clusterOf core) fun k => { k with riddleLast := core % 8 }
    let r := ridlOf (j.ops.drop 1)
    match s.localBad core r.src (r.n * r.size) with
    | some e => .next (s.jobError core n e)
    | none =>
      let out := topK r.k ((List.range r.n).map fun i => s.ridlEntry core r i)
      if r.dst < s.codeBytes core then .next (s.faultJob core n Cause.perm.code) else
      match s.localBad core r.dst (8 * out.length) with
      | some e => .next (s.jobError core n e)
      | none =>
        let cells := s.localCells core r.dst (wordsBytes (out.map fun e => w64 (e.score + e.id * 2 ^ 32)))
        .next ((s.hartCells (clusterOf core) cells).endJob core n stDone 0 out.length)

/-! ### DRAW (R415) -/

/-- DRAW at issue: the checks; the riddle serves it. -/
def execDraw (rd gs1 gs2 : GReg) (s : State) : Out :=
  fabricOnly s (encT 0x1E 1 gs2 gs1 0 0 rd) <|
  let d := s.g gs1
  let la := fld d 17 0
  let n := fld d 47 32
  conclude s <|
  (Ans.check (decide (fld d 31 18 = 0) && decide (fld d 63 48 = 0)) (Trap.bare .bounds 10)).bind fun _ =>
  (Ans.check (decide (1 ≤ n) && decide (n ≤ 256)) (Trap.bare .bounds 10)).bind fun _ =>
  (Ans.check (decide (la % 8 = 0)) (Trap.at_ .misalign 0 (w64 la))).bind fun _ =>
  (Ans.check (decide (la + 8 * n ≤ 2 ^ 18)) (Trap.at_ .perm 0 (w64 la))).bind fun _ =>
  .wait (.draw d (s.g gs2) rd)

/-- exp of a binary32 value, rounded (R232). -/
def exp32 (x : Nat) : Nat := rnd32 (sfuExact 1 [] (read32 x))

/-- The order of DRAW: the numbers as RIDL orders them, then the NaN entries in input order. -/
def drawOrder (es : List Scored) : List Scored :=
  topK es.length es ++ es.filter fun e => (read32 e.score).isNan

/-- The weight of an entry under the greatest score (R415). -/
def drawWeight (smax score : Nat) : Nat :=
  match read32 score, read32 smax with
  | .nan _, _ => 0
  | _, .nan _ => 0
  | .inf true, _ => 0
  | _, .inf true => 0
  | .inf false, .inf false => 0x3F80_0000
  | .num _ _ _, .inf false => 0
  | _, _ => exp32 (sub32 score smax)

/-- The running sums of the weights in order. -/
def runningSums (smax : Nat) : Nat → List Scored → List Nat
  | _, [] => []
  | acc, e :: rest =>
    let a := add32 acc (drawWeight smax e.score)
    a :: runningSums smax a rest

/-- What DRAW returns for a list, a counter and a key (R415). -/
def drawResult (es : List Scored) (c key : Word) : Word :=
  let order := drawOrder es
  let smax := ((order.head?).map (·.score)).getD 0
  let sums := runningSums smax 0 order
  let total := sums.getLast?.getD 0
  let z := rng key c.toNat
  let bound := ((FVal.num false (z / 2 ^ 8) (-24)).mul (read32 total)).1
  let word (e : Scored) (zf : Bool) : Word := w64 (e.id % 2 ^ 32 + e.ix * 2 ^ 32 + b2n zf * 2 ^ 63)
  let first : Scored := order.head?.getD { score := 0, id := 0, ix := 0 }
  if total = 0 then word first true else
  match (order.zip sums).find? fun (_, x) => bound.lt (read32 x) with
  | some (e, _) => word e false
  | none => word first false

/-- The list as the waiting context loads it: tcm reads, entry by entry. -/
def State.drawList (s : State) (la i : Nat) : Nat → Ans (List Scored × State)
  | 0 => .ok ([], s)
  | n + 1 => (s.load (w64 (la + 8 * i)) 8).bind fun (x, s) =>
    (s.drawList la (i + 1) n).bind fun (es, s) =>
      .ok ({ score := x % 2 ^ 32, id := x / 2 ^ 32, ix := i } :: es, s)

/-- DRAW as the riddle serves it for the waiting context; a load that the interlock holds leaves it waiting. -/
def State.drawGo (s : State) (d c : Word) (rd : GReg) : State :=
  match s.drawList (fld d 17 0) 0 (fld d 47 32) with
  | .ok (es, t) =>
    let t := t.modCx fun y => { y with st := .ready, wait := .none }
    ((t.setG rd (drawResult es c t.cr.rngk)).advance 4)
  | .trap t => (s.modCx fun y => { y with st := .ready, wait := .none }).takeTrap t s.pc
  | .wait _ | .yield => s

/-- RIDDLE_DRAW: the riddle serves the DRAW of a context (R415). -/
def execRiddleDraw (core ctx : Nat) (s : State) : Out :=
  match ctxNo ctx with
  | none => .next s
  | some i =>
    let y := s.ctx core i
    match y.st, y.wait with
    | .waiting, .draw d c rd => .next (s.asCtx core i fun s => s.drawGo d c rd)
    | _, _ => .next s

/-! ### The special-function unit (R238) -/

/-- The context of a core that the unit serves next: of several that wait, the lowest (log 113). -/
def State.sfuRequest (s : State) (c : Nat) : Option (Fin 4) :=
  ([0, 1, 2, 3] : List (Fin 4)).find? fun i =>
    let y := s.ctx c i
    match y.st, y.wait with
    | .waiting, .sfu _ _ _ => true
    | _, _ => false

/-- The second request of a pair whose first the unit has served: the two are on consecutive service cycles (R238). -/
def State.sfuSecond (s : State) (c : Nat) : Option (Fin 4) :=
  ([0, 1, 2, 3] : List (Fin 4)).find? fun i =>
    let y := s.ctx c i
    match y.st, y.wait with
    | .waiting, .sfu _ _ 0 => true
    | _, _ => false

/-- The context that the unit of a cluster serves next: the second of a pair, else by turns (R238). -/
def State.sfuNext (s : State) (cluster : Nat) : Option (Nat × Fin 4) :=
  let pick (k : Nat) (get : Nat → Option (Fin 4)) : Option (Nat × Fin 4) :=
    (List.range 8).findSome? fun i =>
      let c := 8 * cluster + (k + i) % 8
      (get c).map fun i => (c, i)
  (pick 0 s.sfuSecond).or (pick ((s.cluster cluster).sfuLast + 1) s.sfuRequest)

/-- SFU_SERVICE: the unit serves the first core holding a request from the one after the last served on; with its last
request served the results are written (R238). -/
def execSfuService (cluster : Nat) (s : State) : Out :=
  match s.sfuNext cluster with
  | none => .next s
  | some (c, i) =>
    let s := s.modCluster cluster fun k => { k with sfuLast := c % 8 }
    match (s.ctx c i).wait with
    | .sfu vd res (_ + 2) => .next (s.modCtx c i fun y => { y with wait := .sfu vd res 0 })
    | .sfu vd res _ =>
      .next (s.modCtx c i fun y =>
        let r := y.regs.putV vd res
        { y with regs := { r with pc := r.pc + 4 }, st := .ready, wait := .none })
    | _ => .next s

end Sys2Proof.Machine
end

