-- ==== Sys2Proof/Machine/Stch.lean ====
section
/-! DEFINITION. Major 0x20, STCH (R387 to R401): the stitch pool, the requests of its instructions, what the atomic
thread does with them, and SIDX. -/

set_option Elab.async false

namespace Sys2Proof.Machine

/-! ### The pool (R388, R390) -/

/-- Where a pool lies, and its counts. -/
structure Pool where
  base : Nat
  nv : Nat
  np : Nat
  nt : Nat
  deriving DecidableEq, Repr

/-- The pool STPL names, none where STPL is invalid (R388). -/
def Bank.pool (b : Bank) : Option Pool :=
  let p : Pool := { base := fld b.stpl 17 0, nv := fld b.stpl 31 24, np := fld b.stpl 47 32, nt := fld b.stpl 55 48 }
  if p.base % 1024 = 0 ∧ 1 ≤ p.nv ∧ p.nv ≤ 127 ∧ 1 ≤ p.np ∧ p.np ≤ 4096 ∧ 1 ≤ p.nt ∧ p.nt ≤ 255 ∧
      (32 - b.kernel.rb) * 8192 ≤ p.base ∧ p.base + 1024 * p.nv + 32 * p.np + 16 * p.nt ≤ 2 ^ 18
  then some p else none

def Pool.version (p : Pool) (v : Nat) : Nat := p.base + 1024 * v
def Pool.piece (p : Pool) (n : Nat) : Nat := p.base + 1024 * p.nv + 32 * n
def Pool.tensor (p : Pool) (t : Nat) : Nat := p.base + 1024 * p.nv + 32 * p.np + 16 * t

/-- A pool word, and its replacement, as the atomic thread reaches the committed TCM. -/
def State.poolWord (s : State) (c a : Nat) : Word := w64 (s.localRead c a 8)
/-- Words the thread has written in its chunk: the event notes them. -/
def State.noteWrite (s : State) (k : Nat) (w : BitVec 1024) : State :=
  { s with wrote := Tab.put s.wrote k (Tab.get s.wrote k 0 ||| w) }

def State.poolPut (s : State) (c a : Nat) (x : Word) : State :=
  let cells := s.localCells c a (toBytes 8 x.toNat)
  (s.pokeCells cells).noteWrite (clusterOf c) (cellsSig cells)

/-- n words of the pool are cleared. -/
def State.poolClear (s : State) (c a n : Nat) : State :=
  (List.range n).foldl (fun s i => s.poolPut c (a + 8 * i) 0) s

/-- A tensor record. -/
structure Tensor where
  live : Bool
  cur : Nat
  ser : Nat
  birth : Nat
  ok : Bool
  deriving DecidableEq, Repr

def State.tensor (s : State) (c : Nat) (p : Pool) (t : Nat) : Tensor :=
  let w := s.poolWord c (p.tensor t)
  let x := s.poolWord c (p.tensor t + 8)
  { live := bitOf w 0, cur := fld w 14 8, ser := fld w 47 16, birth := fld x 31 0
    ok := decide (fld w 7 1 = 0) && !bitOf w 15 && decide (fld w 63 48 = 0) && decide (fld x 63 32 = 0) }

/-- n words of the pool are zero: a free record (R390). -/
def State.poolBlank (s : State) (c a n : Nat) : Bool := (List.range n).all fun i => decide (s.poolWord c (a + 8 * i) = 0)

/-- An entry of a version: rows `first` to first + count − 1 of a piece. -/
structure Span where
  piece : Nat
  first : Nat
  count : Nat
  deriving DecidableEq, Repr

def spanOf (w : Word) : Span := { piece := fld w 11 0, first := fld w 31 12, count := fld w 52 32 }
def Span.word (e : Span) : Word := w64 (e.piece + e.first * 2 ^ 12 + e.count * 2 ^ 32)

/-- Rows of a list of entries. -/
def rowsOf : List Span → Nat
  | [] => 0
  | e :: rest => e.count + rowsOf rest

/-- A version record. -/
structure Version where
  t : Nat
  live : Bool
  ser : Nat
  pins : Nat
  entries : List Span
  ok : Bool
  deriving DecidableEq, Repr

def State.versionAt (s : State) (c : Nat) (p : Pool) (v : Nat) : Version :=
  let a := p.version v
  let w := s.poolWord c a
  let x := s.poolWord c (a + 8)
  let total := s.poolWord c (a + 16)
  let n := fld x 23 16
  let es := (List.range n).map fun e => s.poolWord c (a + 32 + 8 * e)
  { t := fld w 7 0, live := bitOf w 8, ser := fld w 47 16, pins := fld x 15 0, entries := es.map spanOf
    ok := decide (fld w 15 9 = 0) && decide (fld w 63 48 = 0) && decide (fld x 63 24 = 0) && decide (n ≤ 124) &&
      decide (total.toNat = rowsOf (es.map spanOf)) && decide (s.poolWord c (a + 24) = 0) &&
      es.all fun e => decide (fld e 63 53 = 0) && decide (1 ≤ fld e 52 32) && decide (fld e 11 0 < p.np) }

/-- A piece record. `ref` is word 2 whole: within a request it may pass 65,535 before it falls again. -/
structure Piece where
  base : Word
  rows : Nat
  stride : Nat
  ref : Nat
  ok : Bool
  deriving DecidableEq, Repr

def State.pieceAt (s : State) (c : Nat) (p : Pool) (n : Nat) : Piece :=
  let a := p.piece n
  let b := s.poolWord c a
  let x := s.poolWord c (a + 8)
  let r := s.poolWord c (a + 16)
  let rows := fld x 20 0
  let stride := fld x 51 32
  { base := w64 (fld b 47 0), rows := rows, stride := stride, ref := r.toNat
    ok := decide (fld b 63 48 = 0) && decide (fld x 31 21 = 0) && decide (fld x 63 52 = 0) && decide (fld r 63 16 = 0) &&
      decide (s.poolWord c (a + 24) = 0) &&
      (if r = 0 then decide (b = 0) && decide (x = 0)
      else decide (1 ≤ rows) && decide (rows ≤ 2 ^ 20) && decide (stride % 8 = 0) && decide (8 ≤ stride)) }

/-- The lowest slot below n that satisfies a test. -/
def lowest (n : Nat) (p : Nat → Bool) : Option Nat := (List.range n).find? p

/-! ### Results (R395) -/

def stNoSlot : Word := 0xFFFF_FFFF_FFFF_FFFF
def stFull : Word := 0xFFFF_FFFF_FFFF_FFFE
def stNoPin : Word := 0xFFFF_FFFF_FFFF_FFFD
def stSerial : Word := 0xFFFF_FFFF_FFFF_FFFC
def stStale : Word := 0xFFFF_FFFF_FFFF_FFFB
def stRange : Word := 0xFFFF_FFFF_FFFF_FFFA
def stCorrupt : Word := 0xFFFF_FFFF_FFFF_FFF9

/-- Handles (R391). -/
def tensorHandle (t birth : Nat) : Word := w64 (t + birth * 2 ^ 16)
def versionHandle (t v ser : Nat) : Word := w64 (t + v * 2 ^ 8 + ser * 2 ^ 16)

/-! ### Counts and notices (R389, R393) -/

/-- Changes a field of STST by a signed amount. -/
def State.countLive (s : State) (c hi lo : Nat) (up : Bool) : State :=
  s.modBank c fun b =>
    let n := fld b.stst hi lo
    { b with stst := setFld b.stst hi lo (if up then n + 1 else n - 1) }

/-- The free notice of a piece, or one more lost (R389). -/
def State.freeNotice (s : State) (c n : Nat) (base : Word) : State :=
  let b := s.bank c
  let h : HReg := BitVec.ofNat 4 (fld b.stfr 3 0)
  let x := b.ring h
  if !bitOf b.stfr 4 || decide (hNlg x = 0) || decide (hSlot x < 16) || decide (hFree x = 0) then
    s.modBank c fun b => { b with stst := setFld b.stst 47 32 (Nat.min 65535 (fld b.stst 47 32 + 1)) }
  else
    let cells := s.localCells c (hTailAddr x) (wordsBytes [base, w64 n])
    let s := (s.pokeCells cells).noteWrite (clusterOf c) (cellsSig cells ||| pseudoBit c h.toNat)
    s.modBank c fun b => b.apply (.ring h (hMove x true 1))

/-- REF of a piece changes; at 0 the piece is freed (R393). -/
def State.lowerRef (s : State) (c : Nat) (p : Pool) (n : Nat) : State :=
  let q := s.pieceAt c p n
  if q.ref ≤ 1 then
    let s := s.poolClear c (p.piece n) 4
    (s.countLive c 28 16 false).freeNotice c n q.base
  else s.poolPut c (p.piece n + 16) (w64 (q.ref - 1))

def State.raiseRef (s : State) (c : Nat) (p : Pool) (n : Nat) : State :=
  s.poolPut c (p.piece n + 16) (w64 ((s.pieceAt c p n).ref + 1))

/-- A version is freed (R393). -/
def State.freeVersion (s : State) (c : Nat) (p : Pool) (v : Nat) : State :=
  let es := (s.versionAt c p v).entries
  let s := s.poolClear c (p.version v) 128
  let s := s.countLive c 14 8 false
  es.foldl (fun s e => s.lowerRef c p e.piece) s

/-- A version is created, CURRENT (R392). -/
def State.makeVersion (s : State) (c : Nat) (p : Pool) (t v ser : Nat) (es : List Span) : State :=
  let a := p.version v
  let s := s.poolPut c a (w64 (t + 2 ^ 8 + ser * 2 ^ 16))
  let s := s.poolPut c (a + 8) (w64 (es.length * 2 ^ 16))
  let s := s.poolPut c (a + 16) (w64 (rowsOf es))
  let s := (es.zipIdx).foldl (fun s (e, i) => s.poolPut c (a + 32 + 8 * i) e.word) s
  let s := es.foldl (fun s e => s.raiseRef c p e.piece) s
  s.countLive c 14 8 true

/-- The tensor record. -/
def State.putTensor (s : State) (c : Nat) (p : Pool) (t : Nat) (r : Tensor) : State :=
  let s := s.poolPut c (p.tensor t) (w64 (b2n r.live + r.cur * 2 ^ 8 + r.ser * 2 ^ 16))
  s.poolPut c (p.tensor t + 8) (w64 r.birth)

/-! ### Requests -/

/-- What a request comes to: a code that changes nothing, or a result with the new state. -/
abbrev StchDone := Except Word (Word × State)

/-- The tensor and the current version that a TH names, or the code (R391, R395). -/
def State.findTensor (s : State) (c : Nat) (p : Pool) (h : Word) : Except Word (Nat × Tensor × Version) :=
  let t := fld h 7 0
  if fld h 15 8 ≠ 0 ∨ fld h 63 48 ≠ 0 ∨ p.nt ≤ t then .error stStale else
  let r := s.tensor c p t
  if !r.ok then .error stCorrupt
  else if !r.live ∨ r.birth ≠ fld h 47 16 then .error stStale
  else if p.nv ≤ r.cur then .error stCorrupt
  else
    let v := s.versionAt c p r.cur
    if v.ok ∧ v.live ∧ v.t = t then .ok (t, r, v) else .error stCorrupt

/-- Occurrences of a piece in entries. -/
def uses (es : List Span) (n : Nat) : Nat := (es.filter fun e => decide (e.piece = n)).length

/-- The piece records that entries of a version name are as R390 lays them out; those of a live version have a REF that
counts its entries. -/
def State.piecesOk (s : State) (c : Nat) (p : Pool) (es : List Span) (live : Bool) : Bool :=
  es.all fun e =>
    let q := s.pieceAt c p e.piece
    q.ok && (!live || decide (uses es e.piece ≤ q.ref))

/-- The piece records that entries name are as R390 lays them out, with a REF that counts the entries of a live version that
has those and others. -/
def State.countsOk (s : State) (c : Nat) (p : Pool) (es all : List Span) : Bool :=
  es.all fun e =>
    let q := s.pieceAt c p e.piece
    q.ok && decide (uses all e.piece ≤ q.ref)

/-- The lowest free version record, or the code: NOSLOT, or CORRUPT where what is not LIVE is not all zero (R390). -/
def State.freeVersionSlot (s : State) (c : Nat) (p : Pool) : Except Word Nat :=
  match lowest p.nv fun v => !(s.versionAt c p v).live with
  | none => .error stNoSlot
  | some v => if s.poolBlank c (p.version v) 128 then .ok v else .error stCorrupt

/-- A new tensor with a version of the given entries (R396, R399). -/
def State.newTensor (s : State) (c : Nat) (p : Pool) (es : List Span) : StchDone :=
  match lowest p.nt fun t => !(s.tensor c p t).live with
  | none => .error stNoSlot
  | some t =>
    let r := s.tensor c p t
    if !r.ok then .error stCorrupt
    else if r.ser = 0xFFFF_FFFF then .error stSerial
    else
      match s.freeVersionSlot c p with
      | .error e => .error e
      | .ok v =>
        let ser := r.ser + 1
        let s := s.makeVersion c p t v ser es
        let s := s.putTensor c p t { r with live := true, cur := v, ser := ser, birth := ser }
        .ok (tensorHandle t ser, s.countLive c 7 0 true)

/-- A splice item. -/
structure Item where
  fresh : Bool
  span : Span
  base : Word
  rows : Nat
  stride : Nat
  deriving DecidableEq, Repr

/-- The item of four descriptor words (R397). -/
def itemOf (ws : List Word) : Item :=
  let w := ws.getD 0 0
  { fresh := decide (fld w 1 0 = 1), span := { piece := fld w 13 2, first := fld w 33 14, count := fld w 54 34 }
    base := ws.getD 1 0, rows := fld (ws.getD 2 0) 20 0, stride := fld (ws.getD 2 0) 51 32 }

/-- Item i of a splice descriptor's words. -/
def spliceItem (ws : List Word) (i : Nat) : List Word := (ws.drop (4 + 4 * i)).take 4

/-- The items of a splice descriptor. -/
def spliceItems (ws : List Word) : List Item :=
  (List.range (fld (ws.getD 0 0) 23 16)).map fun i => itemOf (spliceItem ws i)

/-- Gives each new piece of a list of items its number, in order. -/
def numberItems : List Nat → List Item → List Span
  | _, [] => []
  | free, i :: rest =>
    if i.fresh then { i.span with piece := free.headD 0 } :: numberItems free.tail rest
    else i.span :: numberItems free rest

/-- The records of the new pieces. -/
def State.makePieces (s : State) (c : Nat) (p : Pool) : List Item → List Span → State
  | i :: is, e :: es =>
    let s := if !i.fresh then s else
      let s := s.poolPut c (p.piece e.piece) i.base
      let s := s.poolPut c (p.piece e.piece + 8) (w64 (i.rows + i.stride * 2 ^ 32))
      s.countLive c 28 16 true
    s.makePieces c p is es
  | _, _ => s

/-- A version that its tensor leaves: PINNED, or freed where nothing pins it (R392). -/
def State.leaveVersion (s : State) (c : Nat) (p : Pool) (v pins : Nat) : State :=
  if pins = 0 then s.freeVersion c p v else s

/-- SPLICE (R397). -/
def State.splice (s : State) (c : Nat) (p : Pool) (h : Word) (ws : List Word) : StchDone :=
  match s.findTensor c p h with
  | .error e => .error e
  | .ok (t, r, old) =>
    let hd := ws.getD 0 0
    let at_ := fld hd 7 0
    let del := fld hd 15 8
    let items := spliceItems ws
    let ne := old.entries.length
    if ne < at_ ∨ ne < at_ + del ∨ 124 < ne - del + items.length then .error stRange else
    let named := items.filter fun i => !i.fresh
    if named.any fun i => !(s.pieceAt c p i.span.piece).ok then .error stCorrupt
    else if named.any fun i =>
        let q := s.pieceAt c p i.span.piece
        decide (q.ref = 0) || decide (q.rows < i.span.first + i.span.count) then .error stRange
    else if r.ser = 0xFFFF_FFFF then .error stSerial
    else
      let free := (List.range p.np).filter fun n => decide ((s.pieceAt c p n).ref = 0)
      match s.freeVersionSlot c p with
      | .error e => .error e
      | .ok v =>
        if free.length < (items.filter (·.fresh)).length then .error stNoSlot else
        let put := numberItems free items
        let kept := old.entries.take at_ ++ old.entries.drop (at_ + del)
        let es := old.entries.take at_ ++ put ++ old.entries.drop (at_ + del)
        if !s.piecesOk c p es false ||
            !s.countsOk c p (if old.pins = 0 then old.entries else kept) old.entries then .error stCorrupt
        else if es.any fun e => decide (65535 <
            (s.pieceAt c p e.piece).ref + uses es e.piece - (if old.pins = 0 then uses old.entries e.piece else 0))
        then .error stFull
        else
          let ser := r.ser + 1
          let s := s.makePieces c p items put
          let s := s.makeVersion c p t v ser es
          let s := s.putTensor c p t { r with cur := v, ser := ser }
          .ok (versionHandle t v ser, s.leaveVersion c p r.cur old.pins)

/-- SPIN (R398). -/
def State.spin (s : State) (c : Nat) (p : Pool) (h : Word) : StchDone :=
  match s.findTensor c p h with
  | .error e => .error e
  | .ok (t, r, v) =>
    if v.pins = 65535 then .error stFull else
    let a := p.version r.cur + 8
    .ok (versionHandle t r.cur v.ser, s.poolPut c a (setFld (s.poolWord c a) 15 0 (v.pins + 1)))

/-- SUNPIN (R398). -/
def State.sunpin (s : State) (c : Nat) (p : Pool) (h : Word) : StchDone :=
  let t := fld h 7 0
  let n := fld h 14 8
  if bitOf h 15 ∨ fld h 63 48 ≠ 0 ∨ p.nt ≤ t ∨ p.nv ≤ n then .error stStale else
  let v := s.versionAt c p n
  if !v.live ∨ v.t ≠ t ∨ v.ser ≠ fld h 47 16 then .error stStale
  else if !v.ok ∨ !(s.tensor c p t).ok then .error stCorrupt
  else if v.pins = 0 then .error stNoPin
  else
    let r := s.tensor c p t
    let frees := decide (v.pins = 1) && !(r.live && decide (r.cur = n))
    if frees && !s.piecesOk c p v.entries true then .error stCorrupt else
    let a := p.version n + 8
    let s := s.poolPut c a (setFld (s.poolWord c a) 15 0 (v.pins - 1))
    .ok (0, if frees then s.freeVersion c p n else s)

/-- SFORK (R399). -/
def State.sfork (s : State) (c : Nat) (p : Pool) (h : Word) : StchDone :=
  match s.findTensor c p h with
  | .error e => .error e
  | .ok (_, _, v) =>
    if !s.piecesOk c p v.entries true then .error stCorrupt
    else if v.entries.any fun e => decide (65535 < (s.pieceAt c p e.piece).ref + uses v.entries e.piece)
    then .error stFull
    else s.newTensor c p v.entries

/-- SDROP (R399). -/
def State.sdrop (s : State) (c : Nat) (p : Pool) (h : Word) : StchDone :=
  match s.findTensor c p h with
  | .error e => .error e
  | .ok (t, r, v) =>
    if v.pins = 0 ∧ !s.piecesOk c p v.entries true then .error stCorrupt else
    let s := s.putTensor c p t { r with live := false }
    .ok (0, (s.countLive c 7 0 false).leaveVersion c p r.cur v.pins)

/-- The bytes of a pool. -/
def Pool.bytes (p : Pool) : Nat := 1024 * p.nv + 32 * p.np + 16 * p.nt

/-- A byte of the core's pool that cannot be corrected: a request that finds one does nothing (R486; log 111). -/
def State.poolRotten (s : State) (c : Nat) : Option Nat :=
  match (s.bank c).pool with
  | some p => s.rotten c p.base p.bytes
  | none => none

/-- A request of the thread, by the func of its instruction (R394, R395). -/
def State.stchRequest (s : State) (c : Nat) (q : ThreadReq) : StchDone :=
  match (s.bank c).pool with
  | none => .error stCorrupt
  | some p =>
    match q.op with
    | 0 => s.newTensor c p []
    | 1 => s.splice c p q.a q.ops
    | 2 => s.spin c p q.a
    | 3 => s.sunpin c p q.a
    | 5 => s.sfork c p q.a
    | _ => s.sdrop c p q.a

/-- The thread answers the context of a request, where its task is still there (R395, R401). -/
def State.answer (s : State) (c : Nat) (q : ThreadReq) (x : Word) : State :=
  match ctxNo q.ctx with
  | some i => if q.live then s.complete c i q.rd x true else s
  | none => s

/-- A request of the thread is one chunk of its own, which aborts what it has written meets (R329, R401). -/
def State.threadCommits (s : State) (k : Nat) : State := s.couchAborts k (Tab.get s.wrote k 0) none

/-! ### The instructions (R394 to R400) -/

/-- A member that asks the thread: STITCH, SUB 1 where STPL is invalid, then a commit point (R395). -/
def stchOp (s : State) (enc : BitVec 32) (op : Nat) (rd : GReg) (a : Word) (desc : Ans (List Word × State)) : Out :=
  fabricOnly s enc <|
  conclude s <|
  (Ans.check s.view.pool.isSome (Trap.bare .stitch 1)).bind fun _ =>
  desc.bind fun (ws, s) => .ok (s.setWait (.commit (.stitch op a ws rd)))

/-- STNEW (R396). -/
def execStnew (rd : GReg) (s : State) : Out := stchOp s (encR 0x20 0 0 0 rd) 0 rd 0 (.ok ([], s))

/-- The limits of an item (R397). -/
def itemOk (np : Nat) (ws : List Word) : Bool :=
  let w := ws.getD 0 0
  let i := itemOf ws
  decide (fld w 1 0 ≤ 1) && decide (fld w 63 55 = 0) && decide (1 ≤ i.span.count) && decide (i.span.count ≤ 2 ^ 20) &&
  decide (i.span.first + i.span.count ≤ 2 ^ 20) && decide (ws.getD 3 0 = 0) &&
  (if i.fresh then
    decide (i.base.toNat % 8 = 0) && decide (fld i.base 63 48 = 0) && decide (fld (ws.getD 2 0) 31 21 = 0) &&
    decide (fld (ws.getD 2 0) 63 52 = 0) && decide (1 ≤ i.rows) && decide (i.rows ≤ 2 ^ 20) &&
    decide (i.stride % 8 = 0) && decide (8 ≤ i.stride) && decide (i.span.first + i.span.count ≤ i.rows)
  else decide (i.span.piece < np) && decide (i.base = 0) && decide (ws.getD 2 0 = 0))

/-- The limits of a header word and its zero bytes (R397). -/
def spliceHeaderOk (ws : List Word) : Bool :=
  let w := ws.getD 0 0
  decide (fld w 7 0 ≤ 124) && decide (fld w 15 8 ≤ 124) && decide (fld w 23 16 ≤ 8) && decide (fld w 63 24 = 0) &&
  decide (ws.getD 1 0 = 0) && decide (ws.getD 2 0 = 0) && decide (ws.getD 3 0 = 0)

/-- The splice descriptor at an address: read, and its limits checked (R397). -/
def State.spliceDesc (s : State) (a : Word) : Ans (List Word × State) :=
  (Ans.check (decide (a.toNat % 32 = 0)) (Trap.at_ .misalign 0 a)).bind fun _ =>
  (Ans.check (s.inTcm a.toNat 32) (Trap.at_ .perm 0 a)).bind fun _ =>
  (s.loadWords a 4).bind fun (hd, s) =>
  (Ans.check (spliceHeaderOk hd) (Trap.bare .stitch 5)).bind fun _ =>
  let n := fld (hd.getD 0 0) 23 16
  (Ans.check (s.inTcm a.toNat (32 + 32 * n)) (Trap.at_ .perm 0 a)).bind fun _ =>
  (s.loadWords (a + 32) (4 * n)).bind fun (ws, s) =>
  let np := fld s.view.stpl 47 32
  (Ans.check ((List.range n).all fun i => itemOk np (spliceItem (hd ++ ws) i)) (Trap.bare .stitch 5)).bind fun _ =>
  .ok (hd ++ ws, s)

/-- SPLICE (R397). -/
def execSplice (rd rs1 rs2 : GReg) (s : State) : Out :=
  stchOp s (encR 0x20 1 rs2 rs1 rd) 1 rd (s.g rs1) (s.spliceDesc (s.g rs2))

/-- SPIN (R398). -/
def execSpin (rd rs1 : GReg) (s : State) : Out := stchOp s (encR 0x20 2 0 rs1 rd) 2 rd (s.g rs1) (.ok ([], s))

/-- SUNPIN (R398). -/
def execSunpin (rd rs1 : GReg) (s : State) : Out := stchOp s (encR 0x20 3 0 rs1 rd) 3 rd (s.g rs1) (.ok ([], s))

/-- SFORK (R399). -/
def execSfork (rd rs1 : GReg) (s : State) : Out := stchOp s (encR 0x20 5 0 rs1 rd) 5 rd (s.g rs1) (.ok ([], s))

/-- SDROP (R399). -/
def execSdrop (rd rs1 : GReg) (s : State) : Out := stchOp s (encR 0x20 6 0 rs1 rd) 6 rd (s.g rs1) (.ok ([], s))

/-- The entry that holds row i: its number, its start and its span; `n` entries are left from entry e on. -/
def State.findRow (s : State) (a i e start : Nat) : Nat → Ans (Option (Nat × Nat × Span) × State)
  | 0 => .ok (none, s)
  | n + 1 => (s.tcmLoad (a + 32 + 8 * e) 8).bind fun (w, s) =>
    let x := spanOf (w64 w)
    if i < start + x.count then .ok (some (e, start, x), s) else s.findRow a i (e + 1) (start + x.count) n

/-- SIDX (R400): the pool is read through tcm. -/
def execSidx (rd rs1 rs2 : GReg) (s : State) : Out :=
  fabricOnly s (encR 0x20 4 rs2 rs1 rd) <|
  let h := s.g rs1
  let x := s.g rs2
  let i := fld x 31 0
  let mode := fld x 63 62
  conclude s <|
  (Ans.check (decide (fld x 61 32 = 0) && decide (mode ≠ 3)) (Trap.bare .stitch 5)).bind fun _ =>
  match s.view.pool with
  | none => .trap (Trap.bare .stitch 1)
  | some p =>
    let v := fld h 14 8
    (Ans.check (!bitOf h 15 && decide (fld h 63 48 = 0) && decide (fld h 7 0 < p.nt) && decide (v < p.nv))
      (Trap.bare .stitch 3)).bind fun _ =>
    (s.tcmLoad (p.version v) 8).bind fun (w0, s) =>
    (Ans.check (decide (w0 = fld h 7 0 + 2 ^ 8 + fld h 47 16 * 2 ^ 16)) (Trap.bare .stitch 3)).bind fun _ =>
    (s.tcmLoad (p.version v + 8) 8).bind fun (w1, s) =>
    (Ans.check (decide (w1 < 2 ^ 24) && decide (w1 / 2 ^ 16 ≤ 124)) (Trap.bare .stitch 3)).bind fun _ =>
    (s.tcmLoad (p.version v + 16) 8).bind fun (total, s) =>
    (s.tcmLoad (p.version v + 24) 8).bind fun (w3, s) =>
    (Ans.check (decide (total < 2 ^ 32) && decide (w3 = 0)) (Trap.bare .stitch 3)).bind fun _ =>
    (Ans.check (decide (i < total)) (Trap.bare .stitch 4)).bind fun _ =>
    (s.findRow (p.version v) i 0 0 (w1 / 2 ^ 16)).bind fun (r, s) =>
    match r with
    | none => .trap (Trap.bare .stitch 4)
    | some (e, start, sp) =>
      match mode with
      | 0 =>
        (s.tcmLoad (p.piece sp.piece) 8).bind fun (b, s) =>
        (s.tcmLoad (p.piece sp.piece + 8) 8).bind fun (g, s) =>
        .ok ((s.setG rd (w64 (b % 2 ^ 48 + (sp.first + i - start) * (g / 2 ^ 32 % 2 ^ 20)))).advance 4)
      | 1 => .ok ((s.setG rd (w64 (start + sp.count - i))).advance 4)
      | _ => .ok ((s.setG rd (w64 (e + sp.piece * 2 ^ 8))).advance 4)

end Sys2Proof.Machine
end

