-- ==== Sys2Proof/Machine/Comm.lean ====
section
/-! DEFINITION. Major 0x1F, COMM (R422 to R442): the committee record, the preparation of each instruction, what the
owner's atomic thread does with its request, and the held CMWAITs. -/

set_option Elab.async false

namespace Sys2Proof.Machine

/-! ### Answers (R430) -/

def cmState : Word := 0xFFFF_FFFF_FFFF_FFFF
def cmStale : Word := 0xFFFF_FFFF_FFFF_FFFE
def cmDup : Word := 0xFFFF_FFFF_FFFF_FFFD
def cmRange : Word := 0xFFFF_FFFF_FFFF_FFFC

/-- States of a record (R423). -/
def cmSetup : Nat := 1
def cmGather : Nat := 2
def cmClosed : Nat := 3
def cmEnded : Nat := 4

/-- BOUNDS, SUB 11 (R429). -/
def commTrap : Trap := Trap.bare .bounds 11

/-! ### The record (R422 to R426) -/

/-- Where member m's record, its list block and term t stand in a record. -/
def memberAt (r m : Nat) : Nat := r + 0x080 + 64 * m
def listAt (r m : Nat) : Nat := r + 0x400 + 544 * m
def termAt (r t : Nat) : Nat := r + 0x040 + 8 * t

/-- CTL's fields. -/
def ctlState (w : Word) : Nat := fld w 2 0
def ctlLive (w : Word) : Nat := fld w 31 24
/-- A: the LIVE members that have joined (R434). -/
def ctlJoined (w : Word) : Nat := fld w 23 16 &&& fld w 31 24
def ctlV (w : Word) : Nat := fld w 63 43

/-- The ones of a byte. -/
def ones (x : Nat) : Nat := ((List.range 8).filter fun i => x.testBit i).length

/-- What a request comes to: its answer, and the words it writes, by TCM address. -/
abbrev CommDone := Word × List (Nat × Word)

/-- A code that changes nothing. -/
def commCode (x : Word) : CommDone := (x, [])

/-! ### CMNEW, CMSET, CMEND as the thread performs them (R431, R432, R437) -/

def State.cmnewGo (s : State) (c r : Nat) (v : Word) : CommDone :=
  if ctlState (s.poolWord c r) ≠ 0 then commCode cmState else
  (0, (List.range 1024).map fun i => (r + 8 * i, if i = 0 then w64 (cmSetup + v.toNat * 2 ^ 43) else 0))

def State.cmendGo (s : State) (c r : Nat) : CommDone :=
  if ctlState (s.poolWord c r) = 0 then commCode cmState else (0, [(r, 0)])

/-- The limits of a member record, the payload of SEL 0 (R432). -/
def memberOk (ws : List Word) : Bool :=
  let mctl := ws.getD 1 0
  let lim := ws.getD 4 0
  let fn := fld (ws.getD 7 0) 24 0
  decide (fld mctl 1 0 = 1) && decide (fld mctl 5 4 ≤ 2) && decide (1 ≤ fn) && decide (fn ≤ 2 ^ 24) &&
  decide (fld (ws.getD 7 0) 63 40 < fn) &&
  decide ((ws.getD 5 0).toNat % 4 = 0) && decide ((ws.getD 6 0).toNat % 16 = 0) &&
  decide (fld (ws.getD 5 0) 63 48 = 0) && decide (fld (ws.getD 6 0) 63 48 = 0) && decide (ws.getD 8 0 = 0) &&
  (decide (fld mctl 5 4 ≠ 0) || decide (fld lim 31 0 = 0) ||
    (decide (1 ≤ fld lim 63 32) && decide (fld lim 63 32 < fld lim 31 0)))

/-- CMSET of a member. -/
def State.cmMemberGo (s : State) (c r : Nat) (ws : List Word) : CommDone :=
  let ctl := s.poolWord c r
  let m := fld (ws.getD 0 0) 10 8
  if ctlState ctl ≠ cmSetup then commCode cmState
  else if !memberOk ws then commCode cmRange
  else (0, (r, ctl ||| w64 (2 ^ (24 + m))) ::
    (List.range 8).map fun i => (memberAt r m + 8 * i, ws.getD (i + 1) 0))

/-- A value is finite. -/
def isFinite : FVal → Bool
  | .num _ _ _ => true
  | .nan _ | .inf _ => false

/-- Members strictly rise. -/
def risingMembers : List Word → Bool
  | a :: b :: rest => decide (fld a 2 0 < fld b 2 0) && risingMembers (b :: rest)
  | _ => true

/-- The limits of an expression, the payload of SEL 1 (R432). -/
def exprOk (ws : List Word) : Bool :=
  let used := (ws.drop 3).take (fld (ws.getD 1 0) 6 4 + 1)
  let temp := read32 (fld (ws.getD 2 0) 31 0)
  let margin := read32 (fld (ws.getD 2 0) 63 32)
  risingMembers used && (used.all fun w => isFinite (read32 (fld w 63 32))) &&
  isFinite temp && posZero.lt temp && isFinite margin && leF posZero margin

/-- The states in which an expression or a quorum may be set (R428, R432). -/
def settable (ctl : Word) : Bool :=
  decide (ctlState ctl = cmSetup) || decide (ctlState ctl = cmGather) || decide (ctlState ctl = cmClosed)

/-- CMSET of the expression. -/
def State.cmExprGo (s : State) (c r : Nat) (ws : List Word) : CommDone :=
  let ctl := s.poolWord c r
  if !settable ctl then commCode cmState
  else if !exprOk ws then commCode cmRange
  else
    let x := setFld (setFld (setFld ctl 3 3 1) 5 4 (fld (ws.getD 1 0) 1 0)) 10 8 (fld (ws.getD 1 0) 6 4)
    (0, (r, x) :: (r + 0x020, ws.getD 2 0) :: (List.range 8).map fun t => (termAt r t, ws.getD (t + 3) 0))

/-- CMSET of the quorum. -/
def State.cmQuorumGo (s : State) (c r : Nat) (ws : List Word) : CommDone :=
  let ctl := s.poolWord c r
  let q := fld (ws.getD 1 0) 3 0
  if !settable ctl then commCode cmState
  else if q < 1 ∨ 8 < q then commCode cmRange
  else (0, [(r, setFld ctl 15 12 q), (r + 0x018, w64 (fld (ws.getD 1 0) 63 32))])

/-- CMSET OPEN (R428). -/
def State.cmOpenGo (s : State) (c r : Nat) (now : Word) : CommDone :=
  let ctl := s.poolWord c r
  if ctlState ctl ≠ cmSetup then commCode cmState
  else if ctlLive ctl = 0 ∨ !bitOf ctl 3 then commCode cmRange
  else (0, [(r, setFld ctl 2 0 cmGather), (r + 0x008, 0), (r + 0x010, now)])

/-! ### CMJOIN (R433) -/

/-- CMJOIN as the thread performs it: member, LNORM and KTH, CPOS, and the mapped entries. -/
def State.cmjoinGo (s : State) (c r : Nat) (ws : List Word) : CommDone :=
  let ctl := s.poolWord c r
  let m := (ws.getD 0 0).toNat
  let es := ws.drop 3
  if ctlState ctl ≠ cmGather then commCode cmState
  else if !(ctlLive ctl).testBit m || decide (ws.getD 2 0 ≠ s.poolWord c (r + 0x008)) then commCode cmStale
  else if (fld ctl 23 16).testBit m then commCode cmDup
  else
    let a := listAt r m
    (w64 es.length,
      (r, ctl ||| w64 (2 ^ (16 + m))) ::
      (a, w64 (es.length + fld (ws.getD 1 0) 31 0 * 2 ^ 32)) :: (a + 8, w64 (fld (ws.getD 1 0) 63 32)) ::
      (a + 16, ws.getD 2 0) :: (es.zipIdx).map fun (e, i) => (a + 32 + 8 * i, e))

/-! ### CMBN (R435) -/

/-- A member's list: log-normaliser, K-th logit, and entries of id and logit. -/
structure MemberList where
  lnorm : Nat
  kth : Nat
  entries : List (Nat × Nat)
  deriving DecidableEq, Repr

def State.listOf (s : State) (c r m : Nat) : MemberList :=
  let a := listAt r m
  let h := s.poolWord c a
  { lnorm := fld h 63 32, kth := fld (s.poolWord c (a + 8)) 31 0
    entries := (List.range (Nat.min 64 (fld h 6 0))).map fun i =>
      let e := s.poolWord c (a + 32 + 8 * i)
      (fld e 51 32, fld e 31 0) }

/-- A term with the list of its member, for a member of A. -/
structure Voice where
  w : Nat
  prob : Bool
  list : MemberList
  deriving DecidableEq, Repr

/-- The terms in use whose member is in A. -/
def State.voices (s : State) (c r : Nat) : List Voice :=
  let ctl := s.poolWord c r
  (List.range (fld ctl 10 8 + 1)).filterMap fun t =>
    let w := s.poolWord c (termAt r t)
    let m := fld w 2 0
    if (ctlJoined ctl).testBit m then some { w := fld w 63 32, prob := bitOf w 3, list := s.listOf c r m } else none

/-- Every id once. -/
def distinct (l : List Nat) : List Nat := l.foldl (fun out x => if out.contains x then out else out ++ [x]) []

/-- ln of a binary32 value, rounded (R232). -/
def ln32 (x : Nat) : Nat := rnd32 (sfuExact 3 [] (read32 x))

/-- What a term gives an id: W × its value. -/
def Voice.share (v : Voice) (margin x : Nat) : Nat :=
  let lp := match v.list.entries.find? fun e => decide (e.1 = x) with
    | some (_, l) => sub32 l v.list.lnorm
    | none => sub32 (sub32 v.list.kth v.list.lnorm) margin
  mul32 v.w (if v.prob then exp32 lp else lp)

/-- One more share into the sum, the maximum or the minimum. -/
def combineWith (mode a q : Nat) : Nat :=
  match mode with
  | 2 => (fmt32.minMax true a q).1
  | 3 => (fmt32.minMax false a q).1
  | _ => add32 a q

/-- The shares of an id in order of the terms, combined. -/
def combineShares (mode : Nat) : List Nat → Nat
  | [] => 0
  | q :: rest => rest.foldl (combineWith mode) q

/-- The score of an id. -/
def scoreOf (mode temp margin : Nat) (vs : List Voice) (x : Nat) : Nat :=
  let acc := combineShares mode (vs.map fun v => v.share margin x)
  div32 (if mode = 1 then ln32 acc else acc) temp

/-- The order of CMBN: score descending, +0 = −0, ties to the lower id, NaN last by id. -/
def candBefore (a b : Nat × Nat) : Bool :=
  let x := read32 a.1
  let y := read32 b.1
  match x.isNan, y.isNan with
  | true, true => decide (a.2 < b.2)
  | true, false => false
  | false, true => true
  | false, false => if y.lt x then true else if x.lt y then false else decide (a.2 < b.2)

def insertCand (e : Nat × Nat) : List (Nat × Nat) → List (Nat × Nat)
  | [] => [e]
  | f :: rest => if candBefore e f then e :: f :: rest else f :: insertCand e rest

/-- The combined list of a closed round: scores and ids in order. -/
def State.combined (s : State) (c r : Nat) : List (Nat × Nat) :=
  let ctl := s.poolWord c r
  let tm := s.poolWord c (r + 0x020)
  let vs := s.voices c r
  let cand := distinct (vs.flatMap fun v => v.list.entries.map (·.1))
  (cand.map fun x => (scoreOf (fld ctl 5 4) (fld tm 31 0) (fld tm 63 32) vs x, x)).foldl
    (fun l e => insertCand e l) []

/-- CMBN as the thread performs it. -/
def State.cmbnGo (s : State) (c r : Nat) (o : Word) : CommDone :=
  if ctlState (s.poolWord c r) ≠ cmClosed then commCode cmState else
  let out := (s.combined c r).take (fld o 40 32)
  (w64 out.length, (out.zipIdx).map fun (e, i) => (fld o 17 0 + 8 * i, w64 (e.1 + e.2 * 2 ^ 32)))

/-! ### CMADV (R436) -/

/-- What feeding a member comes to. -/
structure Feed where
  words : List Word
  record : List (Nat × Word)
  retired : Bool
  ended : Bool
  deriving DecidableEq, Repr

/-- Two tokens in one word. -/
def tokenWord (a b : Nat) : Word := w64 (a % 2 ^ 24 + b % 2 ^ 24 * 2 ^ 32)

/-- The feed of member m with its inverse map entry: T0 to T3 are the entry's, but T0 of one that lacks the word (R427,
R436). That of a member that is not LIVE has no entry: its tokens are 0 (log 21). -/
def State.feedMember (s : State) (c r m : Nat) (pos : Word) (i0 i1 : Word) : Feed :=
  let a := memberAt r m
  let mpos := s.poolWord c (a + 0x10)
  if !(ctlLive (s.poolWord c r)).testBit m then
    { words := [0, 0, 0, mpos]
      record := [], retired := false, ended := false }
  else
    let unk := decide (fld i0 2 0 = 0)
    let n := if unk then 1 else fld i0 2 0
    let t0 := if unk then fld (s.poolWord c (a + 0x30)) 63 40 else fld i0 31 8
    let mctl := s.poolWord c a
    let lim := s.poolWord c (a + 0x18)
    let up := mpos + w64 n
    let hit := decide (fld lim 31 0 ≠ 0) && decide (fld lim 31 0 ≤ up.toNat)
    let slide := hit && decide (fld mctl 5 4 = 0)
    let retire := hit && decide (fld mctl 5 4 = 1)
    let end_ := hit && decide (fld mctl 5 4 = 2)
    let now := if slide then up - w64 (fld lim 63 32) else up
    { words := [w64 (n + b2n unk * 2 ^ 4 + b2n slide * 2 ^ 5 + b2n retire * 2 ^ 6 + b2n end_ * 2 ^ 7),
        tokenWord t0 (fld i0 55 32), tokenWord (fld i1 23 0) (fld i1 55 32), now]
      record := [(a, if retire then setFld mctl 1 0 2 else mctl), (a + 0x10, now), (a + 0x38, pos + 1)]
      retired := retire, ended := end_ }

/-- CMADV as the thread performs it: the operand word, then the inverse entries of members 0 to 7. -/
def State.cmadvGo (s : State) (c r : Nat) (ws : List Word) (now : Word) : CommDone :=
  let ctl := s.poolWord c r
  let a := ws.getD 0 0
  let x := fld a 19 0
  let inv (m : Nat) : Word := ws.getD (1 + 2 * m) 0
  if ctlState ctl ≠ cmClosed then commCode cmState
  else if ctlV ctl ≤ x || (List.range 8).any fun m => (ctlLive ctl).testBit m && decide (4 < fld (inv m) 2 0) then
    commCode cmRange
  else
    let pos := s.poolWord c (r + 0x008)
    let fs := (List.range 8).map fun m => (m, s.feedMember c r m pos (inv m) (ws.getD (2 + 2 * m) 0))
    let live := fs.foldl (fun l (m, f) => if f.retired then l &&& (0xFF ^^^ 2 ^ m) else l) (ctlLive ctl)
    let state := if live = 0 || fs.any fun f => f.2.ended then cmEnded else cmGather
    let x1 := setFld (setFld (setFld (setFld ctl 2 0 state) 23 16 0) 31 24 live) 32 32 0
    (w64 (live + state * 2 ^ 8),
      (fs.flatMap fun (m, f) => f.record ++ (f.words.zipIdx).map fun (w, i) => (fld a 49 32 + 32 * m + 8 * i, w)) ++
      [(r, x1), (r + 0x008, pos + 1), (r + 0x028, w64 x)] ++
      (if state = cmGather then [(r + 0x010, now)] else []))

/-! ### The thread (R430, R434, R441) -/

/-- A request that the thread takes in order. -/
def State.commRequest (s : State) (c : Nat) (q : ThreadReq) (now : Word) : CommDone :=
  let r := q.a.toNat
  match q.op with
  | 0 => s.cmnewGo c r (q.ops.getD 0 0)
  | 1 => s.cmjoinGo c r q.ops
  | 3 => s.cmbnGo c r (q.ops.getD 0 0)
  | 4 => s.cmadvGo c r q.ops now
  | 5 => s.cmMemberGo c r q.ops
  | 13 => s.cmExprGo c r q.ops
  | 21 => s.cmQuorumGo c r q.ops
  | 29 => s.cmOpenGo c r now
  | _ => s.cmendGo c r

/-- The quorum is met at the end of a cycle, or was `ago` cycles before it as far as the deadline goes (R434). -/
def State.quorumMet (s : State) (c r : Nat) (now : Word) (ago : Nat) : Bool :=
  let ctl := s.poolWord c r
  let a := ctlJoined ctl
  let l := ctlLive ctl
  let deadl := fld (s.poolWord c (r + 0x018)) 31 0
  let least := Nat.min (fld ctl 15 12) (ones l)
  (decide (a = l) && decide (l ≠ 0)) ||
  (decide (deadl ≠ 0) && decide (deadl + ago ≤ (now - s.poolWord c (r + 0x010)).toNat) && decide (least ≤ ones a) &&
    decide (1 ≤ least))

/-- A held CMWAIT is evaluated: none where it stays held (R434). -/
def State.cmwaitGo (s : State) (c r : Nat) (now : Word) (ago : Nat) : Option CommDone :=
  let ctl := s.poolWord c r
  if (s.rotten c r 8192).isSome then none
  else if ctlState ctl ≠ cmGather then some (commCode cmState)
  else if !s.quorumMet c r now ago then none
  else
    let dlx := decide (ctlJoined ctl ≠ ctlLive ctl)
    some (w64 (ctlJoined ctl + ctlLive ctl * 2 ^ 8 + b2n dlx * 2 ^ 16),
      [(r, setFld (if dlx then setFld ctl 32 32 1 else ctl) 2 0 cmClosed)])

/-- The cells of words by TCM address. -/
def State.wordCells (s : State) (c : Nat) (ws : List (Nat × Word)) : List (Nat × Byte) :=
  ws.flatMap fun (a, x) => s.localCells c a (toBytes 8 x.toNat)

/-- What an evaluation of the held CMWAITs comes to: answers, those that stay, and cells written. -/
structure Evaluated where
  answers : List (ThreadReq × Word)
  kept : List ThreadReq
  cells : List (Nat × Byte)
  deriving DecidableEq, Repr

/-- The evaluation of the held CMWAITs in the order of their commits; that of a killed task is discarded. -/
def State.evaluate (s : State) (c : Nat) (now : Word) : List ThreadReq → Evaluated
  | [] => { answers := [], kept := [], cells := [] }
  | q :: rest =>
    if !q.live then s.evaluate c now rest else
    match s.cmwaitGo c q.a.toNat now 0 with
    | none => let e := s.evaluate c now rest; { e with kept := q :: e.kept }
    | some (x, ws) =>
      let cells := s.wordCells c ws
      let e := (s.pokeCells cells).evaluate c now rest
      { e with answers := (q, x) :: e.answers, cells := cells ++ e.cells }

/-- A cycle of a core's atomic thread: a request performed, if any, then the evaluation, in one hart chunk (R329, R434,
R441). -/
def State.threadCycle (s : State) (c : Nat) (done : Option (ThreadReq × CommDone)) (left : List ThreadReq)
    (now : Word) : State :=
  let first := match done with
    | some (_, _, ws) => s.wordCells c ws
    | none => []
  let e := (s.pokeCells first).evaluate c now (s.core c).held
  let cells := first ++ e.cells
  let answers := (match done with
    | some (q, x, _) => [(q, x)]
    | none => []) ++ e.answers
  let s := s.hartCells (clusterOf c) cells
  let s := s.modCore c fun x => { x with reqs := left, held := e.kept }
  answers.foldl (fun s (q, x) => s.answer c q x) s

/-- A held CMWAIT has been evaluated before the cycle that comes (R434): it would return now. -/
def State.waitDue (s : State) (c : Nat) (now : Word) : Bool :=
  (s.core c).held.any fun q => q.live && (s.cmwaitGo c q.a.toNat now 1).isSome

/-- The machine checks of the records that held CMWAITs cannot be evaluated on (R486; log 111). -/
def State.waitChecks (s : State) (c : Nat) : State :=
  ((s.core c).held.filterMap fun q => s.rotten c q.a.toNat 8192).foldl State.checkOwners s

/-- An event of a core's atomic thread: the evaluation of an earlier cycle where it has work, else one cycle, of a request
that `perform` makes, if it makes one, and its evaluation (R434, R441). -/
def threadEvent (s : State) (core : Nat) (perform : State → Word → State) : Out :=
  let s := s.advanceCycOf core
  let now := s.cyc core
  hartEvent s fun s =>
    let idle (s : State) : State := s.threadCycle core none (s.core core).reqs now
    .next ((if s.waitDue core now then idle s else perform s now).waitChecks core)

/-- A request that the thread cannot perform, since a byte that it reads cannot be corrected: nothing is written, and the
answer is free (R486; log 111). -/
def State.requestRots (s : State) (core : Nat) (q : ThreadReq) (rest : List ThreadReq) (bad : Nat) (now : Word) : State :=
  let (x, s) := s.draw
  (s.threadCycle core (some (q, x, [])) rest now).checkOwners bad

/-- STITCH_REQUEST: the atomic thread performs the next request of the core, where it is one of STCH, in one chunk with the
evaluation behind it (R395, R441). -/
def execStitchRequest (core : Nat) (s : State) : Out :=
  match (s.core core).reqs with
  | [] => .next s
  | q :: rest =>
    if q.comm then .next s else
    threadEvent s core fun s now =>
      match s.poolRotten core with
      | some p => s.requestRots core q rest p now
      | none =>
        match s.stchRequest core q with
        | .error e => s.threadCycle core (some (q, e, [])) rest now
        | .ok (x, t) => (t.threadCommits (clusterOf core)).threadCycle core (some (q, x, [])) rest now

/-- COMMITTEE_REQUEST: the thread performs the request at the head of the core's requests, where it is one of COMM, and
evaluates the held CMWAITs (R430, R434). -/
def execCommitteeRequest (core : Nat) (s : State) : Out :=
  threadEvent s core fun s now =>
    match (s.core core).reqs with
    | [] => s.threadCycle core none [] now
    | q :: rest =>
      if !q.comm then s.threadCycle core none (q :: rest) now else
      match s.rotten core q.a.toNat 8192 with
      | some p => s.requestRots core q rest p now
      | none => s.threadCycle core (some (q, s.commRequest core q now)) rest now

/-- QUORUM_DEADLINE: the held CMWAITs of a core are evaluated in a cycle without a request (R434). -/
def execQuorumDeadline (core : Nat) (s : State) : Out :=
  threadEvent s core fun s now => s.threadCycle core none (s.core core).reqs now

/-! ### Atomics (R340 to R344, R441) -/

/-- An atomic that its owner performs (R341, R342, R344). -/
def State.ownerPerforms (s : State) (core entry : Nat) (e : Entry) (a : AtomicOp) : State :=
  let t := if a.rel then s.perform none e.rels else s
  match t.performAtomic [] a with
  | .ok (r, t) => t.atomicDone core entry e a (.ok r)
  | .error p => (t.atomicDone core entry e a (.error p)).deviceFails p

/-- ATOMIC_PERFORM (R341, R342, R344), or the refusal of one whose destination the permission table refused (R465). A cycle
in which an atomic thread performs one ends with the evaluation of its held CMWAITs, as any cycle of it does (R441). -/
def execAtomicPerform (core entry : Nat) (s : State) : Out :=
  let e := (s.core core).entry entry
  match e.atomic with
  | none => .next s
  | some a =>
    if !s.mayPerform core e a then .next s
    else if e.barred then .next (s.modCore core fun x => x.refuse (isControl core) entry 2)
    else
      match a.thread core with
      | none => hartEvent s fun s => .next (s.ownerPerforms core entry e a)
      | some d =>
        if (s.core d).held.isEmpty then hartEvent s fun s => .next (s.ownerPerforms core entry e a) else
        threadEvent s d fun s now =>
          let s := s.ownerPerforms core entry e a
          s.threadCycle d none (s.core d).reqs now

/-! ### The instructions (R429 to R437) -/

/-- n bytes lie in the TCM outside the code region and outside the record. -/
def State.outsideRecord (s : State) (r a n : Nat) : Bool :=
  s.inTcm a n && (decide (a + n ≤ r) || decide (r + 8192 ≤ a))

/-- The common sequence of R430: the record's address, the preparation, then a commit point and the request. -/
def commOp (s : State) (fn3 : Nat) (op : Nat) (gs2 gs1 rd : GReg) (prep : Nat → Ans (List Word × State)) : Out :=
  fabricOnly s (encT 0x1F fn3 gs2 gs1 0 0 rd) <|
  let c := s.g gs1
  conclude s <|
  (Ans.check (decide (c.toNat % 8192 = 0)) (Trap.at_ .misalign 0 c)).bind fun _ =>
  (Ans.check (decide ((32 - s.me.bank.kernel.rb) * 8192 ≤ c.toNat) && decide (c.toNat < 2 ^ 18))
    (Trap.at_ .perm 0 c)).bind fun _ =>
  (prep c.toNat).bind fun (ops, s) => .ok (s.setWait (.commit (.comm op c.toNat ops rd)))

/-- CMNEW (R431). -/
def execCmnew (rd gs1 gs2 : GReg) (s : State) : Out :=
  let v := s.g gs2
  commOp s 0 0 gs2 gs1 rd fun _ =>
    (Ans.check (decide (1 ≤ v.toNat) && decide (v.toNat ≤ 2 ^ 20)) commTrap).bind fun _ => .ok ([v], s)

/-- The entries of a submission mapped to committee ids (R433): `out` holds logit and id. -/
def State.mapEntries (s : State) (fm : Word) (fn v : Nat) :
    List Word → List (Nat × Nat) → Ans (List (Nat × Nat) × State)
  | [], out => .ok (out, s)
  | e :: rest, out =>
    let l := fld e 31 0
    let t := fld e 55 32
    if (read32 l).isNan || decide (fn ≤ t) then s.mapEntries fm fn v rest out else
    (s.load (fm + w64 (4 * t)) 4).bind fun (f, s) =>
    if 2 ^ 20 ≤ f ∨ v ≤ f then s.mapEntries fm fn v rest out
    else if out.any fun (k, x) => decide (x = f) && leF (read32 l) (read32 k) then s.mapEntries fm fn v rest out
    else s.mapEntries fm fn v rest ((out.filter fun p => decide (p.2 ≠ f)) ++ [(l, f)])

/-- CMJOIN (R433). -/
def execCmjoin (rd gs1 gs2 : GReg) (s : State) : Out :=
  let a := s.g gs2
  commOp s 1 1 gs2 gs1 rd fun r =>
    (Ans.check (decide (a.toNat % 8 = 0)) (Trap.at_ .misalign 0 a)).bind fun _ =>
    (Ans.check (s.outsideRecord r a.toNat 8) (Trap.at_ .perm 0 a)).bind fun _ =>
    (s.load a 8).bind fun (x, s) =>
    let w := w64 x
    let m := fld w 2 0
    let k := fld w 14 8
    (Ans.check (decide (w &&& ~~~0x7F07 = 0) && decide (1 ≤ k) && decide (k ≤ 64)) commTrap).bind fun _ =>
    (Ans.check (s.outsideRecord r a.toNat (32 + 8 * k)) (Trap.at_ .perm 0 a)).bind fun _ =>
    (s.loadWords (a + 8) (3 + k)).bind fun (ws, s) =>
    (s.tcmLoad r 8).bind fun (ctl, s) =>
    (s.tcmLoad (memberAt r m + 0x30) 8).bind fun (fn, s) =>
    (s.tcmLoad (memberAt r m + 0x20) 8).bind fun (fm, s) =>
    (s.mapEntries (w64 (fm % 2 ^ 48)) (fn % 2 ^ 25) (ctlV (w64 ctl)) (ws.drop 3) []).bind fun (out, s) =>
    .ok ([w64 m, ws.getD 0 0, ws.getD 1 0] ++ out.map fun (l, f) => w64 (l + f * 2 ^ 32), s)

/-- CMWAIT (R434). -/
def execCmwait (rd gs1 : GReg) (s : State) : Out := commOp s 2 2 0 gs1 rd fun _ => .ok ([], s)

/-- CMBN (R435). -/
def execCmbn (rd gs1 gs2 : GReg) (s : State) : Out :=
  let o := s.g gs2
  let dst := fld o 17 0
  let cap := fld o 40 32
  commOp s 3 3 gs2 gs1 rd fun r =>
    (Ans.check (decide (fld o 31 18 = 0) && decide (fld o 63 41 = 0) && decide (dst % 8 = 0) && decide (1 ≤ cap) &&
      decide (cap ≤ 256) && s.outsideRecord r dst (8 * cap)) commTrap).bind fun _ => .ok ([o], s)

/-- The inverse entries of id x for the LIVE members from m on; n members are left (R436). -/
def State.inverseEntries (s : State) (r live x m : Nat) : Nat → Ans (List Word × State)
  | 0 => .ok ([], s)
  | n + 1 =>
    if !live.testBit m then
      (s.inverseEntries r live x (m + 1) n).bind fun (ws, s) => .ok (0 :: 0 :: ws, s)
    else
      (s.tcmLoad (memberAt r m + 0x28) 8).bind fun (im, s) =>
      (s.loadWords (w64 (im % 2 ^ 48 + 16 * x)) 2).bind fun (e, s) =>
      (s.inverseEntries r live x (m + 1) n).bind fun (ws, s) => .ok (e ++ ws, s)

/-- CMADV (R436). -/
def execCmadv (rd gs1 gs2 : GReg) (s : State) : Out :=
  let a := s.g gs2
  let feed := fld a 49 32
  commOp s 4 4 gs2 gs1 rd fun r =>
    (Ans.check (decide (fld a 31 20 = 0) && decide (fld a 63 50 = 0) && decide (feed % 8 = 0) &&
      s.outsideRecord r feed 256) commTrap).bind fun _ =>
    (s.tcmLoad r 8).bind fun (ctl, s) =>
    (s.inverseEntries r (ctlLive (w64 ctl)) (fld a 19 0) 0 8).bind fun (ws, s) => .ok (a :: ws, s)

/-- The bits of a setting block's words that a SEL gives a use; word 0 apart (R432). -/
def settingBits (sel : Nat) : List Word :=
  match sel with
  | 0 => [0x33, BitVec.allOnes 64, BitVec.allOnes 64, BitVec.allOnes 64, BitVec.allOnes 64, BitVec.allOnes 64,
      0xFFFF_FF00_01FF_FFFF, BitVec.allOnes 64, 0, 0, 0]
  | 1 => [0x73, BitVec.allOnes 64] ++ List.replicate 8 0xFFFF_FFFF_0000_000F ++ [0]
  | 2 => 0xFFFF_FFFF_0000_000F :: List.replicate 10 0
  | _ => List.replicate 11 0

/-- No reserved bit of a setting block is set, and its SEL is the one given. -/
def settingOk (sel : Nat) (ws : List Word) : Bool :=
  decide (fld (ws.getD 0 0) 2 0 = sel) && decide (ws.getD 0 0 &&& ~~~0x707 = 0) &&
  ((ws.drop 1).zip (settingBits sel)).all fun (w, m) => decide (w &&& ~~~m = 0)

/-- CMSET with a SEL: the setting block is read and its reserved bits are checked (R432). -/
def cmsetOp (s : State) (sel : Nat) (rd gs1 gs2 : GReg) : Out :=
  let b := s.g gs2
  commOp s 5 (8 * sel + 5) gs2 gs1 rd fun _ =>
    (Ans.check (decide (b.toNat % 32 = 0)) (Trap.at_ .misalign 0 b)).bind fun _ =>
    (Ans.check (s.inTcm b.toNat 96) (Trap.at_ .perm 0 b)).bind fun _ =>
    (s.loadWords b 12).bind fun (ws, s) =>
    (Ans.check (settingOk sel ws) commTrap).bind fun _ => .ok (ws, s)

/-- CMSET MEMBER (R432); also the row of a SEL of 4 to 7, which traps. -/
def execCmsetMember (rd gs1 gs2 : GReg) (s : State) : Out := cmsetOp s 0 rd gs1 gs2

/-- CMSET EXPR (R432). -/
def execCmsetExpr (rd gs1 gs2 : GReg) (s : State) : Out := cmsetOp s 1 rd gs1 gs2

/-- CMSET QUORUM (R432). -/
def execCmsetQuorum (rd gs1 gs2 : GReg) (s : State) : Out := cmsetOp s 2 rd gs1 gs2

/-- CMSET OPEN (R432). -/
def execCmsetOpen (rd gs1 gs2 : GReg) (s : State) : Out := cmsetOp s 3 rd gs1 gs2

/-- CMEND (R437). -/
def execCmend (rd gs1 : GReg) (s : State) : Out := commOp s 6 6 0 gs1 rd fun _ => .ok ([], s)

end Sys2Proof.Machine
end

