-- ==== Sys2Proof/Machine/Mmu.lean ====
section
/-! DEFINITION. Major 0x21 (R365, R370 to R374): invalidations, the SID table, the translation of an address, and the
eviction of a cached translation. -/

set_option Elab.async false

namespace Sys2Proof.Machine

/-! ### Invalidations (R371, R372) -/

/-- A member of the family: PRIV on a fabric core where it is not valid there, PRIV below its level on a control core
(R370, R475). -/
def mmuOnly (s : State) (fabric : Bool) (least : Nat) (k : Out) : Out :=
  if s.ctl then (if s.level < least then trapOut s (Trap.bare .priv 0) else k)
  else if fabric then k else trapOut s (Trap.bare .priv 0)

/-- The submission of an invalidation; the job's operands are g[rs1] and the virtual device whose translations it
removes. -/
def invalidationOp (s : State) (kind : Nat) (rd rs1 rs2 : GReg) (ok : Bool) (v : Nat) : Out :=
  conclude s <|
  (Ans.check ok (Trap.bare .job 3)).bind fun _ =>
  (s.mailbox (s.g rs2)).bind fun _ => s.submit rd kind (s.g rs2) 0 0 [s.g rs1, w64 v]

/-- TLBI (R371). -/
def execTlbi (rd rs1 rs2 : GReg) (s : State) : Out :=
  mmuOnly s false 1 <| invalidationOp s 15 rd rs1 rs2 true s.vd

/-- TLBIS (R371). -/
def execTlbis (rd rs1 rs2 : GReg) (s : State) : Out :=
  mmuOnly s true 0 <| invalidationOp s 16 rd rs1 rs2 (decide (fld (s.g rs1) 63 16 = 0)) s.vd

/-- TLBIA (R371). -/
def execTlbia (rd rs1 rs2 : GReg) (s : State) : Out :=
  mmuOnly s false 2 <| invalidationOp s 17 rd rs1 rs2 (decide (fld (s.g rs1) 63 6 = 0)) (fld (s.g rs1) 5 0)

/-- The virtual device an invalidation acts for. -/
def Job.invVd (j : Job) : Nat := (j.ops.getD 1 0).toNat

/-- A translation of the job's virtual device is one that the job removes (R371). -/
def Job.removes (j : Job) (sid page : Nat) (lg : Bool) : Bool :=
  let x := j.ops.getD 0 0
  match j.kind with
  | 15 =>
    decide (sid = fld x 63 48) && (decide (page = fld x 47 16) || (lg && decide (page / 32 = fld x 47 21)))
  | 16 => decide (sid = fld x 15 0)
  | _ => true

/-- A cached translation is removed. -/
def Job.removesEntry (j : Job) (e : TlbEntry) : Bool := decide (e.vd = j.invVd) && j.removes e.sid e.page e.lg

/-- The chunk of a context has used a removed translation and is not committed. -/
def State.usedRemoved (s : State) (j : Job) (c : Nat) (i : Fin 4) : Bool :=
  let y := s.ctx c i
  y.running && decide ((s.bank c).vdid = j.invVd) && y.chunk.used.any fun u => j.removes u.sid u.page u.lg

/-- The contexts of the cores that are listed. -/
def State.allCtxs (s : State) : List (Nat × Fin 4) :=
  (s.cores.filter fun (c, _) => !isControl c).flatMap fun (c, _) => [(c, 0), (c, 1), (c, 2), (c, 3)]

/-- Host pages of 64 KiB that the removed translations led to: those still cached, and those replaced or evicted since the
last invalidation. -/
def State.removedPages (s : State) (j : Job) : List Nat := (s.walked.filter j.removesEntry).map fun e => e.hpa / 2 ^ 16

/-- An entry holds an atomic that is not performed, at an address that the job may cover. -/
def Entry.pendingAt (e : Entry) (j : Job) : Bool :=
  match e.atomic with
  | some a => decide (e.st = .ready) && decide (2 ^ 32 ≤ a.addr.toNat) &&
      (decide (j.kind ≠ 15) || decide (a.addr.toNat / 2 ^ 21 = fld (j.ops.getD 0 0) 47 21))
  | none => false

/-- The saved send queue of a copy holds such an atomic. -/
def Bank.pendingAt (b : Bank) (j : Job) : Bool :=
  decide (b.vdid = j.invVd) &&
    match b.save with
    | some x => x.sendq.any fun e => e.pendingAt j
    | none => false

/-- An atomic of the virtual device that has committed and is not performed, on a core or in the saved copy of one, at an
address that the job may cover (R372, item 6). -/
def State.atomicsPending (s : State) (j : Job) : Bool :=
  s.cores.any fun (_, x) =>
    (decide (x.bank.vdid = j.invVd) && x.sendq.any fun e => e.pendingAt j) || x.bank.pendingAt j || x.other.pendingAt j

/-- A segment on its way to another module has been read through a translation that the job may remove (R372, item 4). -/
def Job.flyingUnder (x j : Job) : Bool :=
  let a := (x.ops.getD 1 0).toNat + x.done
  decide (x.st = .running) && decide (x.flying ≠ 0) &&
    match j.kind with
    | 15 =>
      let y := fld (j.ops.getD 0 0) 47 21
      decide (x.sid = fld (j.ops.getD 0 0) 63 48) && decide (a / 2 ^ 21 ≤ y) && decide (y ≤ (a + x.flying - 1) / 2 ^ 21)
    | 16 => decide (x.sid = fld (j.ops.getD 0 0) 15 0)
    | _ => true

/-- Such a segment of a copy of the virtual device is not committed. -/
def State.segmentsFlying (s : State) (j : Job) : Bool :=
  s.cores.any fun (_, x) => decide (x.bank.vdid = j.invVd) && x.bank.jobs.any fun y => y.flyingUnder j

/-- The stores that must be performed for every core before DONE: those of the kick, and those to the pages that the
removed translations led to (R372, item 5). -/
def State.removedStores (s : State) (j : Job) : Tab Nat :=
  let pages := s.removedPages j
  s.hist.foldl (fun t (w, h) => if pages.contains (w / 2 ^ 13) then t.raise w h.length else t) j.rels

/-- The removed translations are held nowhere, and no walk goes behind the tables of the kick (R372). -/
def State.dropTlbs (s : State) (j : Job) : State :=
  let s : State := { s with
    cores := s.cores.map fun (c, x) => (c, { x with tlb := x.tlb.filter fun e => !j.removesEntry e })
    walked := s.walked.filter fun e => !j.removesEntry e }
  s.modVd j.invVd fun d => { d with walkFloor := j.tables.foldl (fun t (w, n) => t.raise w n) d.walkFloor }

/-- The uncommitted chunks that have used a removed translation are aborted or restarted. -/
def State.rollBackUsers (s : State) (j : Job) : State :=
  s.allCtxs.foldl (fun s (c, i) => if s.usedRemoved j c i then s.rollBack c i else s) s

/-- INVALIDATION_JOB: a queued invalidation completes (R372). Forced chunks that used a removed translation, segments on
their way to another module, and atomics are waited for; the other chunks are aborted or restarted. -/
def execInvalidationJob (core slot : Nat) (s : State) : Out :=
  hartEvent s fun s =>
  let j := s.job core slot
  if !j.invalidating || j.st ≠ .queued then .next s
  else if (s.allCtxs.any fun (c, i) => s.usedRemoved j c i && (s.ctx c i).forced) || s.segmentsFlying j ||
      s.atomicsPending j then .next s
  else
    let s := s.perform none (s.removedStores j)
    let s := (s.dropTlbs j).rollBackUsers j
    .next (s.endJob core slot stDone 0 0)

/-- TRANSLATION_EVICT: the device drops a cached translation (R365). -/
def execTranslationEvict (core ix : Nat) (s : State) : Out :=
  .next (s.modCore core fun x => { x with tlb := x.tlb.eraseIdx ix })

/-! ### SIDW (R373) -/

/-- SIDW: the entry of a space's root is written and the old one returned (R373). A root has the layout of R363, whose
reserved bits must be 0; a table address need be aligned only where V = 1. -/
def execSidw (rd rs1 rs2 : GReg) (s : State) : Out :=
  mmuOnly s false 1 <|
  let x := s.g rs1
  let d := s.g rs2
  let a := (s.vdev s.vd).sidtb.toNat + 8 * fld x 15 0
  if fld x 63 16 ≠ 0 ∨ fld d 11 1 ≠ 0 ∨ fld d 63 40 ≠ 0 ∨ (bitOf d 0 ∧ malformed 1 d) then trapOut s (Trap.bare .bounds 9) else
  match s.hyperWord false 0 a with
  | .error f => trapOut s { f.trap .load 0 with faddr := none, pginf := none, translated := false }
  | .ok old => writeG (s.hyperWrite a d) rd old 4

/-! ### ATRN (R374) -/

/-- ATRN's word: OK, LEVEL, STAGE and REASON, LG, PERM, GPA, WIN. -/
def atrnWord (ok : Bool) (level stage reason : Nat) (lg : Bool) (perm gpa win : Nat) : Word :=
  w64 (b2n ok + level % 4 * 2 + stage % 2 * 8 + reason % 8 * 2 ^ 4 + b2n lg * 2 ^ 7 + perm % 8 * 2 ^ 8 +
    gpa % 2 ^ 40 * 2 ^ 16 + win % 256 * 2 ^ 56)

/-- The effective permissions of a translation: R, W and X (R115, R367). -/
def TlbEntry.perms (e : TlbEntry) : Nat :=
  b2n (e.r1 && e.r2) + b2n (e.w1 && e.w2) * 2 + b2n (e.x1 && !e.w1 && e.x2) * 4

/-- PERM and WIN of a failure that found no translation, and LG where it found no leaf: the spec gives them no value (log
22). -/
def openFields (level stage reason gpa : Nat) (lg : Option Bool) (x : Word) : Word :=
  atrnWord false level stage reason (lg.getD (bitOf x 0)) (fld x 3 1) gpa (fld x 11 4)

/-- The address lies in the translated range of the executing core (R113, R114). -/
def State.inXlateRange (s : State) (va : Word) : Bool :=
  (s.ctl || decide (2 ^ 32 ≤ va.toNat)) && decide (va.toNat < 2 ^ 48)

/-- The outcome word for an access, and the state with the walk cached; a table read that meets bad data raises the alarm
or the machine check, though nothing traps (R383, R486). -/
def State.atrn (s : State) (va : Word) (k : AccKind) : Word × State :=
  if !s.inXlateRange va then
    let (x, s) := s.draw
    (openFields (fld x 13 12) (fld x 14 14) 7 0 none x, s)
  else
  match s.xlate (s.asker s.focus.1) va with
  | (.error f, s) =>
    let s := s.deviceFails (f.trap k va)
    let (x, s) := s.draw
    (openFields f.level (b2n f.stage2) (if f.barred then fld x 17 15 else f.reason) f.gpa f.lg x, s)
  | (.ok e, s) =>
    let gpa := e.gpa + va.toNat % 2 ^ 16
    let s := s.noteUse true e.lg va
    match e.refuses k gpa with
    | some f => (atrnWord false f.level (b2n f.stage2) f.reason e.lg e.perms f.gpa e.win, s)
    | none =>
      if e.admitted then (atrnWord true 0 0 0 e.lg e.perms gpa e.win, s) else
      let (x, s) := s.draw
      (atrnWord false (fld x 1 0) (fld x 2 2) (fld x 5 3) e.lg e.perms (fld x 45 6) e.win, s)

/-- ATRN (R374). -/
def execAtrn (rd rs1 rs2 : GReg) (s : State) : Out :=
  let va := s.g rs1
  let go (k : AccKind) : Out := let (x, s) := s.atrn va k; writeG s rd x 4
  match (s.g rs2).toNat with
  | 0 => go .load
  | 1 => go .store
  | 2 => go .fetch
  | _ => trapOut s (Trap.bare .bounds 9)

end Sys2Proof.Machine
end

