-- ==== Sys2Proof/Machine/Link.lean ====
section
/-! DEFINITION. The link (R443 to R459): messages that arrive, from this module or over a link; flits and the states of
an Afong link; revolutions and their members; windows and link status; the network and storage ports (R444, R473). -/

set_option Elab.async false

namespace Sys2Proof.Machine

/-! ### What arrives for the module itself -/

/-- A verdict of another module reaches its sender (R179, R446). -/
def State.arriveVerdict (s : State) (m : Msg) : State :=
  let why := match (m.payload.getD 1 0).toNat with
    | 0 => none
    | x + 1 => some x
  let v : Verdict := { core := m.dst, entry := (m.payload.getD 0 0).toNat, mid := fld m.w0 63 48, vd := m.vd, why := why }
  { s with verdicts := s.verdicts ++ [v] }

/-- A request of another module reaches the leader of a ring (R455). -/
def State.arriveRequest (s : State) (m : Msg) : State :=
  let fin := decide (m.payload.getD 0 0 = 1)
  let r := (m.payload.getD 1 0).toNat
  let n := (m.payload.getD 2 0).toNat
  let key := ringKey m.vd r
  let (ms, s) := s.ringMembers m.dst m.vd r (s.ring key)
  let answer (s : State) (x : Word) : State :=
    s.post (deviceMsg .ring .system 0 m.dst (srcCore m.src) (srcMod m.src) m.vd
      [2, w64 (b2n fin), w64 r, w64 n, m.payload.getD 3 0, x])
  match firstIx (fun e => decide (e = (srcCore m.src, srcMod m.src))) ms 0 with
  | none => answer s notMem
  | some i =>
    if !s.leads ms then answer s notMem else
    match s.ringRequest key ms fin n i with
    | (some x, s) => answer s x
    | (none, s) => s

/-- The leader's answer reaches the context that asked. -/
def State.arriveAnswer (s : State) (m : Msg) : State :=
  let key := ringKey m.vd (m.payload.getD 2 0).toNat
  match ctxNo (m.payload.getD 4 0).toNat with
  | none => s
  | some i =>
    match (s.ctx m.dst i).wait with
    | .rev fin k n rd =>
      if decide (m.payload.getD 1 0 = w64 (b2n fin)) && decide (k = key) && decide (m.payload.getD 3 0 = w64 n) then
        s.modCtx m.dst i fun y => { y with wait := .result rd (m.payload.getD 5 0) }
      else s
    | _ => s

/-- A message between ring controllers (R453, R455). -/
def State.arriveRing (s : State) (m : Msg) : State :=
  match (m.payload.getD 0 0).toNat with
  | 0 | 1 => s.arriveRequest m
  | 2 => s.arriveAnswer m
  | _ =>
    let key := ringKey m.vd (m.payload.getD 1 0).toNat
    s.ringMoved key (s.ring key) (ringOfUpdate m.payload)

/-- The status of an answer that tells of a committed segment which is not the last. -/
def stRunning : Nat := 0xFF

/-- A copy to another module has ended there, or a segment of it is committed: then it goes on, or ends CANCEL after a JCAN
(R270, R272; log 108). -/
def State.arriveCopyEnd (s : State) (m : Msg) : State :=
  let jid := (m.payload.getD 0 0).toNat
  let n := jid % 8
  let j := s.job m.dst n
  if j.st = .running ∧ j.copying ∧ jobId n j = jid then
    if (m.payload.getD 1 0).toNat = stRunning then
      let done := 8 * (m.payload.getD 3 0).toNat
      let s := s.setJob m.dst n { j with done := done, flying := 0 }
      if j.cancel then (s.unreserve m.dst n).endJob m.dst n stCancel 0 (done / 8) else s
    else s.endJob m.dst n (m.payload.getD 1 0).toNat (m.payload.getD 2 0).toNat (m.payload.getD 3 0).toNat
  else s

/-- The copy that a segment from another module belongs to, as its destination sees it. -/
def inboundJob (m : Msg) : Job :=
  let p (i : Nat) : Word := m.payload.getD i 0
  { Job.reset with
    gen := BitVec.ofNat 13 ((p 0).toNat / 8)
    kind := fld (p 2) 7 0
    done := (p 1).toNat
    ops := [0, 0, w64 (2 ^ 63 + m.dst % 2 ^ 18 * 2 ^ 18 + fld (p 3) 17 0),
      w64 (fld (p 4) 23 0 + fld (p 2) 11 8 * 2 ^ 32), p 5] }

/-- The end of a copy, told to the module it comes from. -/
def State.endInbound (s : State) (m : Msg) (status dcode dlen : Nat) : State :=
  s.post (deviceMsg .copyEnd .system 0 m.dst (srcCore m.src) (srcMod m.src) m.vd
    [m.payload.getD 0 0, w64 status, w64 dcode, w64 dlen])

/-- The context reserved for a copy of another module is given back. -/
def State.dropReserved (s : State) (m : Msg) : State :=
  let n := (m.payload.getD 0 0).toNat % 8
  s.modCore m.dst fun x => { x with ctxs := x.ctxs.map fun y => if y.reservedFor m.src n then Ctx.reset else y }

/-- A segment of the copy of another module that a message tells of. -/
def Msg.sameCopy (m n : Msg) : Bool :=
  decide (m.kind = .copy) && decide (n.kind = .copy) && decide (m.src = n.src) && decide (m.dst = n.dst) &&
    decide (m.payload.getD 0 0 = n.payload.getD 0 0)

/-- A copy is called back (R270): its context goes, and its segment where it waits; the answer says how many bytes were
committed. A segment that has been written has been answered. -/
def State.recalled (s : State) (m : Msg) : State :=
  let t := { s with net := s.net.filter fun x => !m.sameCopy x }.dropReserved m
  match s.net.find? m.sameCopy with
  | some x => t.endInbound m stCancel 0 ((x.payload.getD 1 0).toNat / 8)
  | none => t

/-- The copy ends FAULT at its destination. -/
def State.inboundFault (s : State) (m : Msg) (j : Job) (code : Nat) : State :=
  (s.dropReserved m).endInbound m stFault code (j.done / 8)

/-- A segment's words at their place, and the answer; the last segment starts the handler and ends the copy (R272, R273). -/
def State.inboundWrite (s : State) (m : Msg) (j : Job) (n : Nat) (ws : List Word) : State :=
  let d := m.dst
  match s.segmentCells d m.vd (fld j.dst 17 0 + j.done) ws with
  | (_, some a) => (s.inboundFault m j Cause.uncorr.code).checkOwners a
  | (cells, none) =>
    let s := s.hartCells (clusterOf d) cells
    let done := j.done + 8 * ws.length
    if done < j.len then s.endInbound m stRunning 0 (done / 8) else
    let s := if j.hnd = 0 then s else s.startDelivery m.src n j
    s.endInbound m stDone 0 (j.len / 8)

/-- A segment whose destination may take it now: none where it waits for a context or a ring slot (R273, R274). -/
def State.inboundTake (s : State) (m : Msg) (j : Job) (n : Nat) (ws : List Word) : Option State :=
  let d := m.dst
  if j.kind = 6 then
    if decide (j.done = 0) && decide (j.hnd ≠ 0) then (s.reserve m.src n j).map fun s => s.inboundWrite m j n ws
    else some (s.inboundWrite m j n ws)
  else
    match s.ringRoom m.src j with
    | .fault => some (s.inboundFault m j Cause.ring.code)
    | .full => none
    | .slot a next =>
      match s.segmentCells d m.vd a ws with
      | (_, some b) => some ((s.inboundFault m j Cause.uncorr.code).checkOwners b)
      | (cells, none) => some ((s.fillSlot d j.ringNo next cells).endInbound m stDone 0 (j.len / 8))

/-- A segment of a copy from another module arrives, or its recall (R270, R272 to R274). The first meets the checks of R272.
A delivery waits while the kernel at its core is FAULTED (R208). -/
def arriveCopy (ix : Nat) (m : Msg) (s : State) : Out :=
  hartEvent s fun s =>
  let t := { s with net := s.net.eraseIdx ix }
  let j := inboundJob m
  if j.kind = 0xFF then .next (t.recalled m) else
  match (if j.done = 0 then s.landing m.dst m.vd j else some 0) with
  | none => .next s
  | some (e + 1) => .next (t.inboundFault m j (e + 1))
  | some 0 =>
    if decide (j.kind = 6) && decide (j.hnd ≠ 0) && decide ((s.bank m.dst).kst = .faulted) then .next s else
    .next ((t.inboundTake m j ((m.payload.getD 0 0).toNat % 8) (m.payload.drop 6)).getD s)

/-- MESSAGE_ARRIVAL: a message reaches its destination core, or the link it leaves by (R187, R445). -/
def execMessageArrival (ix : Nat) (s : State) : Out :=
  match s.net[ix]? with
  | none => .next s
  | some m =>
    if decide (m.kind = .fault) || !s.firstInNet ix m || (decide (m.kind = .task) && m.outOfScope) || s.releaseHeld m
    then .next s else
    let t := { s with net := s.net.eraseIdx ix }
    if !m.here then
      match s.route m with
      | some l => .next (t.sendLink l m)
      | none => .next s
    else
      match m.kind with
      | .verdict => .next (t.arriveVerdict m)
      | .ring => .next (t.arriveRing m)
      | .copyEnd => hartEvent s fun s => .next ({ s with net := s.net.eraseIdx ix }.arriveCopyEnd m)
      | _ =>
        if m.kind = .copy then arriveCopy ix m s else
        match s.fate m with
        | .waits => .next s
        | f => .next (t.deliver m f)

/-! ### Flits (R447, R450) -/

/-- The content of a flit as the event gives it (log 24): what a message is on its way, its source, and its words. A
flit of a longer message that is not its last carries code 0xFF. -/
def kindOfCode (n : Nat) : Option MKind :=
  [MKind.task, .release, .report, .scopeMiss, .start, .notice, .port, .atomic, .copy, .fault, .verdict, .ring,
    .copyEnd, .done][n]?

/-- The message that a flit completes. -/
def flitMsg (ws : List Word) : Option Msg :=
  let x := ws.getD 1 0
  let w1 := ws.getD 4 0
  let core := if bitOf x 30 then controlCore (fld x 5 0) else fld x 17 0
  (kindOfCode (ws.getD 0 0).toNat).map fun k =>
    { w0 := ws.getD 3 0
      w1 := w1
      payload := ws.drop 5
      kind := k
      mid := ws.getD 2 0
      src := remoteCore core (fld x 43 32)
      dst := hdrCore w1
      dmod := 0xFFF
      vd := fld x 55 48
      entry := if bitOf x 57 then some (fld x 62 58) else none
      barred := bitOf x 56
      rect := 0
      rels := []
      abcnt := 0
      eff := []
      order := 0
      hyper := bitOf x 63 }

/-- FLIT_RECEIVE: a good flit in sequence is acknowledged and, where it is a message's last, the message enters the
module's networks; a replayed flit is discarded, and a CRC failure or a gap is answered with a NAK of the flit expected
(R447, R448). -/
def execFlitReceive (link seq : Nat) (crcOk : Bool) (words : List Word) (s : State) : Out :=
  let y := s.link link
  if !y.carries then .next s
  else if !crcOk || (decide (seq ≠ y.recvSeq) && decide ((seq + 4096 - y.recvSeq) % 4096 < 2048)) then
    .next (s.modLink link fun y => { y with answer := some (true, y.recvSeq) })
  else if seq ≠ y.recvSeq then .next s
  else
    let s := s.modLink link fun y => { y with recvSeq := (y.recvSeq + 1) % 4096, answer := some (false, seq) }
    match flitMsg words with
    | none => .next s
    | some m => .next (s.post m)

/-- The flits of a replay buffer behind the one of a sequence number; all of them where it holds none. -/
def ackedTail (replay : List (Nat × Msg)) (seq : Nat) : List (Nat × Msg) :=
  match firstIx (fun e => decide (e.1 = seq)) replay 0 with
  | some i => replay.drop (i + 1)
  | none => replay

/-- ACK_RECEIVE: the flits up to the acknowledged one leave the replay buffer (R447). -/
def execAckReceive (link seq : Nat) (s : State) : Out :=
  let y := s.link link
  if !y.carries || y.replay.all fun e => decide (e.1 ≠ seq) then .next s else
  .next (s.modLink link fun y =>
    let left := ackedTail y.replay seq
    { y with replay := left, naks := 0, gone := y.gone + (y.replay.length - left.length) })

/-- One replay more (R458). -/
def Link.replayed (y : Link) : Link := { y with retry := Nat.min 65535 (y.retry + 1) }

/-- NAK_RECEIVE: replay from the NAKed flit; the eighth NAK of one flit in a row resets the link (R447, R448). -/
def execNakReceive (link seq : Nat) (s : State) : Out :=
  let y := s.link link
  if !y.carries || y.replay.all fun e => decide (e.1 ≠ seq) then .next s else
  let n := if y.nakSeq = seq then y.naks + 1 else 1
  let s := s.modLink link fun y => { y.replayed with naks := n, nakSeq := seq }
  .next (if 8 ≤ n then s.resetLink link 2 else s)

/-- LTO_EXPIRY: a flit has waited longer than the link's timeout (R447). -/
def execLtoExpiry (link : Nat) (s : State) : Out :=
  if (s.link link).replay.isEmpty then .next s else .next (s.resetLink link 3)

/-! ### Training, commands and routes (R445, R448, R474) -/

/-- TRAINING_COMPLETE on 8 or 4 lanes (R448). A link that comes from DOWN changes the active count (R445). -/
def execTrainingComplete (link lanes peer : Nat) (s : State) : Out :=
  let y := s.link link
  if 24 ≤ link ∨ y.st ≠ .training ∨ (lanes ≠ 8 ∧ lanes ≠ 4) then .next s else
  let s := s.modLink link fun y =>
    let y := if y.replay.isEmpty then y else y.replayed
    { y with st := if lanes = 8 then .up else .degraded, lanes := lanes, peer := peer % 4096, fromDown := false }
  let s := if y.fromDown then s.drainLink link else s
  .next (s.linkReportFree link)

/-- TRAINING_ATTEMPT_FAIL (R448). -/
def execTrainingAttemptFail (link : Nat) (s : State) : Out :=
  let y := s.link link
  if y.st ≠ .training then .next s
  else if y.attempt < 3 then .next (s.modLink link fun y => { y with attempt := y.attempt + 1 })
  else .next (s.linkDown link 4)

/-- ELECTRICAL_RESET_COMPLETE (R448). -/
def execElectricalResetComplete (link : Nat) (s : State) : Out :=
  if (s.link link).st ≠ .reset then .next s else
  .next ((s.modLink link fun y => { y with st := .training, attempt := 0, fromDown := false }).linkReportFree link)

/-- LINK_ENABLE (R474). -/
def execLinkEnable (link : Nat) (s : State) : Out := .next (if 24 ≤ link then s else s.enableLink link)

/-- LINK_DISABLE (R474). -/
def execLinkDisable (link : Nat) (s : State) : Out := .next (s.disableLink link)

/-- LINK_RESET (R474). -/
def execLinkReset (link : Nat) (s : State) : Out := .next (s.resetLink link 1)

/-- RSET_WRITE (R474). -/
def execRsetWrite (module mask : Nat) (s : State) : Out := .next (s.writeRset module mask)

/-- ROUTE_DRAIN_COMPLETE: every flit sent over the set's links before the change is acknowledged or lost, and the mask to
come applies (R445). -/
def execRouteDrainComplete (module : Nat) (s : State) : Out :=
  match Tab.look s.drains module with
  | none => .next s
  | some d =>
    if d.marks.any fun (l, n) => decide ((s.link l).gone < n) then .next s else
    .next { s with rsets := Tab.put s.rsets module d.mask, drains := Tab.drop s.drains module }

/-! ### Members of a ring (R453, R454) -/

/-- A member is lost for a cause: 1 reset, 2 kernel, 3 link (R454). A loss on another module is known there. -/
def State.memberLost (s : State) (v : Nat) (m : Nat × Nat) (why : Nat) : Bool :=
  let x := s.core m.1
  if s.localMod m.2 then
    match why with
    | 1 => x.failed || bitOf (s.cluster (clusterOf m.1)).clown 31
    | 2 => decide ((x.copyOf v).kst ≠ .active)
    | _ => false
  else
    match why with
    | 1 | 2 => true
    | 3 => (s.activeLinks m.2).all fun l => !(s.link l).carries
    | _ => false

/-- MEMBER_LOST: an open revolution is aborted (R453, R454). -/
def execMemberLost (ring member why : Nat) (s : State) : Out :=
  let g := s.ring ring
  match g.members[member]? with
  | none => .next s
  | some m =>
    if g.st ≠ .opened ∨ !s.leads g.members ∨ !s.memberLost (ring / 64) m why then .next s else
    .next (s.ringChange ring { g with st := .aborted, epoch := g.epoch + 1, cause := why })

/-- A member can be reached and its kernel is ACTIVE (R453). -/
def State.memberReady (s : State) (v : Nat) (m : Nat × Nat) : Bool :=
  if s.localMod m.2 then !s.memberLost v m 1 && !s.memberLost v m 2
  else (s.activeLinks m.2).any fun l => (s.link l).carries

/-- REVOLUTION_READY: every member of an aborted revolution is back (R453). -/
def execRevolutionReady (ring : Nat) (s : State) : Out :=
  let g := s.ring ring
  if g.st ≠ .aborted ∨ !s.leads g.members ∨ !(g.members.all fun m => s.memberReady (ring / 64) m) then .next s else
  .next (s.ringChange ring { g with st := .idle, cur := g.cur - 1 })

/-! ### RVBEG, RVEND, RVQRY (R455, R456) -/

/-- BOUNDS, SUB 12 (R451). -/
def linkTrap : Trap := Trap.bare .bounds 12

/-- RVBEG and RVEND at issue: the checks, then a commit point; a control core is never a member (R455). -/
def revOp (s : State) (fin : Bool) (rd rs1 rs2 : GReg) : Out :=
  let r := (s.g rs1).toNat
  let n := (s.g rs2).toNat
  conclude s <|
  (Ans.check (decide (r ≤ 63) && decide (n < 2 ^ 48) && decide (n ≠ 0)) linkTrap).bind fun _ =>
  if s.ctl then .ok ((s.setG rd notMem).advance 4) else
  (Ans.check (decide (s.me.bank.rvtb ≠ 0)) linkTrap).bind fun _ => .wait (.commit (.rev fin r n rd))

/-- RVBEG (R455). -/
def execRvbeg (rd rs1 rs2 : GReg) (s : State) : Out := revOp s false rd rs1 rs2

/-- RVEND (R455). -/
def execRvend (rd rs1 rs2 : GReg) (s : State) : Out := revOp s true rd rs1 rs2

/-- RVQRY: the module's copy of a ring's state (R456). -/
def execRvqry (rd rs1 rs2 : GReg) (s : State) : Out :=
  let r := (s.g rs1).toNat
  let q := s.g rs2
  if 63 < r ∨ 1 < q.toNat ∨ s.me.bank.rvtb = 0 then trapOut s linkTrap else
  let g := s.ring (ringKey s.vd r)
  writeG s rd (if q = 0 then g.tag else w64 (g.st.code + g.members.length * 4 + g.ended.toNat * 2 ^ 32)) 4

/-! ### Windows (R457) -/

/-- A word of memory belongs to a window: its line is written under the window's key, or its frame of die SRAM is mapped
with the window (R366, R457). -/
def State.inWindow (s : State) (w a : Nat) : Bool :=
  match regionOf (8 * a) with
  | .die => (vdsWith fun v => (List.range (Nat.min (2 ^ 19) (s.vdev v).s2len.toNat)).any fun f =>
      match s.stage2 v (f * 2 ^ 21) with
      | .ok e => decide (e.win = w) && decide (e.frame / 2 ^ 21 = 8 * a / 2 ^ 21)
      | .error _ => false) ≠ []
  | .hbm | .tcm | .spad =>
    decide ((Tab.look s.lines (a / 8)).map (·.key) = some (((Tab.look s.windows w).map (·.key)).getD 0))

/-- The stores to lines of a window, of a table of stores. -/
def State.windowStores (s : State) (t : Tab Nat) (w : Nat) : Tab Nat := t.filter fun (a, _) => s.inWindow w a

/-- The window an instruction names: BOUNDS, SUB 12, or VDPERM where it is not granted (R457, R468). -/
def State.windowArg (s : State) (w : Nat) : Ans Unit :=
  (Ans.check (decide (1 ≤ w) && decide (w ≤ 255)) linkTrap).bind fun _ =>
  Ans.check (s.windowOk s.vd w) (Trap.bare .vdperm 0)

/-- The release count of a window. -/
def State.releaseCount (s : State) (w : Nat) : Word := ((Tab.look s.windows w).map (·.count)).getD 0

/-- The release count of a window rises by 1. -/
def State.raiseRelease (s : State) (w : Nat) : State :=
  match Tab.look s.windows w with
  | some g => { s with windows := Tab.put s.windows w { g with count := g.count + 1 } }
  | none => s

/-- WREL: waits as FENCE does for the stores to the window's lines, then raises the release count; a control core's
stores are complete (R457). -/
def execWrel (rd rs1 : GReg) (s : State) : Out :=
  let w := (s.g rs1).toNat
  conclude s <|
  (s.windowArg w).bind fun _ =>
  if s.ctl then
    let s := (s.perform none (s.windowStores (s.covered s.focus.1) w)).raiseRelease w
    .ok ((s.setG rd (s.releaseCount w)).advance 4)
  else .wait (.fence (s.windowStores s.cx.fence w) (some w) rd)

/-- WACQ: the core's later loads of the window's lines take their floors from the stores performed for it now (R457). -/
def execWacq (rd rs1 : GReg) (s : State) : Out :=
  let w := (s.g rs1).toNat
  conclude s <|
  (s.windowArg w).bind fun _ =>
  let t := s.windowStores (s.covered s.focus.1) w
  let s := s.modMe fun x => { x with floors := t.foldl (fun f (a, n) => f.raise a n) x.floors }
  .ok ((s.setG rd (s.releaseCount w)).advance 4)

/-! ### Link status (R458) -/

/-- LSTAT's word of a peer link. The lanes of a link in RESET or TRAINING are open (log 23). -/
def State.lstat (s : State) (l : Nat) : Word × State :=
  let word (st lanes retry lost peer : Nat) : Word :=
    w64 (st + lanes % 16 * 2 ^ 8 + retry % 2 ^ 16 * 2 ^ 16 + Nat.min 65535 lost * 2 ^ 32 + peer % 2 ^ 12 * 2 ^ 48)
  let (x, t) := s.draw
  if l < 24 then
    let y := s.link l
    match y.st with
    | .reset | .training => (word y.st.code (fld x 3 0) y.retry y.lost y.peer, t)
    | .down | .up | .degraded => (word y.st.code y.lanes y.retry y.lost y.peer, s)
  else
    let (up, lanes) := Tab.get s.ports l (false, 0)
    if up && decide (16 ≤ lanes) then (word 2 (fld x 3 0) 0 0 0, t)
    else (word (if up then 2 else 0) (if up then lanes else 0) 0 0 0, s)

/-- LSTAT (R458). -/
def execLstat (rd rs1 : GReg) (s : State) : Out :=
  let l := (s.g rs1).toNat
  if 28 < l then trapOut s linkTrap else
  let (x, s) := s.lstat l
  writeG s rd x 4

/-- The link widths a port comes up with: a host port 16 or 8 lanes, the storage port 16; the device declines any other
(R443). -/
def portLanes (port lanes : Nat) : Bool :=
  match port with
  | 24 | 25 => decide (lanes = 16) || decide (lanes = 8)
  | 28 => decide (lanes = 16)
  | _ => true

/-- PORT_LINK_CHANGE: a host, network or storage port's link goes up or down (R443, R458). -/
def execPortLinkChange (port : Nat) (up : Bool) (lanes : Nat) (s : State) : Out :=
  if port < 24 ∨ 28 < port ∨ (up ∧ !portLanes port lanes) then .next s else .next { s with ports := Tab.put s.ports port (up, lanes) }

/-! ### Network and storage ports (R444, R473) -/

/-- The virtual device and the space of a context. -/
def State.portVd (s : State) (port q : Nat) : Nat := fld (s.portWord port q 0) 5 0
def State.portSid (s : State) (port q : Nat) : Nat := fld (s.portWord port q 0) 31 16

/-- The port for a context (R360). -/
def State.portAsker (s : State) (port q : Nat) : Asker := vdAsker (portAgent port) (s.portVd port q) (s.portSid port q)

/-- A request fails: the pair is STOPPED at it, and the trap report goes to the report core (R444). -/
def State.portFail (s : State) (port q ix : Nat) (t : Trap) : State :=
  let v := s.portVd port q
  let rpt := s.portWord port q 8
  let s := s.setStopped port q true
  let s := s.putPortWord port q 0x38 (w64 (ix % 2 ^ 16))
  let (pg, s) := s.orFree t.pginf
  let (id, s) := s.draw
  s.moduleReport v rpt [causeWord t.cause.code t.sub false 0 q, t.faddr.getD 0, 0, id, pg]

/-- What an access makes of the word it meets: none where it writes nothing. -/
def portValue (o : PortOp) (old : Word) : Option Word :=
  match o with
  | .read => none
  | .write x => some x
  | .compareSwap v w => some (w64 (atomicNew 9 8 old.toNat v.toNat w.toNat).1)
  | .fetchAdd x => some (w64 (atomicNew 0 8 old.toNat x.toNat 0).1)

/-- The port makes one access of a context, for the request of index ix (R443, R444). -/
def State.portAccess (s : State) (port q ix : Nat) (va : Word) (o : PortOp) : State :=
  if !s.portValid port q || bitOf (s.portWord port q 0) 7 || decide (va.toNat % 8 ≠ 0) then s else
  match s.vdFind (s.portAsker port q) (if o = .read then .load else .store) va with
  | (.error t, s) => s.portFail port q ix t
  | (.ok p, s) =>
    match portValue o (s.wordAt p) with
    | some x => s.vdStore p x
    | none => s

/-- A request has been submitted, and the port has not gone beyond it (R473; log 105). -/
def State.portSubmitted (s : State) (port q ix : Nat) : Bool :=
  let n := 2 ^ fld (s.portWord port q 0x28) 3 0
  let x := s.queue port q
  decide (ix < n) && decide ((ix + n - x.head % n) % n < (x.tail + n - x.head % n) % n)

/-- PORT_REQUEST: an access of the work of a queue entry, under its context's translation (R444). The port works a queue in
order (log 105). -/
def execPortRequest (port q ix : Nat) (va : Word) (store : Option Word) (s : State) : Out :=
  if !s.portValid port q || !s.portSubmitted port q ix then .next s else
  let s := s.setQueue port q { s.queue port q with head := ix }
  .next (s.portAccess port q ix va (match store with
    | some x => .write x
    | none => .read))

/-- NETWORK_INBOUND: an operation of a remote queue pair reaches memory (R443, R444). The index of a failing one is
open (log 23). -/
def execNetworkInbound (port q : Nat) (va : Word) (op : PortOp) (s : State) : Out :=
  if 2 ≤ port then .next s else
  let (x, s) := s.draw
  .next (s.portAccess port q x.toNat va op)

/-- The notice of a completion, to a core of the context's virtual device (R473). -/
def State.portNotice (s : State) (port q ix : Nat) : State :=
  let v := s.portVd port q
  let target := s.portWord port q 0x40
  match coreRef (fld target 30 0) with
  | none => s
  | some (c, m) =>
    let ours := if isControl c then decide ((s.bank c).vdid = v) else (s.cluster (clusterOf c)).vds.contains v
    if fld target 30 0 = 0 ∨ (s.localMod m ∧ !ours) then s else
    let (x, s) := s.draw
    s.post (deviceMsg .port .system (s.portWord port q 0x48) (fld x 17 0) c m v [w64 q, w64 ix])

/-- PORT_COMPLETION: a completion entry is written and performed for every core, and the notice sent (R473). -/
def execPortCompletion (port q ix : Nat) (entry : List Word) (s : State) : Out :=
  if !s.portValid port q || bitOf (s.portWord port q 0) 7 ||
      decide (2 ^ fld (s.portWord port q 0x28) 7 4 ≤ ix) then .next s else
  let va := s.portWord port q 0x18 + w64 (8 * entry.length * ix)
  match s.vdPutWords (s.portAsker port q) va entry with
  | (.error t, s) => .next (s.portFail port q ix t)
  | (.ok _, s) => .next (s.portNotice port q ix)

/-- PQCMD_RESUME (R473). -/
def execPqcmdResume (port q : Nat) (s : State) : Out := .next (s.portResume port q)

/-- PQCMD_STOP (R473). -/
def execPqcmdStop (port q : Nat) (s : State) : Out := .next (s.portStop port q)

/-- PORT_STOPPED: the requests in progress of a pair that STOP names are complete (R473). -/
def execPortStopped (port q : Nat) (s : State) : Out :=
  if !s.portStops.contains (port, q) then .next s else
  .next { s.setStopped port q true with portStops := s.portStops.filter fun e => decide (e ≠ (port, q)) }

/-- HOST_ACCESS: the host reaches a guest frame of a virtual device through its aperture, under its own key (R444). -/
def execHostAccess (vd gpa : Nat) (store : Option Word) (s : State) : Out :=
  if 64 ≤ vd ∨ gpa % 8 ≠ 0 then .next s else
  match s.stage2 vd gpa with
  | .error f => .next (s.tableFails f)
  | .ok e =>
    if e.win ≠ 0 then .next s else
    let p := s.guestPlace vd e gpa
    let f : Found := { place := p, translated := false, lg := false }
    match store with
    | some x => .next (if e.w then s.vdStore p x else s)
    | none =>
      match s.dataTrap f 0 8 with
      | some t => .next (if e.r then s.deviceFails t else s)
      | none => .next s

end Sys2Proof.Machine
end

