-- ==== Sys2Proof/Machine/Sha.lean ====
section
/-! DEFINITION. SHA-256 over a list of bytes: the measurement of R471 and R477 extends by it. The spec names the
function and does not lay it down: the standard's definition is PRESUMED (log 89). Its constants are computed: the
fractional parts of the square and cube roots of the first primes. -/

set_option Elab.async false

namespace Sys2Proof.Machine

/-- r with its n low bits set, from the top, as far as its e-th power stays at most x. -/
def rootBits (e x : Nat) : Nat → Nat → Nat
  | 0, r => r
  | n + 1, r => rootBits e x n (if (r + 2 ^ n) ^ e ≤ x then r + 2 ^ n else r)

/-- The first 32 bits of the fractional part of the e-th root of p. -/
def rootFraction (e p : Nat) : BitVec 32 := BitVec.ofNat 32 (rootBits e (p * 2 ^ (32 * e)) 36 0)

/-- The 64 primes below 312. -/
def smallPrimes : List Nat :=
  (List.range 312).filter fun n => 2 ≤ n && [2, 3, 5, 7, 11, 13, 17].all fun d => n == d || n % d != 0

/-- The exclusive or of x shifted right by n (32: nothing) and its rotations. -/
def spin (n : Nat) (rs : List Nat) (x : BitVec 32) : BitVec 32 :=
  rs.foldl (fun y r => y ^^^ x.rotateRight r) (x >>> n)

/-- One round on the eight chaining words; kw is the sum of its constant and its message word. -/
def shaRound (kw : BitVec 32) : List (BitVec 32) → List (BitVec 32)
  | [a, b, c, d, e, f, g, h] =>
    let t := kw + h + spin 32 [6, 11, 25] e + (g ^^^ (e &&& (f ^^^ g)))
    [t + spin 32 [2, 13, 22] a + ((a &&& b) ||| (c &&& (a ||| b))), a, b, c, d + t, e, f, g]
  | y => y

/-- The rounds of the constants ks; w holds the sixteen message words from the next round's on. -/
def shaRounds : List (BitVec 32) → List (BitVec 32) → List (BitVec 32) → List (BitVec 32)
  | [], _, y => y
  | k :: ks, w, y =>
    let m := w.getD 0 0
    let late := m + spin 3 [7, 18] (w.getD 1 0) + w.getD 9 0 + spin 10 [17, 19] (w.getD 14 0)
    shaRounds ks (w.drop 1 ++ [late]) (shaRound (k + m) y)

/-- The word of four bytes, most significant first, and back. -/
def bytesWord (bs : List Byte) : BitVec 32 := BitVec.ofNat 32 (bs.foldl (fun n b => 256 * n + b.toNat) 0)
def wordBytes (w : BitVec 32) : List Byte := (toBytes 4 w.toNat).reverse

/-- The chaining words behind n blocks of a padded message. -/
def shaBlocks (ks : List (BitVec 32)) : Nat → List Byte → List (BitVec 32) → List (BitVec 32)
  | 0, _, x => x
  | n + 1, bs, x =>
    let w := (List.range 16).map fun i => bytesWord ((bs.drop (4 * i)).take 4)
    shaBlocks ks n (bs.drop 64) (List.zipWith (· + ·) x (shaRounds ks w x))

/-- SHA-256 of a message: a 1 bit, zeros and the length in 64 bits fill its last block. -/
def sha256 (bs : List Byte) : List Byte :=
  let fill := List.replicate ((119 - bs.length % 64) % 64) 0
  let msg := bs ++ 0x80 :: fill ++ (toBytes 8 (8 * bs.length)).reverse
  let start := (smallPrimes.take 8).map (rootFraction 2)
  (shaBlocks (smallPrimes.map (rootFraction 3)) (msg.length / 64) msg start).flatMap wordBytes

end Sys2Proof.Machine
end

