-- ==== Sys2Proof/Machine/Sysp.lean ====
section
/-! DEFINITION. Major 0x23, SYSP (R475 to R477): the hypervisor call, returns and waits, the slot table, switching the
virtual device, and key operations. -/

set_option Elab.async false

namespace Sys2Proof.Machine

/-- BOUNDS, SUB 13 (R475). -/
def syspTrap : Trap := Trap.bare .bounds 13

/-! ### HVCALL, ERET, WFI, VDSW (R476) -/

/-- HVCALL: TRAPI, SUB 2, into level 2; EPC is the address of the next instruction (R460, R476). -/
def execHvcall (rd rs1 : GReg) (s : State) : Out :=
  controlOnly s (encR 0x23 0 0 rs1 rd) 0 <|
  if s.level = 2 then trapOut s (illegalTrap (encR 0x23 0 0 rs1 rd)) else
  .next (s.takeControlTrap (Trap.at_ .trapi 2 (s.g rs1)) s.pc (s.pc + 4) true)

/-- ERET (R476). -/
def execEret (s : State) : Out :=
  controlOnly s (encR 0x23 4 0 0 0) 1 <|
  if s.mayReturn then .next s.returnLevel else trapOut s (Trap.bare .priv 0)

/-- WFI (R476). -/
def execWfi (s : State) : Out :=
  controlOnly s (encR 0x23 5 0 0 0) 1 <|
  if s.me.priv.ipend ≠ 0 then .next (s.advance 4) else .next (s.setWait .wfi)

/-- WFI_WAKE: IPEND has become nonzero (R476). -/
def execWfiWake (core : Nat) (s : State) : Out :=
  let y := s.ctx core 0
  match y.st, y.wait with
  | .waiting, .wfi =>
    if (s.core core).priv.ipend = 0 then .next s else .next (s.complete core 0 0 0 false)
  | _, _ => .next s

/-- VDSW (R476). -/
def execVdsw (rd rs1 : GReg) (s : State) : Out :=
  controlOnly s (encR 0x23 2 0 rs1 rd) 2 <|
  let v := s.g rs1
  if 64 ≤ v.toNat then trapOut s syspTrap else
  let old := s.vd
  writeG (s.modMe fun x => x.modBank fun b => { b with vdid := v.toNat }) rd (w64 old) 4

/-! ### SLOTW (R466, R476) -/

/-- An entry names both virtual devices of a time-shared cluster (R462, R466). -/
def State.namesBoth (s : State) (d : Word) : Bool :=
  s.clusters.any fun (_, k) => k.shared && bitOf d (fld k.clown 5 0) && bitOf d (fld k.clown 13 8)

/-- SLOTW with selector 0: an entry; also the row of selector 3, which traps (R476). -/
def execSlotwEntry (rd rs1 rs2 : GReg) (s : State) : Out :=
  controlOnly s (encR 0x23 1 rs2 rs1 rd) 2 <|
  let x := s.g rs1
  let d := s.g rs2
  if fld x 63 8 ≠ 0 ∨ s.namesBoth d then trapOut s syspTrap else
  let old := Tab.get s.slotTab x.toNat 0
  writeG { s with slotTab := Tab.put s.slotTab x.toNat d } rd old 4

/-- SLOTW with selector 1: PERIOD, in effect from the next boundary (R476). -/
def execSlotwPeriod (rd rs1 rs2 : GReg) (s : State) : Out :=
  controlOnly s (encR 0x23 1 rs2 rs1 rd) 2 <|
  let d := (s.g rs2).toNat
  if s.g rs1 ≠ 0x100 ∨ d < 16000 ∨ 2 ^ 32 ≤ d then trapOut s syspTrap else
  let old := s.slotPeriodNext
  writeG { s with slotPeriodNext := d } rd (w64 old) 4

/-- SLOTW with selector 2: LEN, in effect from the next boundary (R476). -/
def execSlotwLen (rd rs1 rs2 : GReg) (s : State) : Out :=
  controlOnly s (encR 0x23 1 rs2 rs1 rd) 2 <|
  let d := (s.g rs2).toNat
  if s.g rs1 ≠ 0x200 ∨ d < 1 ∨ 256 < d then trapOut s syspTrap else
  let old := s.slotLenNext
  writeG { s with slotLenNext := d } rd (w64 old) 4

/-! ### KEYOP (R471, R477) -/

/-- A KEYOP: its level, its range check, and 0 into rd on success. -/
def keyop (s : State) (rd rs1 rs2 : GReg) (least : Nat) (ok : Bool) (go : Ans State) : Out :=
  controlOnly s (encR 0x23 3 rs2 rs1 rd) least <|
  conclude s <|
  (Ans.check ok syspTrap).bind fun _ => go.bind fun s => .ok ((s.setG rd 0).advance 4)

/-- MEXT: the executing virtual device's measurement is extended by 32 bytes; also the row of operations above 7, which
trap (R477). -/
def execMext (rd rs1 rs2 : GReg) (s : State) : Out :=
  let x := s.g rs2
  let op := (s.g rs1).toNat
  keyop s rd rs1 rs2 (if op ≤ 7 then 1 else 0) (decide (op ≤ 7)) <|
  (Ans.check (decide (x.toNat % 32 = 0)) (Trap.at_ .misalign 0 x)).bind fun _ =>
  (s.loadWords x 4).bind fun (ws, s) =>
  .ok (s.modVd s.vd fun d => { d with measurement := sha256 (d.measurement ++ wordsBytes ws) })

/-- Stores words from an address upward. -/
def State.storeWords (s : State) (va : Word) : List Word → Ans State
  | [] => .ok s
  | x :: rest => (s.store va 8 x.toNat).bind fun s => s.storeWords (va + 8) rest

/-- ATTEST: the report behind its nonce, signed (R471, R477). -/
def execAttest (rd rs1 rs2 : GReg) (s : State) : Out :=
  let x := s.g rs2
  keyop s rd rs1 rs2 1 true <|
  (Ans.check (decide (x.toNat % 64 = 0)) (Trap.at_ .misalign 0 x)).bind fun _ =>
  (s.loadWords x 4).bind fun (nonce, s) =>
  let body := [w64 s.vd, w64 s.moduleId, 0, 0] ++ bytesWords 4 (s.vdev s.vd).measurement ++ [0, 0, 0, 0]
  let sig := Config.signature (wordsBytes (nonce ++ body)) s.free
  let s := { s with free := s.free + 1 }
  s.storeWords (x + 32) (body ++ bytesWords 48 (sig ++ List.replicate 384 0))

/-- A fresh key from the entropy source: its number. -/
def State.freshKey (s : State) : Nat × State := (s.nextKey, { s with nextKey := s.nextKey + 1 })

/-- VDKEY (R477). -/
def execVdkey (rd rs1 rs2 : GReg) (s : State) : Out :=
  let x := s.g rs2
  keyop s rd rs1 rs2 2 (decide (fld x 63 6 = 0)) <|
  let (k, s) := s.freshKey
  .ok (s.modVd (fld x 5 0) fun d => { d with key := k, measurement := List.replicate 32 0, quenched := false })

/-- An operand of WNEW, WGRANT and WREVOKE is in its range. -/
def windowOperandOk (x : Word) : Bool := decide (fld x 63 14 = 0) && decide (fld x 7 0 ≠ 0)

/-- A window as it stands; one that WNEW has not made has no key and no owner. -/
def State.window (s : State) (w : Nat) : Window :=
  (Tab.look s.windows w).getD { key := 0, owner := 0xFF, grants := 0, count := 0 }

/-- WNEW: the release count of a new window is open (log 25) (R477). -/
def execWnew (rd rs1 rs2 : GReg) (s : State) : Out :=
  let x := s.g rs2
  let v := fld x 13 8
  keyop s rd rs1 rs2 2 (windowOperandOk x) <|
  let (k, s) := s.freshKey
  let (n, s) := s.draw
  .ok { s with windows := Tab.put s.windows (fld x 7 0) { key := k, owner := v, grants := BitVec.ofNat 64 (2 ^ v), count := n } }

/-- WGRANT (R477). -/
def execWgrant (rd rs1 rs2 : GReg) (s : State) : Out :=
  let x := s.g rs2
  let w := s.window (fld x 7 0)
  keyop s rd rs1 rs2 2 (windowOperandOk x) <|
  .ok { s with windows := Tab.put s.windows (fld x 7 0) { w with grants := w.grants ||| BitVec.ofNat 64 (2 ^ fld x 13 8) } }

/-- WREVOKE: the owner is not removed (R477). -/
def execWrevoke (rd rs1 rs2 : GReg) (s : State) : Out :=
  let x := s.g rs2
  let w := s.window (fld x 7 0)
  let v := fld x 13 8
  keyop s rd rs1 rs2 2 (windowOperandOk x) <|
  if w.owner = v then .ok s else
  .ok { s with windows := Tab.put s.windows (fld x 7 0) { w with grants := w.grants &&& ~~~(BitVec.ofNat 64 (2 ^ v)) } }

/-- QUENCH (R470, R477). -/
def execQuench (rd rs1 rs2 : GReg) (s : State) : Out :=
  let x := s.g rs2
  keyop s rd rs1 rs2 2 (decide (fld x 63 7 = 0)) <|
  .ok (if bitOf x 6 then s.quenchAll else s.quenchVd (fld x 5 0))

/-- The cells of memory in a frame of 2 MiB moved to another frame, whose own cells go. -/
def moveCells (m : Memory) (a b : Nat) : Memory :=
  let kept := m.filter fun c => decide (c.1 / 2 ^ 21 ≠ b)
  (m.filter fun c => decide (c.1 / 2 ^ 21 = a)).foldl (fun m c => m.put (b * 2 ^ 21 + c.1 % 2 ^ 21) c.2) kept

/-- The metadata of the lines of a frame, likewise. -/
def moveLines (t : Tab Line) (a b : Nat) : Tab Line :=
  let kept := t.filter fun c => decide (c.1 / 2 ^ 15 ≠ b)
  (t.filter fun c => decide (c.1 / 2 ^ 15 = a)).foldl (fun t c => Tab.put t (b * 2 ^ 15 + c.1 % 2 ^ 15) c.2) kept

/-- FMOVE: ciphertext, tags and versions of a frame are copied, and the destination's former contents are lost: no load
returns them from now on (R477). -/
def State.moveFrame (s : State) (a b : Nat) : State :=
  if a = b then s else
  let s := { s with
    mem := moveCells s.mem a b
    lines := moveLines s.lines a b
    uncorrectable := s.uncorrectable.filter fun e => decide (e.1 < 2 ^ 20) || decide ((e.1 - 2 ^ 20) / 2 ≠ b) }
  s.perform none ((s.hist.filter fun e => decide (e.1 / 2 ^ 18 = b)).map fun e => (e.1, e.2.length))

/-- The first line of a frame of HBM that has been written and whose codeword cannot be corrected. -/
def State.rottenLine (s : State) (a : Nat) : Option Nat :=
  (s.uncorrectable.map fun (g, o) => (codewordBytes g o).headD 0).find? fun p =>
    decide (p / 2 ^ 21 = a) && decide (regionOf p = .hbm) && (Tab.look s.lines (p / 64)).isSome

/-- FMOVE (R477). A source line that cannot be corrected traps UNCORR, and nothing is copied (R486; log 112). -/
def execFmove (rd rs1 rs2 : GReg) (s : State) : Out :=
  let x := s.g rs2
  keyop s rd rs1 rs2 2 (decide (fld x 31 19 = 0) && decide (fld x 63 51 = 0)) <|
  match s.rottenLine (fld x 18 0) with
  | some p => .trap { Trap.bare .uncorr 0 with host := p }
  | none => .ok (s.moveFrame (fld x 18 0) (fld x 50 32))

end Sys2Proof.Machine
end

