-- ==== Sys2Proof/Machine/Loader.lean ====
section
/-! DEFINITION. The cluster loader (R200 to R209): its commands, the checks of a command block and a descriptor, the
load of a kernel on a core, its drain, and what reaching ABSENT does (R236, R298, R305, R388). -/

set_option Elab.async false

namespace Sys2Proof.Machine

/-! ### A core's copy for a virtual device (R464) -/

/-- An operation on a core while it holds the copy of a virtual device. -/
def State.onCopy (s : State) (c v : Nat) (f : State → State) : State :=
  if (s.core c).bank.vdid = v then f s else (f (s.swapCopy c)).swapCopy c

/-- The banks of a core that a virtual device owns (R463). -/
def State.banksFor (s : State) (c v : Nat) : Nat :=
  let k := s.cluster (clusterOf c)
  if !k.shared then 32
  else if v = fld k.clown 5 0 then fld k.clown 20 16 else 32 - fld k.clown 20 16

/-- KIDC of a core's copy for a virtual device, where that copy holds a kernel. -/
def State.kidOn (s : State) (c v : Nat) : Option Nat :=
  let b := (s.core c).copyOf v
  if b.kst = .absent then none else some (fld b.kid 15 0)

/-! ### The command block (R205) -/

/-- STATUS values. -/
inductive LoadStatus where
  | done | busy | badDesc | noFit | fault | notOwn | noKid
  deriving DecidableEq, Repr

def LoadStatus.code : LoadStatus → Nat
  | .done => 0 | .busy => 1 | .badDesc => 2 | .noFit => 3 | .fault => 4 | .notOwn => 5 | .noKid => 6

/-- The control core of a command, as it was when it wrote KLDB (R205). -/
def LoadCmd.asker (x : LoadCmd) (v : Nat) : Asker := { core := x.core, agent := x.core, vd := v, sid := x.sid, level := x.level }

/-- The head command of a virtual device ends: STATUS is stored, and the next command may begin. -/
def State.endCommand (s : State) (v : Nat) (st : LoadStatus) : State :=
  match (s.vdev v).loads with
  | [] => s
  | x :: rest =>
    let s := s.modVd v fun d => { d with loads := rest }
    match s.deviceFindAs (x.asker v) .store (x.block + 0x38) with
    | (.error _, s) => s
    | (.ok p, s) => s.devicePut x.core p [BitVec.ofNat 8 st.code]

/-- Ordinal m of a cluster of a rectangle, and n of a core (R204). -/
def clusterOrdinal (rect : Word) (k : Nat) : Nat :=
  (clusterY k - fld rect 15 8) * (fld rect 23 16 + 1 - fld rect 7 0) + (clusterX k - fld rect 7 0)
def coreOrdinal (rect : Word) (c : Nat) : Nat := 8 * clusterOrdinal rect (clusterOf c) + c % 8

/-- The block's own limits: the first condition of R205. An address DESC that is no multiple of 64 is one of them (log
103). -/
def blockOk (bs : List Word) : Bool :=
  let w (i : Nat) : Word := bs.getD i 0
  decide (fld (w 0) 7 0 ≤ 2) && decide (fld (w 2) 63 32 = 0) && decide (w 5 = 0) && decide (w 6 = 0) &&
  decide (fld (w 4) 63 16 = 0) && (decide (fld (w 0) 7 0 ≠ 0) || decide ((w 1).toNat % 64 = 0))

/-- The rectangle is one, and the virtual device owns each of its clusters. -/
def State.rectOwned (s : State) (v : Nat) (rect : Word) : Bool :=
  decide (fld rect 7 0 ≤ fld rect 23 16) && decide (fld rect 15 8 ≤ fld rect 31 24) &&
  decide (fld rect 31 24 ≤ 127) &&
  (rectCores rect).all fun c => (s.cluster (clusterOf c)).vds.contains v

/-! ### The descriptor (R200) -/

/-- CODESZ, RB and CB of a descriptor. -/
def descCodeSz (ds : List Word) : Nat := fld (ds.getD 6 0) 31 0
def descRb (ds : List Word) : Nat := fld (ds.getD 6 0) 63 32
def descCb (ds : List Word) : Nat := (descCodeSz ds + 8191) / 8192
/-- The four budgets. -/
def descBudc (ds : List Word) : List Nat :=
  [fld (ds.getD 3 0) 31 0, fld (ds.getD 3 0) 63 32, fld (ds.getD 4 0) 31 0, fld (ds.getD 4 0) 63 32]
/-- Ring handle i and tensor map i. -/
def descRing (ds : List Word) (i : Nat) : Word := ds.getD (32 + i) 0
def descMap (ds : List Word) (i : Nat) : BitVec 256 :=
  BitVec.ofNat 256 (ofBytes (wordsBytes (padTo 4 ((ds.drop (48 + 4 * i)).take 4))))
/-- The class entries. -/
def descClasses (ds : List Word) : List Word := (ds.drop 80).take (fld (ds.getD 22 0) 63 32)

/-- A ring of the descriptor: unset, or within R194, empty, and from a multiple of its slot's size on within the named
regions, not only at the start of one (R106; log 72). -/
def ringFits (rb : Nat) (h : Word) : Bool :=
  decide (fld h 63 48 = 0) &&
  (decide (fld h 25 22 = 0) ||
    (decide (3 ≤ fld h 21 18) && decide (fld h 21 18 ≤ 12) && decide (fld h 25 22 ≤ 10) &&
     decide (hBase h % hSlot h = 0) && decide ((32 - rb) * 8192 ≤ hBase h) &&
     decide (hBase h + hCount h * hSlot h ≤ 2 ^ 18) && decide (fld h 47 26 = 0)))

/-- The fields that name the kernel, its code and its handlers are within their limits. -/
def descHeadOk (ds : List Word) : Bool :=
  let d (i : Nat) : Nat := (ds.getD i 0).toNat
  decide (1 ≤ d 0) && decide (d 0 < 2 ^ 16) &&
  decide (1 ≤ descCodeSz ds) && decide (2 ≤ descCodeSz ds) && decide (descCodeSz ds ≤ 262144) &&
  decide (descRb ds ≤ 31) &&
  decide (d 1 ≤ d 2) && decide (d 1 % 2 = 0) && decide (d 2 % 2 = 0) && decide (d 2 < descCb ds * 8192) &&
  (descBudc ds).all fun n => decide (1 ≤ n) && decide (n ≤ 2 ^ 20)

/-- The queue limits of R192 hold. -/
def descQueuesOk (ds : List Word) : Bool :=
  let q := ds.getD 8 0
  let depth (hi lo : Nat) : Bool := decide (1 ≤ fld q hi lo) && decide (fld q hi lo ≤ 16)
  depth 4 0 && depth 12 8 && depth 20 16 && depth 28 24 &&
  decide (1 ≤ fld (ds.getD 9 0) 5 0) && decide (fld (ds.getD 9 0) 5 0 ≤ 32) &&
  decide (fld (ds.getD 11 0) 63 48 = 0) && decide (fld (ds.getD 12 0) 63 48 = 0)

/-- The addresses and counts of the descriptor are within their limits. -/
def descPlacesOk (ds : List Word) : Bool :=
  let d (i : Nat) : Nat := (ds.getD i 0).toNat
  decide (d 15 < 2) && decide (d 16 % 65536 = 0) && decide (d 17 % 65536 = 0) && decide (131072 ≤ d 17) &&
  decide (d 17 ≤ 2 ^ 30) &&
  decide (d 18 % 256 = 0) && decide (d 19 % 16384 = 0) && decide (d 20 % 64 = 0) &&
  decide (fld (ds.getD 22 0) 31 0 ≤ 4096) && decide (fld (ds.getD 22 0) 63 32 ≤ 64) &&
  decide (d 27 % 256 = 0) && decide (d 29 = 0) && decide (d 30 = 0) && decide (d 31 = 0)

/-- Every limit of R200, R192, R194, R106 and R245 holds. A tensor map with ROWS 0 is one that stays unset, whatever its
other bits are (log 101). -/
def descOk (ds : List Word) : Bool :=
  descHeadOk ds && descQueuesOk ds && descPlacesOk ds &&
  ((List.range 16).all fun i => ringFits (descRb ds) (descRing ds i)) &&
  ((List.range 8).all fun i =>
    decide (tmRows (descMap ds i) = 0) || mapFits (descCb ds * 8192) (descMap ds i)) &&
  (descClasses ds).all fun e => decide (fld e 63 50 = 0)

/-! ### LOAD (R205, R207) -/

/-- Bytes of an image, read under a control core's translation (R205). -/
def State.readImage (s : State) (q : Asker) (va : Word) (n : Nat) : Except Trap (List Byte) × State :=
  if n = 0 then (.ok [], s) else
  let o := va.toNat % 8
  match s.deviceGetWordsAs q (va - w64 o) ((o + n + 7) / 8) with
  | (.error t, s) => (.error t, s)
  | (.ok ws, s) => (.ok (((wordsBytes ws).drop o).take n), s)

/-- What the loader keeps of a descriptor for a core: with the banks its virtual device owns there now (R463), and the number
of the LOAD. -/
def kernelOf (ds : List Word) (rect : Word) (c base banks serial : Nat) : Kernel where
  budc := descBudc ds
  classes := (descClasses ds).map fun e => (w64 (fld e 47 0), fld e 49 48)
  cb := descCb ds
  rb := descRb ds
  gp := ds.getD 14 0
  stk := bitOf (ds.getD 15 0) 0
  stkva := ds.getD 16 0
  stkspan := ds.getD 17 0
  dqva := ds.getD 20 0
  pairc := ds.getD 23 0 &&& crMask 0x04A
  pairt := ds.getD 24 0 &&& crMask 0x04B
  gangt := ds.getD 25 0 &&& crMask 0x04C
  rngk := ds.getD 26 0 &&& crMask 0x060
  ordinal := coreOrdinal rect c
  rect := rect
  base := base
  banks := banks
  serial := serial

/-- The per-core registers of a kernel that enters ACTIVE. A tensor map with ROWS 0 stays unset (log 101). -/
def Bank.loaded (b : Bank) (ds : List Word) (rect sid lqbv : Word) (modid c : Nat) (k : Kernel) : Bank :=
  { b with
    kst := .active
    kid := w64 (fld (ds.getD 0 0) 15 0)
    hblo := ds.getD 1 0
    hbhi := ds.getD 2 0
    rfh := ds.getD 11 0 &&& crMask 0x00B
    smh := ds.getD 12 0 &&& crMask 0x00C
    sqfh := ds.getD 10 0 &&& crMask 0x00D
    qdep := ds.getD 8 0 &&& 0x1F1F_1F1F
    sqlim := ds.getD 9 0 &&& 0x3F
    tsvc := ds.getD 13 0 &&& 0x0003_FFFF_7FFF_FFFF
    saveb := ds.getD 18 0 + w64 (coreOrdinal rect c * 0xA300)
    emrgb := ds.getD 19 0 + w64 (clusterOrdinal rect (clusterOf c) * 16384)
    gmem := 1
    lqb := lqbv
    barst := setFld b.barst 15 0 0
    stpl := 0
    stfr := 0
    stst := b.stst &&& 0xFFFF_FFFF_E000_8000
    sfst := 0
    sidr := w64 (fld sid 15 0)
    modid := w64 modid
    rvtb := w64 (fld (ds.getD 27 0) 47 0)
    rvh := ds.getD 28 0 &&& crMask 0x0A1
    kernel := k
    h := Vector.ofFn fun i : Fin 16 => if hNlg (descRing ds i.val) = 0 then 0 else descRing ds i.val
    tm := Vector.ofFn fun i : Fin 8 => if tmRows (descMap ds i.val) = 0 then 0 else descMap ds i.val
    p := List.replicate 4 identityPerm
    user := [none, none, none] }

/-- The scratch banks of a core are zeroed: the backed banks behind the code and before the regions. -/
def State.zeroScratch (s : State) (c : Nat) : State :=
  let k := (s.bank c).kernel
  match s.tcmByte c (k.cb * 8192) with
  | none => s
  | some p =>
    let top := p + (k.banks - k.cb - k.rb) * 8192
    { s with mem := s.mem.filter fun e => !(decide (p ≤ e.1) && decide (e.1 < top)) }

/-- The kernel becomes ACTIVE on a core (R207): code, region image, scratch and registers. -/
def State.loadCore (s : State) (v : Nat) (ds : List Word) (rect sid : Word) (code regions : List Byte) (c : Nat) :
    State :=
  s.onCopy c v fun s =>
    let k := kernelOf ds rect c (s.firstBank c) (s.banks c) (s.seq + 1)
    let s := s.modBank c fun b => b.loaded ds rect sid (s.vdev v).lqbv s.moduleId c k
    let s := s.zeroScratch c
    let s := s.pokeCells (s.localCells c 0 code)
    s.pokeCells (s.localCells c ((32 - descRb ds) * 8192) regions)

/-- LOAD of a block whose first two conditions hold: STATUS, and the state after it. -/
def State.loadKernel (s : State) (v : Nat) (q : Asker) (bs : List Word) : LoadStatus × State :=
  let rect := bs.getD 2 0
  match s.deviceGetWordsAs q (bs.getD 1 0) 144 with
  | (.error _, s) => (.fault, s)
  | (.ok ds, s) =>
    if !descOk ds then (.badDesc, s)
    else if (rectCores rect).any fun d => decide (s.banksFor d v < descCb ds + descRb ds + 4) then (.noFit, s)
    else if (rectCores rect).any fun d => (s.kidOn d v).isSome then (.busy, s) else
    match s.readImage q (ds.getD 5 0) (descCodeSz ds) with
    | (.error _, s) => (.fault, s)
    | (.ok code, s) =>
      match s.readImage q (ds.getD 7 0) (descRb ds * 8192) with
      | (.error _, s) => (.fault, s)
      | (.ok regions, s) =>
        let s := (rectCores rect).foldl (fun s d => s.loadCore v ds rect (bs.getD 4 0) code regions d) s
        (.done, { s with seq := s.seq + 1 })

/-- Some core of the module still drains the kernel that the head UNLOAD of a virtual device names. -/
def State.drainingOf (s : State) (v : Nat) : Bool :=
  ((s.clustersOf v).flatMap coresOf).any fun c => decide (((s.core c).copyOf v).kst = .draining)

/-- The head command of a virtual device, where its operation is one of those given and no earlier UNLOAD goes on: its
block and who asked for it. A block that cannot be read counts as a LOAD that faults. -/
def State.command (s : State) (v : Nat) (op : Nat → Bool) : Option (Except Unit (List Word) × Asker × State) :=
  if s.drainingOf v then none else
  match (s.vdev v).loads with
  | [] => none
  | x :: _ =>
    let q := x.asker v
    match s.deviceGetWordsAs q x.block 8 with
    | (.error _, s) => if op 0 then some (.error (), q, s) else none
    | (.ok bs, s) => if op (fld (bs.getD 0 0) 7 0) then some (.ok bs, q, s) else none

/-- A command whose first conditions fail ends; the others go on. -/
def State.runCommand (s : State) (v : Nat) (op : Nat → Bool) (f : State → List Word → Asker → State) : Out :=
  match s.command v op with
  | none => .next s
  | some (.error _, _, s) => .next (s.endCommand v .fault)
  | some (.ok bs, q, s) =>
    if !blockOk bs then .next (s.endCommand v .badDesc)
    else if !s.rectOwned v (bs.getD 2 0) then .next (s.endCommand v .notOwn)
    else .next (f s bs q)

/-- LOAD: also the command that names no operation (R205). -/
def execLoad (vd : Nat) (s : State) : Out :=
  s.runCommand vd (fun n => decide (n ≠ 1) && decide (n ≠ 2)) fun s bs q =>
    let (st, s) := s.loadKernel vd q bs
    s.endCommand vd st

/-! ### UNLOAD and CLEAR (R205, R207, R208) -/

/-- The cores of a block's rectangle that hold kernel KIDC of a virtual device. -/
def State.holders (s : State) (v : Nat) (bs : List Word) : List Nat :=
  (rectCores (bs.getD 2 0)).filter fun c => decide (s.kidOn c v = some (fld (bs.getD 3 0) 15 0))

/-- The tasks of a saved copy that are killed: their requests are consumed (R207). -/
def State.consumeSaved (s : State) (c : Nat) (k : Saved) : State :=
  k.ctxs.toList.foldl (fun s y =>
    match y.msg with
    | some m => if y.st = .suspended && y.isRequest && !y.replied then s.sendRelease c m else s
    | none => s) s

/-- SUSPENDED contexts of the copy that runs on a core are killed, RETAINED ones freed (R207). -/
def State.dropParked (s : State) (c : Nat) : State :=
  match (s.bank c).save with
  | some k =>
    (s.consumeSaved c k).modBank c fun b =>
      { b with save := some { k with ctxs := k.ctxs.map fun y =>
          if y.st = .suspended ∨ y.st = .retained then Ctx.reset else y } }
  | none =>
    ([0, 1, 2, 3] : List (Fin 4)).foldl (fun s i =>
      match (s.ctx c i).st with
      | .suspended => (s.modCore c fun x => x.discardChunk i).endTask c i
      | .retained => s.freeCtx c i
      | _ => s) s

/-- The QUEUED and PARKED jobs of a core end CANCEL at once (R279); one that has started by then runs (R255, R280). -/
def State.cancelJobs (s : State) (c : Nat) : State :=
  let runs := (List.range 8).filter fun n => decide ((s.job c n).st = .queued) && s.started c n
  (List.range 8).foldl (fun s n =>
    let j := s.job c n
    match j.st with
    | .queued | .parked => if runs.contains n then s else s.cancelNow c n j.gen.toNat false
    | .free | .held | .running | .ended => s) s

/-- A core's kernel begins to drain. A copy that is switched out has no contexts but those of its save. -/
def State.drainCore (s : State) (v c : Nat) : State :=
  let away := decide ((s.core c).bank.vdid ≠ v)
  s.onCopy c v fun s =>
    let s := (s.modBank c fun b => { b with kst := .draining }).cancelJobs c
    if away && (s.bank c).save.isNone then s else s.dropParked c

/-- UNLOAD (R207). -/
def execUnload (vd : Nat) (s : State) : Out :=
  hartEvent s fun s => s.runCommand vd (fun n => decide (n = 1)) fun s bs _ =>
    match s.holders vd bs with
    | [] => s.endCommand vd .noKid
    | cs => cs.foldl (fun s c => s.drainCore vd c) s

/-- CLEAR: FAULTED cores are ACTIVE again (R207, R208); their user tables stay (R236; log 115). -/
def execClear (vd : Nat) (s : State) : Out :=
  s.runCommand vd (fun n => decide (n = 2)) fun s bs _ =>
    match s.holders vd bs with
    | [] => s.endCommand vd .noKid
    | cs =>
      let s := cs.foldl (fun s c => s.modCore c fun x => x.modCopy vd fun b =>
        { b with kst := if b.kst = .faulted then .active else b.kst }) s
      s.endCommand vd .done

/-! ### A kernel reaches ABSENT (R207, R209) -/

/-- The kernel registers, h and tm read 0; the user tables and the pool go (R207, R236, R388). -/
def Bank.unloaded (b : Bank) : Bank :=
  { b with
    kst := .absent, kid := 0, hblo := 0, hbhi := 0, rfh := 0, smh := 0, sqfh := 0, qdep := 0, sqlim := 0, tsvc := 0
    saveb := 0, emrgb := 0, gmem := 0, lqb := 0, stpl := 0, stfr := 0, stst := b.stst &&& 0xFFFF_FFFF_E000_8000
    sfst := 0, sidr := 0, modid := 0, rvtb := 0, rvh := 0, kernel := Kernel.none, h := Vector.replicate 16 0
    tm := Vector.replicate 8 0, user := [none, none, none] }

/-- The requests of receive queues are refused NOKERNEL, where their senders still wait (R209). -/
def State.refuseAll (s : State) (q : List Msg) : State :=
  q.foldl (fun s m => if m.kind = .task ∧ m.cls = .request then s.tell m (some 3) else s) s

/-- Reaching ABSENT frees the REFUSED and AWAIT entries, and marks the READY ones: no verdict makes them AWAIT or REFUSED
(R209). -/
def Entry.absent (e : Entry) : Entry :=
  match e.st with
  | .refused | .await => Entry.free
  | .ready => { e with gone := true }
  | .free | .held => e

/-- The queues, entries and refusals of a core whose kernel is gone; service messages accepted and not yet executed go with
them (R209; log 73). -/
def Core.emptied (x : Core) : Core :=
  { x with
    qSys := [], qReply := [], qOrd := [], qReq := [], refusals := [], svc := [], since := 0
    sendq := x.sendq.map Entry.absent }

/-- What a saved copy keeps: its READY entries. -/
def Saved.emptied (k : Saved) : Saved :=
  { k with
    ctxs := Core.reset.ctxs, sendq := k.sendq.map Entry.absent, qSys := [], qReply := [], qOrd := [], qReq := []
    refusals := [], since := 0, asIs := true }

/-- The queues and entries of the copy that runs are disposed of. The READY entries of a saved copy are kept, and
depart when the copy runs again. -/
def State.dispose (s : State) (c : Nat) (away : Bool) : State :=
  match (s.bank c).save with
  | some k =>
    (s.refuseAll k.qReq).modBank c fun b => { b with save := some k.emptied }
  | none =>
    if away then s else (s.refuseAll (s.core c).qReq).modCore c Core.emptied

/-- The last kernel of a virtual device has left a cluster: its cluster round is discarded, and no arrival waits (R315,
R324). -/
def State.dropRound (s : State) (k v : Nat) : State :=
  let s := { s.modCluster k fun x => { x with rounds := Tab.drop x.rounds v } with
    releasing := s.releasing.filter fun x => !(decide (x.vd = v) && decide (x.cluster = k) && x.rect.isNone) }
  (coresOf k).foldl (fun s c => s.setArr c v false false) s

/-- A core reaches ABSENT: as a GDONE of level 2 (R305), the checks of R209, the registers, and the tests that follow a
departure (R318). -/
def State.reachAbsent (s : State) (v c : Nat) : State :=
  let away := decide ((s.core c).bank.vdid ≠ v)
  let k := clusterOf c
  let s := s.onCopy c v fun s =>
    let s := s.cancelJobs c
    let s := if away && (s.bank c).save.isNone then s else s.dropParked c
    (s.dispose c away).modBank c Bank.unloaded
  let s := (s.checkBlock v k true).testRounds k
  if s.absentOn k v then s.dropRound k v else s

/-- Nothing of a core keeps its kernel from ABSENT: no context READY, RUNNING, WAITING or DORMANT, no request to the atomic
thread, and no job that runs or is about to (R207, R279, R280). -/
def State.calm (s : State) (c : Nat) : Bool :=
  let x := s.core c
  x.reqs.isEmpty && x.held.isEmpty && x.owed.isEmpty &&
  (x.ctxs.toList.all fun y => !y.running && decide (y.st ≠ .dormant)) &&
  (List.range 8).all fun n =>
    let j := s.job c n
    !(decide (j.st = .running) || (decide (j.st = .queued) && s.started c n))

/-- The virtual device of the copy of a core whose drain is over. -/
def State.drained (s : State) (c : Nat) : Option Nat :=
  let x := s.core c
  if x.bank.kst = .draining ∧ (x.saved ∨ s.calm c) then some x.bank.vdid
  else if x.other.kst = .draining then some x.other.vdid
  else none

/-- KERNEL_DRAINED (R207, R209): the last core of the UNLOAD ends the command. -/
def execKernelDrained (core : Nat) (s : State) : Out :=
  match s.drained core with
  | none => .next s
  | some v =>
    hartEvent s fun s =>
    let s := s.reachAbsent v core
    if s.drainingOf v then .next s else .next (s.endCommand v .done)

end Sys2Proof.Machine
end

