-- ==== Sys2Proof/Machine/TileRun.lean ====
section
/-! DEFINITION. Matrix jobs as they run: gang rounds (R259 to R267), accumulator jobs (R263), decode tables (R268), and
the end of a running product (R255, R260, R261). -/

set_option Elab.async false

namespace Sys2Proof.Machine

/-! ### Rounds (R259, R264 to R267) -/

/-- Every one of the jobs ends. -/
def State.endHeads (s : State) (hs : List Head) (status dcode : Nat) : State :=
  hs.foldl (fun s h => s.endJob h.core h.slot status dcode 0) s

/-- A complete round starts to run. -/
def State.runHeads (s : State) (hs : List Head) : State :=
  hs.foldl (fun s h => s.setJob h.core h.slot { h.job with st := .running }) s

/-- The accumulators and scale latches of the cores are cleared. -/
def State.clearAcc (s : State) (cores : List Nat) : State :=
  cores.foldl (fun s c => s.modCore c fun x => { x with acc := [], latchA := [], latchB := [] }) s

/-- The round of MSPLIT (R265). -/
def State.splitRound (s : State) (k : Nat) (hs : List Head) : State :=
  let mode := decide ((hs.head?.map fun h => (h.job.ops.getD 0 0).toNat) = some 1)
  let y := s.cluster k
  if y.locked then s.endHeads hs stFault 0x81
  else if y.split = mode then s.endHeads hs stDone 0
  else ((s.clearAcc (coresOf k)).modCluster k fun y => { y with split := mode }).endHeads hs stDone 0

/-- A paired round goes on once the partner's eight heads are there (R266). That both arrays are joined was checked when the
job was issued, and is not checked again (log 117). -/
def State.pairRound (s : State) (k : Nat) (hs : List Head) : State :=
  match partnerOf hs with
  | none => s
  | some p =>
    match s.pairedRound p k with
    | none => s
    | some gs => if agree (hs ++ gs) then s.runHeads (hs ++ gs) else s.endHeads (hs ++ gs) stGangmis 0

/-- A round that has formed: mismatch, MSPLIT, a paired or a plain product (R259, R265, R266). -/
def State.formed (s : State) (k : Nat) (hs : List Head) : State :=
  if s.arrayTaken (hs.map (·.core)) then s
  else if !agree hs then s.endHeads hs stGangmis 0
  else if hs.any fun h => decide (h.job.kind = 4) then s.splitRound k hs
  else if hs.any fun h => h.job.paired then s.pairRound k hs
  else s.runHeads hs

/-- GANG_ROUND (R259, R264 to R266). -/
def execGangRound (cluster half : Nat) (s : State) : Out :=
  match s.roundAt cluster half with
  | none => .next s
  | some hs => hartEvent s fun s => .next (s.formed cluster hs)

/-- GANG_TIMEOUT: the GANGT of a member's gang job at its head expires before its round forms; every gang job at a
member's head ends TIMEOUT (R259, R280). -/
def execGangTimeout (cluster half member : Nat) (s : State) : Out :=
  let cores := s.gangCores cluster half
  let c := 8 * cluster + member
  match s.sliceHead c with
  | none => .next s
  | some (n, j) =>
    let h : Head := { core := c, slot := n, job := j }
    let cores := if j.kind = 4 then coresOf cluster else cores
    let formed := match s.round cores with
      | some hs => s.goesOn cluster hs
      | none => false
    if !cores.contains c || !h.waits || decide (fld j.cr.gangt 31 0 = 0) || formed then .next s
    else hartEvent s fun s => .next (s.endHeads ((s.heads cores).filter Head.waits) stTimeout 0)

/-- PAIR_WAIT_TIMEOUT: a complete paired round has waited PAIRT for its partner (R266); 0 is no limit. -/
def execPairWaitTimeout (cluster : Nat) (s : State) : Out :=
  match s.round (coresOf cluster) with
  | none => .next s
  | some hs =>
    let waits := hs.all (fun h => h.job.paired) && agree hs && !(s.cluster cluster).split
    let met := match partnerOf hs with
      | some p => (s.pairedRound p cluster).isSome
      | none => false
    if waits && !met && hs.any (fun h => decide (fld h.job.cr.pairt 31 0 ≠ 0)) then
      hartEvent s fun s => .next (s.endHeads hs stTimeout 0)
    else .next s

/-- The heads of a cluster that belong to a pair with another: a complete round that waits, or a running one. -/
def State.pairHeads (s : State) (k partner : Nat) : List Head :=
  let hs := (s.heads (coresOf k)).filter fun h => h.job.paired && decide (pairOf h.job.cr.pairc = partner)
  if hs.length = 8 then hs else []

/-- PARTNER_LOST: the cluster is lost; the members of every pair it belongs to end PAIRLOST, its own eight heads where
they wait or run, and the neighbour's (R267). -/
def State.losePartner (s : State) (k : Nat) : State :=
  let near := ([k + 1, k - 1, k + 128, k - 128].filter fun l => adjacent k l).eraseDups
  near.foldl (fun s l => s.endHeads (s.pairHeads l k ++ s.pairHeads k l) stPairlost 0) s

/-- PARTNER_LOST (R267). -/
def execPartnerLost (cluster : Nat) (s : State) : Out := hartEvent s fun s => .next (s.losePartner cluster)

/-! ### The product (R48 to R52, R260, R261) -/

/-- An input value of a job as binary32: a code through the core's table, BF16 widened, or FP32 (R51, R260). -/
def State.inputAt (s : State) (c : Nat) (t : BitVec 256) (kind i j : Nat) : Nat :=
  let x := s.localRead c (tmElem t i j) (tmSize t)
  match kind with
  | 0 => (s.bank c).dtab.f32 x
  | 1 => x * 2 ^ 16
  | _ => x

/-- Position (i, j) of an accumulator is unmasked (R248). -/
def unmasked (mmsk : Word) (cols i j : Nat) : Bool := mmsk.getLsbD i && decide (j < Nat.min cols (fld mmsk 23 16))

/-- An accumulator element (R260). -/
def Core.accAt (x : Core) (i j : Nat) : Nat := (Tab.get x.acc (i * 128 + j) 0).toNat

/-- An accumulator from its elements: positions that hold +0 are not listed. -/
def accFrom (f : Nat → Nat → Nat) : Tab F32 :=
  (List.range 2048).filterMap fun n =>
    let x := f (n / 128) (n % 128)
    if x = 0 then none else some (n, BitVec.ofNat 32 x)

/-- A scale entry of a block in TCM, as an encoding (R48). -/
def State.scaleAt (s : State) (c : Nat) (fmt : Nat) (at_ : Word) (t : Nat) : Nat × Nat :=
  (fmt, if fmt = 1 then s.localRead c (fld at_ 17 0 + 2 * t) 2 else s.localRead c (fld at_ 17 0 + t) 1)

/-- The value of a scale (R48). -/
def scaleVal (x : Nat × Nat) : FVal :=
  match x.1 with
  | 1 => fmtBf.read x.2
  | 2 => if x.2 = 255 then .nan false else .num false 1 ((x.2 : Int) - 127)
  | _ => .num false 1 0

/-- The members of a running product in the order of their panels: by core in a cluster or half; of a pair, the cluster
with the lower addresses first (R260, R264, R266). -/
def State.productMembers (s : State) (c : Nat) (j : Job) : List Head :=
  let k := clusterOf c
  let cores := if j.paired then
      let p := pairOf j.cr.pairc
      if k < p then coresOf k ++ coresOf p else coresOf p ++ coresOf k
    else s.gangCores k (c % 8 / 4)
  s.heads cores

/-- The accumulator of a member after the product: each unmasked element of the columns met receives its K products in
rising k, each sum rounded once (R51, R260). -/
def State.productAcc (s : State) (hs : List Head) (h : Head) : Tab F32 :=
  let j := h.job
  let w := if j.paired then 8 else 16
  let cols := hs.length * w
  let x := s.core h.core
  accFrom fun i col =>
    if !unmasked j.cr.mmsk cols i col then x.accAt i col else
    match hs.getD (col / w) h with
    | p => (List.range (tmCols j.tmA)).foldl (fun acc k =>
        fma32 acc (s.inputAt h.core j.tmA (fld j.cr.fmta 1 0) i k)
          (s.inputAt p.core p.job.tmB (fld p.job.cr.fmtb 1 0) k (col % w))) (x.accAt i col)

/-- The scale latches of a member after the product (R49, R260). -/
def State.productLatches (s : State) (hs : List Head) (h : Head) : List (Nat × Nat) × List (Nat × Nat) :=
  let j := h.job
  let f := fld j.cr.sclf 1 0
  let w := if j.paired then 8 else 16
  if f = 0 then ([], []) else
  ((List.range 16).map fun t => s.scaleAt h.core f j.cr.scla t,
   hs.flatMap fun p => (List.range w).map fun t => s.scaleAt p.core f p.job.cr.sclb t)

/-- What is wrong with the elements of a map, the masked ones too (R261, R263; log 116). -/
def State.mapBad (s : State) (c : Nat) (t : BitVec 256) : Option (Cause × Nat) :=
  (List.range (tmRows t)).findSome? fun i => s.localBad c (tmElem t i 0) (tmCols t * tmSize t)

/-- What is wrong with a member's operands (R261). -/
def State.memberBad (s : State) (h : Head) : Option (Cause × Nat) :=
  let j := h.job
  let f := fld j.cr.sclf 1 0
  let size (n : Nat) : Nat := if f = 1 then 2 * n else if f = 2 then n else 0
  ((s.mapBad h.core j.tmA).or (s.mapBad h.core j.tmB)).or
    ((s.localBad h.core (fld j.cr.scla 17 0) (size 16)).or
      (s.localBad h.core (fld j.cr.sclb 17 0) (size (if j.paired then 8 else 16))))

/-- The end of a running product: every member's accumulator and latches are replaced at once, or none (R260, R261). -/
def State.endProduct (s : State) (hs : List Head) : State :=
  match hs.findSome? fun h => (s.memberBad h).map fun e => (h, e) with
  | some (_, e) =>
    let t := s.endHeads hs stFault e.1.code
    if e.1 = .uncorr then t.checkOwners e.2 else t
  | none =>
    let t := hs.foldl (fun t h =>
      let (la, lb) := s.productLatches hs h
      t.modCore h.core fun x => { x with acc := s.productAcc hs h, latchA := la, latchB := lb }) s
    t.endHeads hs stDone 0

/-- A slice has failed: every member of the product that runs on it ends FAULT UNCORR, and no accumulator changes (R261).
Those of a pair end PAIRLOST (R267). -/
def State.sliceFails (s : State) (c : Nat) : State :=
  match s.sliceHead c with
  | some (_, j) =>
    if j.kind = 0 ∧ j.st = .running ∧ !j.paired then s.endHeads (s.productMembers c j) stFault Cause.uncorr.code else s
  | none => s

/-- JOB_END: the status of a cancelled job of the slot reaches its mailbox (log 51), else a running matrix product completes
(R255, R260, R261). Every other kind of job ends in the step that does its work. -/
def execJobEnd (core slot : Nat) (s : State) : Out :=
  let j := s.job core slot
  if (s.core core).owed.any fun o => decide (o.slot = slot) then hartEvent s fun s => .next (s.payOwed core slot)
  else if j.kind = 0 ∧ j.st = .running then hartEvent s fun s => .next (s.endProduct (s.productMembers core j))
  else .next s

/-! ### Accumulator jobs and decode tables (R50, R263, R268) -/

/-- The value MSTA stores for an element (R50). -/
def Core.storeValue (x : Core) (cr : CtxRegs) (i j : Nat) : Nat :=
  let sa := scaleVal (x.latchA.getD i (0, 0))
  let sb := scaleVal (x.latchB.getD j (0, 0))
  let v := (((read32 (x.accAt i j)).mul sa).1.mul sb).1
  match fld cr.fmtc 1 0 with
  | 0 => (fmt32.pack v).1
  | 1 => (fmtBf.pack v).1
  | _ => encodeCode x.bank.dtab cr.encm v

/-- The unmasked positions of a map of an accumulator: its columns are the map's, whichever mode the array is in now (R263;
log 116). -/
def mapPositions (cr : CtxRegs) (t : BitVec 256) : List (Nat × Nat) :=
  (List.range 16).flatMap fun i =>
    (List.range (tmCols t)).filterMap fun j => if unmasked cr.mmsk (tmCols t) i j then some (i, j) else none

/-- MSTA at the head (R263). -/
def State.runMsta (s : State) (c n : Nat) (j : Job) : State :=
  match s.mapBad c j.tmA with
  | some e => s.jobError c n e
  | none =>
    let x := s.core c
    let cells := (mapPositions j.cr j.tmA).flatMap fun (a, b) =>
      s.localCells c (tmElem j.tmA a b) (toBytes (tmSize j.tmA) (x.storeValue j.cr a b))
    (s.hartCells (clusterOf c) cells).endJob c n stDone 0 0

/-- MLDA at the head (R263). -/
def State.runMlda (s : State) (c n : Nat) (j : Job) : State :=
  match s.mapBad c j.tmA with
  | some e => s.jobError c n e
  | none =>
    let x := s.core c
    let acc := accFrom fun a b =>
      if unmasked j.cr.mmsk (tmCols j.tmA) a b then s.localRead c (tmElem j.tmA a b) 4 else x.accAt a b
    (s.modCore c fun x => { x with acc := acc }).endJob c n stDone 0 0

/-- ACCUMULATOR_JOB_RUN: MZERO, MSTA or MLDA at the head of the core's slice queue (R263). -/
def execAccumulatorJobRun (core : Nat) (s : State) : Out :=
  match s.sliceHead core with
  | none => .next s
  | some (n, j) =>
    if j.st ≠ .queued then .next s else
    hartEvent s fun s =>
    match j.kind with
    | 1 => .next ((s.clearAcc [core]).endJob core n stDone 0 0)
    | 2 => .next (s.runMsta core n j)
    | 3 => .next (s.runMlda core n j)
    | _ => .next s

/-- DECODE_TABLE_LOAD: a DTLD at the head (R43, R44, R268). -/
def execDecodeTableLoad (core : Nat) (s : State) : Out :=
  match s.sliceHead core with
  | none => .next s
  | some (n, j) =>
    if j.kind ≠ 5 ∨ j.st ≠ .queued then .next s else
    hartEvent s fun s =>
    let preset := (j.ops.getD 1 0).toNat
    let a := (j.ops.getD 0 0).toNat
    let put (t : DecodeTable) : State := (s.modBank core fun b => { b with dtab := t }).endJob core n stDone 0 0
    if preset ≠ 0 then .next (put { preset := preset, words := [] }) else
    match s.localBad core a 1024 with
    | some e => .next (s.jobError core n e)
    | none =>
      .next (put { preset := 0, words := (List.range 256).map fun i => BitVec.ofNat 19 (s.localRead core (a + 4 * i) 4) })

end Sys2Proof.Machine
end

