-- ==== Sys2Proof/Machine/Boot.lean ====
section
/-! DEFINITION. The module's own events: power-on and reset (R479, R480), slot boundaries (R198, R466, R467), islands
and the power limit (R278, R481, R482), soft errors (R29, R483 to R486), the alarm's other sources (R469), the counter
trees (R380, R381), and the writes of control registers that the host or the device's own agents make (R461, R462). -/

set_option Elab.async false

namespace Sys2Proof.Machine

/-! ### Power-on and MSTS (R479, R480) -/

/-- The module after the phases of power-on: READY, or stopped at the phase that failed. The schedule and the model's
counters go on. -/
def State.boot (s : State) (failPhase : Nat) : State :=
  let r := { State.reset with inputs := s.inputs, tick := s.tick, free := s.free }
  if 1 ≤ failPhase ∧ failPhase ≤ 6 then
    { r with
      cores := []
      mem := if failPhase ≤ 5 then s.mem else []
      msts := { ready := false, phase := failPhase, fail := failPhase, mchk := false } }
  else r

/-- POWER_APPLIED; `failPhase` is the phase that fails, any other number none (R479). -/
def execPowerApplied (failPhase : Nat) (s : State) : Out := .next (s.boot failPhase)

/-- MODULE_RESET (R479). -/
def execModuleReset (failPhase : Nat) (s : State) : Out := .next (s.boot failPhase)

/-- The word the host reads at MSTS (R480): READY, PHASE, FAIL and MCHK. -/
def Msts.word (m : Msts) : Word := w64 (b2n m.ready + m.phase % 8 * 2 + m.fail % 16 * 2 ^ 4 + b2n m.mchk * 2 ^ 8)

/-- MSTS_WRITE: the host clears MCHK by writing 1 (R9, R480). -/
def execMstsWrite (value : Word) (s : State) : Out :=
  .next (if bitOf value 8 then { s with msts := { s.msts with mchk := false } } else s)

/-! ### Slot boundaries (R198, R466, R467) -/

/-- The placements of a virtual device that leaves, in the cycle of the boundary: they come before the switch (R198, R307,
R313). -/
def State.lastPlacements (s : State) (v : Nat) : State := (s.mapLaunch true v).serveAll v (2 ^ 32)

/-- A virtual device leaves: each of its cores receives STOP, and placement stops (R467). -/
def State.switchOut (s : State) (v : Nat) : State :=
  let s := s.modVd v fun d => { d with switchedIn := false, placing := false }
  (s.coresRunning v).foldl (fun s c => s.stopCore c none) s

/-- A virtual device enters: each of its cores receives START (R467). -/
def State.switchIn (s : State) (v : Nat) : State :=
  let s := s.modVd v fun d => { d with switchedIn := true }
  ((s.clustersOf v).flatMap coresOf).foldl (fun s c => s.startCore v c) s

/-- The index advances and the virtual devices of its entry run (R466, R467). Placements come before the switch (R313), and
none is made while a slice is out (R307): one that enters has its queues mapped, and nothing placed yet. -/
def State.slotBoundary (s : State) : State :=
  let s := { s with slotLen := s.slotLenNext, slotPeriod := s.slotPeriodNext }
  let s := { s with slotIx := (s.slotIx + 1) % s.slotLen }
  let e := Tab.get s.slotTab s.slotIx 0
  let leaving := vdsWith fun v => (s.vdev v).switchedIn && !bitOf e v
  let s := leaving.foldl State.switchOut (leaving.foldl State.lastPlacements s)
  let entering := vdsWith fun v => !(s.vdev v).switchedIn && bitOf e v
  let staying := vdsWith fun v => (s.vdev v).switchedIn && bitOf e v
  let s := entering.foldl (fun s v => (s.mapLaunch false v).switchIn v) s
  let s := staying.foldl (fun s v => s.mapLaunch true v) s
  (List.range 64).foldl (fun s n => s.raiseIpend (controlCore n) 1) s

/-- SLOT_BOUNDARY (R466). -/
def execSlotBoundary (s : State) : Out := .next s.slotBoundary

/-! ### Writes by other agents (R461, R462, R481) -/

/-- CLOWN_WRITE (R462). -/
def execClownWrite (cluster : Nat) (value : Word) (s : State) : Out :=
  .next (if cluster < 2 ^ 15 then s.writeClown cluster value else s)

/-- IPEND_CLEAR (R461). -/
def execIpendClear (core : Nat) (value : Word) (s : State) : Out :=
  .next (if isControl core then s.clearIpend core value else s)

/-- ICTL_WRITE (R481). -/
def execIctlWrite (island : Nat) (value : Word) (s : State) : Out := .next (s.writeIctl island (value &&& 0x0000_FFFF_FFFF_000F))

/-! ### Islands and power (R278, R481, R482) -/

/-- FDIV as it acts: 13 to 15 act as 12. -/
def Island.written (i : Island) : Nat := Nat.min 12 i.fdiv

/-- FDIV_CHANGE: a divider that has been written takes effect (R481). -/
def execFdivChange (island : Nat) (s : State) : Out :=
  .next (if island < 36 ∧ (s.island island).fdivDue then
    s.modIsland island fun i => { i with eff := i.written, fdivDue := false } else s)

/-- The mean power of each island of the window: any division of the sum. -/
def State.sharePower (s : State) (watts : Nat) : State :=
  let (rest, s) := (List.range 35).foldl (fun (rest, s) i =>
    let (n, s) := s.pick
    let w := n % (rest + 1)
    (rest - w, s.modIsland i fun y => { y with power := w64 (w % 2 ^ 32) })) (watts, s)
  s.modIsland 35 fun y => { y with power := w64 (rest % 2 ^ 32) }

/-- GOVERNOR_WINDOW: the sum of IPWR over 10 µs, and whether it has stayed below 22,000 W for 1 ms (R482). -/
def execGovernorWindow (watts : Nat) (quietMs : Bool) (s : State) : Out :=
  let s := s.sharePower watts
  let f (i : Island) : Island :=
    if 24000 < watts then { i with eff := Nat.min 12 (i.eff + 1) }
    else if watts < 22000 && quietMs && decide (i.written < i.eff) then { i with eff := i.eff - 1 }
    else i
  .next ((List.range 32).foldl (fun s i => s.modIsland i f) s)

/-- A bound of the ramp limiter: 0 acts as 1. -/
def rampBound (x : Word) : Nat := if x = 0 then 1 else x.toNat

/-- RAMP_WINDOW: the matrix slots of the window that ends lie within the bounds of the one before; the bounds written since
apply from the next window (R278, R481). -/
def execRampWindow (island : Nat) (s : State) : Out :=
  if 32 ≤ island then .next s else
  let (n, s) := s.pick
  .next (s.modIsland island fun i =>
    let lo := i.slots - rampBound i.fallNow
    let hi := i.slots + rampBound i.riseNow
    { i with slots := lo + n % (hi - lo + 1), riseNow := i.rise, fallNow := i.fall })

/-! ### Soft errors (R29, R483 to R486) -/

/-- First byte of a codeword. -/
def codewordAt (g o : Nat) : Nat := (codewordBytes g o).headD 0

/-- The virtual device that a report of a bank's error names (R485): the owner of the codeword, of a time-shared TCM's data
bank the one that owns the bank (R463); the first of several (log 78), 0xFF for none. -/
def State.bankOwner (s : State) (a b : Nat) : Nat :=
  let k := s.cluster (clusterOf ((a - 2 ^ 41) / 2 ^ 18))
  if regionOf a = .tcm ∧ k.shared ∧ !k.lost ∧ fld k.clown 20 16 ≤ b ∧ b < 32 then fld k.clown 13 8
  else (s.ownersAt a).headD 0xFF

/-- The virtual devices that own data in a group, a codeword of which is at `a` (R483). -/
def State.groupOwners (s : State) (a : Nat) : List Nat :=
  match regionOf a with
  | .spad => (s.cluster ((a - 2 ^ 41 - 2 ^ 36) / 2 ^ 20)).vds
  | .tcm | .die | .hbm => s.ownersAt a

/-- A bank is marked failed, and reported; the second of its group is a machine check (R483, R485). -/
def State.failBank (s : State) (g b : Nat) : State :=
  if s.failedBanks.contains (g, b) then s else
  let a := codewordAt g 0
  let second := decide (1 ≤ s.failedIn g)
  let more := (Tab.get s.corrected (g * 64 + b) (0, 0)).1
  let s := { s with failedBanks := s.failedBanks ++ [(g, b)], corrected := Tab.drop s.corrected (g * 64 + b) }
  let s := s.errorReport 3 (errorPlace a).1 (errorPlace a).2 (s.bankOwner a b) more
  if second then s.checkAll (s.groupOwners a) a else s

/-- BANK_SELF_TEST_FAIL: of the 36 banks of a TCM, a scratchpad or a group of die SRAM (R483). -/
def execBankSelfTestFail (group bank : Nat) (s : State) : Out :=
  .next (if group < 2 ^ 20 ∧ bank < 36 then s.failBank group bank else s)

/-- A corrected error of a bank (R483, R485): reported where 2^20 cycles have passed since the last report, counted
otherwise; the sixteenth within 2^20 cycles marks the bank failed. The times are free: those since the last report that
came within 2^20 cycles of it all count (log 77). -/
def State.correctedError (s : State) (g o b : Nat) : State :=
  let key := g * 64 + b
  let (n, w) := Tab.get s.corrected key (0, 0)
  let (x, s) := s.pick
  let due := (Tab.look s.corrected key).isNone || decide (x % 2 = 1)
  let least := if due then 0 else n + 1
  let total := least + x / 2 % (w - least + 1) + 1
  let a := codewordAt g o
  let s := if due then
      { s with corrected := Tab.put s.corrected key (0, total) }.errorReport 1 (errorPlace a).1 (errorPlace a).2
        (s.bankOwner a b) n
    else { s with corrected := Tab.put s.corrected key (n + 1, total) }
  if 16 ≤ total ∧ g < 2 ^ 20 then s.failBank g b else s

/-- Symbols that are wrong, of a codeword that no read has decoded yet: `errors` has this bit set (log 77). -/
def unread : Nat := 36

/-- SCRUB: a codeword is decoded, by the scrubber or by an access; `errors` has a bit for each bank whose symbol is wrong.
The decoder corrects two, or one beside a failed bank; anything else is uncorrectable (R483, R484, R486). Where no read
has decoded it yet, the next access that does traps UNCORR before the machine check. -/
def execScrub (group offset errors : Nat) (s : State) : Out :=
  let banks := (List.range 36).filter fun b => errors.testBit b && !s.failedBanks.contains (group, b)
  let able := if s.failedIn group = 0 then 2 else if s.failedIn group = 1 then 1 else 0
  if banks.isEmpty then .next s
  else if banks.length ≤ able then .next (banks.foldl (fun s b => s.correctedError group offset b) s)
  else
    let s := { s with uncorrectable := (group, offset) :: s.uncorrectable.filter fun e => decide (e ≠ (group, offset)) }
    .next (if errors.testBit unread then s else s.checkOwners (codewordAt group offset))

/-- CORE_FAILURE: CLOWN.FAILED is set and the cluster leaves the partition map; pair partners are lost, and the product that
the core's slice runs ends FAULT (R29, R261, R267, R462). -/
def execCoreFailure (core : Nat) (s : State) : Out :=
  if isControl core ∨ 2 ^ 18 ≤ core then .next s else
  let k := clusterOf core
  hartEvent s fun s =>
  let s := s.sliceFails core
  let s := s.modCore core fun x => { x with failed := true }
  let s := s.modCluster k fun y => { y with clown := setFld y.clown 31 31 1 }
  .next (s.losePartner k)

/-! ### The alarm's other sources (R469) -/

/-- TAMPER_SENSOR: an unattributed alarm. -/
def execTamperSensor (s : State) : Out := .next (s.alarm 4 0xFF 0)

/-- MEASUREMENT_CHECK_FAIL, attributed to the virtual device. -/
def execMeasurementCheckFail (vd : Nat) (s : State) : Out := .next (if vd < 64 then s.alarm 3 vd 0 else s)

/-! ### The counter trees (R380, R381) -/

/-- COUNTER_NODE_WRITE_BACK: a cached node of a key's tree, of a level 1 to 11, is written back: its parent's counter
rises by 1, or the write is refused and the alarm raised. Under an erased key the write is discarded (R470). -/
def execCounterNodeWriteBack (key level node : Nat) (s : State) : Out :=
  let n := ((s.counters.find? fun e => decide (e.1 = (key, level, node))).map (·.2)).getD 0
  if level = 0 ∨ 11 < level ∨ 2 ^ (34 - 3 * level) ≤ node then .next s else
  if key ≠ s.hypKey ∧ s.keyOwner key = none then .next s
  else if 2 ^ 56 ≤ n + 1 then .next (s.alarm 2 ((s.keyOwner key).getD 0xFF) 0)
  else .next (s.setCounter (key, level, node) (n + 1))

end Sys2Proof.Machine
end

