-- ==== Sys2Proof/Machine/Front.lean ====
section
/-! DEFINITION. What stands before an instruction's meaning: the round robin of a core's contexts (R145), the rows of
the table that share an encoding (R76, R432, R476, R477), and the two steps of an instruction that never comes to be:
the failing fetch (R58, R122) and the encoding that is none (R80, R82). -/

set_option Elab.async false

namespace Sys2Proof.Machine

noncomputable section

/-- The context that issues next: the first READY one in the order of the round robin (R145). -/
def Core.nextReady (x : Core) : Option (Fin 4) :=
  [x.rr, x.rr + 1, x.rr + 2, x.rr + 3].find? fun i => decide ((x.ctx i).st = .ready)

/-- The context of a core of the module that issues: none of a cluster that has left the partition map (R29). -/
def State.nextReady (s : State) (c : Nat) : Option (Fin 4) :=
  if !isControl c && (s.cluster (clusterOf c)).lost then none else (s.core c).nextReady

/-- The state in which a context of a core executes: the round robin goes on behind it. -/
def State.dispatch (s : State) (c : Nat) (i : Fin 4) : State :=
  ({ s with focus := (c, i) }).modCore c fun x => { x with rr := i + 1 }

/-- CMSET's row by SEL, bits 2:0 of the first word of its block (R432). -/
def cmsetRow (sel : Nat) (rd gs1 gs2 : GReg) : Instr :=
  match sel with
  | 1 => .cmsetExpr rd gs1 gs2
  | 2 => .cmsetQuorum rd gs1 gs2
  | 3 => .cmsetOpen rd gs1 gs2
  | _ => .cmsetMember rd gs1 gs2

/-- SLOTW's row by its selector, bits 9:8 of rs1 (R476). -/
def slotwRow (sel : Nat) (rd rs1 rs2 : GReg) : Instr :=
  match sel with
  | 1 => .slotwPeriod rd rs1 rs2
  | 2 => .slotwLen rd rs1 rs2
  | _ => .slotwEntry rd rs1 rs2

/-- KEYOP's row by its operation, the value of rs1 (R477). -/
def keyopRow (op : Nat) (rd rs1 rs2 : GReg) : Instr :=
  match op with
  | 1 => .attest rd rs1 rs2
  | 2 => .vdkey rd rs1 rs2
  | 3 => .wnew rd rs1 rs2
  | 4 => .wgrant rd rs1 rs2
  | 5 => .wrevoke rd rs1 rs2
  | 6 => .quench rd rs1 rs2
  | 7 => .fmove rd rs1 rs2
  | _ => .mext rd rs1 rs2

/-- The first word of the block at an address, where a load of it would succeed; 0 where it would not. -/
def State.peek (s : State) (va : Word) : Nat :=
  match s.load va 8 with
  | .ok (x, _) => x
  | .trap _ | .wait _ | .yield => 0

/-- The row of the table an instruction is, where several rows share its encoding and an operand tells them apart. -/
def State.row (s : State) (i : Instr) : Instr :=
  match i with
  | .cmsetMember rd gs1 gs2 => cmsetRow (s.peek (s.g gs2) % 8) rd gs1 gs2
  | .slotwEntry rd rs1 rs2 => slotwRow (fld (s.g rs1) 9 8) rd rs1 rs2
  | .mext rd rs1 rs2 => keyopRow (s.g rs1).toNat rd rs1 rs2
  | i => i

/-- FETCH_FAULT: the fetch at the pc traps (R58, R122). Where it would not, nothing happens. -/
def execFetchFault (second : Bool) (s : State) : Out :=
  match s.fetch with
  | (.fault b t, s) => if b = second then trapOut s t else .next s
  | (.bytes _, _) => .next s

/-- ILLEGAL_ENCODING: ILLEGAL, with the encoding in FADDR (R80, R82). -/
def execIllegalEncoding (word : BitVec 32) (compact : Bool) (s : State) : Out :=
  trapOut s (illegalTrap (if compact then word &&& 0xFFFF else word))

end

end Sys2Proof.Machine
end

