-- ==== Sys2Proof/Machine/Agenda.lean ====
section
/-! DEFINITION. What the device does where the schedule is empty and the core in focus has no context to issue from: the
events that its waiting contexts, entries, messages and jobs call for, in turn (log 5). The order is the model's; a
schedule may give any other. -/

set_option Elab.async false

namespace Sys2Proof.Machine

noncomputable section

/-- What a waiting context waits for. -/
def waitChores (c : Nat) (i : Fin 4) (w : Wait) : List Instr :=
  match w with
  | .commit _ => [.chunkCommit c i.val]
  | .again | .result _ _ | .ring _ _ _ _ | .jwait _ _ | .fence _ _ _ => [.contextWake c i.val]
  | .barrier block _ _ => [.barrierRelease (clusterOf c) block]
  | .thread _ => [.stitchRequest c, .committeeRequest c]
  | .sfu _ _ _ => [.sfuService (clusterOf c)]
  | .draw _ _ _ => [.riddleDraw c i.val]
  | .wfi => [.wfiWake c]
  | .rev _ _ _ _ | .none => []

/-- What a job calls for. -/
def jobChores (c n : Nat) (j : Job) : List Instr :=
  match j.st with
  | .queued | .running =>
    let runs : List Instr := match j.kind with
      | 0 | 4 => [.gangRound (clusterOf c) (c % 8 / 4)]
      | 1 | 2 | 3 => [.accumulatorJobRun c]
      | 5 => [.decodeTableLoad c]
      | 6 | 7 => [.copySegment c, .contextReserveRetry c, .ringDeliveryRetry c]
      | 12 => [.permutationApply c]
      | 13 => [.permutationMove c]
      | 14 => [.gspawnEnqueue c n]
      | 15 | 16 | 17 => [.invalidationJob c n]
      | 18 => [.ridlRun c]
      | _ => [.factorisationStep c]
    runs ++ (if j.kind = 0 then [.jobEnd c n] else [])
  | .free | .held | .parked | .ended => []

/-- What an entry calls for. -/
def entryChores (c n : Nat) (e : Entry) : List Instr :=
  if e.st ≠ .ready ∨ e.away then [] else if e.atomic.isSome then [.atomicPerform c n] else [.entryDepart c n]

/-- What the first service message of a core calls for. -/
def svcChores (c : Nat) (q : List Msg) : List Instr :=
  match q with
  | [] => []
  | m :: _ =>
    match m.svcOp with
    | 0 => [.resume c]
    | 1 => [.kill c]
    | 2 => [.stop c]
    | 3 => [.start c]
    | _ => [.continueSave c]

/-- What a message in flight calls for. -/
def netChores (ix : Nat) (m : Msg) : List Instr :=
  if m.kind = .fault then [.faultNotice m.dst m.vd]
  else if m.kind = .task ∧ m.outOfScope then [.scopeStrip ix]
  else [.messageArrival ix]

/-- What the device may do for a core. -/
def State.chores (s : State) (c : Nat) : List Instr :=
  let x := s.core c
  (([0, 1, 2, 3] : List (Fin 4)).flatMap fun i =>
    if (x.ctx i).st = .waiting then waitChores c i (x.ctx i).wait else []) ++
  (x.bank.jobs.toList.zipIdx.flatMap fun (j, n) => jobChores c n j) ++
  (x.owed.map fun o => .jobEnd c o.slot) ++
  (x.sendq.toList.zipIdx.flatMap fun (e, n) => entryChores c n e) ++
  (s.net.zipIdx.flatMap fun (m, ix) => netChores ix m) ++
  (s.verdicts.zipIdx.map fun (v, ix) => if v.why.isSome then .entryRefused ix else .entryAccepted ix) ++
  svcChores c x.svc ++
  (if s.mayStart c && x.pick.isSome then [.taskStart c] else []) ++
  (if x.stopped && !x.saved then [.saveRecordWrite c] else []) ++
  (if (s.drained c).isSome then [.kernelDrained c] else []) ++
  (if (s.vdev x.bank.vdid).placing then [.blockPlace x.bank.vdid] else []) ++
  (if (s.vdev x.bank.vdid).loads.isEmpty then [] else
    [.load x.bank.vdid, .unload x.bank.vdid, .clear x.bank.vdid])

/-- The next event of a core that issues nothing: each of its chores has its turn. -/
def State.agenda (s : State) (c : Nat) : Option Instr :=
  let l := s.chores c
  l[s.tick % l.length]?

end

end Sys2Proof.Machine
end

