-- ==== Sys2Proof/Machine/Compact.lean ====
section
/-! DEFINITION. The compact forms (R65 to R68): each does what the 32-bit instruction it expands to does, is 2 bytes
long, and records its own halfword where it traps ILLEGAL. -/

set_option Elab.async false

namespace Sys2Proof.Machine

/-- R66: ADDI rd, rd, imm5. -/
def execAddiC (rd : GReg) (imm : BitVec 5) (s : State) : Out := writeG s rd (s.g rd + sx imm) 2

/-- R66: ADDI rd, g0, imm5. -/
def execLdiC (rd : GReg) (imm : BitVec 5) (s : State) : Out := writeG s rd (sx imm) 2

/-- R66: SLLI rd, rd, sh. -/
def execSlliC (rd : GReg) (sh : BitVec 5) (s : State) : Out := writeG s rd (s.g rd <<< sh.toNat) 2

/-- R66: SRLI rd, rd, sh. -/
def execSrliC (rd : GReg) (sh : BitVec 5) (s : State) : Out := writeG s rd (s.g rd >>> sh.toNat) 2

/-- R66: SRAI rd, rd, sh. -/
def execSraiC (rd : GReg) (sh : BitVec 5) (s : State) : Out := writeG s rd ((s.g rd).sshiftRight sh.toNat) 2

/-- R66: ANDI rd, rd, imm5. -/
def execAndiC (rd : GReg) (imm : BitVec 5) (s : State) : Out := writeG s rd (s.g rd &&& sx imm) 2

/-- R66: ADD rd, g0, rs. -/
def execMvC (rd rs : GReg) (s : State) : Out := writeG s rd (s.g rs) 2

/-- R66: ADD rd, rd, rs. -/
def execAddC (rd rs : GReg) (s : State) : Out := writeG s rd (s.g rd + s.g rs) 2

/-- R66: SUB rd, rd, rs. -/
def execSubC (rd rs : GReg) (s : State) : Out := writeG s rd (s.g rd - s.g rs) 2

/-- R66: AND rd, rd, rs. -/
def execAndC (rd rs : GReg) (s : State) : Out := writeG s rd (s.g rd &&& s.g rs) 2

/-- R66: OR rd, rd, rs. -/
def execOrC (rd rs : GReg) (s : State) : Out := writeG s rd (s.g rd ||| s.g rs) 2

/-- R66: XOR rd, rd, rs. -/
def execXorC (rd rs : GReg) (s : State) : Out := writeG s rd (s.g rd ^^^ s.g rs) 2

/-- R66: JALR g0, rs, 0. -/
def execJrC (rs : GReg) (s : State) : Out :=
  let t := s.g rs
  if bitOf t 0 then trapOut s (Trap.at_ .misalign 0 t) else s.transfer t none

/-- R66: HALT. -/
def execHaltC (s : State) : Out := haltOp s 0x3800

/-- R66: COMMIT. -/
def execCommitC (s : State) : Out := commitOp s 0x3C00 2

/-- R67: JAL g0. -/
def execJC (off : BitVec 11) (s : State) : Out := s.transfer (s.target off) none

/-- R67: JAL g1; the link is the form's own successor (R65). -/
def execJalC (off : BitVec 11) (s : State) : Out := s.transfer (s.target off) (some (1, s.pc + 2))

/-- R67: BEQ rs, g0. -/
def execBeqzC (rs : CReg) (off : BitVec 8) (s : State) : Out := branchOp s (s.g rs.full == 0) (s.target off) 2

/-- R67: BNE rs, g0. -/
def execBnezC (rs : CReg) (off : BitVec 8) (s : State) : Out := branchOp s (s.g rs.full != 0) (s.target off) 2

/-- R67: BLT rs, g0. -/
def execBltzC (rs : CReg) (off : BitVec 8) (s : State) : Out := branchOp s ((s.g rs.full).slt 0) (s.target off) 2

/-- R67: BGE rs, g0. -/
def execBgezC (rs : CReg) (off : BitVec 8) (s : State) : Out := branchOp s (!(s.g rs.full).slt 0) (s.target off) 2

/-- The address of a compact load or store: rs1 plus a scaled unsigned offset (R68). -/
def State.cea (s : State) (rs1 : CReg) (off : BitVec 6) (n : Nat) : Word := s.g rs1.full + w64 (off.toNat * n)

/-- R68: LW. -/
def execLwC (rd rs1 : CReg) (off : BitVec 6) (s : State) : Out :=
  loadOp s rd.full (s.cea rs1 off 4) 4 (fun x => sextN x 32) 2

/-- R68: LD. -/
def execLdC (rd rs1 : CReg) (off : BitVec 6) (s : State) : Out := loadOp s rd.full (s.cea rs1 off 8) 8 id 2

/-- R68: SW. -/
def execSwC (rd rs1 : CReg) (off : BitVec 6) (s : State) : Out := storeOp s (s.cea rs1 off 4) 4 (s.g rd.full) 2

/-- R68: SD. -/
def execSdC (rd rs1 : CReg) (off : BitVec 6) (s : State) : Out := storeOp s (s.cea rs1 off 8) 8 (s.g rd.full) 2

end Sys2Proof.Machine
end

