-- ==== Sys2Proof/Machine/Fact.lean ====
section
/-! DEFINITION. Major 0x1D, tile factorisations and permutations (R282 to R302): the checks at issue, the column steps,
and the jobs on p registers. -/

set_option Elab.async false

namespace Sys2Proof.Machine

/-! ### At issue (R283, R296, R297) -/

/-- Two ranges share no byte. -/
def apart (a n b m : Nat) : Bool := decide (a + n ≤ b) || decide (b + m ≤ a)

/-- A map lies in the scratchpad and holds binary32 (R283). -/
def factMap (t : BitVec 256) : Bool := decide (2 ^ 20 ≤ tmBase t) && decide (tmEt t = 5)

/-- Most rows of a factorisation (R283). -/
def State.factRows (s : State) : Nat := if (s.cluster (clusterOf s.focus.1)).split then 64 else 128

/-- The shapes of the four factorisations (R283). -/
def factShape (kind : Nat) (a b : BitVec 256) : Bool :=
  match kind with
  | 10 => decide (tmCols a ≤ tmRows a) && decide (tmRows b = 1) && decide (tmCols b = tmCols a)
  | 11 => decide (tmRows a = tmCols a) && decide (tmRows b = tmRows a) && decide (tmCols b ≤ 128)
  | _ => decide (tmRows a = tmCols a)

/-- FLU to FTRS at issue, in the order of R283. -/
def factOp (s : State) (kind : Nat) (rd : GReg) (tmA : TMReg) (tmB : Option TMReg) (gs1 gs2 : GReg)
    (enc : BitVec 32) : Out :=
  fabricOnly s enc <|
  let rec_ := s.g gs2
  let ra := rec_.toNat
  conclude s <|
  s.halfOk.bind fun _ =>
  (s.useMap tmA).bind fun (a, s) =>
  (match tmB with
    | some t => s.useMap t
    | none => .ok (0, s)).bind fun (b, s) =>
  let two := tmB.isSome
  (Ans.check (factMap a && (!two || factMap b) && factShape kind a b && decide (tmRows a ≤ s.factRows) &&
    (!two || apart (tmBase a) (tmSpan a) (tmBase b) (tmSpan b))) (Trap.bare .job 2)).bind fun _ =>
  (Ans.check (decide (s.cr.fctl &&& ~~~0x731 = 0)) (Trap.bare .job 3)).bind fun _ =>
  (Ans.check (decide (ra % 256 = 0) && decide (2 ^ 20 ≤ ra) && decide (ra + 256 ≤ 2 ^ 21) &&
    apart ra 256 (tmBase a) (tmSpan a) && (!two || apart ra 256 (tmBase b) (tmSpan b)))
    (Trap.bare .job 3)).bind fun _ =>
  (s.mailbox (s.g gs1)).bind fun _ =>
  s.submit rd kind (s.g gs1) a b [rec_]

/-- FLU (R288). -/
def execFlu (rd : GReg) (tmA : TMReg) (gs1 gs2 : GReg) (s : State) : Out :=
  factOp s 8 rd tmA none gs1 gs2 (encT 0x1D 0 gs2 gs1 0 tmA rd)

/-- FCHOL (R290). -/
def execFchol (rd : GReg) (tmA : TMReg) (gs1 gs2 : GReg) (s : State) : Out :=
  factOp s 9 rd tmA none gs1 gs2 (encT 0x1D 1 gs2 gs1 0 tmA rd)

/-- FQR (R291). -/
def execFqr (rd : GReg) (tmA tmB : TMReg) (gs1 gs2 : GReg) (s : State) : Out :=
  factOp s 10 rd tmA (some tmB) gs1 gs2 (encT 0x1D 2 gs2 gs1 tmB tmA rd)

/-- FTRS (R292). -/
def execFtrs (rd : GReg) (tmA tmB : TMReg) (gs1 gs2 : GReg) (s : State) : Out :=
  factOp s 11 rd tmA (some tmB) gs1 gs2 (encT 0x1D 3 gs2 gs1 tmB tmA rd)

/-- PRAPL (R296). -/
def execPrapl (rd : GReg) (tmA : TMReg) (gs1 gs2 : GReg) (s : State) : Out :=
  fabricOnly s (encT 0x1D 4 gs2 gs1 0 tmA rd) <|
  conclude s <|
  (s.useMap tmA).bind fun (a, s) =>
  (Ans.check (decide (tmRows a ≤ 128)) (Trap.bare .job 2)).bind fun _ =>
  (Ans.check (decide (fld (s.g gs2) 63 3 = 0)) (Trap.bare .job 3)).bind fun _ =>
  (s.mailbox (s.g gs1)).bind fun _ =>
  s.submit rd 12 (s.g gs1) a 0 [s.g gs2]

/-- PRMOV (R297). -/
def execPrmov (rd gs1 gs2 : GReg) (s : State) : Out :=
  fabricOnly s (encT 0x1D 5 gs2 gs1 0 0 rd) <|
  let opt := s.g gs2
  let a := s.g gs1
  conclude s <|
  (Ans.check (decide (fld opt 63 4 = 0)) (Trap.bare .job 3)).bind fun _ =>
  (Ans.check (if bitOf opt 3 then decide (gs1 = 0) else decide (a.toNat % 128 = 0) && s.inTcm a.toNat 128)
    (Trap.bare .job 3)).bind fun _ =>
  s.submit rd 13 0 0 0 [a, opt]

/-! ### Tiles as values -/

/-- A matrix of binary32 encodings, by rows. -/
abbrev Mat := List (List Nat)

def Mat.at (m : Mat) (i j : Nat) : Nat := (m.getD i []).getD j 0
def Mat.build (rows cols : Nat) (f : Nat → Nat → Nat) : Mat :=
  (List.range rows).map fun i => (List.range cols).map fun j => f i j
/-- The matrix with one column replaced. -/
def Mat.setCol (m : Mat) (j : Nat) (col : List Nat) : Mat :=
  m.mapIdx fun i row => row.set j (col.getD i 0)

/-- The elements of a map as they stand. -/
def State.tile (s : State) (c : Nat) (t : BitVec 256) : Mat :=
  Mat.build (tmRows t) (tmCols t) fun i j => s.localRead c (tmElem t i j) 4

/-- Positions of a matrix. -/
abbrev Spots := List (Nat × Nat)

/-- The rows from i on and the columns from j on, of an m × n matrix. -/
def spotsFrom (m n i j : Nat) : Spots :=
  ((List.range m).filter fun x => decide (i ≤ x)).flatMap fun x =>
    ((List.range n).filter fun y => decide (j ≤ y)).map fun y => (x, y)

/-- The cells of the elements written, at a map. -/
def State.tileCells (s : State) (c : Nat) (t : BitVec 256) (w : Spots) (new : Mat) : List (Nat × Byte) :=
  w.flatMap fun (i, j) => s.localCells c (tmElem t i j) (toBytes 4 (new.at i j))

/-- What is wrong with the elements at positions of a map. -/
def State.spotsBad (s : State) (c : Nat) (t : BitVec 256) (w : Spots) : Option (Cause × Nat) :=
  w.findSome? fun (i, j) => s.localBad c (tmElem t i j) 4

def nan32 : Nat := 0x7FC0_0000
def isNan32 (x : Nat) : Bool := (read32 x).isNan
/-- +0 or −0. -/
def isZero32 (x : Nat) : Bool := decide (x % 2 ^ 31 = 0)
/-- |x|. -/
def abs32 (x : Nat) : Nat := x % 2 ^ 31
/-- −x. -/
def neg32 (x : Nat) : Nat := if isNan32 x then nan32 else x ^^^ 2 ^ 31

/-- The greater magnitude; the canonical NaN beside a NaN (R293). -/
def maxMag (a b : Nat) : Nat :=
  if isNan32 a || isNan32 b then nan32 else Nat.max (abs32 a) (abs32 b)

/-- The largest magnitude of a list (R293). -/
def largest (xs : List Nat) : Nat := xs.foldl maxMag 0

/-! ### The record (R285) -/

/-- What a step reads of the job's record, and leaves there. -/
structure Record where
  next : Nat
  firstz : Nat
  amax : Nat
  fmax : Nat
  perm : List Nat
  deriving DecidableEq, Repr

/-- The record at an address of the scratchpad. -/
def State.readRecord (s : State) (c a : Nat) : Record where
  next := s.localRead c (a + 8) 1
  firstz := s.localRead c (a + 9) 1
  amax := s.localRead c (a + 0x10) 4
  fmax := s.localRead c (a + 0x14) 4
  perm := (List.range 128).map fun i => s.localRead c (a + 0x80 + i) 1

/-- TAG's value (R285). -/
def recordTag (n : Nat) (j : Job) : Nat := jobId n j + j.kind * 2 ^ 16

/-- The 256 bytes of a record. -/
def Record.bytes (r : Record) (tag : Nat) : List Byte :=
  toBytes 8 tag ++ toBytes 8 (r.next + r.firstz * 256) ++ toBytes 4 r.amax ++ toBytes 4 r.fmax ++
  List.replicate 104 0 ++ r.perm.map (BitVec.ofNat 8)

/-- POS, FMAX and PERM brought up to date (R287). -/
def State.recordCells (s : State) (c a : Nat) (r : Record) : List (Nat × Byte) :=
  s.localCells c (a + 8) (toBytes 8 (r.next + r.firstz * 256)) ++
  s.localCells c (a + 0x14) (toBytes 4 r.fmax) ++
  s.localCells c (a + 0x80) (r.perm.map (BitVec.ofNat 8))

/-- The growth estimate γ (R294). -/
def growth (r : Record) : Nat :=
  if isNan32 r.amax || isNan32 r.fmax then nan32
  else if isZero32 r.amax then 0 else div32 r.fmax r.amax

/-! ### One column step of each kind (R288 to R292) -/

/-- What a step comes to, with the elements it reads and writes. -/
structure Stepped where
  a : Mat
  b : Mat
  rec_ : Record
  /-- The status that ends the job at this step, with its DCODE. -/
  stop : Option (Nat × Nat)
  readA : Spots
  writeA : Spots
  readB : Spots
  writeB : Spots
  deriving DecidableEq, Repr

/-- |x| > |y|, where a NaN exceeds every number (R288). -/
def exceeds (x y : Nat) : Bool :=
  if isNan32 y then false else isNan32 x || decide (abs32 y < abs32 x)

/-- The pivot row of a column: ties keep the lower row (R288). -/
def pivotRow (a : Mat) (n j : Nat) : Nat :=
  (List.range n).foldl (fun r i => if j < i ∧ exceeds (a.at i j) (a.at r j) then i else r) j

/-- Two entries of a list exchanged. -/
def swapAt {α : Type} (xs : List α) (i j : Nat) : List α :=
  match xs[i]?, xs[j]? with
  | some x, some y => (xs.set i y).set j x
  | _, _ => xs

/-- The parts of row j from the diagonal on: what a step adds to the output of FLU and FQR (R293). -/
def rowFrom (a : Mat) (n j : Nat) : List Nat := ((List.range n).filter fun c => decide (j ≤ c)).map fun c => a.at j c

/-- FLU (R288, R289). -/
def luStep (zmode : Bool) (n : Nat) (a b : Mat) (r : Record) : Stepped :=
  let j := r.next
  let p := pivotRow a n j
  if isZero32 (a.at p j) then
    let firstz := if r.firstz = 0xFF then j else r.firstz
    let col : Spots := spotsFrom n (j + 1) j j
    if !zmode then
      { a := a, b := b, rec_ := { r with firstz := firstz }, stop := some (stZpiv, j)
        readA := col, writeA := [], readB := [], writeB := [] }
    else
    let a' := Mat.build n n fun i c => if c = j ∧ j ≤ i then 0 else a.at i c
    { a := a', b := b, stop := none
      readA := col ++ spotsFrom (j + 1) n j j, writeA := col, readB := [], writeB := []
      rec_ := { r with next := j + 1, firstz := firstz, fmax := maxMag r.fmax (largest (rowFrom a' n j)) } }
  else
    let sw : Mat := swapAt a j p
    let l (i : Nat) : Nat := div32 (sw.at i j) (sw.at j j)
    let a' := Mat.build n n fun i c =>
      if i ≤ j ∨ c < j then sw.at i c
      else if c = j then l i
      else fms32 (sw.at i c) (l i) (sw.at j c)
    let rows : Spots := if p = j then [] else spotsFrom (j + 1) n j 0 ++ spotsFrom (p + 1) n p 0
    { a := a', b := b, stop := none
      readA := rows ++ spotsFrom n n j j
      writeA := rows ++ spotsFrom n n (j + 1) j
      readB := [], writeB := []
      rec_ := { r with
        next := j + 1
        perm := swapAt r.perm j p
        fmax := maxMag r.fmax (largest (rowFrom a' n j)) } }

/-- FCHOL (R290). -/
def cholStep (n : Nat) (a b : Mat) (r : Record) : Stepped :=
  let j := r.next
  let sum (i : Nat) : Nat := (List.range j).foldl (fun acc k => fms32 acc (a.at i k) (a.at j k)) (a.at i j)
  let d := sum j
  if isNan32 d || isZero32 d || decide (2 ^ 31 ≤ d) then
    { a := a, b := b, rec_ := { r with firstz := j }, stop := some (stNpd, j)
      readA := spotsFrom n (j + 1) j 0, writeA := [], readB := [], writeB := [] }
  else
    let root := sqrt32 d
    let col (i : Nat) : Nat := if i < j then a.at i j else if i = j then root else div32 (sum i) root
    let new := (List.range n).map col
    { a := a.setCol j new, b := b, stop := none
      readA := spotsFrom n (j + 1) j 0, writeA := spotsFrom n (j + 1) j j, readB := [], writeB := []
      rec_ := { r with next := j + 1, fmax := maxMag r.fmax (largest (new.drop j)) } }

/-- FQR (R291): m rows, n columns. -/
def qrStep (m n : Nat) (a b : Mat) (r : Record) : Stepped :=
  let j := r.next
  let alpha := a.at j j
  let below := (List.range m).filter fun i => decide (j < i)
  let sigma := below.foldl (fun acc i => fma32 acc (a.at i j) (a.at i j)) 0
  let setTau (t : Nat) : Mat := b.mapIdx fun i row => if i = 0 then row.set j t else row
  if isZero32 sigma then
    { a := a, b := setTau 0, stop := none
      readA := spotsFrom m (j + 1) j j ++ spotsFrom (j + 1) n j j, writeA := [], readB := [], writeB := [(0, j)]
      rec_ := { r with next := j + 1, fmax := maxMag r.fmax (largest (rowFrom a n j)) } }
  else
    let mu := sqrt32 (fma32 sigma alpha alpha)
    let nonneg := isZero32 alpha || (!isNan32 alpha && decide (alpha < 2 ^ 31))
    let beta := if nonneg then neg32 mu else mu
    let tau := div32 (sub32 beta alpha) beta
    let w := sub32 alpha beta
    let v (i : Nat) : Nat := div32 (a.at i j) w
    let t (c : Nat) : Nat := mul32 tau (below.foldl (fun acc i => fma32 acc (v i) (a.at i c)) (a.at j c))
    let ts := (List.range n).map t
    let a' := Mat.build m n fun i c =>
      if i < j ∨ c < j then a.at i c
      else if c = j then (if i = j then beta else v i)
      else if i = j then sub32 (a.at j c) (ts.getD c 0)
      else fms32 (a.at i c) (v i) (ts.getD c 0)
    { a := a', b := setTau tau, stop := none
      readA := spotsFrom m n j j, writeA := spotsFrom m n j j, readB := [], writeB := [(0, j)]
      rec_ := { r with next := j + 1, fmax := maxMag r.fmax (largest (rowFrom a' n j)) } }

/-- M is lower triangular (R292). -/
def solveLower (fctl : Word) : Bool := bitOf fctl 8 != bitOf fctl 10

/-- Element (i, k) of M (R292). -/
def solveAt (fctl : Word) (a : Mat) (i k : Nat) : Nat := if bitOf fctl 10 then a.at k i else a.at i k

/-- The elements of tmA that FTRS reads: the triangle LOWER names, with its diagonal where UNIT = 0 (R292). -/
def solveSpots (fctl : Word) (n : Nat) : Spots :=
  (spotsFrom n n 0 0).filter fun (i, k) =>
    if i = k then !bitOf fctl 9 else if bitOf fctl 8 then decide (k < i) else decide (i < k)

/-- FTRS: one right-hand side (R292). A zero on the diagonal has been looked for before the first. -/
def solveStep (fctl : Word) (n : Nat) (a b : Mat) (r : Record) : Stepped :=
  let q := r.next
  let lower := solveLower fctl
  let order := if lower then List.range n else (List.range n).reverse
  let x := order.foldl (fun x i =>
    let done := (List.range n).filter fun k => if lower then decide (k < i) else decide (i < k)
    let acc := done.foldl (fun acc k => fms32 acc (solveAt fctl a i k) (x.getD k 0)) (x.getD i 0)
    x.set i (if bitOf fctl 9 then acc else div32 acc (solveAt fctl a i i)))
    ((List.range n).map fun i => b.at i q)
  { a := a, b := b.setCol q x, stop := none
    readA := solveSpots fctl n, writeA := [], readB := spotsFrom n (q + 1) 0 q, writeB := spotsFrom n (q + 1) 0 q
    rec_ := { r with next := q + 1, fmax := maxMag r.fmax (largest x) } }

/-- The column step of a job. -/
def Job.column (j : Job) (a b : Mat) (r : Record) : Stepped :=
  match j.kind with
  | 8 => luStep (bitOf j.cr.fctl 0) (tmRows j.tmA) a b r
  | 9 => cholStep (tmRows j.tmA) a b r
  | 10 => qrStep (tmRows j.tmA) (tmCols j.tmA) a b r
  | _ => solveStep j.cr.fctl (tmRows j.tmA) a b r

/-- Columns, or right-hand sides, of a job. -/
def Job.columns (j : Job) : Nat := if j.kind = 11 then tmCols j.tmB else tmCols j.tmA

/-- AMAX (R293). -/
def Job.inputMax (j : Job) (a b : Mat) : Nat :=
  match j.kind with
  | 9 => largest (a.mapIdx fun i row => row.take (i + 1)).flatten
  | 11 => largest b.flatten
  | _ => largest a.flatten

/-- The lowest zero on the diagonal that FTRS reads (R292). -/
def Job.zeroDiagonal (j : Job) (a : Mat) : Option Nat :=
  if j.kind = 11 ∧ !bitOf j.cr.fctl 9 then (List.range (tmRows j.tmA)).find? fun i => isZero32 (a.at i i) else none

/-! ### FACTORISATION_STEP (R286, R287, R299, R300) -/

/-- Address of a job's record. -/
def Job.recAt (j : Job) : Nat := (j.ops.getD 0 0).toNat

/-- What is wrong with the memory that the start of a job reads: its input (R293), the diagonal of FTRS, and its record
(R299). -/
def State.startBad (s : State) (c : Nat) (j : Job) : Option (Cause × Nat) :=
  let m := tmRows j.tmA
  let n := tmCols j.tmA
  let input := match j.kind with
    | 9 => s.spotsBad c j.tmA ((spotsFrom m n 0 0).filter fun (i, k) => decide (k ≤ i))
    | 11 => (s.spotsBad c j.tmB (spotsFrom (tmRows j.tmB) (tmCols j.tmB) 0 0)).or
        (if bitOf j.cr.fctl 9 then none else s.spotsBad c j.tmA ((spotsFrom m n 0 0).filter fun (i, k) => decide (k = i)))
    | _ => s.spotsBad c j.tmA (spotsFrom m n 0 0)
  input.or (s.localBad c j.recAt 256)

/-- What is wrong with the bytes of a record that a step touches: POS, AMAX, FMAX and PERM (R285, R287, R294). -/
def State.recordBad (s : State) (c a : Nat) : Option (Cause × Nat) :=
  (s.localBad c (a + 0x08) 16).or (s.localBad c (a + 0x80) 128)

/-- What is wrong with the memory that a step touches (R299). -/
def State.stepBad (s : State) (c : Nat) (j : Job) (t : Stepped) : Option (Cause × Nat) :=
  (s.spotsBad c j.tmA (t.readA ++ t.writeA)).or (s.spotsBad c j.tmB (t.readB ++ t.writeB))

/-- A job that is ended: an FLU leaves its permutation in p[PREG] (R289). -/
def State.leavePerm (s : State) (c : Nat) (j : Job) (perm : List Nat) : State :=
  if j.kind = 8 then s.setPerm c (fld j.cr.fctl 5 4) perm else s

/-- A factorisation ends: an FLU leaves its permutation, the growth estimate and the pending trap stay in the slot
(R289, R294, R295). -/
def State.endFactor (s : State) (c n status dcode : Nat) : State :=
  let j := s.job c n
  let r := s.readRecord c j.recAt
  let s := s.leavePerm c j (s.recordPerm c j)
  let trap := (decide (status = stZpiv) || decide (status = stNpd)) && !bitOf j.cr.fctl 0
  let s := s.setJob c n { j with gamma := BitVec.ofNat 32 (growth r), ptrap := trap }
  s.endJob c n status dcode 0

/-- FLU and FTRS in continue mode go on behind a zero, and end ZPIV (R289, R292). -/
def Job.notesZero (j : Job) : Bool := (decide (j.kind = 8) || decide (j.kind = 11)) && bitOf j.cr.fctl 0

/-- The end after the last column (R289 to R292). R292 gives FTRS no DCODE: it is 0 (R251). -/
def State.finishFactor (s : State) (c n : Nat) : State :=
  let j := s.job c n
  let r := s.readRecord c j.recAt
  if !j.notesZero || decide (r.firstz = 0xFF) then s.endFactor c n stDone 0
  else s.endFactor c n stZpiv (if j.kind = 8 then r.firstz else 0)

/-- A job starts: the record is written, in one chunk, before any column (R285). A zero on the diagonal of FTRS ends it in
stop mode (R292). -/
def State.startFactor (s : State) (c n : Nat) (j : Job) : State :=
  match s.startBad c j with
  | some e => (s.leavePerm c j identityPerm).jobError c n e
  | none =>
    let a := s.tile c j.tmA
    let r : Record :=
      { next := 0
        firstz := 0xFF
        amax := j.inputMax a (s.tile c j.tmB)
        fmax := 0
        perm := if j.kind = 8 then identityPerm else List.replicate 128 0 }
    let s := s.hartCells (clusterOf c) (s.localCells c j.recAt (r.bytes (recordTag n j)))
    let s := s.setJob c n { j with st := .running, prep := true, gamma := BitVec.ofNat 32 (growth r) }
    match j.zeroDiagonal a with
    | some i => if bitOf j.cr.fctl 0 then s else s.endFactor c n stZpiv i
    | none => s

/-- The record as the next column finds it: before its first, FTRS in continue mode has noted the lowest zero of the
diagonal (R292). -/
def Record.noted (r : Record) (j : Job) (a : Mat) : Record :=
  if j.kind = 11 ∧ j.notesZero ∧ r.next = 0 ∧ r.firstz = 0xFF then { r with firstz := (j.zeroDiagonal a).getD 0xFF } else r

/-- One column of a running job, committed as one chunk of the sequencer's hart (R287). -/
def State.factorColumn (s : State) (c n : Nat) (j : Job) : State :=
  let failed (e : Cause × Nat) : State := (s.leavePerm c j (s.recordPerm c j)).jobError c n e
  match s.recordBad c j.recAt with
  | some e => failed e
  | none =>
    let r := s.readRecord c j.recAt
    if j.columns ≤ r.next then s.finishFactor c n else
    let a := s.tile c j.tmA
    let t := j.column a (s.tile c j.tmB) (r.noted j a)
    match s.stepBad c j t with
    | some e => failed e
    | none =>
      let cells := s.tileCells c j.tmA t.writeA t.a ++ s.tileCells c j.tmB t.writeB t.b ++ s.recordCells c j.recAt t.rec_
      let s := s.hartCells (clusterOf c) cells
      let s := s.setJob c n { j with gamma := BitVec.ofNat 32 (growth t.rec_) }
      match t.stop with
      | some (status, dcode) => s.endFactor c n status dcode
      | none => if j.columns ≤ t.rec_.next then s.finishFactor c n else s

/-- After START a job compares its TAG with its JID and KIND: what is wrong with it, FAULT with DCODE 0x0D where they
differ (R299). -/
def State.tagFault (s : State) (c n : Nat) (j : Job) : Option State :=
  if j.prep then none else
  match s.localBad c j.recAt 8 with
  | some e => some ((s.leavePerm c j (s.recordPerm c j)).jobError c n e)
  | none =>
    if s.localRead c j.recAt 8 = recordTag n j then none
    else some ((s.leavePerm c j (s.recordPerm c j)).endJob c n stFault 0x0D 0)

/-- A running job: its TAG after START, then one column, and at the boundary behind it a JCAN, then a STOP (R299, R300). -/
def State.factorOn (s : State) (c n : Nat) (j : Job) : State :=
  match s.tagFault c n j with
  | some s => s
  | none =>
    let s := s.factorColumn c n { j with prep := true }
    let j := s.job c n
    if j.st ≠ .running then s
    else if j.cancel then s.endFactor c n stCancel 0
    else if (s.core c).stopped then s.setJob c n { j with st := .parked, prep := false }
    else s

/-- FACTORISATION_STEP: the factorisation at the head of the core's slice queue starts, or does one column and meets what
waits at the boundary behind it (R286, R287, R299, R300). -/
def execFactorisationStep (core : Nat) (s : State) : Out :=
  match s.sliceHead core with
  | none => .next s
  | some (n, j) =>
    if !j.factor then .next s else
    match j.st with
    | .queued => if s.arrayFree core then hartEvent s fun s => .next (s.startFactor core n j) else .next s
    | .running => hartEvent s fun s => .next (s.factorOn core n j)
    | .free | .held | .parked | .ended => .next s

/-! ### PRAPL and PRMOV at the head (R296, R297) -/

/-- Entries 0 to n − 1 are a permutation of 0 to n − 1 (R296). -/
def isPerm (p : List Nat) (n : Nat) : Bool := (List.range n).all fun i => (p.take n).contains i

/-- The rows permuted (R296): new row i is old row p(i), or new row p(i) is old row i. -/
def permRow (p : List Nat) (inv : Bool) (i : Nat) : Nat :=
  if inv then (firstIx (fun x => decide (x = i)) p 0).getD i else p.getD i i

/-- PERMUTATION_APPLY: a PRAPL at the head (R296). -/
def execPermutationApply (core : Nat) (s : State) : Out :=
  match s.sliceHead core with
  | none => .next s
  | some (n, j) =>
    if j.kind ≠ 12 ∨ j.st ≠ .queued then .next s else
    hartEvent s fun s =>
    let opt := j.ops.getD 0 0
    let p := (s.bank core).p.getD (fld opt 1 0) identityPerm
    let rows := tmRows j.tmA
    if !isPerm p rows then .next (s.endJob core n stFault 0x0D 0) else
    match s.mapBad core j.tmA with
    | some e => .next (s.jobError core n e)
    | none =>
      let width := tmCols j.tmA * tmSize j.tmA
      let cells := (List.range rows).flatMap fun i =>
        s.localCells core (tmElem j.tmA i 0)
          (toBytes width (s.localRead core (tmElem j.tmA (permRow (p.take rows) (bitOf opt 2) i) 0) width))
      .next ((s.hartCells (clusterOf core) cells).endJob core n stDone 0 0)

/-- PERMUTATION_MOVE: a PRMOV at the head (R297). -/
def execPermutationMove (core : Nat) (s : State) : Out :=
  match s.sliceHead core with
  | none => .next s
  | some (n, j) =>
    if j.kind ≠ 13 ∨ j.st ≠ .queued then .next s else
    hartEvent s fun s =>
    let opt := j.ops.getD 1 0
    let a := (j.ops.getD 0 0).toNat
    let r := fld opt 1 0
    let p := (s.bank core).p.getD r identityPerm
    if bitOf opt 3 then .next ((s.setPerm core r identityPerm).endJob core n stDone 0 0) else
    match s.localBad core a 128 with
    | some e => .next (s.jobError core n e)
    | none =>
      if bitOf opt 2 then
        let q := (List.range 128).map fun i => s.localRead core (a + i) 1 % 128
        .next ((s.setPerm core r q).endJob core n stDone 0 0)
      else
        let cells := s.localCells core a (p.map (BitVec.ofNat 8))
        .next ((s.hartCells (clusterOf core) cells).endJob core n stDone 0 0)

end Sys2Proof.Machine
end

