-- ==== Sys2Proof/Machine/Fp.lean ====
section
/-! DEFINITION. Major 0x0B: scalar floating point on general registers (R135 to R137). -/

set_option Elab.async false

namespace Sys2Proof.Machine

/-- Writes a floating result, zero-extended, ORs its flags into FFLG, and moves on; a result to g0 is discarded and
the flags are still set (R135, R136). -/
def fpOut (s : State) (rd : GReg) (r : Nat × Flags) : Out :=
  .next (((s.setG rd (w64 r.1)).flag r.2).advance 4)

/-- The operand of a format in the low bits of a register (R135). -/
def State.fop (s : State) (f : Fmt) (x : GReg) : FVal := f.read ((s.g x).toNat % 2 ^ f.width)

/-- The encoding in the low bits of a register. -/
def State.fbits (s : State) (f : Fmt) (x : GReg) : Nat := (s.g x).toNat % 2 ^ f.width

/-- A truth value and flags. -/
def fpBool (s : State) (rd : GReg) (r : Bool × Flags) : Out := fpOut s rd (b2n r.1, r.2)

/-- FCVTFI and FCVTFIR: to a signed 64-bit integer (R36). -/
def fpToInt (s : State) (rd rs1 : GReg) (f : Fmt) (nearest : Bool) : Out :=
  let (v, fl) := toInt (s.fop f rs1) nearest (-(2 ^ 63 : Nat)) ((2 ^ 63 : Nat) - 1)
  fpOut s rd (ofS 64 v, fl)

/-- R135, binary32: round(x + y). -/
def execFaddS (rd rs1 rs2 : GReg) (s : State) : Out :=
  fpOut s rd (fmt32.addF (s.fop fmt32 rs1) (s.fop fmt32 rs2))

/-- R135, binary32: round(x − y). -/
def execFsubS (rd rs1 rs2 : GReg) (s : State) : Out :=
  fpOut s rd (fmt32.subF (s.fop fmt32 rs1) (s.fop fmt32 rs2))

/-- R135, binary32: round(x × y). -/
def execFmulS (rd rs1 rs2 : GReg) (s : State) : Out :=
  fpOut s rd (fmt32.mulF (s.fop fmt32 rs1) (s.fop fmt32 rs2))

/-- R135, binary32: round(x / y). -/
def execFdivS (rd rs1 rs2 : GReg) (s : State) : Out :=
  fpOut s rd (fmt32.divF (s.fop fmt32 rs1) (s.fop fmt32 rs2))

/-- R135, binary32: round(√x). -/
def execFsqrtS (rd rs1 : GReg) (s : State) : Out :=
  fpOut s rd (fmt32.sqrtF (s.fop fmt32 rs1))

/-- R135, binary32: round(x × y + z), one rounding; rd holds the addend. -/
def execFmaS (rd rs1 rs2 : GReg) (s : State) : Out :=
  fpOut s rd (fmt32.fmaF (s.fop fmt32 rs1) (s.fop fmt32 rs2) (s.fop fmt32 rd))

/-- R136, binary32: minimum. -/
def execFminS (rd rs1 rs2 : GReg) (s : State) : Out :=
  fpOut s rd (fmt32.minMax false (s.fbits fmt32 rs1) (s.fbits fmt32 rs2))

/-- R136, binary32: maximum. -/
def execFmaxS (rd rs1 rs2 : GReg) (s : State) : Out :=
  fpOut s rd (fmt32.minMax true (s.fbits fmt32 rs1) (s.fbits fmt32 rs2))

/-- R135, R136, binary32: FEQ. -/
def execFeqS (rd rs1 rs2 : GReg) (s : State) : Out :=
  fpBool s rd (feqF (s.fop fmt32 rs1) (s.fop fmt32 rs2))

/-- R135, R136, binary32: FLT. -/
def execFltS (rd rs1 rs2 : GReg) (s : State) : Out :=
  fpBool s rd (fltF (s.fop fmt32 rs1) (s.fop fmt32 rs2))

/-- R135, R136, binary32: FLE. -/
def execFleS (rd rs1 rs2 : GReg) (s : State) : Out :=
  fpBool s rd (fleF (s.fop fmt32 rs1) (s.fop fmt32 rs2))

/-- R137, binary32: the class word; no flag. -/
def execFclassS (rd rs1 : GReg) (s : State) : Out :=
  fpOut s rd (fmt32.classOf (s.fbits fmt32 rs1), 0)

/-- R135, binary32: the sign bit inverted; no flag. -/
def execFnegS (rd rs1 : GReg) (s : State) : Out :=
  fpOut s rd (s.fbits fmt32 rs1 ^^^ 2 ^ (fmt32.width - 1), 0)

/-- R135, binary32: the sign bit cleared; no flag. -/
def execFabsS (rd rs1 : GReg) (s : State) : Out :=
  fpOut s rd (s.fbits fmt32 rs1 % 2 ^ (fmt32.width - 1), 0)

/-- R135: a signed 64-bit integer to binary32. -/
def execFcvtifS (rd rs1 : GReg) (s : State) : Out :=
  fpOut s rd (fmt32.pack (ofInt (s.g rs1).toInt))

/-- R36: binary32 to a signed 64-bit integer, toward zero. -/
def execFcvtfiS (rd rs1 : GReg) (s : State) : Out :=
  fpToInt s rd rs1 fmt32 false

/-- R36: binary32 to a signed 64-bit integer, to nearest even. -/
def execFcvtfirS (rd rs1 : GReg) (s : State) : Out :=
  fpToInt s rd rs1 fmt32 true

/-- R135, R41: binary32 to BF16, one rounding. -/
def execFcvtbfS (rd rs1 : GReg) (s : State) : Out :=
  fpOut s rd (fmtBf.pack (s.fop fmt32 rs1))

/-- R135: BF16 to binary32, exact. -/
def execFcvtfbS (rd rs1 : GReg) (s : State) : Out :=
  fpOut s rd (fmt32.pack (s.fop fmtBf rs1))

/-- R135: binary64 to binary32. -/
def execFcvtpdS (rd rs1 : GReg) (s : State) : Out :=
  fpOut s rd (fmt32.pack (s.fop fmt64 rs1))

/-- R135, binary64: round(x + y). -/
def execFaddD (rd rs1 rs2 : GReg) (s : State) : Out :=
  fpOut s rd (fmt64.addF (s.fop fmt64 rs1) (s.fop fmt64 rs2))

/-- R135, binary64: round(x − y). -/
def execFsubD (rd rs1 rs2 : GReg) (s : State) : Out :=
  fpOut s rd (fmt64.subF (s.fop fmt64 rs1) (s.fop fmt64 rs2))

/-- R135, binary64: round(x × y). -/
def execFmulD (rd rs1 rs2 : GReg) (s : State) : Out :=
  fpOut s rd (fmt64.mulF (s.fop fmt64 rs1) (s.fop fmt64 rs2))

/-- R135, binary64: round(x / y). -/
def execFdivD (rd rs1 rs2 : GReg) (s : State) : Out :=
  fpOut s rd (fmt64.divF (s.fop fmt64 rs1) (s.fop fmt64 rs2))

/-- R135, binary64: round(√x). -/
def execFsqrtD (rd rs1 : GReg) (s : State) : Out :=
  fpOut s rd (fmt64.sqrtF (s.fop fmt64 rs1))

/-- R135, binary64: round(x × y + z), one rounding; rd holds the addend. -/
def execFmaD (rd rs1 rs2 : GReg) (s : State) : Out :=
  fpOut s rd (fmt64.fmaF (s.fop fmt64 rs1) (s.fop fmt64 rs2) (s.fop fmt64 rd))

/-- R136, binary64: minimum. -/
def execFminD (rd rs1 rs2 : GReg) (s : State) : Out :=
  fpOut s rd (fmt64.minMax false (s.fbits fmt64 rs1) (s.fbits fmt64 rs2))

/-- R136, binary64: maximum. -/
def execFmaxD (rd rs1 rs2 : GReg) (s : State) : Out :=
  fpOut s rd (fmt64.minMax true (s.fbits fmt64 rs1) (s.fbits fmt64 rs2))

/-- R135, R136, binary64: FEQ. -/
def execFeqD (rd rs1 rs2 : GReg) (s : State) : Out :=
  fpBool s rd (feqF (s.fop fmt64 rs1) (s.fop fmt64 rs2))

/-- R135, R136, binary64: FLT. -/
def execFltD (rd rs1 rs2 : GReg) (s : State) : Out :=
  fpBool s rd (fltF (s.fop fmt64 rs1) (s.fop fmt64 rs2))

/-- R135, R136, binary64: FLE. -/
def execFleD (rd rs1 rs2 : GReg) (s : State) : Out :=
  fpBool s rd (fleF (s.fop fmt64 rs1) (s.fop fmt64 rs2))

/-- R137, binary64: the class word; no flag. -/
def execFclassD (rd rs1 : GReg) (s : State) : Out :=
  fpOut s rd (fmt64.classOf (s.fbits fmt64 rs1), 0)

/-- R135, binary64: the sign bit inverted; no flag. -/
def execFnegD (rd rs1 : GReg) (s : State) : Out :=
  fpOut s rd (s.fbits fmt64 rs1 ^^^ 2 ^ (fmt64.width - 1), 0)

/-- R135, binary64: the sign bit cleared; no flag. -/
def execFabsD (rd rs1 : GReg) (s : State) : Out :=
  fpOut s rd (s.fbits fmt64 rs1 % 2 ^ (fmt64.width - 1), 0)

/-- R135: a signed 64-bit integer to binary64. -/
def execFcvtifD (rd rs1 : GReg) (s : State) : Out :=
  fpOut s rd (fmt64.pack (ofInt (s.g rs1).toInt))

/-- R36: binary64 to a signed 64-bit integer, toward zero. -/
def execFcvtfiD (rd rs1 : GReg) (s : State) : Out :=
  fpToInt s rd rs1 fmt64 false

/-- R36: binary64 to a signed 64-bit integer, to nearest even. -/
def execFcvtfirD (rd rs1 : GReg) (s : State) : Out :=
  fpToInt s rd rs1 fmt64 true

/-- R135, R41: binary64 to BF16, one rounding. -/
def execFcvtbfD (rd rs1 : GReg) (s : State) : Out :=
  fpOut s rd (fmtBf.pack (s.fop fmt64 rs1))

/-- R135: BF16 to binary64, exact. -/
def execFcvtfbD (rd rs1 : GReg) (s : State) : Out :=
  fpOut s rd (fmt64.pack (s.fop fmtBf rs1))

/-- R135: binary32 to binary64, exact. -/
def execFcvtpdD (rd rs1 : GReg) (s : State) : Out :=
  fpOut s rd (fmt64.pack (s.fop fmt32 rs1))

end Sys2Proof.Machine
end

