-- ==== Sys2Proof/Machine/Dispatch.lean ====
section
/-! DEFINITION. One arm for each constructor of `Instr`. -/

namespace Sys2Proof.Machine

def exec (i : Instr) (s : State) : Host.Outcome State Fault Refusal :=
  match i with
  | .add rd rs1 rs2 => Sys2Proof.Machine.execAdd rd rs1 rs2 s
  | .sub rd rs1 rs2 => Sys2Proof.Machine.execSub rd rs1 rs2 s
  | .and rd rs1 rs2 => Sys2Proof.Machine.execAnd rd rs1 rs2 s
  | .or rd rs1 rs2 => Sys2Proof.Machine.execOr rd rs1 rs2 s
  | .xor rd rs1 rs2 => Sys2Proof.Machine.execXor rd rs1 rs2 s
  | .andn rd rs1 rs2 => Sys2Proof.Machine.execAndn rd rs1 rs2 s
  | .orn rd rs1 rs2 => Sys2Proof.Machine.execOrn rd rs1 rs2 s
  | .sll rd rs1 rs2 => Sys2Proof.Machine.execSll rd rs1 rs2 s
  | .srl rd rs1 rs2 => Sys2Proof.Machine.execSrl rd rs1 rs2 s
  | .sra rd rs1 rs2 => Sys2Proof.Machine.execSra rd rs1 rs2 s
  | .rol rd rs1 rs2 => Sys2Proof.Machine.execRol rd rs1 rs2 s
  | .ror rd rs1 rs2 => Sys2Proof.Machine.execRor rd rs1 rs2 s
  | .slt rd rs1 rs2 => Sys2Proof.Machine.execSlt rd rs1 rs2 s
  | .sltu rd rs1 rs2 => Sys2Proof.Machine.execSltu rd rs1 rs2 s
  | .min rd rs1 rs2 => Sys2Proof.Machine.execMin rd rs1 rs2 s
  | .max rd rs1 rs2 => Sys2Proof.Machine.execMax rd rs1 rs2 s
  | .minu rd rs1 rs2 => Sys2Proof.Machine.execMinu rd rs1 rs2 s
  | .maxu rd rs1 rs2 => Sys2Proof.Machine.execMaxu rd rs1 rs2 s
  | .mul rd rs1 rs2 => Sys2Proof.Machine.execMul rd rs1 rs2 s
  | .mulh rd rs1 rs2 => Sys2Proof.Machine.execMulh rd rs1 rs2 s
  | .mulhu rd rs1 rs2 => Sys2Proof.Machine.execMulhu rd rs1 rs2 s
  | .div rd rs1 rs2 => Sys2Proof.Machine.execDiv rd rs1 rs2 s
  | .divu rd rs1 rs2 => Sys2Proof.Machine.execDivu rd rs1 rs2 s
  | .rem rd rs1 rs2 => Sys2Proof.Machine.execRem rd rs1 rs2 s
  | .remu rd rs1 rs2 => Sys2Proof.Machine.execRemu rd rs1 rs2 s
  | .addw rd rs1 rs2 => Sys2Proof.Machine.execAddw rd rs1 rs2 s
  | .subw rd rs1 rs2 => Sys2Proof.Machine.execSubw rd rs1 rs2 s
  | .sllw rd rs1 rs2 => Sys2Proof.Machine.execSllw rd rs1 rs2 s
  | .srlw rd rs1 rs2 => Sys2Proof.Machine.execSrlw rd rs1 rs2 s
  | .sraw rd rs1 rs2 => Sys2Proof.Machine.execSraw rd rs1 rs2 s
  | .mulw rd rs1 rs2 => Sys2Proof.Machine.execMulw rd rs1 rs2 s
  | .clz rd rs1 => Sys2Proof.Machine.execClz rd rs1 s
  | .ctz rd rs1 => Sys2Proof.Machine.execCtz rd rs1 s
  | .popc rd rs1 => Sys2Proof.Machine.execPopc rd rs1 s
  | .bswp rd rs1 => Sys2Proof.Machine.execBswp rd rs1 s
  | .sextb rd rs1 => Sys2Proof.Machine.execSextb rd rs1 s
  | .sexth rd rs1 => Sys2Proof.Machine.execSexth rd rs1 s
  | .sextw rd rs1 => Sys2Proof.Machine.execSextw rd rs1 s
  | .zextb rd rs1 => Sys2Proof.Machine.execZextb rd rs1 s
  | .zexth rd rs1 => Sys2Proof.Machine.execZexth rd rs1 s
  | .zextw rd rs1 => Sys2Proof.Machine.execZextw rd rs1 s
  | .addi rd rs1 imm => Sys2Proof.Machine.execAddi rd rs1 imm s
  | .andi rd rs1 imm => Sys2Proof.Machine.execAndi rd rs1 imm s
  | .ori rd rs1 imm => Sys2Proof.Machine.execOri rd rs1 imm s
  | .xori rd rs1 imm => Sys2Proof.Machine.execXori rd rs1 imm s
  | .slti rd rs1 imm => Sys2Proof.Machine.execSlti rd rs1 imm s
  | .sltiu rd rs1 imm => Sys2Proof.Machine.execSltiu rd rs1 imm s
  | .addiw rd rs1 imm => Sys2Proof.Machine.execAddiw rd rs1 imm s
  | .slli rd rs1 sh => Sys2Proof.Machine.execSlli rd rs1 sh s
  | .srli rd rs1 sh => Sys2Proof.Machine.execSrli rd rs1 sh s
  | .srai rd rs1 sh => Sys2Proof.Machine.execSrai rd rs1 sh s
  | .roli rd rs1 sh => Sys2Proof.Machine.execRoli rd rs1 sh s
  | .slliw rd rs1 sh => Sys2Proof.Machine.execSlliw rd rs1 sh s
  | .srliw rd rs1 sh => Sys2Proof.Machine.execSrliw rd rs1 sh s
  | .sraiw rd rs1 sh => Sys2Proof.Machine.execSraiw rd rs1 sh s
  | .lih rd imm => Sys2Proof.Machine.execLih rd imm s
  | .addpc rd imm => Sys2Proof.Machine.execAddpc rd imm s
  | .lb rd rs1 imm => Sys2Proof.Machine.execLb rd rs1 imm s
  | .lbu rd rs1 imm => Sys2Proof.Machine.execLbu rd rs1 imm s
  | .lh rd rs1 imm => Sys2Proof.Machine.execLh rd rs1 imm s
  | .lhu rd rs1 imm => Sys2Proof.Machine.execLhu rd rs1 imm s
  | .lw rd rs1 imm => Sys2Proof.Machine.execLw rd rs1 imm s
  | .lwu rd rs1 imm => Sys2Proof.Machine.execLwu rd rs1 imm s
  | .ld rd rs1 imm => Sys2Proof.Machine.execLd rd rs1 imm s
  | .sb rs2 rs1 imm => Sys2Proof.Machine.execSb rs2 rs1 imm s
  | .sh rs2 rs1 imm => Sys2Proof.Machine.execSh rs2 rs1 imm s
  | .sw rs2 rs1 imm => Sys2Proof.Machine.execSw rs2 rs1 imm s
  | .sd rs2 rs1 imm => Sys2Proof.Machine.execSd rs2 rs1 imm s
  | .beq rs1 rs2 imm => Sys2Proof.Machine.execBeq rs1 rs2 imm s
  | .bne rs1 rs2 imm => Sys2Proof.Machine.execBne rs1 rs2 imm s
  | .blt rs1 rs2 imm => Sys2Proof.Machine.execBlt rs1 rs2 imm s
  | .bge rs1 rs2 imm => Sys2Proof.Machine.execBge rs1 rs2 imm s
  | .bltu rs1 rs2 imm => Sys2Proof.Machine.execBltu rs1 rs2 imm s
  | .bgeu rs1 rs2 imm => Sys2Proof.Machine.execBgeu rs1 rs2 imm s
  | .jal rd imm => Sys2Proof.Machine.execJal rd imm s
  | .jalr rd rs1 imm => Sys2Proof.Machine.execJalr rd rs1 imm s
  | .faddS rd rs1 rs2 => Sys2Proof.Machine.execFaddS rd rs1 rs2 s
  | .fsubS rd rs1 rs2 => Sys2Proof.Machine.execFsubS rd rs1 rs2 s
  | .fmulS rd rs1 rs2 => Sys2Proof.Machine.execFmulS rd rs1 rs2 s
  | .fdivS rd rs1 rs2 => Sys2Proof.Machine.execFdivS rd rs1 rs2 s
  | .fsqrtS rd rs1 => Sys2Proof.Machine.execFsqrtS rd rs1 s
  | .fmaS rd rs1 rs2 => Sys2Proof.Machine.execFmaS rd rs1 rs2 s
  | .fminS rd rs1 rs2 => Sys2Proof.Machine.execFminS rd rs1 rs2 s
  | .fmaxS rd rs1 rs2 => Sys2Proof.Machine.execFmaxS rd rs1 rs2 s
  | .feqS rd rs1 rs2 => Sys2Proof.Machine.execFeqS rd rs1 rs2 s
  | .fltS rd rs1 rs2 => Sys2Proof.Machine.execFltS rd rs1 rs2 s
  | .fleS rd rs1 rs2 => Sys2Proof.Machine.execFleS rd rs1 rs2 s
  | .fclassS rd rs1 => Sys2Proof.Machine.execFclassS rd rs1 s
  | .fnegS rd rs1 => Sys2Proof.Machine.execFnegS rd rs1 s
  | .fabsS rd rs1 => Sys2Proof.Machine.execFabsS rd rs1 s
  | .fcvtifS rd rs1 => Sys2Proof.Machine.execFcvtifS rd rs1 s
  | .fcvtfiS rd rs1 => Sys2Proof.Machine.execFcvtfiS rd rs1 s
  | .fcvtfirS rd rs1 => Sys2Proof.Machine.execFcvtfirS rd rs1 s
  | .fcvtbfS rd rs1 => Sys2Proof.Machine.execFcvtbfS rd rs1 s
  | .fcvtfbS rd rs1 => Sys2Proof.Machine.execFcvtfbS rd rs1 s
  | .fcvtpdS rd rs1 => Sys2Proof.Machine.execFcvtpdS rd rs1 s
  | .faddD rd rs1 rs2 => Sys2Proof.Machine.execFaddD rd rs1 rs2 s
  | .fsubD rd rs1 rs2 => Sys2Proof.Machine.execFsubD rd rs1 rs2 s
  | .fmulD rd rs1 rs2 => Sys2Proof.Machine.execFmulD rd rs1 rs2 s
  | .fdivD rd rs1 rs2 => Sys2Proof.Machine.execFdivD rd rs1 rs2 s
  | .fsqrtD rd rs1 => Sys2Proof.Machine.execFsqrtD rd rs1 s
  | .fmaD rd rs1 rs2 => Sys2Proof.Machine.execFmaD rd rs1 rs2 s
  | .fminD rd rs1 rs2 => Sys2Proof.Machine.execFminD rd rs1 rs2 s
  | .fmaxD rd rs1 rs2 => Sys2Proof.Machine.execFmaxD rd rs1 rs2 s
  | .feqD rd rs1 rs2 => Sys2Proof.Machine.execFeqD rd rs1 rs2 s
  | .fltD rd rs1 rs2 => Sys2Proof.Machine.execFltD rd rs1 rs2 s
  | .fleD rd rs1 rs2 => Sys2Proof.Machine.execFleD rd rs1 rs2 s
  | .fclassD rd rs1 => Sys2Proof.Machine.execFclassD rd rs1 s
  | .fnegD rd rs1 => Sys2Proof.Machine.execFnegD rd rs1 s
  | .fabsD rd rs1 => Sys2Proof.Machine.execFabsD rd rs1 s
  | .fcvtifD rd rs1 => Sys2Proof.Machine.execFcvtifD rd rs1 s
  | .fcvtfiD rd rs1 => Sys2Proof.Machine.execFcvtfiD rd rs1 s
  | .fcvtfirD rd rs1 => Sys2Proof.Machine.execFcvtfirD rd rs1 s
  | .fcvtbfD rd rs1 => Sys2Proof.Machine.execFcvtbfD rd rs1 s
  | .fcvtfbD rd rs1 => Sys2Proof.Machine.execFcvtfbD rd rs1 s
  | .fcvtpdD rd rs1 => Sys2Proof.Machine.execFcvtpdD rd rs1 s
  | .crr rd cr => Sys2Proof.Machine.execCrr rd cr s
  | .crw rd cr rs1 => Sys2Proof.Machine.execCrw rd cr rs1 s
  | .crset rd cr rs1 => Sys2Proof.Machine.execCrset rd cr rs1 s
  | .crclr rd cr rs1 => Sys2Proof.Machine.execCrclr rd cr rs1 s
  | .halt => Sys2Proof.Machine.execHalt s
  | .haltr rs1 => Sys2Proof.Machine.execHaltr rs1 s
  | .commit => Sys2Proof.Machine.execCommit s
  | .abort => Sys2Proof.Machine.execAbort s
  | .trapi rs1 => Sys2Proof.Machine.execTrapi rs1 s
  | .budgq rd => Sys2Proof.Machine.execBudgq rd s
  | .send rd rs1 rs2 => Sys2Proof.Machine.execSend rd rs1 rs2 s
  | .rply rd rs1 rs2 => Sys2Proof.Machine.execRply rd rs1 rs2 s
  | .sendq rd rs1 rs2 => Sys2Proof.Machine.execSendq rd rs1 rs2 s
  | .resend rd rs1 => Sys2Proof.Machine.execResend rd rs1 s
  | .dropr rd rs1 => Sys2Proof.Machine.execDropr rd rs1 s
  | .hset h rs1 => Sys2Proof.Machine.execHset h rs1 s
  | .cwait rd h rs1 => Sys2Proof.Machine.execCwait rd h rs1 s
  | .pwait rd h rs1 => Sys2Proof.Machine.execPwait rd h rs1 s
  | .cadv h rs1 => Sys2Proof.Machine.execCadv h rs1 s
  | .padv h rs1 => Sys2Proof.Machine.execPadv h rs1 s
  | .hqry rd h => Sys2Proof.Machine.execHqry rd h s
  | .aadd rd rs1 rs2 => Sys2Proof.Machine.execAadd rd rs1 rs2 s
  | .aand rd rs1 rs2 => Sys2Proof.Machine.execAand rd rs1 rs2 s
  | .aor rd rs1 rs2 => Sys2Proof.Machine.execAor rd rs1 rs2 s
  | .axor rd rs1 rs2 => Sys2Proof.Machine.execAxor rd rs1 rs2 s
  | .amax rd rs1 rs2 => Sys2Proof.Machine.execAmax rd rs1 rs2 s
  | .amin rd rs1 rs2 => Sys2Proof.Machine.execAmin rd rs1 rs2 s
  | .amaxu rd rs1 rs2 => Sys2Proof.Machine.execAmaxu rd rs1 rs2 s
  | .aminu rd rs1 rs2 => Sys2Proof.Machine.execAminu rd rs1 rs2 s
  | .aswp rd rs1 rs2 => Sys2Proof.Machine.execAswp rd rs1 rs2 s
  | .acas rd rs1 rs2 => Sys2Proof.Machine.execAcas rd rs1 rs2 s
  | .aincw rd rs1 rs2 => Sys2Proof.Machine.execAincw rd rs1 rs2 s
  | .abfa rd rs1 rs2 => Sys2Proof.Machine.execAbfa rd rs1 rs2 s
  | .afadd rd rs1 rs2 => Sys2Proof.Machine.execAfadd rd rs1 rs2 s
  | .afmax rd rs1 rs2 => Sys2Proof.Machine.execAfmax rd rs1 rs2 s
  | .amxr rd rs1 rs2 => Sys2Proof.Machine.execAmxr rd rs1 rs2 s
  | .rels rs1 => Sys2Proof.Machine.execRels rs1 s
  | .acqs => Sys2Proof.Machine.execAcqs s
  | .fence => Sys2Proof.Machine.execFence s
  | .gid rd rs1 => Sys2Proof.Machine.execGid rd rs1 s
  | .gspawn rd rs1 rs2 => Sys2Proof.Machine.execGspawn rd rs1 rs2 s
  | .gdone rs1 => Sys2Proof.Machine.execGdone rs1 s
  | .barrAnd rd rs1 => Sys2Proof.Machine.execBarrAnd rd rs1 s
  | .barrOr rd rs1 => Sys2Proof.Machine.execBarrOr rd rs1 s
  | .barrSum rd rs1 => Sys2Proof.Machine.execBarrSum rd rs1 s
  | .barrPopc rd rs1 => Sys2Proof.Machine.execBarrPopc rd rs1 s
  | .bargAnd rd rs1 => Sys2Proof.Machine.execBargAnd rd rs1 s
  | .bargOr rd rs1 => Sys2Proof.Machine.execBargOr rd rs1 s
  | .bargSum rd rs1 => Sys2Proof.Machine.execBargSum rd rs1 s
  | .bargPopc rd rs1 => Sys2Proof.Machine.execBargPopc rd rs1 s
  | .vadd et vd vs2 vs1 k => Sys2Proof.Machine.execVadd et vd vs2 vs1 k s
  | .vsub et vd vs2 vs1 k => Sys2Proof.Machine.execVsub et vd vs2 vs1 k s
  | .vmul et vd vs2 vs1 k => Sys2Proof.Machine.execVmul et vd vs2 vs1 k s
  | .vfma et vd vs2 vs1 k => Sys2Proof.Machine.execVfma et vd vs2 vs1 k s
  | .vmin et vd vs2 vs1 k => Sys2Proof.Machine.execVmin et vd vs2 vs1 k s
  | .vmax et vd vs2 vs1 k => Sys2Proof.Machine.execVmax et vd vs2 vs1 k s
  | .vand et vd vs2 vs1 k => Sys2Proof.Machine.execVand et vd vs2 vs1 k s
  | .vor et vd vs2 vs1 k => Sys2Proof.Machine.execVor et vd vs2 vs1 k s
  | .vxor et vd vs2 vs1 k => Sys2Proof.Machine.execVxor et vd vs2 vs1 k s
  | .vshl et vd vs2 vs1 k => Sys2Proof.Machine.execVshl et vd vs2 vs1 k s
  | .vshr et vd vs2 vs1 k => Sys2Proof.Machine.execVshr et vd vs2 vs1 k s
  | .vsra et vd vs2 vs1 k => Sys2Proof.Machine.execVsra et vd vs2 vs1 k s
  | .vdiv et vd vs2 vs1 k => Sys2Proof.Machine.execVdiv et vd vs2 vs1 k s
  | .vabs et vd vs2 k => Sys2Proof.Machine.execVabs et vd vs2 k s
  | .vneg et vd vs2 k => Sys2Proof.Machine.execVneg et vd vs2 k s
  | .vcmpeq et kd vs2 vs1 k => Sys2Proof.Machine.execVcmpeq et kd vs2 vs1 k s
  | .vcmplt et kd vs2 vs1 k => Sys2Proof.Machine.execVcmplt et kd vs2 vs1 k s
  | .vcmple et kd vs2 vs1 k => Sys2Proof.Machine.execVcmple et kd vs2 vs1 k s
  | .vsel et vd vs2 vs1 k => Sys2Proof.Machine.execVsel et vd vs2 vs1 k s
  | .vmulh et vd vs2 vs1 k => Sys2Proof.Machine.execVmulh et vd vs2 vs1 k s
  | .vcmpltu et kd vs2 vs1 k => Sys2Proof.Machine.execVcmpltu et kd vs2 vs1 k s
  | .vminu et vd vs2 vs1 k => Sys2Proof.Machine.execVminu et vd vs2 vs1 k s
  | .vmaxu et vd vs2 vs1 k => Sys2Proof.Machine.execVmaxu et vd vs2 vs1 k s
  | .vaddVx et vd vs2 gs k => Sys2Proof.Machine.execVaddVx et vd vs2 gs k s
  | .vsubVx et vd vs2 gs k => Sys2Proof.Machine.execVsubVx et vd vs2 gs k s
  | .vmulVx et vd vs2 gs k => Sys2Proof.Machine.execVmulVx et vd vs2 gs k s
  | .vfmaVx et vd vs2 gs k => Sys2Proof.Machine.execVfmaVx et vd vs2 gs k s
  | .vminVx et vd vs2 gs k => Sys2Proof.Machine.execVminVx et vd vs2 gs k s
  | .vmaxVx et vd vs2 gs k => Sys2Proof.Machine.execVmaxVx et vd vs2 gs k s
  | .vandVx et vd vs2 gs k => Sys2Proof.Machine.execVandVx et vd vs2 gs k s
  | .vorVx et vd vs2 gs k => Sys2Proof.Machine.execVorVx et vd vs2 gs k s
  | .vxorVx et vd vs2 gs k => Sys2Proof.Machine.execVxorVx et vd vs2 gs k s
  | .vshlVx et vd vs2 gs k => Sys2Proof.Machine.execVshlVx et vd vs2 gs k s
  | .vshrVx et vd vs2 gs k => Sys2Proof.Machine.execVshrVx et vd vs2 gs k s
  | .vsraVx et vd vs2 gs k => Sys2Proof.Machine.execVsraVx et vd vs2 gs k s
  | .vdivVx et vd vs2 gs k => Sys2Proof.Machine.execVdivVx et vd vs2 gs k s
  | .vcmpeqVx et kd vs2 gs k => Sys2Proof.Machine.execVcmpeqVx et kd vs2 gs k s
  | .vcmpltVx et kd vs2 gs k => Sys2Proof.Machine.execVcmpltVx et kd vs2 gs k s
  | .vcmpleVx et kd vs2 gs k => Sys2Proof.Machine.execVcmpleVx et kd vs2 gs k s
  | .vselVx et vd vs2 gs k => Sys2Proof.Machine.execVselVx et vd vs2 gs k s
  | .vmulhVx et vd vs2 gs k => Sys2Proof.Machine.execVmulhVx et vd vs2 gs k s
  | .vcmpltuVx et kd vs2 gs k => Sys2Proof.Machine.execVcmpltuVx et kd vs2 gs k s
  | .vminuVx et vd vs2 gs k => Sys2Proof.Machine.execVminuVx et vd vs2 gs k s
  | .vmaxuVx et vd vs2 gs k => Sys2Proof.Machine.execVmaxuVx et vd vs2 gs k s
  | .vext et gd vs2 k => Sys2Proof.Machine.execVext et gd vs2 k s
  | .vld et vd gs1 k => Sys2Proof.Machine.execVld et vd gs1 k s
  | .vst et vd gs1 k => Sys2Proof.Machine.execVst et vd gs1 k s
  | .vlds et vd gs1 gs2 k => Sys2Proof.Machine.execVlds et vd gs1 gs2 k s
  | .vsts et vd gs1 gs2 k => Sys2Proof.Machine.execVsts et vd gs1 gs2 k s
  | .vgath et vd gs1 vi k => Sys2Proof.Machine.execVgath et vd gs1 vi k s
  | .vscat et vd gs1 vi k => Sys2Proof.Machine.execVscat et vd gs1 vi k s
  | .vldb et vd gs1 k => Sys2Proof.Machine.execVldb et vd gs1 k s
  | .vldk kd gs1 => Sys2Proof.Machine.execVldk kd gs1 s
  | .vstk kd gs1 => Sys2Proof.Machine.execVstk kd gs1 s
  | .vpermb vd vs2 vs1 k => Sys2Proof.Machine.execVpermb vd vs2 vs1 k s
  | .vbcst et vd vs2 k => Sys2Proof.Machine.execVbcst et vd vs2 k s
  | .viota et vd k => Sys2Proof.Machine.execViota et vd k s
  | .vcompr et vd vs2 k => Sys2Proof.Machine.execVcompr et vd vs2 k s
  | .vexpnd et vd vs2 k => Sys2Proof.Machine.execVexpnd et vd vs2 k s
  | .vslide et vd vs2 vs1 k => Sys2Proof.Machine.execVslide et vd vs2 vs1 k s
  | .vins et vd vs2 vs1 => Sys2Proof.Machine.execVins et vd vs2 vs1 s
  | .vzip et vd vs2 vs1 k => Sys2Proof.Machine.execVzip et vd vs2 vs1 k s
  | .vunzip et vd vs2 vs1 k => Sys2Proof.Machine.execVunzip et vd vs2 vs1 k s
  | .vrsum et vd vs2 k => Sys2Proof.Machine.execVrsum et vd vs2 k s
  | .vrmax et vd vs2 k => Sys2Proof.Machine.execVrmax et vd vs2 k s
  | .vrmin et vd vs2 k => Sys2Proof.Machine.execVrmin et vd vs2 k s
  | .vrowst et vd vs2 => Sys2Proof.Machine.execVrowst et vd vs2 s
  | .vrarg et vd vs2 k => Sys2Proof.Machine.execVrarg et vd vs2 k s
  | .vrpopc et vd vs2 k => Sys2Proof.Machine.execVrpopc et vd vs2 k s
  | .vsfn fn et vd vs2 k => Sys2Proof.Machine.execVsfn fn et vd vs2 k s
  | .vgact fn et vd vs2 vs1 k => Sys2Proof.Machine.execVgact fn et vd vs2 vs1 k s
  | .vstbl t vs2 => Sys2Proof.Machine.execVstbl t vs2 s
  | .vcvt et vd vs2 dt k => Sys2Proof.Machine.execVcvt et vd vs2 dt k s
  | .vdec et vd vs2 q k => Sys2Proof.Machine.execVdec et vd vs2 q k s
  | .venc et vd vs2 q k => Sys2Proof.Machine.execVenc et vd vs2 q k s
  | .vnib vd vs2 m k => Sys2Proof.Machine.execVnib vd vs2 m k s
  | .vrng et vd vs2 k => Sys2Proof.Machine.execVrng et vd vs2 k s
  | .vscl et vd vs2 vs1 k => Sys2Proof.Machine.execVscl et vd vs2 vs1 k s
  | .vpack et vd vs2 vs1 k => Sys2Proof.Machine.execVpack et vd vs2 vs1 k s
  | .tmset tmA gs1 => Sys2Proof.Machine.execTmset tmA gs1 s
  | .mgang rd tmA tmB gs1 gs2 => Sys2Proof.Machine.execMgang rd tmA tmB gs1 gs2 s
  | .mzero rd gs1 => Sys2Proof.Machine.execMzero rd gs1 s
  | .msta rd tmA gs1 => Sys2Proof.Machine.execMsta rd tmA gs1 s
  | .mlda rd tmA gs1 => Sys2Proof.Machine.execMlda rd tmA gs1 s
  | .msplit rd gs1 gs2 => Sys2Proof.Machine.execMsplit rd gs1 gs2 s
  | .dtld rd gs1 gs2 => Sys2Proof.Machine.execDtld rd gs1 gs2 s
  | .jwait rd gs1 => Sys2Proof.Machine.execJwait rd gs1 s
  | .jpoll rd gs1 => Sys2Proof.Machine.execJpoll rd gs1 s
  | .cpy rd gs1 gs2 => Sys2Proof.Machine.execCpy rd gs1 gs2 s
  | .cpyr rd gs1 gs2 => Sys2Proof.Machine.execCpyr rd gs1 gs2 s
  | .jcan rd gs1 => Sys2Proof.Machine.execJcan rd gs1 s
  | .flu rd tmA gs1 gs2 => Sys2Proof.Machine.execFlu rd tmA gs1 gs2 s
  | .fchol rd tmA gs1 gs2 => Sys2Proof.Machine.execFchol rd tmA gs1 gs2 s
  | .fqr rd tmA tmB gs1 gs2 => Sys2Proof.Machine.execFqr rd tmA tmB gs1 gs2 s
  | .ftrs rd tmA tmB gs1 gs2 => Sys2Proof.Machine.execFtrs rd tmA tmB gs1 gs2 s
  | .prapl rd tmA gs1 gs2 => Sys2Proof.Machine.execPrapl rd tmA gs1 gs2 s
  | .prmov rd gs1 gs2 => Sys2Proof.Machine.execPrmov rd gs1 gs2 s
  | .ridl rd gs1 gs2 => Sys2Proof.Machine.execRidl rd gs1 gs2 s
  | .draw rd gs1 gs2 => Sys2Proof.Machine.execDraw rd gs1 gs2 s
  | .spark rd gs1 gs2 => Sys2Proof.Machine.execSpark rd gs1 gs2 s
  | .sres rd gs1 gs2 => Sys2Proof.Machine.execSres rd gs1 gs2 s
  | .cmnew rd gs1 gs2 => Sys2Proof.Machine.execCmnew rd gs1 gs2 s
  | .cmjoin rd gs1 gs2 => Sys2Proof.Machine.execCmjoin rd gs1 gs2 s
  | .cmwait rd gs1 => Sys2Proof.Machine.execCmwait rd gs1 s
  | .cmbn rd gs1 gs2 => Sys2Proof.Machine.execCmbn rd gs1 gs2 s
  | .cmadv rd gs1 gs2 => Sys2Proof.Machine.execCmadv rd gs1 gs2 s
  | .cmsetMember rd gs1 gs2 => Sys2Proof.Machine.execCmsetMember rd gs1 gs2 s
  | .cmsetExpr rd gs1 gs2 => Sys2Proof.Machine.execCmsetExpr rd gs1 gs2 s
  | .cmsetQuorum rd gs1 gs2 => Sys2Proof.Machine.execCmsetQuorum rd gs1 gs2 s
  | .cmsetOpen rd gs1 gs2 => Sys2Proof.Machine.execCmsetOpen rd gs1 gs2 s
  | .cmend rd gs1 => Sys2Proof.Machine.execCmend rd gs1 s
  | .stnew rd => Sys2Proof.Machine.execStnew rd s
  | .splice rd rs1 rs2 => Sys2Proof.Machine.execSplice rd rs1 rs2 s
  | .spin rd rs1 => Sys2Proof.Machine.execSpin rd rs1 s
  | .sunpin rd rs1 => Sys2Proof.Machine.execSunpin rd rs1 s
  | .sidx rd rs1 rs2 => Sys2Proof.Machine.execSidx rd rs1 rs2 s
  | .sfork rd rs1 => Sys2Proof.Machine.execSfork rd rs1 s
  | .sdrop rd rs1 => Sys2Proof.Machine.execSdrop rd rs1 s
  | .tlbi rd rs1 rs2 => Sys2Proof.Machine.execTlbi rd rs1 rs2 s
  | .tlbis rd rs1 rs2 => Sys2Proof.Machine.execTlbis rd rs1 rs2 s
  | .tlbia rd rs1 rs2 => Sys2Proof.Machine.execTlbia rd rs1 rs2 s
  | .sidw rd rs1 rs2 => Sys2Proof.Machine.execSidw rd rs1 rs2 s
  | .atrn rd rs1 rs2 => Sys2Proof.Machine.execAtrn rd rs1 rs2 s
  | .rvbeg rd rs1 rs2 => Sys2Proof.Machine.execRvbeg rd rs1 rs2 s
  | .rvend rd rs1 rs2 => Sys2Proof.Machine.execRvend rd rs1 rs2 s
  | .rvqry rd rs1 rs2 => Sys2Proof.Machine.execRvqry rd rs1 rs2 s
  | .wrel rd rs1 => Sys2Proof.Machine.execWrel rd rs1 s
  | .wacq rd rs1 => Sys2Proof.Machine.execWacq rd rs1 s
  | .lstat rd rs1 => Sys2Proof.Machine.execLstat rd rs1 s
  | .hvcall rd rs1 => Sys2Proof.Machine.execHvcall rd rs1 s
  | .slotwEntry rd rs1 rs2 => Sys2Proof.Machine.execSlotwEntry rd rs1 rs2 s
  | .slotwPeriod rd rs1 rs2 => Sys2Proof.Machine.execSlotwPeriod rd rs1 rs2 s
  | .slotwLen rd rs1 rs2 => Sys2Proof.Machine.execSlotwLen rd rs1 rs2 s
  | .vdsw rd rs1 => Sys2Proof.Machine.execVdsw rd rs1 s
  | .mext rd rs1 rs2 => Sys2Proof.Machine.execMext rd rs1 rs2 s
  | .attest rd rs1 rs2 => Sys2Proof.Machine.execAttest rd rs1 rs2 s
  | .vdkey rd rs1 rs2 => Sys2Proof.Machine.execVdkey rd rs1 rs2 s
  | .wnew rd rs1 rs2 => Sys2Proof.Machine.execWnew rd rs1 rs2 s
  | .wgrant rd rs1 rs2 => Sys2Proof.Machine.execWgrant rd rs1 rs2 s
  | .wrevoke rd rs1 rs2 => Sys2Proof.Machine.execWrevoke rd rs1 rs2 s
  | .quench rd rs1 rs2 => Sys2Proof.Machine.execQuench rd rs1 rs2 s
  | .fmove rd rs1 rs2 => Sys2Proof.Machine.execFmove rd rs1 rs2 s
  | .eret => Sys2Proof.Machine.execEret s
  | .wfi => Sys2Proof.Machine.execWfi s
  | .addiC rd imm => Sys2Proof.Machine.execAddiC rd imm s
  | .ldiC rd imm => Sys2Proof.Machine.execLdiC rd imm s
  | .slliC rd sh => Sys2Proof.Machine.execSlliC rd sh s
  | .srliC rd sh => Sys2Proof.Machine.execSrliC rd sh s
  | .sraiC rd sh => Sys2Proof.Machine.execSraiC rd sh s
  | .andiC rd imm => Sys2Proof.Machine.execAndiC rd imm s
  | .mvC rd rs => Sys2Proof.Machine.execMvC rd rs s
  | .addC rd rs => Sys2Proof.Machine.execAddC rd rs s
  | .subC rd rs => Sys2Proof.Machine.execSubC rd rs s
  | .andC rd rs => Sys2Proof.Machine.execAndC rd rs s
  | .orC rd rs => Sys2Proof.Machine.execOrC rd rs s
  | .xorC rd rs => Sys2Proof.Machine.execXorC rd rs s
  | .jrC rs => Sys2Proof.Machine.execJrC rs s
  | .haltC => Sys2Proof.Machine.execHaltC s
  | .commitC => Sys2Proof.Machine.execCommitC s
  | .jC off => Sys2Proof.Machine.execJC off s
  | .jalC off => Sys2Proof.Machine.execJalC off s
  | .beqzC rs off => Sys2Proof.Machine.execBeqzC rs off s
  | .bnezC rs off => Sys2Proof.Machine.execBnezC rs off s
  | .bltzC rs off => Sys2Proof.Machine.execBltzC rs off s
  | .bgezC rs off => Sys2Proof.Machine.execBgezC rs off s
  | .lwC rd rs1 off => Sys2Proof.Machine.execLwC rd rs1 off s
  | .ldC rd rs1 off => Sys2Proof.Machine.execLdC rd rs1 off s
  | .swC rd rs1 off => Sys2Proof.Machine.execSwC rd rs1 off s
  | .sdC rd rs1 off => Sys2Proof.Machine.execSdC rd rs1 off s
  | .taskStart core => Sys2Proof.Machine.execTaskStart core s
  | .contextWake core ctx => Sys2Proof.Machine.execContextWake core ctx s
  | .chunkCommit core ctx => Sys2Proof.Machine.execChunkCommit core ctx s
  | .budgetExpiry core ctx => Sys2Proof.Machine.execBudgetExpiry core ctx s
  | .faultNotice core vd => Sys2Proof.Machine.execFaultNotice core vd s
  | .entryDepart core entry => Sys2Proof.Machine.execEntryDepart core entry s
  | .messageArrival ix => Sys2Proof.Machine.execMessageArrival ix s
  | .entryAccepted ix => Sys2Proof.Machine.execEntryAccepted ix s
  | .entryRefused ix => Sys2Proof.Machine.execEntryRefused ix s
  | .scopeStrip ix => Sys2Proof.Machine.execScopeStrip ix s
  | .resume core => Sys2Proof.Machine.execResume core s
  | .kill core => Sys2Proof.Machine.execKill core s
  | .stop core => Sys2Proof.Machine.execStop core s
  | .start core => Sys2Proof.Machine.execStart core s
  | .continueSave core => Sys2Proof.Machine.execContinueSave core s
  | .saveRecordWrite core => Sys2Proof.Machine.execSaveRecordWrite core s
  | .gangRound cluster half => Sys2Proof.Machine.execGangRound cluster half s
  | .gangTimeout cluster half member => Sys2Proof.Machine.execGangTimeout cluster half member s
  | .pairWaitTimeout cluster => Sys2Proof.Machine.execPairWaitTimeout cluster s
  | .partnerLost cluster => Sys2Proof.Machine.execPartnerLost cluster s
  | .jobEnd core slot => Sys2Proof.Machine.execJobEnd core slot s
  | .accumulatorJobRun core => Sys2Proof.Machine.execAccumulatorJobRun core s
  | .decodeTableLoad core => Sys2Proof.Machine.execDecodeTableLoad core s
  | .factorisationStep core => Sys2Proof.Machine.execFactorisationStep core s
  | .permutationApply core => Sys2Proof.Machine.execPermutationApply core s
  | .permutationMove core => Sys2Proof.Machine.execPermutationMove core s
  | .copySegment core => Sys2Proof.Machine.execCopySegment core s
  | .contextReserveRetry core => Sys2Proof.Machine.execContextReserveRetry core s
  | .ringDeliveryRetry core => Sys2Proof.Machine.execRingDeliveryRetry core s
  | .ridlRun core => Sys2Proof.Machine.execRidlRun core s
  | .riddleDraw core ctx => Sys2Proof.Machine.execRiddleDraw core ctx s
  | .sfuService cluster => Sys2Proof.Machine.execSfuService cluster s
  | .atomicPerform core entry => Sys2Proof.Machine.execAtomicPerform core entry s
  | .stitchRequest core => Sys2Proof.Machine.execStitchRequest core s
  | .committeeRequest core => Sys2Proof.Machine.execCommitteeRequest core s
  | .quorumDeadline core => Sys2Proof.Machine.execQuorumDeadline core s
  | .barrierRelease cluster block => Sys2Proof.Machine.execBarrierRelease cluster block s
  | .gspawnEnqueue core slot => Sys2Proof.Machine.execGspawnEnqueue core slot s
  | .blockPlace vd => Sys2Proof.Machine.execBlockPlace vd s
  | .slotBoundary => Sys2Proof.Machine.execSlotBoundary s
  | .invalidationJob core slot => Sys2Proof.Machine.execInvalidationJob core slot s
  | .translationEvict core ix => Sys2Proof.Machine.execTranslationEvict core ix s
  | .tamperSensor => Sys2Proof.Machine.execTamperSensor s
  | .load vd => Sys2Proof.Machine.execLoad vd s
  | .unload vd => Sys2Proof.Machine.execUnload vd s
  | .clear vd => Sys2Proof.Machine.execClear vd s
  | .kernelDrained core => Sys2Proof.Machine.execKernelDrained core s
  | .powerApplied failPhase => Sys2Proof.Machine.execPowerApplied failPhase s
  | .moduleReset failPhase => Sys2Proof.Machine.execModuleReset failPhase s
  | .mstsWrite value => Sys2Proof.Machine.execMstsWrite value s
  | .ictlWrite island value => Sys2Proof.Machine.execIctlWrite island value s
  | .fdivChange island => Sys2Proof.Machine.execFdivChange island s
  | .governorWindow watts quietMs => Sys2Proof.Machine.execGovernorWindow watts quietMs s
  | .rampWindow island => Sys2Proof.Machine.execRampWindow island s
  | .scrub group offset errors => Sys2Proof.Machine.execScrub group offset errors s
  | .clownWrite cluster value => Sys2Proof.Machine.execClownWrite cluster value s
  | .ipendClear core value => Sys2Proof.Machine.execIpendClear core value s
  | .wfiWake core => Sys2Proof.Machine.execWfiWake core s
  | .flitReceive link seq crcOk words => Sys2Proof.Machine.execFlitReceive link seq crcOk words s
  | .ackReceive link seq => Sys2Proof.Machine.execAckReceive link seq s
  | .nakReceive link seq => Sys2Proof.Machine.execNakReceive link seq s
  | .ltoExpiry link => Sys2Proof.Machine.execLtoExpiry link s
  | .trainingComplete link lanes peer => Sys2Proof.Machine.execTrainingComplete link lanes peer s
  | .trainingAttemptFail link => Sys2Proof.Machine.execTrainingAttemptFail link s
  | .electricalResetComplete link => Sys2Proof.Machine.execElectricalResetComplete link s
  | .linkEnable link => Sys2Proof.Machine.execLinkEnable link s
  | .linkDisable link => Sys2Proof.Machine.execLinkDisable link s
  | .linkReset link => Sys2Proof.Machine.execLinkReset link s
  | .rsetWrite module mask => Sys2Proof.Machine.execRsetWrite module mask s
  | .routeDrainComplete module => Sys2Proof.Machine.execRouteDrainComplete module s
  | .memberLost ring member why => Sys2Proof.Machine.execMemberLost ring member why s
  | .revolutionReady ring => Sys2Proof.Machine.execRevolutionReady ring s
  | .portRequest port q ix va store => Sys2Proof.Machine.execPortRequest port q ix va store s
  | .portCompletion port q ix entry => Sys2Proof.Machine.execPortCompletion port q ix entry s
  | .pqcmdResume port q => Sys2Proof.Machine.execPqcmdResume port q s
  | .pqcmdStop port q => Sys2Proof.Machine.execPqcmdStop port q s
  | .portStopped port q => Sys2Proof.Machine.execPortStopped port q s
  | .hostAccess vd gpa store => Sys2Proof.Machine.execHostAccess vd gpa store s
  | .networkInbound port q va op => Sys2Proof.Machine.execNetworkInbound port q va op s
  | .illegalEncoding word compact => Sys2Proof.Machine.execIllegalEncoding word compact s
  | .fetchFault second => Sys2Proof.Machine.execFetchFault second s
  | .coreFailure core => Sys2Proof.Machine.execCoreFailure core s
  | .bankSelfTestFail group bank => Sys2Proof.Machine.execBankSelfTestFail group bank s
  | .measurementCheckFail vd => Sys2Proof.Machine.execMeasurementCheckFail vd s
  | .portLinkChange port up lanes => Sys2Proof.Machine.execPortLinkChange port up lanes s
  | .counterNodeWriteBack key level node => Sys2Proof.Machine.execCounterNodeWriteBack key level node s

end Sys2Proof.Machine
end

