-- ==== Sys2Proof/Machine/Step.lean ====
section
/-! DEFINITION. One step of the module, and the placing of a word where the next step fetches. -/

set_option Elab.async false

namespace Sys2Proof.Machine

noncomputable section

/-- What stands for a step that changes nothing but the count of steps. -/
def State.idle (s : State) : Out := .next s

/-- The issue of an instruction by a core: the context whose turn it is fetches, decodes and executes (R56, R145).
Where no context is READY the core issues nothing, and the device does the next of its chores for the core, if any. -/
def State.issue (s : State) (c : Nat) : Out :=
  match s.nextReady c with
  | none =>
    match s.agenda c with
    | none => s.idle
    | some i => exec i s
  | some i =>
    let s := s.dispatch c i
    match s.fetch with
    | (.fault second _, _) => exec (.fetchFault second) s
    | (.bytes bs, t) =>
      match decode bs with
      | .instr i _ => exec (t.row i) t
      | .illegal word compact => exec (.illegalEncoding word compact) t
      | .short => exec (.fetchFault true) s

/-- The events that a module runs which is not READY: those that start it (R479, R480). -/
def startsModule : Instr → Bool
  | .powerApplied _ | .moduleReset _ | .mstsWrite _ => true
  | _ => false

/-- ONE STEP: the next turn of the schedule, or, where the schedule is empty, the issue of an instruction by the core
in focus (log 5). A module that is not READY runs nothing but its start (R479). -/
def step (s : State) : Out :=
  let s := { s with tick := s.tick + 1 }
  match s.inputs with
  | .event i :: rest =>
    let s := { s with inputs := rest }
    if (encode i).len ≠ 0 then s.idle
    else if s.msts.ready || startsModule i then exec i s else s.idle
  | .issue c :: rest =>
    let s := { s with inputs := rest }
    if s.msts.ready then s.issue c else s.idle
  | [] => if s.msts.ready then s.issue s.focus.1 else .fault .notReady

/-! ### Placing an instruction -/

/-- The word's first halfword has major 0x21, 0x22 or 0x23 with a form of the control profile only (R79). -/
def controlWord (w : Nat) : Bool :=
  let major := w / 2 ^ 8 % 64
  let func := w / 2 ^ 26 % 64 * 8 + w / 2 ^ 5 % 8
  decide (w / 2 ^ 14 % 4 = 3) &&
  (decide (major = 0x23) || (decide (major = 0x21) && (decide (func = 0) || decide (func = 2) || decide (func = 3))))

/-- A fabric core 0 that runs a kernel: its code region is one bank (R200, R202), and context 0 is READY at its
first byte. -/
def State.withFabricCore (s : State) : State :=
  let s := s.modCore 0 fun x =>
    let x := x.modBank fun b => { b with kst := .active, kernel := { b.kernel with cb := 1 } }
    let y := x.ctx 0
    let r := { y.regs with pc := 0 }
    { x.putCtx 0 { y with regs := r, st := .ready } with rr := 0 }
  { s with inputs := [], focus := (0, 0) }

/-- The state with an instruction stored where the next step fetches it: on the control core that runs the hypervisor
where the control profile alone has it, on fabric core 0 otherwise (log 17). -/
def State.withFetchWord (s : State) (nbits w : Nat) : State :=
  if controlWord (w % 2 ^ nbits) then
    let c := controlCore Config.firstControlCore
    let s := s.modCore c fun x =>
      let y := x.ctx 0
      { x.putCtx 0 { y with st := .ready, regs := { y.regs with pc := Config.hypervisorEntry } } with rr := 0 }
    let s := { s with inputs := [], focus := (c, 0) }
    s.commitCells [c] [(0, s.hypHome 0)] (cellsFrom 0 (tableBytes nbits w))
  else
    let s := s.withFabricCore
    { s with mem := s.mem.putAll (tcmAt 0) (tableBytes nbits w) }

end

end Sys2Proof.Machine
end

