-- ==== Sys2Proof/Laws/Encode.lean ====
section
/-! SUPPORT. Laws of the encoder: every field of every format reads back as it was laid down (R59 to R68). -/

set_option Elab.async false

set_option linter.unusedSimpArgs false

namespace Sys2Proof

/-! ### Fields of concatenations -/

theorem extract_low {n m : Nat} (x : BitVec n) (y : BitVec m) (s l : Nat) (h : s + l ≤ m) :
    (x ++ y).extractLsb' s l = y.extractLsb' s l := by
  apply BitVec.eq_of_getLsbD_eq
  intro i hi
  simp only [BitVec.getLsbD_extractLsb', BitVec.getLsbD_append, hi, decide_true, Bool.true_and]
  rw [if_pos (by omega)]

theorem extract_high {n m : Nat} (x : BitVec n) (y : BitVec m) (s l : Nat) (h : m ≤ s) :
    (x ++ y).extractLsb' s l = x.extractLsb' (s - m) l := by
  apply BitVec.eq_of_getLsbD_eq
  intro i hi
  simp only [BitVec.getLsbD_extractLsb', BitVec.getLsbD_append, hi, decide_true, Bool.true_and]
  rw [if_neg (by omega)]
  congr 1
  omega

theorem extract_whole {n : Nat} (x : BitVec n) : x.extractLsb' 0 n = x := by simp

/-- Two neighbouring fields make the field over both. -/
theorem extract_join {n : Nat} (x : BitVec n) (s l k : Nat) :
    x.extractLsb' (s + l) k ++ x.extractLsb' s l = x.extractLsb' s (k + l) := by
  apply BitVec.eq_of_getLsbD_eq
  intro i hi
  simp only [BitVec.getLsbD_append, BitVec.getLsbD_extractLsb']
  split
  · rename_i h
    simp [h, hi]
  · rename_i h
    have h1 : i - l < k := by omega
    have h2 : s + l + (i - l) = s + i := by omega
    simp [h1, hi, h2]

/-! ### Fields of each format -/

@[simp] theorem fMajor_encR (m f : Nat) (b a d : BitVec 5) : fMajor (encR m f b a d) = BitVec.ofNat 6 m := by
  simp (disch := decide) only [fMajor, encR, extract_low, extract_high, extract_whole, Nat.reduceSub]

@[simp] theorem fFnl_encR (m f : Nat) (b a d : BitVec 5) : fFnl (encR m f b a d) = BitVec.ofNat 3 (f % 8) := by
  simp (disch := decide) only [fFnl, encR, extract_low, extract_high, extract_whole, Nat.reduceSub]

@[simp] theorem fFnh_encR (m f : Nat) (b a d : BitVec 5) : fFnh (encR m f b a d) = BitVec.ofNat 6 (f / 8) := by
  simp (disch := decide) only [fFnh, encR, extract_low, extract_high, extract_whole, Nat.reduceSub]

@[simp] theorem fRd_encR (m f : Nat) (b a d : BitVec 5) : fRd (encR m f b a d) = d := by
  simp (disch := decide) only [fRd, encR, extract_low, extract_high, extract_whole, Nat.reduceSub]

@[simp] theorem fRs1_encR (m f : Nat) (b a d : BitVec 5) : fRs1 (encR m f b a d) = a := by
  simp (disch := decide) only [fRs1, encR, extract_low, extract_high, extract_whole, Nat.reduceSub]

@[simp] theorem fRs2_encR (m f : Nat) (b a d : BitVec 5) : fRs2 (encR m f b a d) = b := by
  simp (disch := decide) only [fRs2, encR, extract_low, extract_high, extract_whole, Nat.reduceSub]

theorem long_encR (m f : Nat) (b a d : BitVec 5) : (encR m f b a d).extractLsb' 14 2 = 3 := by
  simp (disch := decide) only [encR, extract_low, extract_high, extract_whole, Nat.reduceSub]
  rfl

@[simp] theorem fMajor_encI (m f : Nat) (i : BitVec 11) (a d : BitVec 5) : fMajor (encI m f i a d) = BitVec.ofNat 6 m := by
  simp (disch := decide) only [fMajor, encI, extract_low, extract_high, extract_whole, Nat.reduceSub]

@[simp] theorem fFnl_encI (m f : Nat) (i : BitVec 11) (a d : BitVec 5) : fFnl (encI m f i a d) = BitVec.ofNat 3 f := by
  simp (disch := decide) only [fFnl, encI, extract_low, extract_high, extract_whole, Nat.reduceSub]

@[simp] theorem fRd_encI (m f : Nat) (i : BitVec 11) (a d : BitVec 5) : fRd (encI m f i a d) = d := by
  simp (disch := decide) only [fRd, encI, extract_low, extract_high, extract_whole, Nat.reduceSub]

@[simp] theorem fRs1_encI (m f : Nat) (i : BitVec 11) (a d : BitVec 5) : fRs1 (encI m f i a d) = a := by
  simp (disch := decide) only [fRs1, encI, extract_low, extract_high, extract_whole, Nat.reduceSub]

@[simp] theorem fImm11_encI (m f : Nat) (i : BitVec 11) (a d : BitVec 5) : fImm11 (encI m f i a d) = i := by
  simp (disch := decide) only [fImm11, encI, extract_low, extract_high, extract_whole, Nat.reduceSub]

theorem long_encI (m f : Nat) (i : BitVec 11) (a d : BitVec 5) : (encI m f i a d).extractLsb' 14 2 = 3 := by
  simp (disch := decide) only [encI, extract_low, extract_high, extract_whole, Nat.reduceSub]
  rfl

@[simp] theorem fMajor_encV (m f : Nat) (b a : BitVec 4) (k e : BitVec 3) (d : BitVec 4) : fMajor (encV m f b a k e d) = BitVec.ofNat 6 m := by
  simp (disch := decide) only [fMajor, encV, extract_low, extract_high, extract_whole, Nat.reduceSub]

@[simp] theorem fLow4_encV (m f : Nat) (b a : BitVec 4) (k e : BitVec 3) (d : BitVec 4) : fLow4 (encV m f b a k e d) = BitVec.ofNat 4 (f % 16) := by
  simp (disch := decide) only [fLow4, encV, extract_low, extract_high, extract_whole, Nat.reduceSub]

@[simp] theorem fVFnh_encV (m f : Nat) (b a : BitVec 4) (k e : BitVec 3) (d : BitVec 4) : fVFnh (encV m f b a k e d) = BitVec.ofNat 2 (f / 16) := by
  simp (disch := decide) only [fVFnh, encV, extract_low, extract_high, extract_whole, Nat.reduceSub]

@[simp] theorem fVd_encV (m f : Nat) (b a : BitVec 4) (k e : BitVec 3) (d : BitVec 4) : fVd (encV m f b a k e d) = d := by
  simp (disch := decide) only [fVd, encV, extract_low, extract_high, extract_whole, Nat.reduceSub]

@[simp] theorem fVs2_encV (m f : Nat) (b a : BitVec 4) (k e : BitVec 3) (d : BitVec 4) : fVs2 (encV m f b a k e d) = b := by
  simp (disch := decide) only [fVs2, encV, extract_low, extract_high, extract_whole, Nat.reduceSub]

@[simp] theorem fVs1_encV (m f : Nat) (b a : BitVec 4) (k e : BitVec 3) (d : BitVec 4) : fVs1 (encV m f b a k e d) = a := by
  simp (disch := decide) only [fVs1, encV, extract_low, extract_high, extract_whole, Nat.reduceSub]

@[simp] theorem fVK_encV (m f : Nat) (b a : BitVec 4) (k e : BitVec 3) (d : BitVec 4) : fVK (encV m f b a k e d) = k := by
  simp (disch := decide) only [fVK, encV, extract_low, extract_high, extract_whole, Nat.reduceSub]

@[simp] theorem fVEt_encV (m f : Nat) (b a : BitVec 4) (k e : BitVec 3) (d : BitVec 4) : fVEt (encV m f b a k e d) = e := by
  simp (disch := decide) only [fVEt, encV, extract_low, extract_high, extract_whole, Nat.reduceSub]

theorem long_encV (m f : Nat) (b a : BitVec 4) (k e : BitVec 3) (d : BitVec 4) : (encV m f b a k e d).extractLsb' 14 2 = 3 := by
  simp (disch := decide) only [encV, extract_low, extract_high, extract_whole, Nat.reduceSub]
  rfl

@[simp] theorem fMajor_encVF (h : Nat) (b a : BitVec 4) (k e : BitVec 3) (d n : BitVec 4) : fMajor (encVF h b a k e d n) = BitVec.ofNat 6 0x19 := by
  simp (disch := decide) only [fMajor, encVF, extract_low, extract_high, extract_whole, Nat.reduceSub]

@[simp] theorem fVFnh_encVF (h : Nat) (b a : BitVec 4) (k e : BitVec 3) (d n : BitVec 4) : fVFnh (encVF h b a k e d n) = BitVec.ofNat 2 h := by
  simp (disch := decide) only [fVFnh, encVF, extract_low, extract_high, extract_whole, Nat.reduceSub]

@[simp] theorem fVd_encVF (h : Nat) (b a : BitVec 4) (k e : BitVec 3) (d n : BitVec 4) : fVd (encVF h b a k e d n) = d := by
  simp (disch := decide) only [fVd, encVF, extract_low, extract_high, extract_whole, Nat.reduceSub]

@[simp] theorem fVs2_encVF (h : Nat) (b a : BitVec 4) (k e : BitVec 3) (d n : BitVec 4) : fVs2 (encVF h b a k e d n) = b := by
  simp (disch := decide) only [fVs2, encVF, extract_low, extract_high, extract_whole, Nat.reduceSub]

@[simp] theorem fVs1_encVF (h : Nat) (b a : BitVec 4) (k e : BitVec 3) (d n : BitVec 4) : fVs1 (encVF h b a k e d n) = a := by
  simp (disch := decide) only [fVs1, encVF, extract_low, extract_high, extract_whole, Nat.reduceSub]

@[simp] theorem fVK_encVF (h : Nat) (b a : BitVec 4) (k e : BitVec 3) (d n : BitVec 4) : fVK (encVF h b a k e d n) = k := by
  simp (disch := decide) only [fVK, encVF, extract_low, extract_high, extract_whole, Nat.reduceSub]

@[simp] theorem fVEt_encVF (h : Nat) (b a : BitVec 4) (k e : BitVec 3) (d n : BitVec 4) : fVEt (encVF h b a k e d n) = e := by
  simp (disch := decide) only [fVEt, encVF, extract_low, extract_high, extract_whole, Nat.reduceSub]

@[simp] theorem fLow4_encVF (h : Nat) (b a : BitVec 4) (k e : BitVec 3) (d n : BitVec 4) : fLow4 (encVF h b a k e d n) = n := by
  simp (disch := decide) only [fLow4, encVF, extract_low, extract_high, extract_whole, Nat.reduceSub]

theorem long_encVF (h : Nat) (b a : BitVec 4) (k e : BitVec 3) (d n : BitVec 4) : (encVF h b a k e d n).extractLsb' 14 2 = 3 := by
  simp (disch := decide) only [encVF, extract_low, extract_high, extract_whole, Nat.reduceSub]
  rfl

@[simp] theorem fMajor_encVX (m f : Nat) (b : BitVec 4) (g : BitVec 5) (k e : BitVec 3) (d : BitVec 4) : fMajor (encVX m f b g k e d) = BitVec.ofNat 6 m := by
  simp (disch := decide) only [fMajor, encVX, extract_low, extract_high, extract_whole, Nat.reduceSub]

@[simp] theorem fLow4_encVX (m f : Nat) (b : BitVec 4) (g : BitVec 5) (k e : BitVec 3) (d : BitVec 4) : fLow4 (encVX m f b g k e d) = BitVec.ofNat 4 (f % 16) := by
  simp (disch := decide) only [fLow4, encVX, extract_low, extract_high, extract_whole, Nat.reduceSub]

@[simp] theorem fXFnh_encVX (m f : Nat) (b : BitVec 4) (g : BitVec 5) (k e : BitVec 3) (d : BitVec 4) : fXFnh (encVX m f b g k e d) = BitVec.ofNat 1 (f / 16) := by
  simp (disch := decide) only [fXFnh, encVX, extract_low, extract_high, extract_whole, Nat.reduceSub]

@[simp] theorem fVd_encVX (m f : Nat) (b : BitVec 4) (g : BitVec 5) (k e : BitVec 3) (d : BitVec 4) : fVd (encVX m f b g k e d) = d := by
  simp (disch := decide) only [fVd, encVX, extract_low, extract_high, extract_whole, Nat.reduceSub]

@[simp] theorem fVs2_encVX (m f : Nat) (b : BitVec 4) (g : BitVec 5) (k e : BitVec 3) (d : BitVec 4) : fVs2 (encVX m f b g k e d) = b := by
  simp (disch := decide) only [fVs2, encVX, extract_low, extract_high, extract_whole, Nat.reduceSub]

@[simp] theorem fXGs_encVX (m f : Nat) (b : BitVec 4) (g : BitVec 5) (k e : BitVec 3) (d : BitVec 4) : fXGs (encVX m f b g k e d) = g := by
  simp (disch := decide) only [fXGs, encVX, extract_low, extract_high, extract_whole, Nat.reduceSub]

@[simp] theorem fXK_encVX (m f : Nat) (b : BitVec 4) (g : BitVec 5) (k e : BitVec 3) (d : BitVec 4) : fXK (encVX m f b g k e d) = k := by
  simp (disch := decide) only [fXK, encVX, extract_low, extract_high, extract_whole, Nat.reduceSub]

@[simp] theorem fXEt_encVX (m f : Nat) (b : BitVec 4) (g : BitVec 5) (k e : BitVec 3) (d : BitVec 4) : fXEt (encVX m f b g k e d) = e := by
  simp (disch := decide) only [fXEt, encVX, extract_low, extract_high, extract_whole, Nat.reduceSub]

theorem long_encVX (m f : Nat) (b : BitVec 4) (g : BitVec 5) (k e : BitVec 3) (d : BitVec 4) : (encVX m f b g k e d).extractLsb' 14 2 = 3 := by
  simp (disch := decide) only [encVX, extract_low, extract_high, extract_whole, Nat.reduceSub]
  rfl

@[simp] theorem fMajor_encVM (f : Nat) (a b : BitVec 5) (k e : BitVec 3) (d : BitVec 4) : fMajor (encVM f a b k e d) = BitVec.ofNat 6 0x16 := by
  simp (disch := decide) only [fMajor, encVM, extract_low, extract_high, extract_whole, Nat.reduceSub]

@[simp] theorem fLow4_encVM (f : Nat) (a b : BitVec 5) (k e : BitVec 3) (d : BitVec 4) : fLow4 (encVM f a b k e d) = BitVec.ofNat 4 f := by
  simp (disch := decide) only [fLow4, encVM, extract_low, extract_high, extract_whole, Nat.reduceSub]

@[simp] theorem fVd_encVM (f : Nat) (a b : BitVec 5) (k e : BitVec 3) (d : BitVec 4) : fVd (encVM f a b k e d) = d := by
  simp (disch := decide) only [fVd, encVM, extract_low, extract_high, extract_whole, Nat.reduceSub]

@[simp] theorem fMGs1_encVM (f : Nat) (a b : BitVec 5) (k e : BitVec 3) (d : BitVec 4) : fMGs1 (encVM f a b k e d) = a := by
  simp (disch := decide) only [fMGs1, encVM, extract_low, extract_high, extract_whole, Nat.reduceSub]

@[simp] theorem fMGs2_encVM (f : Nat) (a b : BitVec 5) (k e : BitVec 3) (d : BitVec 4) : fMGs2 (encVM f a b k e d) = b := by
  simp (disch := decide) only [fMGs2, encVM, extract_low, extract_high, extract_whole, Nat.reduceSub]

@[simp] theorem fMK_encVM (f : Nat) (a b : BitVec 5) (k e : BitVec 3) (d : BitVec 4) : fMK (encVM f a b k e d) = k := by
  simp (disch := decide) only [fMK, encVM, extract_low, extract_high, extract_whole, Nat.reduceSub]

@[simp] theorem fMEt_encVM (f : Nat) (a b : BitVec 5) (k e : BitVec 3) (d : BitVec 4) : fMEt (encVM f a b k e d) = e := by
  simp (disch := decide) only [fMEt, encVM, extract_low, extract_high, extract_whole, Nat.reduceSub]

theorem long_encVM (f : Nat) (a b : BitVec 5) (k e : BitVec 3) (d : BitVec 4) : (encVM f a b k e d).extractLsb' 14 2 = 3 := by
  simp (disch := decide) only [encVM, extract_low, extract_high, extract_whole, Nat.reduceSub]
  rfl

@[simp] theorem fMajor_encT (m f : Nat) (b a : BitVec 5) (t u : BitVec 3) (d : BitVec 5) : fMajor (encT m f b a t u d) = BitVec.ofNat 6 m := by
  simp (disch := decide) only [fMajor, encT, extract_low, extract_high, extract_whole, Nat.reduceSub]

@[simp] theorem fFnl_encT (m f : Nat) (b a : BitVec 5) (t u : BitVec 3) (d : BitVec 5) : fFnl (encT m f b a t u d) = BitVec.ofNat 3 f := by
  simp (disch := decide) only [fFnl, encT, extract_low, extract_high, extract_whole, Nat.reduceSub]

@[simp] theorem fRd_encT (m f : Nat) (b a : BitVec 5) (t u : BitVec 3) (d : BitVec 5) : fRd (encT m f b a t u d) = d := by
  simp (disch := decide) only [fRd, encT, extract_low, extract_high, extract_whole, Nat.reduceSub]

@[simp] theorem fMGs1_encT (m f : Nat) (b a : BitVec 5) (t u : BitVec 3) (d : BitVec 5) : fMGs1 (encT m f b a t u d) = b := by
  simp (disch := decide) only [fMGs1, encT, extract_low, extract_high, extract_whole, Nat.reduceSub]

@[simp] theorem fMGs2_encT (m f : Nat) (b a : BitVec 5) (t u : BitVec 3) (d : BitVec 5) : fMGs2 (encT m f b a t u d) = a := by
  simp (disch := decide) only [fMGs2, encT, extract_low, extract_high, extract_whole, Nat.reduceSub]

@[simp] theorem fTTmB_encT (m f : Nat) (b a : BitVec 5) (t u : BitVec 3) (d : BitVec 5) : fTTmB (encT m f b a t u d) = t := by
  simp (disch := decide) only [fTTmB, encT, extract_low, extract_high, extract_whole, Nat.reduceSub]

@[simp] theorem fTTmA_encT (m f : Nat) (b a : BitVec 5) (t u : BitVec 3) (d : BitVec 5) : fTTmA (encT m f b a t u d) = u := by
  simp (disch := decide) only [fTTmA, encT, extract_low, extract_high, extract_whole, Nat.reduceSub]

theorem long_encT (m f : Nat) (b a : BitVec 5) (t u : BitVec 3) (d : BitVec 5) : (encT m f b a t u d).extractLsb' 14 2 = 3 := by
  simp (disch := decide) only [encT, extract_low, extract_high, extract_whole, Nat.reduceSub]
  rfl

@[simp] theorem fMajor_encJ (m : Nat) (i : BitVec 19) (d : BitVec 5) : fMajor (encJ m i d) = BitVec.ofNat 6 m := by
  simp (disch := decide) only [fMajor, encJ, extract_low, extract_high, extract_whole, Nat.reduceSub]

@[simp] theorem fRd_encJ (m : Nat) (i : BitVec 19) (d : BitVec 5) : fRd (encJ m i d) = d := by
  simp (disch := decide) only [fRd, encJ, extract_low, extract_high, extract_whole, Nat.reduceSub]

@[simp] theorem fImm19_encJ (m : Nat) (i : BitVec 19) (d : BitVec 5) : fImm19 (encJ m i d) = i := by
  simp (disch := decide) only [fImm19, encJ, extract_low, extract_high, extract_whole, Nat.reduceSub]
  exact (extract_join i 0 3 16).trans (extract_whole i)

theorem long_encJ (m : Nat) (i : BitVec 19) (d : BitVec 5) : (encJ m i d).extractLsb' 14 2 = 3 := by
  simp (disch := decide) only [encJ, extract_low, extract_high, extract_whole, Nat.reduceSub]
  rfl

/-- The function code of format R. -/
@[simp] theorem fFunc_encR (m f : Nat) (b a d : BitVec 5) : fFunc (encR m f b a d) = f % 512 := by
  simp only [fFunc, fFnh_encR, fFnl_encR, BitVec.toNat_ofNat]
  omega

/-- The function code of format V. -/
@[simp] theorem fVFunc_encV (m f : Nat) (b a : BitVec 4) (k e : BitVec 3) (d : BitVec 4) :
    fVFunc (encV m f b a k e d) = f % 64 := by
  simp only [fVFunc, fVFnh_encV, fLow4_encV, BitVec.toNat_ofNat]
  omega

/-- The function code of format VX. -/
@[simp] theorem fXFunc_encVX (m f : Nat) (b : BitVec 4) (g : BitVec 5) (k e : BitVec 3) (d : BitVec 4) :
    fXFunc (encVX m f b g k e d) = f % 32 := by
  simp only [fXFunc, fXFnh_encVX, fLow4_encVX, BitVec.toNat_ofNat]
  omega

/-! ### Element types and short fields -/

@[simp] theorem ofCode_code (e : ETy) : ETy.ofCode e.code = some e := by cases e <;> rfl

@[simp] theorem short4_bit (x : BitVec 4) : (0#1 ++ x).getLsbD 4 = false := by
  rw [BitVec.getLsbD_append]
  rfl
@[simp] theorem short4_elem (x : BitVec 4) : (0#1 ++ x)[4] = false := short4_bit x
@[simp] theorem short3_elem (x : BitVec 3) : (0#1 ++ x)[3] = false := by
  rw [← BitVec.getLsbD_eq_getElem, BitVec.getLsbD_append]
  rfl
@[simp] theorem short4_low (x : BitVec 4) : (0#1 ++ x).extractLsb' 0 4 = x := by
  simp (disch := decide) only [extract_low, extract_whole]
@[simp] theorem short3_bit (x : BitVec 3) : (0#1 ++ x).getLsbD 3 = false := by
  rw [BitVec.getLsbD_append]
  rfl
@[simp] theorem short3_low (x : BitVec 3) : (0#1 ++ x).extractLsb' 0 3 = x := by
  simp (disch := decide) only [extract_low, extract_whole]
@[simp] theorem short6_low (x : BitVec 6) : (0#5 ++ x).extractLsb' 0 6 = x := by
  simp (disch := decide) only [extract_low, extract_whole]
@[simp] theorem short6_high (x : BitVec 6) : (0#5 ++ x).extractLsb' 6 5 = 0 := by
  simp (disch := decide) only [extract_high, extract_whole, Nat.reduceSub]
  rfl
@[simp] theorem short5_low (x : BitVec 5) : (0#6 ++ x).extractLsb' 0 5 = x := by
  simp (disch := decide) only [extract_low, extract_whole]
@[simp] theorem short5_high (x : BitVec 5) : (0#6 ++ x).extractLsb' 5 6 = 0 := by
  simp (disch := decide) only [extract_high, extract_whole, Nat.reduceSub]
  rfl

/-! ### Compact formats -/

@[simp] theorem group_encC0 (o : Nat) (r f : BitVec 5) : (encC0 o r f).extractLsb' 14 2 = 0#2 := by
  simp (disch := decide) only [encC0, extract_low, extract_high, extract_whole, Nat.reduceSub]

@[simp] theorem op_encC0 (o : Nat) (r f : BitVec 5) : (encC0 o r f).extractLsb' 10 4 = BitVec.ofNat 4 o := by
  simp (disch := decide) only [encC0, extract_low, extract_high, extract_whole, Nat.reduceSub]

@[simp] theorem reg_encC0 (o : Nat) (r f : BitVec 5) : (encC0 o r f).extractLsb' 5 5 = r := by
  simp (disch := decide) only [encC0, extract_low, extract_high, extract_whole, Nat.reduceSub]

@[simp] theorem low_encC0 (o : Nat) (r f : BitVec 5) : (encC0 o r f).extractLsb' 0 5 = f := by
  simp (disch := decide) only [encC0, extract_low, extract_high, extract_whole, Nat.reduceSub]

@[simp] theorem group_encC1 (o : Nat) (x : BitVec 11) : (encC1 o x).extractLsb' 14 2 = 1#2 := by
  simp (disch := decide) only [encC1, extract_low, extract_high, extract_whole, Nat.reduceSub]

@[simp] theorem op_encC1 (o : Nat) (x : BitVec 11) : (encC1 o x).extractLsb' 11 3 = BitVec.ofNat 3 o := by
  simp (disch := decide) only [encC1, extract_low, extract_high, extract_whole, Nat.reduceSub]

@[simp] theorem off_encC1 (o : Nat) (x : BitVec 11) : (encC1 o x).extractLsb' 0 11 = x := by
  simp (disch := decide) only [encC1, extract_low, extract_high, extract_whole, Nat.reduceSub]

@[simp] theorem reg_encC1 (o : Nat) (x : BitVec 11) : (encC1 o x).extractLsb' 8 3 = x.extractLsb' 8 3 := by
  simp (disch := decide) only [encC1, extract_low, extract_high, extract_whole, Nat.reduceSub]

@[simp] theorem low_encC1 (o : Nat) (x : BitVec 11) : (encC1 o x).extractLsb' 0 8 = x.extractLsb' 0 8 := by
  simp (disch := decide) only [encC1, extract_low, extract_high, extract_whole, Nat.reduceSub]

@[simp] theorem group_encC2 (o : Nat) (d b : BitVec 3) (x : BitVec 6) : (encC2 o d b x).extractLsb' 14 2 = 2#2 := by
  simp (disch := decide) only [encC2, extract_low, extract_high, extract_whole, Nat.reduceSub]

@[simp] theorem op_encC2 (o : Nat) (d b : BitVec 3) (x : BitVec 6) : (encC2 o d b x).extractLsb' 12 2 = BitVec.ofNat 2 o := by
  simp (disch := decide) only [encC2, extract_low, extract_high, extract_whole, Nat.reduceSub]

@[simp] theorem reg_encC2 (o : Nat) (d b : BitVec 3) (x : BitVec 6) : (encC2 o d b x).extractLsb' 9 3 = d := by
  simp (disch := decide) only [encC2, extract_low, extract_high, extract_whole, Nat.reduceSub]

@[simp] theorem base_encC2 (o : Nat) (d b : BitVec 3) (x : BitVec 6) : (encC2 o d b x).extractLsb' 6 3 = b := by
  simp (disch := decide) only [encC2, extract_low, extract_high, extract_whole, Nat.reduceSub]

@[simp] theorem low_encC2 (o : Nat) (d b : BitVec 3) (x : BitVec 6) : (encC2 o d b x).extractLsb' 0 6 = x := by
  simp (disch := decide) only [encC2, extract_low, extract_high, extract_whole, Nat.reduceSub]

@[simp] theorem pair_high (r : BitVec 3) (x : BitVec 8) : (r ++ x).extractLsb' 8 3 = r := by
  simp (disch := decide) only [extract_high, extract_whole, Nat.reduceSub]
@[simp] theorem pair_low (r : BitVec 3) (x : BitVec 8) : (r ++ x).extractLsb' 0 8 = x := by
  simp (disch := decide) only [extract_low, extract_whole]

/-! ### The bytes of an encoding -/

/-- A halfword's two bytes joined. -/
theorem half_of_bytes {n : Nat} (x : BitVec n) (s : Nat) :
    halfOf (x.extractLsb' s 8) (x.extractLsb' (s + 8) 8) = x.extractLsb' s 16 := extract_join x s 8 8

/-- A word's four bytes joined are the word. -/
theorem word_of_bytes (w : BitVec 32) :
    halfOf (w.extractLsb' 16 8) (w.extractLsb' 24 8) ++ halfOf (w.extractLsb' 0 8) (w.extractLsb' 8 8) = w := by
  rw [half_of_bytes w 16, half_of_bytes w 0]
  exact (extract_join w 0 16 16).trans (extract_whole w)

/-- The low half of a word whose bits 15:14 are 0b11 begins a 32-bit instruction (R56). -/
theorem isLong_low (w : BitVec 32) (h : w.extractLsb' 14 2 = 3) :
    isLong (halfOf (w.extractLsb' 0 8) (w.extractLsb' 8 8)) = true := by
  rw [half_of_bytes w 0, isLong]
  have h2 : (w.extractLsb' 0 16).extractLsb' 14 2 = w.extractLsb' 14 2 := by
    apply BitVec.eq_of_getLsbD_eq
    intro i hi
    simp only [BitVec.getLsbD_extractLsb', hi, decide_true, Bool.true_and, Nat.zero_add]
    have : 14 + i < 16 := by omega
    simp [this]
  rw [h2, h]
  rfl

/-- Decoding the bytes of a 32-bit word. -/
theorem decode_long (w : BitVec 32) (i : Instr) (h : w.extractLsb' 14 2 = 3) (hd : decode32 w = some i) :
    decode (Encoding.long w).bytes = .instr i 4 := by
  simp only [Encoding.bytes, decode, isLong_low w h, word_of_bytes, hd, if_true]

/-- Decoding the bytes of a compact halfword. -/
theorem decode_compact (x : BitVec 16) (i : Instr) (h : x.extractLsb' 14 2 ≠ 3) (hd : decode16 x = some i) :
    decode (Encoding.compact x).bytes = .instr i 2 := by
  have hb : halfOf (x.extractLsb' 0 8) (x.extractLsb' 8 8) = x := (half_of_bytes x 0).trans (extract_whole x)
  have hl : isLong x = false := by simpa [isLong] using h
  simp only [Encoding.bytes, decode, hb, hl, hd]
  rfl

end Sys2Proof
end

