-- ==== Sys2Proof/Laws/PerInstr.lean ====
section
/-! SUPPORT. Statements about every instruction as syntax, one lemma a constructor. RoundTrip: decoding the bytes of an
instruction's encoding gives it back (R56 to R68, R76). -/

set_option Elab.async false

set_option linter.unusedSimpArgs false

namespace Sys2Proof.Laws

noncomputable section

/-- The row the decoder answers where several rows of the table share an encoding and an operand's value tells them
apart at issue (R432, R476, R477). -/
def tableRow : Instr → Instr
  | .cmsetExpr rd gs1 gs2 => .cmsetMember rd gs1 gs2
  | .cmsetQuorum rd gs1 gs2 => .cmsetMember rd gs1 gs2
  | .cmsetOpen rd gs1 gs2 => .cmsetMember rd gs1 gs2
  | .slotwPeriod rd rs1 rs2 => .slotwEntry rd rs1 rs2
  | .slotwLen rd rs1 rs2 => .slotwEntry rd rs1 rs2
  | .attest rd rs1 rs2 => .mext rd rs1 rs2
  | .vdkey rd rs1 rs2 => .mext rd rs1 rs2
  | .wnew rd rs1 rs2 => .mext rd rs1 rs2
  | .wgrant rd rs1 rs2 => .mext rd rs1 rs2
  | .wrevoke rd rs1 rs2 => .mext rd rs1 rs2
  | .quench rd rs1 rs2 => .mext rd rs1 rs2
  | .fmove rd rs1 rs2 => .mext rd rs1 rs2
  | i => i

/-- Decoding the encoding of a well-formed instruction gives it back, with its length. -/
def RoundTrip.Statement (i : Instr) : Prop :=
  WellFormed i = true → (encode i).len ≠ 0 → decode (encode i).bytes = .instr (tableRow i) (encode i).len

/-- An event of the device has no encoding. -/
theorem RoundTrip.of_event (i : Instr) (h : encode i = .event) : RoundTrip.Statement i := by
  intro _ hl
  rw [h] at hl
  exact absurd rfl hl

/-- An instruction whose encoding is a 32-bit word that the decoder reads back. -/
theorem RoundTrip.of_long (i : Instr) (w : BitVec 32) (h : encode i = .long w) (hw : w.extractLsb' 14 2 = 3)
    (ht : WellFormed i = true → WellFormed (tableRow i) = true)
    (hd : WellFormed (tableRow i) = true → decode32 w = some (tableRow i)) : RoundTrip.Statement i := by
  intro hi _
  rw [h]
  exact decode_long w (tableRow i) hw (hd (ht hi))

/-- An instruction whose encoding is a halfword that the decoder reads back. -/
theorem RoundTrip.of_compact (i : Instr) (x : BitVec 16) (h : encode i = .compact x) (hx : x.extractLsb' 14 2 ≠ 3)
    (hd : WellFormed (tableRow i) = true → decode16 x = some (tableRow i)) (ht : tableRow i = i := by rfl) :
    RoundTrip.Statement i := by
  intro hi _
  rw [h]
  exact decode_compact x (tableRow i) hx (hd (by rw [ht]; exact hi))

theorem RoundTrip.add (rd rs1 rs2 : GReg) : Statement (.add rd rs1 rs2) :=
  of_long _ _ rfl (long_encR ..) (fun h => h) fun h => by
    simp [decode32, decodeAlu, accept]
    exact ⟨h, rfl⟩

theorem RoundTrip.sub (rd rs1 rs2 : GReg) : Statement (.sub rd rs1 rs2) :=
  of_long _ _ rfl (long_encR ..) (fun h => h) fun h => by
    simp [decode32, decodeAlu, accept]
    exact ⟨h, rfl⟩

theorem RoundTrip.and (rd rs1 rs2 : GReg) : Statement (.and rd rs1 rs2) :=
  of_long _ _ rfl (long_encR ..) (fun h => h) fun h => by
    simp [decode32, decodeAlu, accept]
    exact ⟨h, rfl⟩

theorem RoundTrip.or (rd rs1 rs2 : GReg) : Statement (.or rd rs1 rs2) :=
  of_long _ _ rfl (long_encR ..) (fun h => h) fun h => by
    simp [decode32, decodeAlu, accept]
    exact ⟨h, rfl⟩

theorem RoundTrip.xor (rd rs1 rs2 : GReg) : Statement (.xor rd rs1 rs2) :=
  of_long _ _ rfl (long_encR ..) (fun h => h) fun h => by
    simp [decode32, decodeAlu, accept]
    exact ⟨h, rfl⟩

theorem RoundTrip.andn (rd rs1 rs2 : GReg) : Statement (.andn rd rs1 rs2) :=
  of_long _ _ rfl (long_encR ..) (fun h => h) fun h => by
    simp [decode32, decodeAlu, accept]
    exact ⟨h, rfl⟩

theorem RoundTrip.orn (rd rs1 rs2 : GReg) : Statement (.orn rd rs1 rs2) :=
  of_long _ _ rfl (long_encR ..) (fun h => h) fun h => by
    simp [decode32, decodeAlu, accept]
    exact ⟨h, rfl⟩

theorem RoundTrip.sll (rd rs1 rs2 : GReg) : Statement (.sll rd rs1 rs2) :=
  of_long _ _ rfl (long_encR ..) (fun h => h) fun h => by
    simp [decode32, decodeAlu, accept]
    exact ⟨h, rfl⟩

theorem RoundTrip.srl (rd rs1 rs2 : GReg) : Statement (.srl rd rs1 rs2) :=
  of_long _ _ rfl (long_encR ..) (fun h => h) fun h => by
    simp [decode32, decodeAlu, accept]
    exact ⟨h, rfl⟩

theorem RoundTrip.sra (rd rs1 rs2 : GReg) : Statement (.sra rd rs1 rs2) :=
  of_long _ _ rfl (long_encR ..) (fun h => h) fun h => by
    simp [decode32, decodeAlu, accept]
    exact ⟨h, rfl⟩

theorem RoundTrip.rol (rd rs1 rs2 : GReg) : Statement (.rol rd rs1 rs2) :=
  of_long _ _ rfl (long_encR ..) (fun h => h) fun h => by
    simp [decode32, decodeAlu, accept]
    exact ⟨h, rfl⟩

theorem RoundTrip.ror (rd rs1 rs2 : GReg) : Statement (.ror rd rs1 rs2) :=
  of_long _ _ rfl (long_encR ..) (fun h => h) fun h => by
    simp [decode32, decodeAlu, accept]
    exact ⟨h, rfl⟩

theorem RoundTrip.slt (rd rs1 rs2 : GReg) : Statement (.slt rd rs1 rs2) :=
  of_long _ _ rfl (long_encR ..) (fun h => h) fun h => by
    simp [decode32, decodeAlu, accept]
    exact ⟨h, rfl⟩

theorem RoundTrip.sltu (rd rs1 rs2 : GReg) : Statement (.sltu rd rs1 rs2) :=
  of_long _ _ rfl (long_encR ..) (fun h => h) fun h => by
    simp [decode32, decodeAlu, accept]
    exact ⟨h, rfl⟩

theorem RoundTrip.min (rd rs1 rs2 : GReg) : Statement (.min rd rs1 rs2) :=
  of_long _ _ rfl (long_encR ..) (fun h => h) fun h => by
    simp [decode32, decodeAlu, accept]
    exact ⟨h, rfl⟩

theorem RoundTrip.max (rd rs1 rs2 : GReg) : Statement (.max rd rs1 rs2) :=
  of_long _ _ rfl (long_encR ..) (fun h => h) fun h => by
    simp [decode32, decodeAlu, accept]
    exact ⟨h, rfl⟩

theorem RoundTrip.minu (rd rs1 rs2 : GReg) : Statement (.minu rd rs1 rs2) :=
  of_long _ _ rfl (long_encR ..) (fun h => h) fun h => by
    simp [decode32, decodeAlu, accept]
    exact ⟨h, rfl⟩

theorem RoundTrip.maxu (rd rs1 rs2 : GReg) : Statement (.maxu rd rs1 rs2) :=
  of_long _ _ rfl (long_encR ..) (fun h => h) fun h => by
    simp [decode32, decodeAlu, accept]
    exact ⟨h, rfl⟩

theorem RoundTrip.mul (rd rs1 rs2 : GReg) : Statement (.mul rd rs1 rs2) :=
  of_long _ _ rfl (long_encR ..) (fun h => h) fun h => by
    simp [decode32, decodeAlu, accept]
    exact ⟨h, rfl⟩

theorem RoundTrip.mulh (rd rs1 rs2 : GReg) : Statement (.mulh rd rs1 rs2) :=
  of_long _ _ rfl (long_encR ..) (fun h => h) fun h => by
    simp [decode32, decodeAlu, accept]
    exact ⟨h, rfl⟩

theorem RoundTrip.mulhu (rd rs1 rs2 : GReg) : Statement (.mulhu rd rs1 rs2) :=
  of_long _ _ rfl (long_encR ..) (fun h => h) fun h => by
    simp [decode32, decodeAlu, accept]
    exact ⟨h, rfl⟩

theorem RoundTrip.div (rd rs1 rs2 : GReg) : Statement (.div rd rs1 rs2) :=
  of_long _ _ rfl (long_encR ..) (fun h => h) fun h => by
    simp [decode32, decodeAlu, accept]
    exact ⟨h, rfl⟩

theorem RoundTrip.divu (rd rs1 rs2 : GReg) : Statement (.divu rd rs1 rs2) :=
  of_long _ _ rfl (long_encR ..) (fun h => h) fun h => by
    simp [decode32, decodeAlu, accept]
    exact ⟨h, rfl⟩

theorem RoundTrip.rem (rd rs1 rs2 : GReg) : Statement (.rem rd rs1 rs2) :=
  of_long _ _ rfl (long_encR ..) (fun h => h) fun h => by
    simp [decode32, decodeAlu, accept]
    exact ⟨h, rfl⟩

theorem RoundTrip.remu (rd rs1 rs2 : GReg) : Statement (.remu rd rs1 rs2) :=
  of_long _ _ rfl (long_encR ..) (fun h => h) fun h => by
    simp [decode32, decodeAlu, accept]
    exact ⟨h, rfl⟩

theorem RoundTrip.addw (rd rs1 rs2 : GReg) : Statement (.addw rd rs1 rs2) :=
  of_long _ _ rfl (long_encR ..) (fun h => h) fun h => by
    simp [decode32, decodeAlu, accept]
    exact ⟨h, rfl⟩

theorem RoundTrip.subw (rd rs1 rs2 : GReg) : Statement (.subw rd rs1 rs2) :=
  of_long _ _ rfl (long_encR ..) (fun h => h) fun h => by
    simp [decode32, decodeAlu, accept]
    exact ⟨h, rfl⟩

theorem RoundTrip.sllw (rd rs1 rs2 : GReg) : Statement (.sllw rd rs1 rs2) :=
  of_long _ _ rfl (long_encR ..) (fun h => h) fun h => by
    simp [decode32, decodeAlu, accept]
    exact ⟨h, rfl⟩

theorem RoundTrip.srlw (rd rs1 rs2 : GReg) : Statement (.srlw rd rs1 rs2) :=
  of_long _ _ rfl (long_encR ..) (fun h => h) fun h => by
    simp [decode32, decodeAlu, accept]
    exact ⟨h, rfl⟩

theorem RoundTrip.sraw (rd rs1 rs2 : GReg) : Statement (.sraw rd rs1 rs2) :=
  of_long _ _ rfl (long_encR ..) (fun h => h) fun h => by
    simp [decode32, decodeAlu, accept]
    exact ⟨h, rfl⟩

theorem RoundTrip.mulw (rd rs1 rs2 : GReg) : Statement (.mulw rd rs1 rs2) :=
  of_long _ _ rfl (long_encR ..) (fun h => h) fun h => by
    simp [decode32, decodeAlu, accept]
    exact ⟨h, rfl⟩

theorem RoundTrip.clz (rd rs1 : GReg) : Statement (.clz rd rs1) :=
  of_long _ _ rfl (long_encR ..) (fun h => h) fun h => by
    simp [decode32, decodeAlu, accept]
    exact ⟨h, rfl⟩

theorem RoundTrip.ctz (rd rs1 : GReg) : Statement (.ctz rd rs1) :=
  of_long _ _ rfl (long_encR ..) (fun h => h) fun h => by
    simp [decode32, decodeAlu, accept]
    exact ⟨h, rfl⟩

theorem RoundTrip.popc (rd rs1 : GReg) : Statement (.popc rd rs1) :=
  of_long _ _ rfl (long_encR ..) (fun h => h) fun h => by
    simp [decode32, decodeAlu, accept]
    exact ⟨h, rfl⟩

theorem RoundTrip.bswp (rd rs1 : GReg) : Statement (.bswp rd rs1) :=
  of_long _ _ rfl (long_encR ..) (fun h => h) fun h => by
    simp [decode32, decodeAlu, accept]
    exact ⟨h, rfl⟩

theorem RoundTrip.sextb (rd rs1 : GReg) : Statement (.sextb rd rs1) :=
  of_long _ _ rfl (long_encR ..) (fun h => h) fun h => by
    simp [decode32, decodeAlu, accept]
    exact ⟨h, rfl⟩

theorem RoundTrip.sexth (rd rs1 : GReg) : Statement (.sexth rd rs1) :=
  of_long _ _ rfl (long_encR ..) (fun h => h) fun h => by
    simp [decode32, decodeAlu, accept]
    exact ⟨h, rfl⟩

theorem RoundTrip.sextw (rd rs1 : GReg) : Statement (.sextw rd rs1) :=
  of_long _ _ rfl (long_encR ..) (fun h => h) fun h => by
    simp [decode32, decodeAlu, accept]
    exact ⟨h, rfl⟩

theorem RoundTrip.zextb (rd rs1 : GReg) : Statement (.zextb rd rs1) :=
  of_long _ _ rfl (long_encR ..) (fun h => h) fun h => by
    simp [decode32, decodeAlu, accept]
    exact ⟨h, rfl⟩

theorem RoundTrip.zexth (rd rs1 : GReg) : Statement (.zexth rd rs1) :=
  of_long _ _ rfl (long_encR ..) (fun h => h) fun h => by
    simp [decode32, decodeAlu, accept]
    exact ⟨h, rfl⟩

theorem RoundTrip.zextw (rd rs1 : GReg) : Statement (.zextw rd rs1) :=
  of_long _ _ rfl (long_encR ..) (fun h => h) fun h => by
    simp [decode32, decodeAlu, accept]
    exact ⟨h, rfl⟩

theorem RoundTrip.addi (rd rs1 : GReg) (imm : BitVec 11) : Statement (.addi rd rs1 imm) :=
  of_long _ _ rfl (long_encI ..) (fun h => h) fun h => by
    simp [decode32, decodeAluI, accept]
    exact ⟨h, rfl⟩

theorem RoundTrip.andi (rd rs1 : GReg) (imm : BitVec 11) : Statement (.andi rd rs1 imm) :=
  of_long _ _ rfl (long_encI ..) (fun h => h) fun h => by
    simp [decode32, decodeAluI, accept]
    exact ⟨h, rfl⟩

theorem RoundTrip.ori (rd rs1 : GReg) (imm : BitVec 11) : Statement (.ori rd rs1 imm) :=
  of_long _ _ rfl (long_encI ..) (fun h => h) fun h => by
    simp [decode32, decodeAluI, accept]
    exact ⟨h, rfl⟩

theorem RoundTrip.xori (rd rs1 : GReg) (imm : BitVec 11) : Statement (.xori rd rs1 imm) :=
  of_long _ _ rfl (long_encI ..) (fun h => h) fun h => by
    simp [decode32, decodeAluI, accept]
    exact ⟨h, rfl⟩

theorem RoundTrip.slti (rd rs1 : GReg) (imm : BitVec 11) : Statement (.slti rd rs1 imm) :=
  of_long _ _ rfl (long_encI ..) (fun h => h) fun h => by
    simp [decode32, decodeAluI, accept]
    exact ⟨h, rfl⟩

theorem RoundTrip.sltiu (rd rs1 : GReg) (imm : BitVec 11) : Statement (.sltiu rd rs1 imm) :=
  of_long _ _ rfl (long_encI ..) (fun h => h) fun h => by
    simp [decode32, decodeAluI, accept]
    exact ⟨h, rfl⟩

theorem RoundTrip.addiw (rd rs1 : GReg) (imm : BitVec 11) : Statement (.addiw rd rs1 imm) :=
  of_long _ _ rfl (long_encI ..) (fun h => h) fun h => by
    simp [decode32, decodeAluI, accept]
    exact ⟨h, rfl⟩

theorem RoundTrip.slli (rd rs1 : GReg) (sh : BitVec 6) : Statement (.slli rd rs1 sh) :=
  of_long _ _ rfl (long_encI ..) (fun h => h) fun h => by
    simp [decode32, decodeShiftI, accept]
    exact ⟨h, rfl⟩

theorem RoundTrip.srli (rd rs1 : GReg) (sh : BitVec 6) : Statement (.srli rd rs1 sh) :=
  of_long _ _ rfl (long_encI ..) (fun h => h) fun h => by
    simp [decode32, decodeShiftI, accept]
    exact ⟨h, rfl⟩

theorem RoundTrip.srai (rd rs1 : GReg) (sh : BitVec 6) : Statement (.srai rd rs1 sh) :=
  of_long _ _ rfl (long_encI ..) (fun h => h) fun h => by
    simp [decode32, decodeShiftI, accept]
    exact ⟨h, rfl⟩

theorem RoundTrip.roli (rd rs1 : GReg) (sh : BitVec 6) : Statement (.roli rd rs1 sh) :=
  of_long _ _ rfl (long_encI ..) (fun h => h) fun h => by
    simp [decode32, decodeShiftI, accept]
    exact ⟨h, rfl⟩

theorem RoundTrip.slliw (rd rs1 : GReg) (sh : BitVec 5) : Statement (.slliw rd rs1 sh) :=
  of_long _ _ rfl (long_encI ..) (fun h => h) fun h => by
    simp [decode32, decodeShiftI, accept]
    exact ⟨h, rfl⟩

theorem RoundTrip.srliw (rd rs1 : GReg) (sh : BitVec 5) : Statement (.srliw rd rs1 sh) :=
  of_long _ _ rfl (long_encI ..) (fun h => h) fun h => by
    simp [decode32, decodeShiftI, accept]
    exact ⟨h, rfl⟩

theorem RoundTrip.sraiw (rd rs1 : GReg) (sh : BitVec 5) : Statement (.sraiw rd rs1 sh) :=
  of_long _ _ rfl (long_encI ..) (fun h => h) fun h => by
    simp [decode32, decodeShiftI, accept]
    exact ⟨h, rfl⟩

theorem RoundTrip.lih (rd : GReg) (imm : BitVec 19) : Statement (.lih rd imm) :=
  of_long _ _ rfl (long_encJ ..) (fun h => h) fun h => by
    simp [decode32, decodeLih, accept]
    exact ⟨h, rfl⟩

theorem RoundTrip.addpc (rd : GReg) (imm : BitVec 19) : Statement (.addpc rd imm) :=
  of_long _ _ rfl (long_encJ ..) (fun h => h) fun h => by
    simp [decode32, decodeAddpc, accept]
    exact ⟨h, rfl⟩

theorem RoundTrip.lb (rd rs1 : GReg) (imm : BitVec 11) : Statement (.lb rd rs1 imm) :=
  of_long _ _ rfl (long_encI ..) (fun h => h) fun h => by
    simp [decode32, decodeLoad, accept]
    exact ⟨h, rfl⟩

theorem RoundTrip.lbu (rd rs1 : GReg) (imm : BitVec 11) : Statement (.lbu rd rs1 imm) :=
  of_long _ _ rfl (long_encI ..) (fun h => h) fun h => by
    simp [decode32, decodeLoad, accept]
    exact ⟨h, rfl⟩

theorem RoundTrip.lh (rd rs1 : GReg) (imm : BitVec 11) : Statement (.lh rd rs1 imm) :=
  of_long _ _ rfl (long_encI ..) (fun h => h) fun h => by
    simp [decode32, decodeLoad, accept]
    exact ⟨h, rfl⟩

theorem RoundTrip.lhu (rd rs1 : GReg) (imm : BitVec 11) : Statement (.lhu rd rs1 imm) :=
  of_long _ _ rfl (long_encI ..) (fun h => h) fun h => by
    simp [decode32, decodeLoad, accept]
    exact ⟨h, rfl⟩

theorem RoundTrip.lw (rd rs1 : GReg) (imm : BitVec 11) : Statement (.lw rd rs1 imm) :=
  of_long _ _ rfl (long_encI ..) (fun h => h) fun h => by
    simp [decode32, decodeLoad, accept]
    exact ⟨h, rfl⟩

theorem RoundTrip.lwu (rd rs1 : GReg) (imm : BitVec 11) : Statement (.lwu rd rs1 imm) :=
  of_long _ _ rfl (long_encI ..) (fun h => h) fun h => by
    simp [decode32, decodeLoad, accept]
    exact ⟨h, rfl⟩

theorem RoundTrip.ld (rd rs1 : GReg) (imm : BitVec 11) : Statement (.ld rd rs1 imm) :=
  of_long _ _ rfl (long_encI ..) (fun h => h) fun h => by
    simp [decode32, decodeLoad, accept]
    exact ⟨h, rfl⟩

theorem RoundTrip.sb (rs2 rs1 : GReg) (imm : BitVec 11) : Statement (.sb rs2 rs1 imm) :=
  of_long _ _ rfl (long_encI ..) (fun h => h) fun h => by
    simp [decode32, decodeStore, accept]
    exact ⟨h, rfl⟩

theorem RoundTrip.sh (rs2 rs1 : GReg) (imm : BitVec 11) : Statement (.sh rs2 rs1 imm) :=
  of_long _ _ rfl (long_encI ..) (fun h => h) fun h => by
    simp [decode32, decodeStore, accept]
    exact ⟨h, rfl⟩

theorem RoundTrip.sw (rs2 rs1 : GReg) (imm : BitVec 11) : Statement (.sw rs2 rs1 imm) :=
  of_long _ _ rfl (long_encI ..) (fun h => h) fun h => by
    simp [decode32, decodeStore, accept]
    exact ⟨h, rfl⟩

theorem RoundTrip.sd (rs2 rs1 : GReg) (imm : BitVec 11) : Statement (.sd rs2 rs1 imm) :=
  of_long _ _ rfl (long_encI ..) (fun h => h) fun h => by
    simp [decode32, decodeStore, accept]
    exact ⟨h, rfl⟩

theorem RoundTrip.beq (rs1 rs2 : GReg) (imm : BitVec 11) : Statement (.beq rs1 rs2 imm) :=
  of_long _ _ rfl (long_encI ..) (fun h => h) fun h => by
    simp [decode32, decodeBranch, accept]
    exact ⟨h, rfl⟩

theorem RoundTrip.bne (rs1 rs2 : GReg) (imm : BitVec 11) : Statement (.bne rs1 rs2 imm) :=
  of_long _ _ rfl (long_encI ..) (fun h => h) fun h => by
    simp [decode32, decodeBranch, accept]
    exact ⟨h, rfl⟩

theorem RoundTrip.blt (rs1 rs2 : GReg) (imm : BitVec 11) : Statement (.blt rs1 rs2 imm) :=
  of_long _ _ rfl (long_encI ..) (fun h => h) fun h => by
    simp [decode32, decodeBranch, accept]
    exact ⟨h, rfl⟩

theorem RoundTrip.bge (rs1 rs2 : GReg) (imm : BitVec 11) : Statement (.bge rs1 rs2 imm) :=
  of_long _ _ rfl (long_encI ..) (fun h => h) fun h => by
    simp [decode32, decodeBranch, accept]
    exact ⟨h, rfl⟩

theorem RoundTrip.bltu (rs1 rs2 : GReg) (imm : BitVec 11) : Statement (.bltu rs1 rs2 imm) :=
  of_long _ _ rfl (long_encI ..) (fun h => h) fun h => by
    simp [decode32, decodeBranch, accept]
    exact ⟨h, rfl⟩

theorem RoundTrip.bgeu (rs1 rs2 : GReg) (imm : BitVec 11) : Statement (.bgeu rs1 rs2 imm) :=
  of_long _ _ rfl (long_encI ..) (fun h => h) fun h => by
    simp [decode32, decodeBranch, accept]
    exact ⟨h, rfl⟩

theorem RoundTrip.jal (rd : GReg) (imm : BitVec 19) : Statement (.jal rd imm) :=
  of_long _ _ rfl (long_encJ ..) (fun h => h) fun h => by
    simp [decode32, decodeJal, accept]
    exact ⟨h, rfl⟩

theorem RoundTrip.jalr (rd rs1 : GReg) (imm : BitVec 11) : Statement (.jalr rd rs1 imm) :=
  of_long _ _ rfl (long_encI ..) (fun h => h) fun h => by
    simp [decode32, decodeJalr, accept]
    exact ⟨h, rfl⟩

theorem RoundTrip.faddS (rd rs1 rs2 : GReg) : Statement (.faddS rd rs1 rs2) :=
  of_long _ _ rfl (long_encR ..) (fun h => h) fun h => by
    simp [decode32, decodeFp, accept]
    exact ⟨h, rfl⟩

theorem RoundTrip.fsubS (rd rs1 rs2 : GReg) : Statement (.fsubS rd rs1 rs2) :=
  of_long _ _ rfl (long_encR ..) (fun h => h) fun h => by
    simp [decode32, decodeFp, accept]
    exact ⟨h, rfl⟩

theorem RoundTrip.fmulS (rd rs1 rs2 : GReg) : Statement (.fmulS rd rs1 rs2) :=
  of_long _ _ rfl (long_encR ..) (fun h => h) fun h => by
    simp [decode32, decodeFp, accept]
    exact ⟨h, rfl⟩

theorem RoundTrip.fdivS (rd rs1 rs2 : GReg) : Statement (.fdivS rd rs1 rs2) :=
  of_long _ _ rfl (long_encR ..) (fun h => h) fun h => by
    simp [decode32, decodeFp, accept]
    exact ⟨h, rfl⟩

theorem RoundTrip.fsqrtS (rd rs1 : GReg) : Statement (.fsqrtS rd rs1) :=
  of_long _ _ rfl (long_encR ..) (fun h => h) fun h => by
    simp [decode32, decodeFp, accept]
    exact ⟨h, rfl⟩

theorem RoundTrip.fmaS (rd rs1 rs2 : GReg) : Statement (.fmaS rd rs1 rs2) :=
  of_long _ _ rfl (long_encR ..) (fun h => h) fun h => by
    simp [decode32, decodeFp, accept]
    exact ⟨h, rfl⟩

theorem RoundTrip.fminS (rd rs1 rs2 : GReg) : Statement (.fminS rd rs1 rs2) :=
  of_long _ _ rfl (long_encR ..) (fun h => h) fun h => by
    simp [decode32, decodeFp, accept]
    exact ⟨h, rfl⟩

theorem RoundTrip.fmaxS (rd rs1 rs2 : GReg) : Statement (.fmaxS rd rs1 rs2) :=
  of_long _ _ rfl (long_encR ..) (fun h => h) fun h => by
    simp [decode32, decodeFp, accept]
    exact ⟨h, rfl⟩

theorem RoundTrip.feqS (rd rs1 rs2 : GReg) : Statement (.feqS rd rs1 rs2) :=
  of_long _ _ rfl (long_encR ..) (fun h => h) fun h => by
    simp [decode32, decodeFp, accept]
    exact ⟨h, rfl⟩

theorem RoundTrip.fltS (rd rs1 rs2 : GReg) : Statement (.fltS rd rs1 rs2) :=
  of_long _ _ rfl (long_encR ..) (fun h => h) fun h => by
    simp [decode32, decodeFp, accept]
    exact ⟨h, rfl⟩

theorem RoundTrip.fleS (rd rs1 rs2 : GReg) : Statement (.fleS rd rs1 rs2) :=
  of_long _ _ rfl (long_encR ..) (fun h => h) fun h => by
    simp [decode32, decodeFp, accept]
    exact ⟨h, rfl⟩

theorem RoundTrip.fclassS (rd rs1 : GReg) : Statement (.fclassS rd rs1) :=
  of_long _ _ rfl (long_encR ..) (fun h => h) fun h => by
    simp [decode32, decodeFp, accept]
    exact ⟨h, rfl⟩

theorem RoundTrip.fnegS (rd rs1 : GReg) : Statement (.fnegS rd rs1) :=
  of_long _ _ rfl (long_encR ..) (fun h => h) fun h => by
    simp [decode32, decodeFp, accept]
    exact ⟨h, rfl⟩

theorem RoundTrip.fabsS (rd rs1 : GReg) : Statement (.fabsS rd rs1) :=
  of_long _ _ rfl (long_encR ..) (fun h => h) fun h => by
    simp [decode32, decodeFp, accept]
    exact ⟨h, rfl⟩

theorem RoundTrip.fcvtifS (rd rs1 : GReg) : Statement (.fcvtifS rd rs1) :=
  of_long _ _ rfl (long_encR ..) (fun h => h) fun h => by
    simp [decode32, decodeFp, accept]
    exact ⟨h, rfl⟩

theorem RoundTrip.fcvtfiS (rd rs1 : GReg) : Statement (.fcvtfiS rd rs1) :=
  of_long _ _ rfl (long_encR ..) (fun h => h) fun h => by
    simp [decode32, decodeFp, accept]
    exact ⟨h, rfl⟩

theorem RoundTrip.fcvtfirS (rd rs1 : GReg) : Statement (.fcvtfirS rd rs1) :=
  of_long _ _ rfl (long_encR ..) (fun h => h) fun h => by
    simp [decode32, decodeFp, accept]
    exact ⟨h, rfl⟩

theorem RoundTrip.fcvtbfS (rd rs1 : GReg) : Statement (.fcvtbfS rd rs1) :=
  of_long _ _ rfl (long_encR ..) (fun h => h) fun h => by
    simp [decode32, decodeFp, accept]
    exact ⟨h, rfl⟩

theorem RoundTrip.fcvtfbS (rd rs1 : GReg) : Statement (.fcvtfbS rd rs1) :=
  of_long _ _ rfl (long_encR ..) (fun h => h) fun h => by
    simp [decode32, decodeFp, accept]
    exact ⟨h, rfl⟩

theorem RoundTrip.fcvtpdS (rd rs1 : GReg) : Statement (.fcvtpdS rd rs1) :=
  of_long _ _ rfl (long_encR ..) (fun h => h) fun h => by
    simp [decode32, decodeFp, accept]
    exact ⟨h, rfl⟩

theorem RoundTrip.faddD (rd rs1 rs2 : GReg) : Statement (.faddD rd rs1 rs2) :=
  of_long _ _ rfl (long_encR ..) (fun h => h) fun h => by
    simp [decode32, decodeFp, accept]
    exact ⟨h, rfl⟩

theorem RoundTrip.fsubD (rd rs1 rs2 : GReg) : Statement (.fsubD rd rs1 rs2) :=
  of_long _ _ rfl (long_encR ..) (fun h => h) fun h => by
    simp [decode32, decodeFp, accept]
    exact ⟨h, rfl⟩

theorem RoundTrip.fmulD (rd rs1 rs2 : GReg) : Statement (.fmulD rd rs1 rs2) :=
  of_long _ _ rfl (long_encR ..) (fun h => h) fun h => by
    simp [decode32, decodeFp, accept]
    exact ⟨h, rfl⟩

theorem RoundTrip.fdivD (rd rs1 rs2 : GReg) : Statement (.fdivD rd rs1 rs2) :=
  of_long _ _ rfl (long_encR ..) (fun h => h) fun h => by
    simp [decode32, decodeFp, accept]
    exact ⟨h, rfl⟩

theorem RoundTrip.fsqrtD (rd rs1 : GReg) : Statement (.fsqrtD rd rs1) :=
  of_long _ _ rfl (long_encR ..) (fun h => h) fun h => by
    simp [decode32, decodeFp, accept]
    exact ⟨h, rfl⟩

theorem RoundTrip.fmaD (rd rs1 rs2 : GReg) : Statement (.fmaD rd rs1 rs2) :=
  of_long _ _ rfl (long_encR ..) (fun h => h) fun h => by
    simp [decode32, decodeFp, accept]
    exact ⟨h, rfl⟩

theorem RoundTrip.fminD (rd rs1 rs2 : GReg) : Statement (.fminD rd rs1 rs2) :=
  of_long _ _ rfl (long_encR ..) (fun h => h) fun h => by
    simp [decode32, decodeFp, accept]
    exact ⟨h, rfl⟩

theorem RoundTrip.fmaxD (rd rs1 rs2 : GReg) : Statement (.fmaxD rd rs1 rs2) :=
  of_long _ _ rfl (long_encR ..) (fun h => h) fun h => by
    simp [decode32, decodeFp, accept]
    exact ⟨h, rfl⟩

theorem RoundTrip.feqD (rd rs1 rs2 : GReg) : Statement (.feqD rd rs1 rs2) :=
  of_long _ _ rfl (long_encR ..) (fun h => h) fun h => by
    simp [decode32, decodeFp, accept]
    exact ⟨h, rfl⟩

theorem RoundTrip.fltD (rd rs1 rs2 : GReg) : Statement (.fltD rd rs1 rs2) :=
  of_long _ _ rfl (long_encR ..) (fun h => h) fun h => by
    simp [decode32, decodeFp, accept]
    exact ⟨h, rfl⟩

theorem RoundTrip.fleD (rd rs1 rs2 : GReg) : Statement (.fleD rd rs1 rs2) :=
  of_long _ _ rfl (long_encR ..) (fun h => h) fun h => by
    simp [decode32, decodeFp, accept]
    exact ⟨h, rfl⟩

theorem RoundTrip.fclassD (rd rs1 : GReg) : Statement (.fclassD rd rs1) :=
  of_long _ _ rfl (long_encR ..) (fun h => h) fun h => by
    simp [decode32, decodeFp, accept]
    exact ⟨h, rfl⟩

theorem RoundTrip.fnegD (rd rs1 : GReg) : Statement (.fnegD rd rs1) :=
  of_long _ _ rfl (long_encR ..) (fun h => h) fun h => by
    simp [decode32, decodeFp, accept]
    exact ⟨h, rfl⟩

theorem RoundTrip.fabsD (rd rs1 : GReg) : Statement (.fabsD rd rs1) :=
  of_long _ _ rfl (long_encR ..) (fun h => h) fun h => by
    simp [decode32, decodeFp, accept]
    exact ⟨h, rfl⟩

theorem RoundTrip.fcvtifD (rd rs1 : GReg) : Statement (.fcvtifD rd rs1) :=
  of_long _ _ rfl (long_encR ..) (fun h => h) fun h => by
    simp [decode32, decodeFp, accept]
    exact ⟨h, rfl⟩

theorem RoundTrip.fcvtfiD (rd rs1 : GReg) : Statement (.fcvtfiD rd rs1) :=
  of_long _ _ rfl (long_encR ..) (fun h => h) fun h => by
    simp [decode32, decodeFp, accept]
    exact ⟨h, rfl⟩

theorem RoundTrip.fcvtfirD (rd rs1 : GReg) : Statement (.fcvtfirD rd rs1) :=
  of_long _ _ rfl (long_encR ..) (fun h => h) fun h => by
    simp [decode32, decodeFp, accept]
    exact ⟨h, rfl⟩

theorem RoundTrip.fcvtbfD (rd rs1 : GReg) : Statement (.fcvtbfD rd rs1) :=
  of_long _ _ rfl (long_encR ..) (fun h => h) fun h => by
    simp [decode32, decodeFp, accept]
    exact ⟨h, rfl⟩

theorem RoundTrip.fcvtfbD (rd rs1 : GReg) : Statement (.fcvtfbD rd rs1) :=
  of_long _ _ rfl (long_encR ..) (fun h => h) fun h => by
    simp [decode32, decodeFp, accept]
    exact ⟨h, rfl⟩

theorem RoundTrip.fcvtpdD (rd rs1 : GReg) : Statement (.fcvtpdD rd rs1) :=
  of_long _ _ rfl (long_encR ..) (fun h => h) fun h => by
    simp [decode32, decodeFp, accept]
    exact ⟨h, rfl⟩

theorem RoundTrip.crr (rd : GReg) (cr : BitVec 11) : Statement (.crr rd cr) :=
  of_long _ _ rfl (long_encI ..) (fun h => h) fun h => by
    simp [decode32, decodeCtl, accept]
    exact ⟨h, rfl⟩

theorem RoundTrip.crw (rd : GReg) (cr : BitVec 11) (rs1 : GReg) : Statement (.crw rd cr rs1) :=
  of_long _ _ rfl (long_encI ..) (fun h => h) fun h => by
    simp [decode32, decodeCtl, accept]
    exact ⟨h, rfl⟩

theorem RoundTrip.crset (rd : GReg) (cr : BitVec 11) (rs1 : GReg) : Statement (.crset rd cr rs1) :=
  of_long _ _ rfl (long_encI ..) (fun h => h) fun h => by
    simp [decode32, decodeCtl, accept]
    exact ⟨h, rfl⟩

theorem RoundTrip.crclr (rd : GReg) (cr : BitVec 11) (rs1 : GReg) : Statement (.crclr rd cr rs1) :=
  of_long _ _ rfl (long_encI ..) (fun h => h) fun h => by
    simp [decode32, decodeCtl, accept]
    exact ⟨h, rfl⟩

theorem RoundTrip.halt : Statement (.halt) :=
  of_long _ _ rfl (long_encR ..) (fun h => h) fun h => by
    simp [decode32, decodeTask, accept]
    exact ⟨h, rfl⟩

theorem RoundTrip.haltr (rs1 : GReg) : Statement (.haltr rs1) :=
  of_long _ _ rfl (long_encR ..) (fun h => h) fun h => by
    simp [decode32, decodeTask, accept]
    exact ⟨h, rfl⟩

theorem RoundTrip.commit : Statement (.commit) :=
  of_long _ _ rfl (long_encR ..) (fun h => h) fun h => by
    simp [decode32, decodeTask, accept]
    exact ⟨h, rfl⟩

theorem RoundTrip.abort : Statement (.abort) :=
  of_long _ _ rfl (long_encR ..) (fun h => h) fun h => by
    simp [decode32, decodeTask, accept]
    exact ⟨h, rfl⟩

theorem RoundTrip.trapi (rs1 : GReg) : Statement (.trapi rs1) :=
  of_long _ _ rfl (long_encR ..) (fun h => h) fun h => by
    simp [decode32, decodeTask, accept]
    exact ⟨h, rfl⟩

theorem RoundTrip.budgq (rd : GReg) : Statement (.budgq rd) :=
  of_long _ _ rfl (long_encR ..) (fun h => h) fun h => by
    simp [decode32, decodeTask, accept]
    exact ⟨h, rfl⟩

theorem RoundTrip.send (rd rs1 rs2 : GReg) : Statement (.send rd rs1 rs2) :=
  of_long _ _ rfl (long_encR ..) (fun h => h) fun h => by
    simp [decode32, decodeMsg, accept]
    exact ⟨h, rfl⟩

theorem RoundTrip.rply (rd rs1 rs2 : GReg) : Statement (.rply rd rs1 rs2) :=
  of_long _ _ rfl (long_encR ..) (fun h => h) fun h => by
    simp [decode32, decodeMsg, accept]
    exact ⟨h, rfl⟩

theorem RoundTrip.sendq (rd rs1 rs2 : GReg) : Statement (.sendq rd rs1 rs2) :=
  of_long _ _ rfl (long_encR ..) (fun h => h) fun h => by
    simp [decode32, decodeMsg, accept]
    exact ⟨h, rfl⟩

theorem RoundTrip.resend (rd rs1 : GReg) : Statement (.resend rd rs1) :=
  of_long _ _ rfl (long_encR ..) (fun h => h) fun h => by
    simp [decode32, decodeMsg, accept]
    exact ⟨h, rfl⟩

theorem RoundTrip.dropr (rd rs1 : GReg) : Statement (.dropr rd rs1) :=
  of_long _ _ rfl (long_encR ..) (fun h => h) fun h => by
    simp [decode32, decodeMsg, accept]
    exact ⟨h, rfl⟩

theorem RoundTrip.hset (h : HReg) (rs1 : GReg) : Statement (.hset h rs1) :=
  of_long _ _ rfl (long_encR ..) (fun h => h) fun h => by
    simp [decode32, decodeRing, accept]
    exact ⟨h, rfl⟩

theorem RoundTrip.cwait (rd : GReg) (h : HReg) (rs1 : GReg) : Statement (.cwait rd h rs1) :=
  of_long _ _ rfl (long_encR ..) (fun h => h) fun h => by
    simp [decode32, decodeRing, accept]
    exact ⟨h, rfl⟩

theorem RoundTrip.pwait (rd : GReg) (h : HReg) (rs1 : GReg) : Statement (.pwait rd h rs1) :=
  of_long _ _ rfl (long_encR ..) (fun h => h) fun h => by
    simp [decode32, decodeRing, accept]
    exact ⟨h, rfl⟩

theorem RoundTrip.cadv (h : HReg) (rs1 : GReg) : Statement (.cadv h rs1) :=
  of_long _ _ rfl (long_encR ..) (fun h => h) fun h => by
    simp [decode32, decodeRing, accept]
    exact ⟨h, rfl⟩

theorem RoundTrip.padv (h : HReg) (rs1 : GReg) : Statement (.padv h rs1) :=
  of_long _ _ rfl (long_encR ..) (fun h => h) fun h => by
    simp [decode32, decodeRing, accept]
    exact ⟨h, rfl⟩

theorem RoundTrip.hqry (rd : GReg) (h : HReg) : Statement (.hqry rd h) :=
  of_long _ _ rfl (long_encR ..) (fun h => h) fun h => by
    simp [decode32, decodeRing, accept]
    exact ⟨h, rfl⟩

theorem RoundTrip.aadd (rd rs1 rs2 : GReg) : Statement (.aadd rd rs1 rs2) :=
  of_long _ _ rfl (long_encR ..) (fun h => h) fun h => by
    simp [decode32, decodeAtom, accept]
    exact ⟨h, rfl⟩

theorem RoundTrip.aand (rd rs1 rs2 : GReg) : Statement (.aand rd rs1 rs2) :=
  of_long _ _ rfl (long_encR ..) (fun h => h) fun h => by
    simp [decode32, decodeAtom, accept]
    exact ⟨h, rfl⟩

theorem RoundTrip.aor (rd rs1 rs2 : GReg) : Statement (.aor rd rs1 rs2) :=
  of_long _ _ rfl (long_encR ..) (fun h => h) fun h => by
    simp [decode32, decodeAtom, accept]
    exact ⟨h, rfl⟩

theorem RoundTrip.axor (rd rs1 rs2 : GReg) : Statement (.axor rd rs1 rs2) :=
  of_long _ _ rfl (long_encR ..) (fun h => h) fun h => by
    simp [decode32, decodeAtom, accept]
    exact ⟨h, rfl⟩

theorem RoundTrip.amax (rd rs1 rs2 : GReg) : Statement (.amax rd rs1 rs2) :=
  of_long _ _ rfl (long_encR ..) (fun h => h) fun h => by
    simp [decode32, decodeAtom, accept]
    exact ⟨h, rfl⟩

theorem RoundTrip.amin (rd rs1 rs2 : GReg) : Statement (.amin rd rs1 rs2) :=
  of_long _ _ rfl (long_encR ..) (fun h => h) fun h => by
    simp [decode32, decodeAtom, accept]
    exact ⟨h, rfl⟩

theorem RoundTrip.amaxu (rd rs1 rs2 : GReg) : Statement (.amaxu rd rs1 rs2) :=
  of_long _ _ rfl (long_encR ..) (fun h => h) fun h => by
    simp [decode32, decodeAtom, accept]
    exact ⟨h, rfl⟩

theorem RoundTrip.aminu (rd rs1 rs2 : GReg) : Statement (.aminu rd rs1 rs2) :=
  of_long _ _ rfl (long_encR ..) (fun h => h) fun h => by
    simp [decode32, decodeAtom, accept]
    exact ⟨h, rfl⟩

theorem RoundTrip.aswp (rd rs1 rs2 : GReg) : Statement (.aswp rd rs1 rs2) :=
  of_long _ _ rfl (long_encR ..) (fun h => h) fun h => by
    simp [decode32, decodeAtom, accept]
    exact ⟨h, rfl⟩

theorem RoundTrip.acas (rd rs1 rs2 : GReg) : Statement (.acas rd rs1 rs2) :=
  of_long _ _ rfl (long_encR ..) (fun h => h) fun h => by
    simp [decode32, decodeAtom, accept]
    exact ⟨h, rfl⟩

theorem RoundTrip.aincw (rd rs1 rs2 : GReg) : Statement (.aincw rd rs1 rs2) :=
  of_long _ _ rfl (long_encR ..) (fun h => h) fun h => by
    simp [decode32, decodeAtom, accept]
    exact ⟨h, rfl⟩

theorem RoundTrip.abfa (rd rs1 rs2 : GReg) : Statement (.abfa rd rs1 rs2) :=
  of_long _ _ rfl (long_encR ..) (fun h => h) fun h => by
    simp [decode32, decodeAtom, accept]
    exact ⟨h, rfl⟩

theorem RoundTrip.afadd (rd rs1 rs2 : GReg) : Statement (.afadd rd rs1 rs2) :=
  of_long _ _ rfl (long_encR ..) (fun h => h) fun h => by
    simp [decode32, decodeAtom, accept]
    exact ⟨h, rfl⟩

theorem RoundTrip.afmax (rd rs1 rs2 : GReg) : Statement (.afmax rd rs1 rs2) :=
  of_long _ _ rfl (long_encR ..) (fun h => h) fun h => by
    simp [decode32, decodeAtom, accept]
    exact ⟨h, rfl⟩

theorem RoundTrip.amxr (rd rs1 rs2 : GReg) : Statement (.amxr rd rs1 rs2) :=
  of_long _ _ rfl (long_encR ..) (fun h => h) fun h => by
    simp [decode32, decodeAtom, accept]
    exact ⟨h, rfl⟩

theorem RoundTrip.rels (rs1 : GReg) : Statement (.rels rs1) :=
  of_long _ _ rfl (long_encR ..) (fun h => h) fun h => by
    simp [decode32, decodeScope, accept]
    exact ⟨h, rfl⟩

theorem RoundTrip.acqs : Statement (.acqs) :=
  of_long _ _ rfl (long_encR ..) (fun h => h) fun h => by
    simp [decode32, decodeScope, accept]
    exact ⟨h, rfl⟩

theorem RoundTrip.fence : Statement (.fence) :=
  of_long _ _ rfl (long_encR ..) (fun h => h) fun h => by
    simp [decode32, decodeScope, accept]
    exact ⟨h, rfl⟩

theorem RoundTrip.gid (rd rs1 : GReg) : Statement (.gid rd rs1) :=
  of_long _ _ rfl (long_encR ..) (fun h => h) fun h => by
    simp [decode32, decodeGroup, accept]
    exact ⟨h, rfl⟩

theorem RoundTrip.gspawn (rd rs1 rs2 : GReg) : Statement (.gspawn rd rs1 rs2) :=
  of_long _ _ rfl (long_encR ..) (fun h => h) fun h => by
    simp [decode32, decodeGroup, accept]
    exact ⟨h, rfl⟩

theorem RoundTrip.gdone (rs1 : GReg) : Statement (.gdone rs1) :=
  of_long _ _ rfl (long_encR ..) (fun h => h) fun h => by
    simp [decode32, decodeGroup, accept]
    exact ⟨h, rfl⟩

theorem RoundTrip.barrAnd (rd rs1 : GReg) : Statement (.barrAnd rd rs1) :=
  of_long _ _ rfl (long_encR ..) (fun h => h) fun h => by
    simp [decode32, decodeBar, accept]
    exact ⟨h, rfl⟩

theorem RoundTrip.barrOr (rd rs1 : GReg) : Statement (.barrOr rd rs1) :=
  of_long _ _ rfl (long_encR ..) (fun h => h) fun h => by
    simp [decode32, decodeBar, accept]
    exact ⟨h, rfl⟩

theorem RoundTrip.barrSum (rd rs1 : GReg) : Statement (.barrSum rd rs1) :=
  of_long _ _ rfl (long_encR ..) (fun h => h) fun h => by
    simp [decode32, decodeBar, accept]
    exact ⟨h, rfl⟩

theorem RoundTrip.barrPopc (rd rs1 : GReg) : Statement (.barrPopc rd rs1) :=
  of_long _ _ rfl (long_encR ..) (fun h => h) fun h => by
    simp [decode32, decodeBar, accept]
    exact ⟨h, rfl⟩

theorem RoundTrip.bargAnd (rd rs1 : GReg) : Statement (.bargAnd rd rs1) :=
  of_long _ _ rfl (long_encR ..) (fun h => h) fun h => by
    simp [decode32, decodeBar, accept]
    exact ⟨h, rfl⟩

theorem RoundTrip.bargOr (rd rs1 : GReg) : Statement (.bargOr rd rs1) :=
  of_long _ _ rfl (long_encR ..) (fun h => h) fun h => by
    simp [decode32, decodeBar, accept]
    exact ⟨h, rfl⟩

theorem RoundTrip.bargSum (rd rs1 : GReg) : Statement (.bargSum rd rs1) :=
  of_long _ _ rfl (long_encR ..) (fun h => h) fun h => by
    simp [decode32, decodeBar, accept]
    exact ⟨h, rfl⟩

theorem RoundTrip.bargPopc (rd rs1 : GReg) : Statement (.bargPopc rd rs1) :=
  of_long _ _ rfl (long_encR ..) (fun h => h) fun h => by
    simp [decode32, decodeBar, accept]
    exact ⟨h, rfl⟩

theorem RoundTrip.vadd (et : ETy) (vd vs2 vs1 : VReg) (k : KReg) : Statement (.vadd et vd vs2 vs1 k) :=
  of_long _ _ rfl (long_encV ..) (fun h => h) fun h => by
    simp [decode32, decodeVArith, accept]
    exact ⟨h, rfl⟩

theorem RoundTrip.vsub (et : ETy) (vd vs2 vs1 : VReg) (k : KReg) : Statement (.vsub et vd vs2 vs1 k) :=
  of_long _ _ rfl (long_encV ..) (fun h => h) fun h => by
    simp [decode32, decodeVArith, accept]
    exact ⟨h, rfl⟩

theorem RoundTrip.vmul (et : ETy) (vd vs2 vs1 : VReg) (k : KReg) : Statement (.vmul et vd vs2 vs1 k) :=
  of_long _ _ rfl (long_encV ..) (fun h => h) fun h => by
    simp [decode32, decodeVArith, accept]
    exact ⟨h, rfl⟩

theorem RoundTrip.vfma (et : ETy) (vd vs2 vs1 : VReg) (k : KReg) : Statement (.vfma et vd vs2 vs1 k) :=
  of_long _ _ rfl (long_encV ..) (fun h => h) fun h => by
    simp [decode32, decodeVArith, accept]
    exact ⟨h, rfl⟩

theorem RoundTrip.vmin (et : ETy) (vd vs2 vs1 : VReg) (k : KReg) : Statement (.vmin et vd vs2 vs1 k) :=
  of_long _ _ rfl (long_encV ..) (fun h => h) fun h => by
    simp [decode32, decodeVArith, accept]
    exact ⟨h, rfl⟩

theorem RoundTrip.vmax (et : ETy) (vd vs2 vs1 : VReg) (k : KReg) : Statement (.vmax et vd vs2 vs1 k) :=
  of_long _ _ rfl (long_encV ..) (fun h => h) fun h => by
    simp [decode32, decodeVArith, accept]
    exact ⟨h, rfl⟩

theorem RoundTrip.vand (et : ETy) (vd vs2 vs1 : VReg) (k : KReg) : Statement (.vand et vd vs2 vs1 k) :=
  of_long _ _ rfl (long_encV ..) (fun h => h) fun h => by
    simp [decode32, decodeVArith, accept]
    exact ⟨h, rfl⟩

theorem RoundTrip.vor (et : ETy) (vd vs2 vs1 : VReg) (k : KReg) : Statement (.vor et vd vs2 vs1 k) :=
  of_long _ _ rfl (long_encV ..) (fun h => h) fun h => by
    simp [decode32, decodeVArith, accept]
    exact ⟨h, rfl⟩

theorem RoundTrip.vxor (et : ETy) (vd vs2 vs1 : VReg) (k : KReg) : Statement (.vxor et vd vs2 vs1 k) :=
  of_long _ _ rfl (long_encV ..) (fun h => h) fun h => by
    simp [decode32, decodeVArith, accept]
    exact ⟨h, rfl⟩

theorem RoundTrip.vshl (et : ETy) (vd vs2 vs1 : VReg) (k : KReg) : Statement (.vshl et vd vs2 vs1 k) :=
  of_long _ _ rfl (long_encV ..) (fun h => h) fun h => by
    simp [decode32, decodeVArith, accept]
    exact ⟨h, rfl⟩

theorem RoundTrip.vshr (et : ETy) (vd vs2 vs1 : VReg) (k : KReg) : Statement (.vshr et vd vs2 vs1 k) :=
  of_long _ _ rfl (long_encV ..) (fun h => h) fun h => by
    simp [decode32, decodeVArith, accept]
    exact ⟨h, rfl⟩

theorem RoundTrip.vsra (et : ETy) (vd vs2 vs1 : VReg) (k : KReg) : Statement (.vsra et vd vs2 vs1 k) :=
  of_long _ _ rfl (long_encV ..) (fun h => h) fun h => by
    simp [decode32, decodeVArith, accept]
    exact ⟨h, rfl⟩

theorem RoundTrip.vdiv (et : ETy) (vd vs2 vs1 : VReg) (k : KReg) : Statement (.vdiv et vd vs2 vs1 k) :=
  of_long _ _ rfl (long_encV ..) (fun h => h) fun h => by
    simp [decode32, decodeVArith, accept]
    exact ⟨h, rfl⟩

theorem RoundTrip.vabs (et : ETy) (vd vs2 : VReg) (k : KReg) : Statement (.vabs et vd vs2 k) :=
  of_long _ _ rfl (long_encV ..) (fun h => h) fun h => by
    simp [decode32, decodeVArith, accept]
    exact ⟨h, rfl⟩

theorem RoundTrip.vneg (et : ETy) (vd vs2 : VReg) (k : KReg) : Statement (.vneg et vd vs2 k) :=
  of_long _ _ rfl (long_encV ..) (fun h => h) fun h => by
    simp [decode32, decodeVArith, accept]
    exact ⟨h, rfl⟩

theorem RoundTrip.vcmpeq (et : ETy) (kd : KReg) (vs2 vs1 : VReg) (k : KReg) : Statement (.vcmpeq et kd vs2 vs1 k) :=
  of_long _ _ rfl (long_encV ..) (fun h => h) fun h => by
    simp [decode32, decodeVArith, accept]
    exact ⟨h, rfl⟩

theorem RoundTrip.vcmplt (et : ETy) (kd : KReg) (vs2 vs1 : VReg) (k : KReg) : Statement (.vcmplt et kd vs2 vs1 k) :=
  of_long _ _ rfl (long_encV ..) (fun h => h) fun h => by
    simp [decode32, decodeVArith, accept]
    exact ⟨h, rfl⟩

theorem RoundTrip.vcmple (et : ETy) (kd : KReg) (vs2 vs1 : VReg) (k : KReg) : Statement (.vcmple et kd vs2 vs1 k) :=
  of_long _ _ rfl (long_encV ..) (fun h => h) fun h => by
    simp [decode32, decodeVArith, accept]
    exact ⟨h, rfl⟩

theorem RoundTrip.vsel (et : ETy) (vd vs2 vs1 : VReg) (k : KReg) : Statement (.vsel et vd vs2 vs1 k) :=
  of_long _ _ rfl (long_encV ..) (fun h => h) fun h => by
    simp [decode32, decodeVArith, accept]
    exact ⟨h, rfl⟩

theorem RoundTrip.vmulh (et : ETy) (vd vs2 vs1 : VReg) (k : KReg) : Statement (.vmulh et vd vs2 vs1 k) :=
  of_long _ _ rfl (long_encV ..) (fun h => h) fun h => by
    simp [decode32, decodeVArith, accept]
    exact ⟨h, rfl⟩

theorem RoundTrip.vcmpltu (et : ETy) (kd : KReg) (vs2 vs1 : VReg) (k : KReg) : Statement (.vcmpltu et kd vs2 vs1 k) :=
  of_long _ _ rfl (long_encV ..) (fun h => h) fun h => by
    simp [decode32, decodeVArith, accept]
    exact ⟨h, rfl⟩

theorem RoundTrip.vminu (et : ETy) (vd vs2 vs1 : VReg) (k : KReg) : Statement (.vminu et vd vs2 vs1 k) :=
  of_long _ _ rfl (long_encV ..) (fun h => h) fun h => by
    simp [decode32, decodeVArith, accept]
    exact ⟨h, rfl⟩

theorem RoundTrip.vmaxu (et : ETy) (vd vs2 vs1 : VReg) (k : KReg) : Statement (.vmaxu et vd vs2 vs1 k) :=
  of_long _ _ rfl (long_encV ..) (fun h => h) fun h => by
    simp [decode32, decodeVArith, accept]
    exact ⟨h, rfl⟩

theorem RoundTrip.vaddVx (et : ETy) (vd vs2 : VReg) (gs : GReg) (k : KReg) : Statement (.vaddVx et vd vs2 gs k) :=
  of_long _ _ rfl (long_encVX ..) (fun h => h) fun h => by
    simp [decode32, decodeVArithX, accept]
    exact ⟨h, rfl⟩

theorem RoundTrip.vsubVx (et : ETy) (vd vs2 : VReg) (gs : GReg) (k : KReg) : Statement (.vsubVx et vd vs2 gs k) :=
  of_long _ _ rfl (long_encVX ..) (fun h => h) fun h => by
    simp [decode32, decodeVArithX, accept]
    exact ⟨h, rfl⟩

theorem RoundTrip.vmulVx (et : ETy) (vd vs2 : VReg) (gs : GReg) (k : KReg) : Statement (.vmulVx et vd vs2 gs k) :=
  of_long _ _ rfl (long_encVX ..) (fun h => h) fun h => by
    simp [decode32, decodeVArithX, accept]
    exact ⟨h, rfl⟩

theorem RoundTrip.vfmaVx (et : ETy) (vd vs2 : VReg) (gs : GReg) (k : KReg) : Statement (.vfmaVx et vd vs2 gs k) :=
  of_long _ _ rfl (long_encVX ..) (fun h => h) fun h => by
    simp [decode32, decodeVArithX, accept]
    exact ⟨h, rfl⟩

theorem RoundTrip.vminVx (et : ETy) (vd vs2 : VReg) (gs : GReg) (k : KReg) : Statement (.vminVx et vd vs2 gs k) :=
  of_long _ _ rfl (long_encVX ..) (fun h => h) fun h => by
    simp [decode32, decodeVArithX, accept]
    exact ⟨h, rfl⟩

theorem RoundTrip.vmaxVx (et : ETy) (vd vs2 : VReg) (gs : GReg) (k : KReg) : Statement (.vmaxVx et vd vs2 gs k) :=
  of_long _ _ rfl (long_encVX ..) (fun h => h) fun h => by
    simp [decode32, decodeVArithX, accept]
    exact ⟨h, rfl⟩

theorem RoundTrip.vandVx (et : ETy) (vd vs2 : VReg) (gs : GReg) (k : KReg) : Statement (.vandVx et vd vs2 gs k) :=
  of_long _ _ rfl (long_encVX ..) (fun h => h) fun h => by
    simp [decode32, decodeVArithX, accept]
    exact ⟨h, rfl⟩

theorem RoundTrip.vorVx (et : ETy) (vd vs2 : VReg) (gs : GReg) (k : KReg) : Statement (.vorVx et vd vs2 gs k) :=
  of_long _ _ rfl (long_encVX ..) (fun h => h) fun h => by
    simp [decode32, decodeVArithX, accept]
    exact ⟨h, rfl⟩

theorem RoundTrip.vxorVx (et : ETy) (vd vs2 : VReg) (gs : GReg) (k : KReg) : Statement (.vxorVx et vd vs2 gs k) :=
  of_long _ _ rfl (long_encVX ..) (fun h => h) fun h => by
    simp [decode32, decodeVArithX, accept]
    exact ⟨h, rfl⟩

theorem RoundTrip.vshlVx (et : ETy) (vd vs2 : VReg) (gs : GReg) (k : KReg) : Statement (.vshlVx et vd vs2 gs k) :=
  of_long _ _ rfl (long_encVX ..) (fun h => h) fun h => by
    simp [decode32, decodeVArithX, accept]
    exact ⟨h, rfl⟩

theorem RoundTrip.vshrVx (et : ETy) (vd vs2 : VReg) (gs : GReg) (k : KReg) : Statement (.vshrVx et vd vs2 gs k) :=
  of_long _ _ rfl (long_encVX ..) (fun h => h) fun h => by
    simp [decode32, decodeVArithX, accept]
    exact ⟨h, rfl⟩

theorem RoundTrip.vsraVx (et : ETy) (vd vs2 : VReg) (gs : GReg) (k : KReg) : Statement (.vsraVx et vd vs2 gs k) :=
  of_long _ _ rfl (long_encVX ..) (fun h => h) fun h => by
    simp [decode32, decodeVArithX, accept]
    exact ⟨h, rfl⟩

theorem RoundTrip.vdivVx (et : ETy) (vd vs2 : VReg) (gs : GReg) (k : KReg) : Statement (.vdivVx et vd vs2 gs k) :=
  of_long _ _ rfl (long_encVX ..) (fun h => h) fun h => by
    simp [decode32, decodeVArithX, accept]
    exact ⟨h, rfl⟩

theorem RoundTrip.vcmpeqVx (et : ETy) (kd : KReg) (vs2 : VReg) (gs : GReg) (k : KReg) : Statement (.vcmpeqVx et kd vs2 gs k) :=
  of_long _ _ rfl (long_encVX ..) (fun h => h) fun h => by
    simp [decode32, decodeVArithX, accept]
    exact ⟨h, rfl⟩

theorem RoundTrip.vcmpltVx (et : ETy) (kd : KReg) (vs2 : VReg) (gs : GReg) (k : KReg) : Statement (.vcmpltVx et kd vs2 gs k) :=
  of_long _ _ rfl (long_encVX ..) (fun h => h) fun h => by
    simp [decode32, decodeVArithX, accept]
    exact ⟨h, rfl⟩

theorem RoundTrip.vcmpleVx (et : ETy) (kd : KReg) (vs2 : VReg) (gs : GReg) (k : KReg) : Statement (.vcmpleVx et kd vs2 gs k) :=
  of_long _ _ rfl (long_encVX ..) (fun h => h) fun h => by
    simp [decode32, decodeVArithX, accept]
    exact ⟨h, rfl⟩

theorem RoundTrip.vselVx (et : ETy) (vd vs2 : VReg) (gs : GReg) (k : KReg) : Statement (.vselVx et vd vs2 gs k) :=
  of_long _ _ rfl (long_encVX ..) (fun h => h) fun h => by
    simp [decode32, decodeVArithX, accept]
    exact ⟨h, rfl⟩

theorem RoundTrip.vmulhVx (et : ETy) (vd vs2 : VReg) (gs : GReg) (k : KReg) : Statement (.vmulhVx et vd vs2 gs k) :=
  of_long _ _ rfl (long_encVX ..) (fun h => h) fun h => by
    simp [decode32, decodeVArithX, accept]
    exact ⟨h, rfl⟩

theorem RoundTrip.vcmpltuVx (et : ETy) (kd : KReg) (vs2 : VReg) (gs : GReg) (k : KReg) : Statement (.vcmpltuVx et kd vs2 gs k) :=
  of_long _ _ rfl (long_encVX ..) (fun h => h) fun h => by
    simp [decode32, decodeVArithX, accept]
    exact ⟨h, rfl⟩

theorem RoundTrip.vminuVx (et : ETy) (vd vs2 : VReg) (gs : GReg) (k : KReg) : Statement (.vminuVx et vd vs2 gs k) :=
  of_long _ _ rfl (long_encVX ..) (fun h => h) fun h => by
    simp [decode32, decodeVArithX, accept]
    exact ⟨h, rfl⟩

theorem RoundTrip.vmaxuVx (et : ETy) (vd vs2 : VReg) (gs : GReg) (k : KReg) : Statement (.vmaxuVx et vd vs2 gs k) :=
  of_long _ _ rfl (long_encVX ..) (fun h => h) fun h => by
    simp [decode32, decodeVArithX, accept]
    exact ⟨h, rfl⟩

theorem RoundTrip.vext (et : ETy) (gd : GReg) (vs2 : VReg) (k : KReg) : Statement (.vext et gd vs2 k) :=
  of_long _ _ rfl (long_encVX ..) (fun h => h) fun h => by
    simp [decode32, decodeVArithX, accept]
    exact ⟨h, rfl⟩

theorem RoundTrip.vld (et : ETy) (vd : VReg) (gs1 : GReg) (k : KReg) : Statement (.vld et vd gs1 k) :=
  of_long _ _ rfl (long_encVM ..) (fun h => h) fun h => by
    simp [decode32, decodeVMem, accept]
    exact ⟨h, rfl⟩

theorem RoundTrip.vst (et : ETy) (vd : VReg) (gs1 : GReg) (k : KReg) : Statement (.vst et vd gs1 k) :=
  of_long _ _ rfl (long_encVM ..) (fun h => h) fun h => by
    simp [decode32, decodeVMem, accept]
    exact ⟨h, rfl⟩

theorem RoundTrip.vlds (et : ETy) (vd : VReg) (gs1 gs2 : GReg) (k : KReg) : Statement (.vlds et vd gs1 gs2 k) :=
  of_long _ _ rfl (long_encVM ..) (fun h => h) fun h => by
    simp [decode32, decodeVMem, accept]
    exact ⟨h, rfl⟩

theorem RoundTrip.vsts (et : ETy) (vd : VReg) (gs1 gs2 : GReg) (k : KReg) : Statement (.vsts et vd gs1 gs2 k) :=
  of_long _ _ rfl (long_encVM ..) (fun h => h) fun h => by
    simp [decode32, decodeVMem, accept]
    exact ⟨h, rfl⟩

theorem RoundTrip.vgath (et : ETy) (vd : VReg) (gs1 : GReg) (vi : VReg) (k : KReg) : Statement (.vgath et vd gs1 vi k) :=
  of_long _ _ rfl (long_encVM ..) (fun h => h) fun h => by
    simp [decode32, decodeVMem, accept]
    exact ⟨h, rfl⟩

theorem RoundTrip.vscat (et : ETy) (vd : VReg) (gs1 : GReg) (vi : VReg) (k : KReg) : Statement (.vscat et vd gs1 vi k) :=
  of_long _ _ rfl (long_encVM ..) (fun h => h) fun h => by
    simp [decode32, decodeVMem, accept]
    exact ⟨h, rfl⟩

theorem RoundTrip.vldb (et : ETy) (vd : VReg) (gs1 : GReg) (k : KReg) : Statement (.vldb et vd gs1 k) :=
  of_long _ _ rfl (long_encVM ..) (fun h => h) fun h => by
    simp [decode32, decodeVMem, accept]
    exact ⟨h, rfl⟩

theorem RoundTrip.vldk (kd : KReg) (gs1 : GReg) : Statement (.vldk kd gs1) :=
  of_long _ _ rfl (long_encVM ..) (fun h => h) fun h => by
    simp [decode32, decodeVMem, accept]
    exact ⟨h, rfl⟩

theorem RoundTrip.vstk (kd : KReg) (gs1 : GReg) : Statement (.vstk kd gs1) :=
  of_long _ _ rfl (long_encVM ..) (fun h => h) fun h => by
    simp [decode32, decodeVMem, accept]
    exact ⟨h, rfl⟩

theorem RoundTrip.vpermb (vd vs2 vs1 : VReg) (k : KReg) : Statement (.vpermb vd vs2 vs1 k) :=
  of_long _ _ rfl (long_encV ..) (fun h => h) fun h => by
    simp [decode32, decodeVPerm, accept]
    exact ⟨h, rfl⟩

theorem RoundTrip.vbcst (et : ETy) (vd vs2 : VReg) (k : KReg) : Statement (.vbcst et vd vs2 k) :=
  of_long _ _ rfl (long_encV ..) (fun h => h) fun h => by
    simp [decode32, decodeVPerm, accept]
    exact ⟨h, rfl⟩

theorem RoundTrip.viota (et : ETy) (vd : VReg) (k : KReg) : Statement (.viota et vd k) :=
  of_long _ _ rfl (long_encV ..) (fun h => h) fun h => by
    simp [decode32, decodeVPerm, accept]
    exact ⟨h, rfl⟩

theorem RoundTrip.vcompr (et : ETy) (vd vs2 : VReg) (k : KReg) : Statement (.vcompr et vd vs2 k) :=
  of_long _ _ rfl (long_encV ..) (fun h => h) fun h => by
    simp [decode32, decodeVPerm, accept]
    exact ⟨h, rfl⟩

theorem RoundTrip.vexpnd (et : ETy) (vd vs2 : VReg) (k : KReg) : Statement (.vexpnd et vd vs2 k) :=
  of_long _ _ rfl (long_encV ..) (fun h => h) fun h => by
    simp [decode32, decodeVPerm, accept]
    exact ⟨h, rfl⟩

theorem RoundTrip.vslide (et : ETy) (vd vs2 vs1 : VReg) (k : KReg) : Statement (.vslide et vd vs2 vs1 k) :=
  of_long _ _ rfl (long_encV ..) (fun h => h) fun h => by
    simp [decode32, decodeVPerm, accept]
    exact ⟨h, rfl⟩

theorem RoundTrip.vins (et : ETy) (vd vs2 vs1 : VReg) : Statement (.vins et vd vs2 vs1) :=
  of_long _ _ rfl (long_encV ..) (fun h => h) fun h => by
    simp [decode32, decodeVPerm, accept]
    exact ⟨h, rfl⟩

theorem RoundTrip.vzip (et : ETy) (vd vs2 vs1 : VReg) (k : KReg) : Statement (.vzip et vd vs2 vs1 k) :=
  of_long _ _ rfl (long_encV ..) (fun h => h) fun h => by
    simp [decode32, decodeVPerm, accept]
    exact ⟨h, rfl⟩

theorem RoundTrip.vunzip (et : ETy) (vd vs2 vs1 : VReg) (k : KReg) : Statement (.vunzip et vd vs2 vs1 k) :=
  of_long _ _ rfl (long_encV ..) (fun h => h) fun h => by
    simp [decode32, decodeVPerm, accept]
    exact ⟨h, rfl⟩

theorem RoundTrip.vrsum (et : ETy) (vd vs2 : VReg) (k : KReg) : Statement (.vrsum et vd vs2 k) :=
  of_long _ _ rfl (long_encV ..) (fun h => h) fun h => by
    simp [decode32, decodeVRed, accept]
    exact ⟨h, rfl⟩

theorem RoundTrip.vrmax (et : ETy) (vd vs2 : VReg) (k : KReg) : Statement (.vrmax et vd vs2 k) :=
  of_long _ _ rfl (long_encV ..) (fun h => h) fun h => by
    simp [decode32, decodeVRed, accept]
    exact ⟨h, rfl⟩

theorem RoundTrip.vrmin (et : ETy) (vd vs2 : VReg) (k : KReg) : Statement (.vrmin et vd vs2 k) :=
  of_long _ _ rfl (long_encV ..) (fun h => h) fun h => by
    simp [decode32, decodeVRed, accept]
    exact ⟨h, rfl⟩

theorem RoundTrip.vrowst (et : ETy) (vd vs2 : VReg) : Statement (.vrowst et vd vs2) :=
  of_long _ _ rfl (long_encV ..) (fun h => h) fun h => by
    simp [decode32, decodeVRed, accept]
    exact ⟨h, rfl⟩

theorem RoundTrip.vrarg (et : ETy) (vd vs2 : VReg) (k : KReg) : Statement (.vrarg et vd vs2 k) :=
  of_long _ _ rfl (long_encV ..) (fun h => h) fun h => by
    simp [decode32, decodeVRed, accept]
    exact ⟨h, rfl⟩

theorem RoundTrip.vrpopc (et : ETy) (vd vs2 : VReg) (k : KReg) : Statement (.vrpopc et vd vs2 k) :=
  of_long _ _ rfl (long_encV ..) (fun h => h) fun h => by
    simp [decode32, decodeVRed, accept]
    exact ⟨h, rfl⟩

theorem RoundTrip.vsfn (fn : BitVec 4) (et : ETy) (vd vs2 : VReg) (k : KReg) : Statement (.vsfn fn et vd vs2 k) :=
  of_long _ _ rfl (long_encVF ..) (fun h => h) fun h => by
    simp [decode32, decodeVSfu, accept]
    exact ⟨h, rfl⟩

theorem RoundTrip.vgact (fn : BitVec 4) (et : ETy) (vd vs2 vs1 : VReg) (k : KReg) : Statement (.vgact fn et vd vs2 vs1 k) :=
  of_long _ _ rfl (long_encVF ..) (fun h => h) fun h => by
    simp [decode32, decodeVSfu, accept]
    exact ⟨h, rfl⟩

theorem RoundTrip.vstbl (t : BitVec 4) (vs2 : VReg) : Statement (.vstbl t vs2) :=
  of_long _ _ rfl (long_encV ..) (fun h => h) fun h => by
    simp [decode32, decodeVSfu, accept]
    exact ⟨h, rfl⟩

theorem RoundTrip.vcvt (et : ETy) (vd vs2 : VReg) (dt : ETy) (k : KReg) : Statement (.vcvt et vd vs2 dt k) :=
  of_long _ _ rfl (long_encV ..) (fun h => h) fun h => by
    simp [decode32, decodeVCvt, accept]
    exact ⟨h, rfl⟩

theorem RoundTrip.vdec (et : ETy) (vd vs2 : VReg) (q : BitVec 4) (k : KReg) : Statement (.vdec et vd vs2 q k) :=
  of_long _ _ rfl (long_encV ..) (fun h => h) fun h => by
    simp [decode32, decodeVCvt, accept]
    exact ⟨h, rfl⟩

theorem RoundTrip.venc (et : ETy) (vd vs2 : VReg) (q : BitVec 4) (k : KReg) : Statement (.venc et vd vs2 q k) :=
  of_long _ _ rfl (long_encV ..) (fun h => h) fun h => by
    simp [decode32, decodeVCvt, accept]
    exact ⟨h, rfl⟩

theorem RoundTrip.vnib (vd vs2 : VReg) (m : BitVec 4) (k : KReg) : Statement (.vnib vd vs2 m k) :=
  of_long _ _ rfl (long_encV ..) (fun h => h) fun h => by
    simp [decode32, decodeVCvt, accept]
    exact ⟨h, rfl⟩

theorem RoundTrip.vrng (et : ETy) (vd vs2 : VReg) (k : KReg) : Statement (.vrng et vd vs2 k) :=
  of_long _ _ rfl (long_encV ..) (fun h => h) fun h => by
    simp [decode32, decodeVCvt, accept]
    exact ⟨h, rfl⟩

theorem RoundTrip.vscl (et : ETy) (vd vs2 vs1 : VReg) (k : KReg) : Statement (.vscl et vd vs2 vs1 k) :=
  of_long _ _ rfl (long_encV ..) (fun h => h) fun h => by
    simp [decode32, decodeVCvt, accept]
    exact ⟨h, rfl⟩

theorem RoundTrip.vpack (et : ETy) (vd vs2 vs1 : VReg) (k : KReg) : Statement (.vpack et vd vs2 vs1 k) :=
  of_long _ _ rfl (long_encV ..) (fun h => h) fun h => by
    simp [decode32, decodeVCvt, accept]
    exact ⟨h, rfl⟩

theorem RoundTrip.tmset (tmA : TMReg) (gs1 : GReg) : Statement (.tmset tmA gs1) :=
  of_long _ _ rfl (long_encT ..) (fun h => h) fun h => by
    simp [decode32, decodeTile, accept]
    exact ⟨h, rfl⟩

theorem RoundTrip.mgang (rd : GReg) (tmA tmB : TMReg) (gs1 gs2 : GReg) : Statement (.mgang rd tmA tmB gs1 gs2) :=
  of_long _ _ rfl (long_encT ..) (fun h => h) fun h => by
    simp [decode32, decodeTile, accept]
    exact ⟨h, rfl⟩

theorem RoundTrip.mzero (rd gs1 : GReg) : Statement (.mzero rd gs1) :=
  of_long _ _ rfl (long_encT ..) (fun h => h) fun h => by
    simp [decode32, decodeTile, accept]
    exact ⟨h, rfl⟩

theorem RoundTrip.msta (rd : GReg) (tmA : TMReg) (gs1 : GReg) : Statement (.msta rd tmA gs1) :=
  of_long _ _ rfl (long_encT ..) (fun h => h) fun h => by
    simp [decode32, decodeTile, accept]
    exact ⟨h, rfl⟩

theorem RoundTrip.mlda (rd : GReg) (tmA : TMReg) (gs1 : GReg) : Statement (.mlda rd tmA gs1) :=
  of_long _ _ rfl (long_encT ..) (fun h => h) fun h => by
    simp [decode32, decodeTile, accept]
    exact ⟨h, rfl⟩

theorem RoundTrip.msplit (rd gs1 gs2 : GReg) : Statement (.msplit rd gs1 gs2) :=
  of_long _ _ rfl (long_encT ..) (fun h => h) fun h => by
    simp [decode32, decodeTile, accept]
    exact ⟨h, rfl⟩

theorem RoundTrip.dtld (rd gs1 gs2 : GReg) : Statement (.dtld rd gs1 gs2) :=
  of_long _ _ rfl (long_encT ..) (fun h => h) fun h => by
    simp [decode32, decodeTile, accept]
    exact ⟨h, rfl⟩

theorem RoundTrip.jwait (rd gs1 : GReg) : Statement (.jwait rd gs1) :=
  of_long _ _ rfl (long_encT ..) (fun h => h) fun h => by
    simp [decode32, decodeJob, accept]
    exact ⟨h, rfl⟩

theorem RoundTrip.jpoll (rd gs1 : GReg) : Statement (.jpoll rd gs1) :=
  of_long _ _ rfl (long_encT ..) (fun h => h) fun h => by
    simp [decode32, decodeJob, accept]
    exact ⟨h, rfl⟩

theorem RoundTrip.cpy (rd gs1 gs2 : GReg) : Statement (.cpy rd gs1 gs2) :=
  of_long _ _ rfl (long_encT ..) (fun h => h) fun h => by
    simp [decode32, decodeJob, accept]
    exact ⟨h, rfl⟩

theorem RoundTrip.cpyr (rd gs1 gs2 : GReg) : Statement (.cpyr rd gs1 gs2) :=
  of_long _ _ rfl (long_encT ..) (fun h => h) fun h => by
    simp [decode32, decodeJob, accept]
    exact ⟨h, rfl⟩

theorem RoundTrip.jcan (rd gs1 : GReg) : Statement (.jcan rd gs1) :=
  of_long _ _ rfl (long_encT ..) (fun h => h) fun h => by
    simp [decode32, decodeJob, accept]
    exact ⟨h, rfl⟩

theorem RoundTrip.flu (rd : GReg) (tmA : TMReg) (gs1 gs2 : GReg) : Statement (.flu rd tmA gs1 gs2) :=
  of_long _ _ rfl (long_encT ..) (fun h => h) fun h => by
    simp [decode32, decodeFact, accept]
    exact ⟨h, rfl⟩

theorem RoundTrip.fchol (rd : GReg) (tmA : TMReg) (gs1 gs2 : GReg) : Statement (.fchol rd tmA gs1 gs2) :=
  of_long _ _ rfl (long_encT ..) (fun h => h) fun h => by
    simp [decode32, decodeFact, accept]
    exact ⟨h, rfl⟩

theorem RoundTrip.fqr (rd : GReg) (tmA tmB : TMReg) (gs1 gs2 : GReg) : Statement (.fqr rd tmA tmB gs1 gs2) :=
  of_long _ _ rfl (long_encT ..) (fun h => h) fun h => by
    simp [decode32, decodeFact, accept]
    exact ⟨h, rfl⟩

theorem RoundTrip.ftrs (rd : GReg) (tmA tmB : TMReg) (gs1 gs2 : GReg) : Statement (.ftrs rd tmA tmB gs1 gs2) :=
  of_long _ _ rfl (long_encT ..) (fun h => h) fun h => by
    simp [decode32, decodeFact, accept]
    exact ⟨h, rfl⟩

theorem RoundTrip.prapl (rd : GReg) (tmA : TMReg) (gs1 gs2 : GReg) : Statement (.prapl rd tmA gs1 gs2) :=
  of_long _ _ rfl (long_encT ..) (fun h => h) fun h => by
    simp [decode32, decodeFact, accept]
    exact ⟨h, rfl⟩

theorem RoundTrip.prmov (rd gs1 gs2 : GReg) : Statement (.prmov rd gs1 gs2) :=
  of_long _ _ rfl (long_encT ..) (fun h => h) fun h => by
    simp [decode32, decodeFact, accept]
    exact ⟨h, rfl⟩

theorem RoundTrip.ridl (rd gs1 gs2 : GReg) : Statement (.ridl rd gs1 gs2) :=
  of_long _ _ rfl (long_encT ..) (fun h => h) fun h => by
    simp [decode32, decodeSeq, accept]
    exact ⟨h, rfl⟩

theorem RoundTrip.draw (rd gs1 gs2 : GReg) : Statement (.draw rd gs1 gs2) :=
  of_long _ _ rfl (long_encT ..) (fun h => h) fun h => by
    simp [decode32, decodeSeq, accept]
    exact ⟨h, rfl⟩

theorem RoundTrip.spark (rd gs1 gs2 : GReg) : Statement (.spark rd gs1 gs2) :=
  of_long _ _ rfl (long_encT ..) (fun h => h) fun h => by
    simp [decode32, decodeSeq, accept]
    exact ⟨h, rfl⟩

theorem RoundTrip.sres (rd gs1 gs2 : GReg) : Statement (.sres rd gs1 gs2) :=
  of_long _ _ rfl (long_encT ..) (fun h => h) fun h => by
    simp [decode32, decodeSeq, accept]
    exact ⟨h, rfl⟩

theorem RoundTrip.cmnew (rd gs1 gs2 : GReg) : Statement (.cmnew rd gs1 gs2) :=
  of_long _ _ rfl (long_encT ..) (fun h => h) fun h => by
    simp [decode32, decodeComm, accept]
    exact ⟨h, rfl⟩

theorem RoundTrip.cmjoin (rd gs1 gs2 : GReg) : Statement (.cmjoin rd gs1 gs2) :=
  of_long _ _ rfl (long_encT ..) (fun h => h) fun h => by
    simp [decode32, decodeComm, accept]
    exact ⟨h, rfl⟩

theorem RoundTrip.cmwait (rd gs1 : GReg) : Statement (.cmwait rd gs1) :=
  of_long _ _ rfl (long_encT ..) (fun h => h) fun h => by
    simp [decode32, decodeComm, accept]
    exact ⟨h, rfl⟩

theorem RoundTrip.cmbn (rd gs1 gs2 : GReg) : Statement (.cmbn rd gs1 gs2) :=
  of_long _ _ rfl (long_encT ..) (fun h => h) fun h => by
    simp [decode32, decodeComm, accept]
    exact ⟨h, rfl⟩

theorem RoundTrip.cmadv (rd gs1 gs2 : GReg) : Statement (.cmadv rd gs1 gs2) :=
  of_long _ _ rfl (long_encT ..) (fun h => h) fun h => by
    simp [decode32, decodeComm, accept]
    exact ⟨h, rfl⟩

theorem RoundTrip.cmsetMember (rd gs1 gs2 : GReg) : Statement (.cmsetMember rd gs1 gs2) :=
  of_long _ _ rfl (long_encT ..) (fun h => h) fun h => by
    simp [decode32, decodeComm, accept]
    exact ⟨h, rfl⟩

theorem RoundTrip.cmsetExpr (rd gs1 gs2 : GReg) : Statement (.cmsetExpr rd gs1 gs2) :=
  of_long _ _ rfl (long_encT ..) (fun _ => rfl) fun h => by
    simp [decode32, decodeComm, accept]
    exact ⟨h, rfl⟩

theorem RoundTrip.cmsetQuorum (rd gs1 gs2 : GReg) : Statement (.cmsetQuorum rd gs1 gs2) :=
  of_long _ _ rfl (long_encT ..) (fun _ => rfl) fun h => by
    simp [decode32, decodeComm, accept]
    exact ⟨h, rfl⟩

theorem RoundTrip.cmsetOpen (rd gs1 gs2 : GReg) : Statement (.cmsetOpen rd gs1 gs2) :=
  of_long _ _ rfl (long_encT ..) (fun _ => rfl) fun h => by
    simp [decode32, decodeComm, accept]
    exact ⟨h, rfl⟩

theorem RoundTrip.cmend (rd gs1 : GReg) : Statement (.cmend rd gs1) :=
  of_long _ _ rfl (long_encT ..) (fun h => h) fun h => by
    simp [decode32, decodeComm, accept]
    exact ⟨h, rfl⟩

theorem RoundTrip.stnew (rd : GReg) : Statement (.stnew rd) :=
  of_long _ _ rfl (long_encR ..) (fun h => h) fun h => by
    simp [decode32, decodeStch, accept]
    exact ⟨h, rfl⟩

theorem RoundTrip.splice (rd rs1 rs2 : GReg) : Statement (.splice rd rs1 rs2) :=
  of_long _ _ rfl (long_encR ..) (fun h => h) fun h => by
    simp [decode32, decodeStch, accept]
    exact ⟨h, rfl⟩

theorem RoundTrip.spin (rd rs1 : GReg) : Statement (.spin rd rs1) :=
  of_long _ _ rfl (long_encR ..) (fun h => h) fun h => by
    simp [decode32, decodeStch, accept]
    exact ⟨h, rfl⟩

theorem RoundTrip.sunpin (rd rs1 : GReg) : Statement (.sunpin rd rs1) :=
  of_long _ _ rfl (long_encR ..) (fun h => h) fun h => by
    simp [decode32, decodeStch, accept]
    exact ⟨h, rfl⟩

theorem RoundTrip.sidx (rd rs1 rs2 : GReg) : Statement (.sidx rd rs1 rs2) :=
  of_long _ _ rfl (long_encR ..) (fun h => h) fun h => by
    simp [decode32, decodeStch, accept]
    exact ⟨h, rfl⟩

theorem RoundTrip.sfork (rd rs1 : GReg) : Statement (.sfork rd rs1) :=
  of_long _ _ rfl (long_encR ..) (fun h => h) fun h => by
    simp [decode32, decodeStch, accept]
    exact ⟨h, rfl⟩

theorem RoundTrip.sdrop (rd rs1 : GReg) : Statement (.sdrop rd rs1) :=
  of_long _ _ rfl (long_encR ..) (fun h => h) fun h => by
    simp [decode32, decodeStch, accept]
    exact ⟨h, rfl⟩

theorem RoundTrip.tlbi (rd rs1 rs2 : GReg) : Statement (.tlbi rd rs1 rs2) :=
  of_long _ _ rfl (long_encR ..) (fun h => h) fun h => by
    simp [decode32, decodeMmu, accept]
    exact ⟨h, rfl⟩

theorem RoundTrip.tlbis (rd rs1 rs2 : GReg) : Statement (.tlbis rd rs1 rs2) :=
  of_long _ _ rfl (long_encR ..) (fun h => h) fun h => by
    simp [decode32, decodeMmu, accept]
    exact ⟨h, rfl⟩

theorem RoundTrip.tlbia (rd rs1 rs2 : GReg) : Statement (.tlbia rd rs1 rs2) :=
  of_long _ _ rfl (long_encR ..) (fun h => h) fun h => by
    simp [decode32, decodeMmu, accept]
    exact ⟨h, rfl⟩

theorem RoundTrip.sidw (rd rs1 rs2 : GReg) : Statement (.sidw rd rs1 rs2) :=
  of_long _ _ rfl (long_encR ..) (fun h => h) fun h => by
    simp [decode32, decodeMmu, accept]
    exact ⟨h, rfl⟩

theorem RoundTrip.atrn (rd rs1 rs2 : GReg) : Statement (.atrn rd rs1 rs2) :=
  of_long _ _ rfl (long_encR ..) (fun h => h) fun h => by
    simp [decode32, decodeMmu, accept]
    exact ⟨h, rfl⟩

theorem RoundTrip.rvbeg (rd rs1 rs2 : GReg) : Statement (.rvbeg rd rs1 rs2) :=
  of_long _ _ rfl (long_encR ..) (fun h => h) fun h => by
    simp [decode32, decodeLink, accept]
    exact ⟨h, rfl⟩

theorem RoundTrip.rvend (rd rs1 rs2 : GReg) : Statement (.rvend rd rs1 rs2) :=
  of_long _ _ rfl (long_encR ..) (fun h => h) fun h => by
    simp [decode32, decodeLink, accept]
    exact ⟨h, rfl⟩

theorem RoundTrip.rvqry (rd rs1 rs2 : GReg) : Statement (.rvqry rd rs1 rs2) :=
  of_long _ _ rfl (long_encR ..) (fun h => h) fun h => by
    simp [decode32, decodeLink, accept]
    exact ⟨h, rfl⟩

theorem RoundTrip.wrel (rd rs1 : GReg) : Statement (.wrel rd rs1) :=
  of_long _ _ rfl (long_encR ..) (fun h => h) fun h => by
    simp [decode32, decodeLink, accept]
    exact ⟨h, rfl⟩

theorem RoundTrip.wacq (rd rs1 : GReg) : Statement (.wacq rd rs1) :=
  of_long _ _ rfl (long_encR ..) (fun h => h) fun h => by
    simp [decode32, decodeLink, accept]
    exact ⟨h, rfl⟩

theorem RoundTrip.lstat (rd rs1 : GReg) : Statement (.lstat rd rs1) :=
  of_long _ _ rfl (long_encR ..) (fun h => h) fun h => by
    simp [decode32, decodeLink, accept]
    exact ⟨h, rfl⟩

theorem RoundTrip.hvcall (rd rs1 : GReg) : Statement (.hvcall rd rs1) :=
  of_long _ _ rfl (long_encR ..) (fun h => h) fun h => by
    simp [decode32, decodeSysp, accept]
    exact ⟨h, rfl⟩

theorem RoundTrip.slotwEntry (rd rs1 rs2 : GReg) : Statement (.slotwEntry rd rs1 rs2) :=
  of_long _ _ rfl (long_encR ..) (fun h => h) fun h => by
    simp [decode32, decodeSysp, accept]
    exact ⟨h, rfl⟩

theorem RoundTrip.slotwPeriod (rd rs1 rs2 : GReg) : Statement (.slotwPeriod rd rs1 rs2) :=
  of_long _ _ rfl (long_encR ..) (fun _ => rfl) fun h => by
    simp [decode32, decodeSysp, accept]
    exact ⟨h, rfl⟩

theorem RoundTrip.slotwLen (rd rs1 rs2 : GReg) : Statement (.slotwLen rd rs1 rs2) :=
  of_long _ _ rfl (long_encR ..) (fun _ => rfl) fun h => by
    simp [decode32, decodeSysp, accept]
    exact ⟨h, rfl⟩

theorem RoundTrip.vdsw (rd rs1 : GReg) : Statement (.vdsw rd rs1) :=
  of_long _ _ rfl (long_encR ..) (fun h => h) fun h => by
    simp [decode32, decodeSysp, accept]
    exact ⟨h, rfl⟩

theorem RoundTrip.mext (rd rs1 rs2 : GReg) : Statement (.mext rd rs1 rs2) :=
  of_long _ _ rfl (long_encR ..) (fun h => h) fun h => by
    simp [decode32, decodeSysp, accept]
    exact ⟨h, rfl⟩

theorem RoundTrip.attest (rd rs1 rs2 : GReg) : Statement (.attest rd rs1 rs2) :=
  of_long _ _ rfl (long_encR ..) (fun _ => rfl) fun h => by
    simp [decode32, decodeSysp, accept]
    exact ⟨h, rfl⟩

theorem RoundTrip.vdkey (rd rs1 rs2 : GReg) : Statement (.vdkey rd rs1 rs2) :=
  of_long _ _ rfl (long_encR ..) (fun _ => rfl) fun h => by
    simp [decode32, decodeSysp, accept]
    exact ⟨h, rfl⟩

theorem RoundTrip.wnew (rd rs1 rs2 : GReg) : Statement (.wnew rd rs1 rs2) :=
  of_long _ _ rfl (long_encR ..) (fun _ => rfl) fun h => by
    simp [decode32, decodeSysp, accept]
    exact ⟨h, rfl⟩

theorem RoundTrip.wgrant (rd rs1 rs2 : GReg) : Statement (.wgrant rd rs1 rs2) :=
  of_long _ _ rfl (long_encR ..) (fun _ => rfl) fun h => by
    simp [decode32, decodeSysp, accept]
    exact ⟨h, rfl⟩

theorem RoundTrip.wrevoke (rd rs1 rs2 : GReg) : Statement (.wrevoke rd rs1 rs2) :=
  of_long _ _ rfl (long_encR ..) (fun _ => rfl) fun h => by
    simp [decode32, decodeSysp, accept]
    exact ⟨h, rfl⟩

theorem RoundTrip.quench (rd rs1 rs2 : GReg) : Statement (.quench rd rs1 rs2) :=
  of_long _ _ rfl (long_encR ..) (fun _ => rfl) fun h => by
    simp [decode32, decodeSysp, accept]
    exact ⟨h, rfl⟩

theorem RoundTrip.fmove (rd rs1 rs2 : GReg) : Statement (.fmove rd rs1 rs2) :=
  of_long _ _ rfl (long_encR ..) (fun _ => rfl) fun h => by
    simp [decode32, decodeSysp, accept]
    exact ⟨h, rfl⟩

theorem RoundTrip.eret : Statement (.eret) :=
  of_long _ _ rfl (long_encR ..) (fun h => h) fun h => by
    simp [decode32, decodeSysp, accept]
    exact ⟨h, rfl⟩

theorem RoundTrip.wfi : Statement (.wfi) :=
  of_long _ _ rfl (long_encR ..) (fun h => h) fun h => by
    simp [decode32, decodeSysp, accept]
    exact ⟨h, rfl⟩

theorem RoundTrip.addiC (rd : GReg) (imm : BitVec 5) : Statement (.addiC rd imm) :=
  of_compact _ _ rfl (by simp) fun h => by
    simp [decode16, decodeC0, accept]
    exact ⟨h, rfl⟩

theorem RoundTrip.ldiC (rd : GReg) (imm : BitVec 5) : Statement (.ldiC rd imm) :=
  of_compact _ _ rfl (by simp) fun h => by
    simp [decode16, decodeC0, accept]
    exact ⟨h, rfl⟩

theorem RoundTrip.slliC (rd : GReg) (sh : BitVec 5) : Statement (.slliC rd sh) :=
  of_compact _ _ rfl (by simp) fun h => by
    simp [decode16, decodeC0, accept]
    exact ⟨h, rfl⟩

theorem RoundTrip.srliC (rd : GReg) (sh : BitVec 5) : Statement (.srliC rd sh) :=
  of_compact _ _ rfl (by simp) fun h => by
    simp [decode16, decodeC0, accept]
    exact ⟨h, rfl⟩

theorem RoundTrip.sraiC (rd : GReg) (sh : BitVec 5) : Statement (.sraiC rd sh) :=
  of_compact _ _ rfl (by simp) fun h => by
    simp [decode16, decodeC0, accept]
    exact ⟨h, rfl⟩

theorem RoundTrip.andiC (rd : GReg) (imm : BitVec 5) : Statement (.andiC rd imm) :=
  of_compact _ _ rfl (by simp) fun h => by
    simp [decode16, decodeC0, accept]
    exact ⟨h, rfl⟩

theorem RoundTrip.mvC (rd rs : GReg) : Statement (.mvC rd rs) :=
  of_compact _ _ rfl (by simp) fun h => by
    simp [decode16, decodeC0, accept]
    exact ⟨h, rfl⟩

theorem RoundTrip.addC (rd rs : GReg) : Statement (.addC rd rs) :=
  of_compact _ _ rfl (by simp) fun h => by
    simp [decode16, decodeC0, accept]
    exact ⟨h, rfl⟩

theorem RoundTrip.subC (rd rs : GReg) : Statement (.subC rd rs) :=
  of_compact _ _ rfl (by simp) fun h => by
    simp [decode16, decodeC0, accept]
    exact ⟨h, rfl⟩

theorem RoundTrip.andC (rd rs : GReg) : Statement (.andC rd rs) :=
  of_compact _ _ rfl (by simp) fun h => by
    simp [decode16, decodeC0, accept]
    exact ⟨h, rfl⟩

theorem RoundTrip.orC (rd rs : GReg) : Statement (.orC rd rs) :=
  of_compact _ _ rfl (by simp) fun h => by
    simp [decode16, decodeC0, accept]
    exact ⟨h, rfl⟩

theorem RoundTrip.xorC (rd rs : GReg) : Statement (.xorC rd rs) :=
  of_compact _ _ rfl (by simp) fun h => by
    simp [decode16, decodeC0, accept]
    exact ⟨h, rfl⟩

theorem RoundTrip.jrC (rs : GReg) : Statement (.jrC rs) :=
  of_compact _ _ rfl (by simp) fun h => by
    simp [decode16, decodeC0, accept]
    exact ⟨h, rfl⟩

theorem RoundTrip.haltC : Statement (.haltC) :=
  of_compact _ _ rfl (by simp) fun h => by
    simp [decode16, decodeC0, accept]
    exact ⟨h, rfl⟩

theorem RoundTrip.commitC : Statement (.commitC) :=
  of_compact _ _ rfl (by simp) fun h => by
    simp [decode16, decodeC0, accept]
    exact ⟨h, rfl⟩

theorem RoundTrip.jC (off : BitVec 11) : Statement (.jC off) :=
  of_compact _ _ rfl (by simp) fun h => by
    simp [decode16, decodeC1, accept]
    exact ⟨h, rfl⟩

theorem RoundTrip.jalC (off : BitVec 11) : Statement (.jalC off) :=
  of_compact _ _ rfl (by simp) fun h => by
    simp [decode16, decodeC1, accept]
    exact ⟨h, rfl⟩

theorem RoundTrip.beqzC (rs : CReg) (off : BitVec 8) : Statement (.beqzC rs off) :=
  of_compact _ _ rfl (by simp) fun h => by
    simp [decode16, decodeC1, accept]
    exact ⟨h, rfl⟩

theorem RoundTrip.bnezC (rs : CReg) (off : BitVec 8) : Statement (.bnezC rs off) :=
  of_compact _ _ rfl (by simp) fun h => by
    simp [decode16, decodeC1, accept]
    exact ⟨h, rfl⟩

theorem RoundTrip.bltzC (rs : CReg) (off : BitVec 8) : Statement (.bltzC rs off) :=
  of_compact _ _ rfl (by simp) fun h => by
    simp [decode16, decodeC1, accept]
    exact ⟨h, rfl⟩

theorem RoundTrip.bgezC (rs : CReg) (off : BitVec 8) : Statement (.bgezC rs off) :=
  of_compact _ _ rfl (by simp) fun h => by
    simp [decode16, decodeC1, accept]
    exact ⟨h, rfl⟩

theorem RoundTrip.lwC (rd rs1 : CReg) (off : BitVec 6) : Statement (.lwC rd rs1 off) :=
  of_compact _ _ rfl (by simp) fun h => by
    simp [decode16, decodeC2, accept]
    exact ⟨h, rfl⟩

theorem RoundTrip.ldC (rd rs1 : CReg) (off : BitVec 6) : Statement (.ldC rd rs1 off) :=
  of_compact _ _ rfl (by simp) fun h => by
    simp [decode16, decodeC2, accept]
    exact ⟨h, rfl⟩

theorem RoundTrip.swC (rd rs1 : CReg) (off : BitVec 6) : Statement (.swC rd rs1 off) :=
  of_compact _ _ rfl (by simp) fun h => by
    simp [decode16, decodeC2, accept]
    exact ⟨h, rfl⟩

theorem RoundTrip.sdC (rd rs1 : CReg) (off : BitVec 6) : Statement (.sdC rd rs1 off) :=
  of_compact _ _ rfl (by simp) fun h => by
    simp [decode16, decodeC2, accept]
    exact ⟨h, rfl⟩

theorem RoundTrip.taskStart (core : Nat) : Statement (.taskStart core) :=
  of_event _ rfl

theorem RoundTrip.contextWake (core ctx : Nat) : Statement (.contextWake core ctx) :=
  of_event _ rfl

theorem RoundTrip.chunkCommit (core ctx : Nat) : Statement (.chunkCommit core ctx) :=
  of_event _ rfl

theorem RoundTrip.budgetExpiry (core ctx : Nat) : Statement (.budgetExpiry core ctx) :=
  of_event _ rfl

theorem RoundTrip.faultNotice (core vd : Nat) : Statement (.faultNotice core vd) :=
  of_event _ rfl

theorem RoundTrip.entryDepart (core entry : Nat) : Statement (.entryDepart core entry) :=
  of_event _ rfl

theorem RoundTrip.messageArrival (ix : Nat) : Statement (.messageArrival ix) :=
  of_event _ rfl

theorem RoundTrip.entryAccepted (ix : Nat) : Statement (.entryAccepted ix) :=
  of_event _ rfl

theorem RoundTrip.entryRefused (ix : Nat) : Statement (.entryRefused ix) :=
  of_event _ rfl

theorem RoundTrip.scopeStrip (ix : Nat) : Statement (.scopeStrip ix) :=
  of_event _ rfl

theorem RoundTrip.resume (core : Nat) : Statement (.resume core) :=
  of_event _ rfl

theorem RoundTrip.kill (core : Nat) : Statement (.kill core) :=
  of_event _ rfl

theorem RoundTrip.stop (core : Nat) : Statement (.stop core) :=
  of_event _ rfl

theorem RoundTrip.start (core : Nat) : Statement (.start core) :=
  of_event _ rfl

theorem RoundTrip.continueSave (core : Nat) : Statement (.continueSave core) :=
  of_event _ rfl

theorem RoundTrip.saveRecordWrite (core : Nat) : Statement (.saveRecordWrite core) :=
  of_event _ rfl

theorem RoundTrip.gangRound (cluster half : Nat) : Statement (.gangRound cluster half) :=
  of_event _ rfl

theorem RoundTrip.gangTimeout (cluster half member : Nat) : Statement (.gangTimeout cluster half member) :=
  of_event _ rfl

theorem RoundTrip.pairWaitTimeout (cluster : Nat) : Statement (.pairWaitTimeout cluster) :=
  of_event _ rfl

theorem RoundTrip.partnerLost (cluster : Nat) : Statement (.partnerLost cluster) :=
  of_event _ rfl

theorem RoundTrip.jobEnd (core slot : Nat) : Statement (.jobEnd core slot) :=
  of_event _ rfl

theorem RoundTrip.accumulatorJobRun (core : Nat) : Statement (.accumulatorJobRun core) :=
  of_event _ rfl

theorem RoundTrip.decodeTableLoad (core : Nat) : Statement (.decodeTableLoad core) :=
  of_event _ rfl

theorem RoundTrip.factorisationStep (core : Nat) : Statement (.factorisationStep core) :=
  of_event _ rfl

theorem RoundTrip.permutationApply (core : Nat) : Statement (.permutationApply core) :=
  of_event _ rfl

theorem RoundTrip.permutationMove (core : Nat) : Statement (.permutationMove core) :=
  of_event _ rfl

theorem RoundTrip.copySegment (core : Nat) : Statement (.copySegment core) :=
  of_event _ rfl

theorem RoundTrip.contextReserveRetry (core : Nat) : Statement (.contextReserveRetry core) :=
  of_event _ rfl

theorem RoundTrip.ringDeliveryRetry (core : Nat) : Statement (.ringDeliveryRetry core) :=
  of_event _ rfl

theorem RoundTrip.ridlRun (core : Nat) : Statement (.ridlRun core) :=
  of_event _ rfl

theorem RoundTrip.riddleDraw (core ctx : Nat) : Statement (.riddleDraw core ctx) :=
  of_event _ rfl

theorem RoundTrip.sfuService (cluster : Nat) : Statement (.sfuService cluster) :=
  of_event _ rfl

theorem RoundTrip.atomicPerform (core entry : Nat) : Statement (.atomicPerform core entry) :=
  of_event _ rfl

theorem RoundTrip.stitchRequest (core : Nat) : Statement (.stitchRequest core) :=
  of_event _ rfl

theorem RoundTrip.committeeRequest (core : Nat) : Statement (.committeeRequest core) :=
  of_event _ rfl

theorem RoundTrip.quorumDeadline (core : Nat) : Statement (.quorumDeadline core) :=
  of_event _ rfl

theorem RoundTrip.barrierRelease (cluster : Nat) (block : Bool) : Statement (.barrierRelease cluster block) :=
  of_event _ rfl

theorem RoundTrip.gspawnEnqueue (core slot : Nat) : Statement (.gspawnEnqueue core slot) :=
  of_event _ rfl

theorem RoundTrip.blockPlace (vd : Nat) : Statement (.blockPlace vd) :=
  of_event _ rfl

theorem RoundTrip.slotBoundary : Statement (.slotBoundary) :=
  of_event _ rfl

theorem RoundTrip.invalidationJob (core slot : Nat) : Statement (.invalidationJob core slot) :=
  of_event _ rfl

theorem RoundTrip.translationEvict (core ix : Nat) : Statement (.translationEvict core ix) :=
  of_event _ rfl

theorem RoundTrip.tamperSensor : Statement (.tamperSensor) :=
  of_event _ rfl

theorem RoundTrip.load (vd : Nat) : Statement (.load vd) :=
  of_event _ rfl

theorem RoundTrip.unload (vd : Nat) : Statement (.unload vd) :=
  of_event _ rfl

theorem RoundTrip.clear (vd : Nat) : Statement (.clear vd) :=
  of_event _ rfl

theorem RoundTrip.kernelDrained (core : Nat) : Statement (.kernelDrained core) :=
  of_event _ rfl

theorem RoundTrip.powerApplied (failPhase : Nat) : Statement (.powerApplied failPhase) :=
  of_event _ rfl

theorem RoundTrip.moduleReset (failPhase : Nat) : Statement (.moduleReset failPhase) :=
  of_event _ rfl

theorem RoundTrip.mstsWrite (value : Word) : Statement (.mstsWrite value) :=
  of_event _ rfl

theorem RoundTrip.ictlWrite (island : Nat) (value : Word) : Statement (.ictlWrite island value) :=
  of_event _ rfl

theorem RoundTrip.fdivChange (island : Nat) : Statement (.fdivChange island) :=
  of_event _ rfl

theorem RoundTrip.governorWindow (watts : Nat) (quietMs : Bool) : Statement (.governorWindow watts quietMs) :=
  of_event _ rfl

theorem RoundTrip.rampWindow (island : Nat) : Statement (.rampWindow island) :=
  of_event _ rfl

theorem RoundTrip.scrub (group offset errors : Nat) : Statement (.scrub group offset errors) :=
  of_event _ rfl

theorem RoundTrip.clownWrite (cluster : Nat) (value : Word) : Statement (.clownWrite cluster value) :=
  of_event _ rfl

theorem RoundTrip.ipendClear (core : Nat) (value : Word) : Statement (.ipendClear core value) :=
  of_event _ rfl

theorem RoundTrip.wfiWake (core : Nat) : Statement (.wfiWake core) :=
  of_event _ rfl

theorem RoundTrip.flitReceive (link seq : Nat) (crcOk : Bool) (words : List Word) : Statement (.flitReceive link seq crcOk words) :=
  of_event _ rfl

theorem RoundTrip.ackReceive (link seq : Nat) : Statement (.ackReceive link seq) :=
  of_event _ rfl

theorem RoundTrip.nakReceive (link seq : Nat) : Statement (.nakReceive link seq) :=
  of_event _ rfl

theorem RoundTrip.ltoExpiry (link : Nat) : Statement (.ltoExpiry link) :=
  of_event _ rfl

theorem RoundTrip.trainingComplete (link lanes peer : Nat) : Statement (.trainingComplete link lanes peer) :=
  of_event _ rfl

theorem RoundTrip.trainingAttemptFail (link : Nat) : Statement (.trainingAttemptFail link) :=
  of_event _ rfl

theorem RoundTrip.electricalResetComplete (link : Nat) : Statement (.electricalResetComplete link) :=
  of_event _ rfl

theorem RoundTrip.linkEnable (link : Nat) : Statement (.linkEnable link) :=
  of_event _ rfl

theorem RoundTrip.linkDisable (link : Nat) : Statement (.linkDisable link) :=
  of_event _ rfl

theorem RoundTrip.linkReset (link : Nat) : Statement (.linkReset link) :=
  of_event _ rfl

theorem RoundTrip.rsetWrite (module mask : Nat) : Statement (.rsetWrite module mask) :=
  of_event _ rfl

theorem RoundTrip.routeDrainComplete (module : Nat) : Statement (.routeDrainComplete module) :=
  of_event _ rfl

theorem RoundTrip.memberLost (ring member why : Nat) : Statement (.memberLost ring member why) :=
  of_event _ rfl

theorem RoundTrip.revolutionReady (ring : Nat) : Statement (.revolutionReady ring) :=
  of_event _ rfl

theorem RoundTrip.portRequest (port q ix : Nat) (va : Word) (store : Option Word) : Statement (.portRequest port q ix va store) :=
  of_event _ rfl

theorem RoundTrip.portCompletion (port q ix : Nat) (entry : List Word) : Statement (.portCompletion port q ix entry) :=
  of_event _ rfl

theorem RoundTrip.pqcmdResume (port q : Nat) : Statement (.pqcmdResume port q) :=
  of_event _ rfl

theorem RoundTrip.pqcmdStop (port q : Nat) : Statement (.pqcmdStop port q) :=
  of_event _ rfl

theorem RoundTrip.portStopped (port q : Nat) : Statement (.portStopped port q) :=
  of_event _ rfl

theorem RoundTrip.hostAccess (vd gpa : Nat) (store : Option Word) : Statement (.hostAccess vd gpa store) :=
  of_event _ rfl

theorem RoundTrip.networkInbound (port q : Nat) (va : Word) (op : PortOp) : Statement (.networkInbound port q va op) :=
  of_event _ rfl

theorem RoundTrip.illegalEncoding (word : BitVec 32) (compact : Bool) : Statement (.illegalEncoding word compact) :=
  of_event _ rfl

theorem RoundTrip.fetchFault (second : Bool) : Statement (.fetchFault second) :=
  of_event _ rfl

theorem RoundTrip.coreFailure (core : Nat) : Statement (.coreFailure core) :=
  of_event _ rfl

theorem RoundTrip.bankSelfTestFail (group bank : Nat) : Statement (.bankSelfTestFail group bank) :=
  of_event _ rfl

theorem RoundTrip.measurementCheckFail (vd : Nat) : Statement (.measurementCheckFail vd) :=
  of_event _ rfl

theorem RoundTrip.portLinkChange (port : Nat) (up : Bool) (lanes : Nat) : Statement (.portLinkChange port up lanes) :=
  of_event _ rfl

theorem RoundTrip.counterNodeWriteBack (key level node : Nat) : Statement (.counterNodeWriteBack key level node) :=
  of_event _ rfl

end

end Sys2Proof.Laws
end

