-- ==== Sys2Proof/Certificates/Slice0/Obligations.lean ====
section
/-! DEFINITION. The statements for the provers, from the spec's numbered rules. Each is a proposition about the model;
none is proved here. A register write is said on whole next states: `Leaves` names the next state, and the statement
`RegisterWriteFrame` says what `State.setRegs` leaves alone. -/

set_option Elab.async false

section

open Sys2Proof Sys2Proof.Machine

namespace Sys2Proof.Claims

/-! ### The words the statements are written in -/

/-- A number as a 64-bit word. -/
def nat (n : Nat) : Word := BitVec.ofNat 64 n
/-- An integer as a 64-bit word, in two's complement. -/
def int (x : Int) : Word := BitVec.ofInt 64 x
/-- The low 32 bits of an integer, sign-extended. -/
def low32 (x : Int) : Word := int (BitVec.ofInt 32 x).toInt

/-- The instruction's next state: its context's registers are r, and all else is as it was. -/
def Leaves (i : Instr) (s : State) (r : Regs) : Prop := exec i s = .next (s.setRegs r)

/-- The instruction writes x to rd, moves on past its len bytes and changes nothing else. -/
def Gives (i : Instr) (s : State) (rd : GReg) (x : Word) (len : Nat) : Prop :=
  Leaves i s { s.regs.put rd x with pc := s.regs.pc + nat len }

/-- The instruction traps, with FADDR given and FPC the instruction's address. -/
def Traps (i : Instr) (s : State) (cause : Cause) (sub : Nat) (faddr : Word) : Prop :=
  exec i s = .next (s.takeTrap (Trap.at_ cause sub faddr) s.regs.pc)

/-- A transfer to a target: the link register holds the successor of the instruction's len bytes; PERM where a bit of
63:48 of the target is set. -/
def Jumps (i : Instr) (s : State) (link : GReg) (len : Nat) (t : Word) : Prop :=
  if 2 ^ 48 ≤ t.toNat then Traps i s .perm 0 t
  else Leaves i s { s.regs.put link (s.regs.pc + nat len) with pc := t }

/-- A branch of len bytes, taken where c holds. -/
def Branches (i : Instr) (s : State) (c : Prop) (t : Word) (len : Nat) : Prop :=
  (c → if 2 ^ 48 ≤ t.toNat then Traps i s .perm 0 t else Leaves i s { s.regs with pc := t }) ∧
  (¬c → Leaves i s { s.regs with pc := s.regs.pc + nat len })

/-! ### Own memory -/

/-- The byte of the model's memory behind an address of the executing fabric core, for its TCM and for its cluster's
scratchpad (R113; the cluster is not time-shared). -/
def ownAddr (s : State) (va : Word) : Option Nat :=
  if va.toNat < 2 ^ 18 then some (2 ^ 41 + s.focus.1 * 2 ^ 18 + va.toNat)
  else if 2 ^ 20 ≤ va.toNat ∧ va.toNat < 2 ^ 21 then
    some (2 ^ 41 + 2 ^ 36 + s.focus.1 / 8 * 2 ^ 20 + (va.toNat - 2 ^ 20))
  else none

/-- A core of a cluster that is not time-shared, with no kernel of a time-shared cluster loaded, reaches the whole of its
TCM and of the scratchpad by the identity maps (R463). -/
abbrev Unshared (s : State) (c : Nat) : Prop :=
  (s.cluster (c / 8)).shared = false ∧
  ((s.bank c).kst = .absent ∨ ((s.bank c).kernel.base = 0 ∧ (s.bank c).kernel.banks = 32))

/-- A fabric core of a cluster that is not time-shared reaches the byte at a through va, aligned to n, and its codeword
can be corrected. -/
def OwnPlace (s : State) (va : Word) (n a : Nat) : Prop :=
  s.focus.1 < 2 ^ 18 ∧ Unshared s s.focus.1 ∧ ownAddr s va = some a ∧ va.toNat % n = 0 ∧
  ∀ k < n, s.uncorrectableAt (a + k) = false

/-- A byte as the executing task sees it: its chunk's own store, else memory. -/
def seen (s : State) (a : Nat) : Byte := (Tab.look s.cx.chunk.cells a).getD (s.mem.byte a)

/-- n bytes as the task sees them, little-endian. -/
def seenNum (s : State) (a : Nat) : Nat → Nat
  | 0 => 0
  | n + 1 => (seen s a).toNat + 256 * seenNum s (a + 1) n

/-- A load of n bytes at own address a, through va: x, extended, goes to rd. -/
def Loads (i : Instr) (s : State) (a : Nat) (rd : GReg) (va : Word) (n len : Nat) (ext : Nat → Word) : Prop :=
  OwnPlace s va n a → (va.toNat < 2 ^ 18 → s.held { addr := a, home := none } va n false = false) →
  exec i s = .next (State.settle (s.setCx { s.cx with
    regs := { s.regs.put rd (ext (seenNum s a n)) with pc := s.regs.pc + nat len }
    chunk := { s.cx.chunk with rsig := s.cx.chunk.rsig ||| sigBit a } }))

/-- No check refuses a store of n bytes to own memory: it is outside the code region, and no job's range is in the way. -/
def StoreMay (s : State) (va : Word) (a n : Nat) : Prop :=
  va.toNat < 2 ^ 18 → (s.me.bank.kernel.cb * 8192 ≤ va.toNat ∧ s.held { addr := a, home := none } va n true = false)

/-- A store to own memory finds an entry, and no other chunk of the core has written the word (for TCM). -/
def StoreGoes (s : State) (a : Nat) : Prop :=
  s.cx.chunk.full a = false ∧
  (a < 2 ^ 41 + 2 ^ 36 → ∀ j : Fin 4, j ≠ s.focus.2 → (s.ctx s.focus.1 j).wrote (a / 8) = false)

/-- A store of the low n bytes of x at own address a, through va. -/
def Stores (i : Instr) (s : State) (a : Nat) (x : Word) (va : Word) (n len : Nat) : Prop :=
  OwnPlace s va n a → StoreMay s va a n → StoreGoes s a →
  ∃ cells : List (Nat × Byte),
    exec i s = .next (State.settle (s.setCx { s.cx with
      regs := { s.regs with pc := s.regs.pc + nat len }
      chunk := { s.cx.chunk with cells := cells, wsig := s.cx.chunk.wsig ||| sigBit a } })) ∧
    ∀ b, Tab.look cells b =
      if a ≤ b ∧ b < a + n then some (x.extractLsb' (8 * (b - a)) 8) else Tab.look s.cx.chunk.cells b

/-- What a load or store of n bytes at va traps for, before any translation. -/
def AddressTraps (i : Instr) (s : State) (va : Word) (n : Nat) (store : Bool) : Prop :=
  let a := va.toNat
  (a % n ≠ 0 → Traps i s .misalign 0 va) ∧
  (a % n = 0 → s.focus.1 < 2 ^ 18 →
    (2 ^ 18 ≤ a ∧ a < 2 ^ 20) ∨ (2 ^ 21 ≤ a ∧ a < 2 ^ 32) ∨ 2 ^ 48 ≤ a ∨
      (store = true ∧ a < s.me.bank.kernel.cb * 8192 ∧ a < 2 ^ 18) →
    Traps i s .perm 0 va)

/-! ### Floating point, on rationals -/

/-- The low bits of a register that a format's operand occupies (R135). -/
def low (f : Fmt) (x : Word) : Nat := x.toNat % 2 ^ (f.prec + f.ebits)

/-- Exponent field, fraction field and sign bit of an encoding. -/
def expo (f : Fmt) (n : Nat) : Nat := n / 2 ^ (f.prec - 1) % 2 ^ f.ebits
def frac (f : Fmt) (n : Nat) : Nat := n % 2 ^ (f.prec - 1)

/-- The sign bit of a format as a number, for a negative value. -/
def signBit (f : Fmt) (neg : Bool) : Nat := if neg then 2 ^ (f.prec + f.ebits - 1) else 0
def isNegative (f : Fmt) (n : Nat) : Bool := n / 2 ^ (f.prec + f.ebits - 1) % 2 == 1

/-- Bias of the exponent, the encoding of infinity, and the canonical quiet NaN (R37, R38, R41). -/
def bias (f : Fmt) : Int := 2 ^ (f.ebits - 1) - 1
def infinity (f : Fmt) (neg : Bool) : Nat := signBit f neg + (2 ^ f.ebits - 1) * 2 ^ (f.prec - 1)
def quietNan (f : Fmt) : Nat := infinity f false + 2 ^ (f.prec - 2)

/-- A NaN, and one whose quiet bit is clear. -/
def isNan (f : Fmt) (n : Nat) : Bool := expo f n == 2 ^ f.ebits - 1 && frac f n != 0
def isSignalling (f : Fmt) (n : Nat) : Bool := isNan f n && decide (frac f n < 2 ^ (f.prec - 2))

/-- The number an encoding stands for; none for an infinity or a NaN (R37). -/
def value (f : Fmt) (n : Nat) : Option Rat :=
  let sg : Rat := if isNegative f n then -1 else 1
  let e := expo f n
  if e = 2 ^ f.ebits - 1 then none
  else if e = 0 then some (sg * frac f n * (2 : Rat) ^ (2 - bias f - f.prec))
  else some (sg * (frac f n + 2 ^ (f.prec - 1) : Nat) * (2 : Rat) ^ ((e : Int) + 1 - bias f - f.prec))

/-- From here on a magnitude rounds to infinity. -/
def tooLarge (f : Fmt) (q : Rat) : Prop := (2 - (2 : Rat) ^ (-(f.prec : Int))) * 2 ^ bias f ≤ |q|

/-- Below here a magnitude is tiny after rounding (R37). -/
def tiny (f : Fmt) (q : Rat) : Prop := |q| < (2 - (2 : Rat) ^ (-(f.prec : Int))) * (2 : Rat) ^ (-bias f)

/-- n encodes q rounded to nearest, ties to even; the sign of a zero result is that of q, where q is not zero. -/
def RoundsTo (f : Fmt) (q : Rat) (n : Nat) : Prop :=
  n < 2 ^ (f.prec + f.ebits) ∧ (q ≠ 0 → (isNegative f n = true ↔ q < 0)) ∧
  (tooLarge f q → n = infinity f (decide (q < 0))) ∧
  (¬tooLarge f q → ∃ r, value f n = some r ∧
    ∀ m x, m < 2 ^ (f.prec + f.ebits) → value f m = some x →
      |r - q| ≤ |x - q| ∧ (|x - q| = |r - q| → x ≠ r → n % 2 = 0))

/-- The flags of rounding q: NX for an inexact result, UF where it is tiny too, OF (with NX) beyond the range. -/
def RoundFlags (f : Fmt) (q : Rat) (n fl : Nat) : Prop :=
  (tooLarge f q → fl = 5) ∧
  (¬tooLarge f q → value f n = some q → fl = 0) ∧
  (¬tooLarge f q → value f n ≠ some q → (tiny f q → fl = 3) ∧ (¬tiny f q → fl = 1))

/-- n and fl are the rounded result and the flags of the exact result q. -/
def Rounded (f : Fmt) (q : Rat) (n fl : Nat) : Prop := RoundsTo f q n ∧ RoundFlags f q n fl

/-- The instruction writes n to rd, ORs fl into FFLG, moves on and changes nothing else (R40, R135). -/
def FpGives (i : Instr) (s : State) (rd : GReg) (n fl : Nat) : Prop :=
  Leaves i s { s.regs.put rd (nat n) with
    pc := s.regs.pc + 4
    cr := { s.regs.cr with fflg := s.regs.cr.fflg ||| nat fl } }

/-- An operation of two operands gives the rounded g x y on finite operands where ok holds; zero is the encoding of an
exact zero result, by the operands' signs. -/
def RoundsExact (op : GReg → GReg → GReg → Instr) (f : Fmt) (ok : Rat → Rat → Prop) (g : Rat → Rat → Rat)
    (zero : Bool → Bool → Bool) : Prop :=
  ∀ (s : State) (rd rs1 rs2 : GReg) (x y : Rat),
    let a := low f (s.regs.get rs1)
    let b := low f (s.regs.get rs2)
    value f a = some x → value f b = some y → ok x y →
    ∃ n fl, FpGives (op rd rs1 rs2) s rd n fl ∧ Rounded f (g x y) n fl ∧
      (g x y = 0 → n = signBit f (zero (isNegative f a) (isNegative f b)))

/-- The fused multiply-add on finite operands: one rounding of x × y + z, z the old rd. -/
def RoundsFused (op : GReg → GReg → GReg → Instr) (f : Fmt) : Prop :=
  ∀ (s : State) (rd rs1 rs2 : GReg) (x y z : Rat),
    let a := low f (s.regs.get rs1)
    let b := low f (s.regs.get rs2)
    let c := low f (s.regs.get rd)
    value f a = some x → value f b = some y → value f c = some z →
    ∃ n fl, FpGives (op rd rs1 rs2) s rd n fl ∧ Rounded f (x * y + z) n fl ∧
      (x * y + z = 0 →
        n = signBit f ((isNegative f a != isNegative f b) && isNegative f c))

/-- A square root of a finite operand: nearest to √x, by comparing squares of midpoints; the root of −0 is −0, and any
other negative operand gives the canonical NaN with NV. -/
def RoundsRoot (op : GReg → GReg → Instr) (f : Fmt) : Prop :=
  ∀ (s : State) (rd rs1 : GReg) (x : Rat),
    let a := low f (s.regs.get rs1)
    value f a = some x →
    (x = 0 → FpGives (op rd rs1) s rd a 0) ∧
    (x < 0 → FpGives (op rd rs1) s rd (quietNan f) 16) ∧
    (0 < x → ∃ n r, FpGives (op rd rs1) s rd n (if r * r = x then 0 else 1) ∧
      n < 2 ^ (f.prec + f.ebits) ∧ isNegative f n = false ∧ value f n = some r ∧
      ∀ m y, m < 2 ^ (f.prec + f.ebits) → value f m = some y → 0 ≤ y →
        (r < y → 4 * x ≤ (r + y) * (r + y)) ∧ (y < r → (r + y) * (r + y) ≤ 4 * x))

/-- A conversion of one operand, of a format, to another: a number is rounded once, an infinity keeps its sign, a NaN
becomes the canonical one and raises NV where its quiet bit is clear. -/
def Converts (op : GReg → GReg → Instr) (src dst : Fmt) : Prop :=
  ∀ (s : State) (rd rs1 : GReg),
    let a := low src (s.regs.get rs1)
    (∀ x, value src a = some x → ∃ n fl, FpGives (op rd rs1) s rd n fl ∧ Rounded dst x n fl ∧
      (x = 0 → n = signBit dst (isNegative src a))) ∧
    (isNan src a = true → FpGives (op rd rs1) s rd (quietNan dst) (if isSignalling src a then 16 else 0)) ∧
    (isNan src a = false → value src a = none → FpGives (op rd rs1) s rd (infinity dst (isNegative src a)) 0)

/-- A floating value to an integer (R36). -/
def ToInteger (op : GReg → GReg → Instr) (f : Fmt) (nearest : Bool) : Prop :=
  ∀ (s : State) (rd rs1 : GReg),
    let a := low f (s.regs.get rs1)
    let gives (k : Int) (fl : Nat) := FpGives (op rd rs1) s rd (int k).toNat fl
    (isNan f a = true → gives 0 16) ∧
    (isNan f a = false → value f a = none →
      gives (if isNegative f a then -(2 : Int) ^ 63 else (2 : Int) ^ 63 - 1) 16) ∧
    (∀ x, value f a = some x → ∃ k : Int,
      (if nearest then |(k : Rat) - x| ≤ 1 / 2 ∧ (|(k : Rat) - x| = 1 / 2 → k % 2 = 0)
        else (0 ≤ x → (k : Rat) ≤ x ∧ x < k + 1) ∧ (x < 0 → (k : Rat) - 1 < x ∧ x ≤ k)) ∧
      (if k < -(2 : Int) ^ 63 then gives (-(2 : Int) ^ 63) 16
        else if (2 : Int) ^ 63 - 1 < k then gives ((2 : Int) ^ 63 - 1) 16
        else gives k (if (k : Rat) = x then 0 else 1)))

/-- A signed 64-bit integer to a format: rounded once; 0 gives +0. -/
def FromInteger (op : GReg → GReg → Instr) (f : Fmt) : Prop :=
  ∀ (s : State) (rd rs1 : GReg),
    let k := (s.regs.get rs1).toInt
    ∃ n fl, FpGives (op rd rs1) s rd n fl ∧ Rounded f (k : Rat) n fl ∧ (k = 0 → n = 0)

/-- An infinity of either sign. -/
def isInf (f : Fmt) (n : Nat) : Bool := expo f n == 2 ^ f.ebits - 1 && frac f n == 0
/-- Plus or minus zero. -/
def isZero (f : Fmt) (n : Nat) : Bool := expo f n == 0 && frac f n == 0

/-- R136 and R38 on operands of which one is a NaN, an infinity, or a zero divisor. -/
def SpecialCases (add sub mul div fma : GReg → GReg → GReg → Instr) (root : GReg → GReg → Instr) (f : Fmt) : Prop :=
  ∀ (s : State) (rd rs1 rs2 : GReg),
    let a := low f (s.regs.get rs1)
    let b := low f (s.regs.get rs2)
    let c := low f (s.regs.get rd)
    let sa := isNegative f a
    let sb := isNegative f b
    let nan (i : Instr) (nv : Bool) := FpGives i s rd (quietNan f) (if nv then 16 else 0)
    let inf (i : Instr) (neg : Bool) (fl : Nat) := FpGives i s rd (infinity f neg) fl
    let sig := isSignalling f a || isSignalling f b
    (isNan f a = true ∨ isNan f b = true →
      nan (add rd rs1 rs2) sig ∧ nan (sub rd rs1 rs2) sig ∧ nan (mul rd rs1 rs2) sig ∧ nan (div rd rs1 rs2) sig ∧
      nan (fma rd rs1 rs2) (sig || isSignalling f c)) ∧
    (isNan f a = true → nan (root rd rs1) (isSignalling f a)) ∧
    (isInf f a = true → if sa then nan (root rd rs1) true else inf (root rd rs1) false 0) ∧
    (isInf f a = true → isInf f b = true →
      (if sa = sb then inf (add rd rs1 rs2) sa 0 else nan (add rd rs1 rs2) true) ∧
      (if sa = sb then nan (sub rd rs1 rs2) true else inf (sub rd rs1 rs2) sa 0) ∧
      inf (mul rd rs1 rs2) (sa != sb) 0 ∧ nan (div rd rs1 rs2) true) ∧
    (isInf f a = true → (value f b).isSome = true →
      inf (add rd rs1 rs2) sa 0 ∧ inf (sub rd rs1 rs2) sa 0 ∧ inf (div rd rs1 rs2) (sa != sb) 0 ∧
      (if isZero f b then nan (mul rd rs1 rs2) true else inf (mul rd rs1 rs2) (sa != sb) 0)) ∧
    ((value f a).isSome = true → isInf f b = true →
      inf (add rd rs1 rs2) sb 0 ∧ inf (sub rd rs1 rs2) (!sb) 0 ∧
      FpGives (div rd rs1 rs2) s rd (signBit f (sa != sb)) 0 ∧
      (if isZero f a then nan (mul rd rs1 rs2) true else inf (mul rd rs1 rs2) (sa != sb) 0)) ∧
    ((value f a).isSome = true → isZero f b = true →
      if isZero f a then nan (div rd rs1 rs2) true else inf (div rd rs1 rs2) (sa != sb) 8) ∧
    ((isZero f a = true ∧ isInf f b = true) ∨ (isInf f a = true ∧ isZero f b = true) →
      nan (fma rd rs1 rs2) true) ∧
    ((isInf f a = true ∧ isNan f b = false ∧ isZero f b = false) ∨
        (isInf f b = true ∧ isNan f a = false ∧ isZero f a = false) →
      (isNan f c = true → nan (fma rd rs1 rs2) (isSignalling f c)) ∧
      (isInf f c = true ∧ isNegative f c ≠ (sa != sb) → nan (fma rd rs1 rs2) true) ∧
      (isNan f c = false ∧ ¬(isInf f c = true ∧ isNegative f c ≠ (sa != sb)) →
        inf (fma rd rs1 rs2) (sa != sb) 0)) ∧
    ((value f a).isSome = true → (value f b).isSome = true →
      (isNan f c = true → nan (fma rd rs1 rs2) (isSignalling f c)) ∧
      (isInf f c = true → inf (fma rd rs1 rs2) (isNegative f c) 0))

/-- An operand as a point of the extended line: a finite number, or an infinity beyond all of them. -/
def below (f : Fmt) (a b : Nat) : Prop :=
  match value f a, value f b with
  | some x, some y => x < y
  | none, some _ => isNegative f a = true
  | some _, none => isNegative f b = false
  | none, none => isNegative f a = true ∧ isNegative f b = false

/-- R136 and R137 on all operands. -/
def Compares (feq flt fle fmin fmax : GReg → GReg → GReg → Instr) (fclass fneg fabs : GReg → GReg → Instr)
    (f : Fmt) : Prop :=
  ∀ (s : State) (rd rs1 rs2 : GReg),
    let a := low f (s.regs.get rs1)
    let b := low f (s.regs.get rs2)
    let some1 := isNan f a || isNan f b
    let quiet := if isSignalling f a || isSignalling f b then 16 else 0
    let loud := if some1 then 16 else 0
    let top := 2 ^ (f.prec + f.ebits - 1)
    (∃ n, FpGives (feq rd rs1 rs2) s rd n quiet ∧
      (n = 1 ∨ n = 0) ∧ (n = 1 ↔ some1 = false ∧ ¬below f a b ∧ ¬below f b a)) ∧
    (∃ n, FpGives (flt rd rs1 rs2) s rd n loud ∧ (n = 1 ∨ n = 0) ∧ (n = 1 ↔ some1 = false ∧ below f a b)) ∧
    (∃ n, FpGives (fle rd rs1 rs2) s rd n loud ∧ (n = 1 ∨ n = 0) ∧ (n = 1 ↔ some1 = false ∧ ¬below f b a)) ∧
    (∃ n, FpGives (fmin rd rs1 rs2) s rd n quiet ∧
      (isNan f a = true → isNan f b = true → n = quietNan f) ∧
      (isNan f a = true → isNan f b = false → n = b) ∧ (isNan f a = false → isNan f b = true → n = a) ∧
      (some1 = false → (n = a ∨ n = b) ∧ ¬below f a n ∧ ¬below f b n ∧
        (isZero f a = true → isZero f b = true → n = max a b))) ∧
    (∃ n, FpGives (fmax rd rs1 rs2) s rd n quiet ∧
      (isNan f a = true → isNan f b = true → n = quietNan f) ∧
      (isNan f a = true → isNan f b = false → n = b) ∧ (isNan f a = false → isNan f b = true → n = a) ∧
      (some1 = false → (n = a ∨ n = b) ∧ ¬below f n a ∧ ¬below f n b ∧
        (isZero f a = true → isZero f b = true → n = min a b))) ∧
    FpGives (fclass rd rs1) s rd
      ((if isZero f a then 1 else if expo f a = 0 then 2 else if expo f a < 2 ^ f.ebits - 1 then 4
        else if isInf f a then 8 else if isSignalling f a then 32 else 16) +
        (if isNegative f a then 256 else 0)) 0 ∧
    FpGives (fneg rd rs1) s rd (if a < top then a + top else a - top) 0 ∧
    FpGives (fabs rd rs1) s rd (a % top) 0

/-! ### Control registers by number -/

/-- The instruction traps, with FPC its address and FADDR the value the spec leaves open. -/
def TrapsBare (i : Instr) (s : State) (cause : Cause) (sub : Nat) : Prop :=
  exec i s = .next (s.takeTrap (Trap.bare cause sub) s.regs.pc)

/-- A per-context register: its number, the bits it keeps, its value and a write to it. -/
structure CtxCr where
  number : Nat
  kept : Word
  get : CtxRegs → Word
  set : CtxRegs → Word → CtxRegs

/-- The per-context registers software may write (R39, R73, R342). -/
def contextRegs : List CtxCr :=
  [⟨0x00E, 0x1F, (·.fflg), fun r x => { r with fflg := x }⟩,
   ⟨0x040, 0x3, (·.fmta), fun r x => { r with fmta := x }⟩,
   ⟨0x041, 0x3, (·.fmtb), fun r x => { r with fmtb := x }⟩,
   ⟨0x042, 0x3, (·.fmtc), fun r x => { r with fmtc := x }⟩,
   ⟨0x043, 0x3_FFFF, (·.scla), fun r x => { r with scla := x }⟩,
   ⟨0x044, 0x3_FFFF, (·.sclb), fun r x => { r with sclb := x }⟩,
   ⟨0x045, 0x3, (·.sclf), fun r x => { r with sclf := x }⟩,
   ⟨0x046, 0xFF_FFFF, (·.mmsk), fun r x => { r with mmsk := x }⟩,
   ⟨0x047, 0xFFFF_7F07, (·.encm), fun r x => { r with encm := x }⟩,
   ⟨0x048, 0x731, (·.fctl), fun r x => { r with fctl := x }⟩,
   ⟨0x04A, 0x1_7FFF, (·.pairc), fun r x => { r with pairc := x }⟩,
   ⟨0x04B, 0xFFFF_FFFF, (·.pairt), fun r x => { r with pairt := x }⟩,
   ⟨0x04C, 0xFFFF_FFFF, (·.gangt), fun r x => { r with gangt := x }⟩,
   ⟨0x060, 0xFFFF_FFFF_FFFF_FFFF, (·.rngk), fun r x => { r with rngk := x }⟩,
   ⟨0x070, 0x3_FFFF_FFFF_FFFF, (·.arh), fun r x => { r with arh := x }⟩]

/-- The per-core registers software may write on both profiles: number and bits kept (R73, R192, R388, R389, R452). -/
def coreRegs : List (Nat × Word × CoreReg) :=
  [(0x00B, 0xFFFF_FFFF_FFFF, .rfh), (0x00C, 0xFFFF_FFFF_FFFF, .smh), (0x00D, 0x1F01, .sqfh),
   (0x090, 0x00FF_FFFF_FF03_FFFF, .stpl), (0x091, 0x1F, .stfr), (0x0A1, 0xFFFF_FFFF_FFFF, .rvh)]

/-- Registers a task may only read, with what they read as (R73, R164, R169, R343, R375). -/
def readOnlyRegs : List (Nat × (State → Word)) :=
  [(0x000, fun s => nat s.focus.1), (0x001, fun s => nat s.me.bank.vdid), (0x002, (·.me.bank.kid)),
   (0x003, (·.me.bank.hblo)), (0x004, (·.me.bank.hbhi)), (0x005, (·.regs.cr.budg)), (0x006, (·.regs.cr.tstp)),
   (0x007, (·.regs.cr.msgid)), (0x008, (·.me.bank.cause)), (0x009, (·.me.bank.faddr)), (0x00A, (·.me.bank.fpc)),
   (0x010, (·.me.bank.qdep)), (0x011, (·.me.bank.sqlim)), (0x012, (·.me.bank.tsvc)), (0x013, (·.regs.cr.actf)),
   (0x014, (·.me.bank.saveb)), (0x015, (·.me.bank.emrgb)), (0x017, (·.regs.cr.rfinf)), (0x019, (·.me.bank.lrec)),
   (0x01B, (·.view.gmem)), (0x01C, (·.me.bank.gpos)), (0x01D, (·.me.bank.gbat)), (0x01E, (·.me.bank.lqb)),
   (0x01F, (·.me.bank.barst)), (0x049, (·.regs.cr.grow)), (0x061, (·.view.sfst)), (0x071, (·.regs.cr.sminf)),
   (0x072, (·.regs.cr.scur)), (0x092, (·.me.bank.stst)), (0x099, (·.me.bank.pginf)), (0x0A0, (·.me.bank.rvtb)),
   (0x0A2, (·.me.bank.modid))]

/-- A number with a register, by profile (R72, R73 and the chapters of the registers). -/
def assigned (ctl : Bool) (n : Nat) : Bool :=
  decide (n < 0x020) || [0x060, 0x061, 0x070, 0x071, 0x072, 0x090, 0x091, 0x092, 0x098, 0x099, 0x0A0, 0x0A1,
    0x0A2].contains n ||
  (if ctl then (decide (0x100 ≤ n) && decide (n ≤ 0x11B)) || n == 0x140 else decide (0x040 ≤ n) && decide (n ≤ 0x04D))

/-- The least level of a register of the control profile (R461, R481). -/
def privilegeOf (n : Nat) : Nat :=
  if n = 0x100 then 0 else if [0x101, 0x102, 0x103, 0x104, 0x10E, 0x116, 0x140].contains n then 1 else 2

/-! ### Waiting, and taking a trap -/

/-- What pc holds after a value is loaded into it at a level: bit 0 is not stored, and bits 63:48 are zero (R69) but for
an address of the hypervisor window at level 2 (R472; log 26). -/
def pcAt (level : Nat) (x : Word) : Word :=
  nat ((if level = 2 ∧ x.toNat / 2 ^ 48 = 0xFFFF then x.toNat else x.toNat % 2 ^ 48) / 2 * 2)

/-- A module number as a message carries it on the networks: 0xFFF where it means this module to the core that sends
(R21, R445): its MODID, or MODW where no loader has set that (log 98). -/
def netMod (s : State) (c m : Nat) : Nat :=
  let own := if isControl c ∨ (s.bank c).kst = .absent then (if fld s.modw 11 0 = 0xFFF then 0 else fld s.modw 11 0)
    else fld (s.bank c).modid 11 0
  if m = own then 0xFFF else m

/-- The executing context waits for w, and all else is as it was. -/
def waiting (s : State) (w : Wait) : State := s.setCx { s.cx with st := .waiting, wait := w }

/-- The instruction is not one of the executing profile: ILLEGAL, with its own encoding in FADDR (R79, R82). -/
def NotHere (i : Instr) (s : State) : Prop := Traps i s .illegal 0 (nat (ofBytes (encode i).bytes))

/-- On a fabric core the instruction waits for w; on a control core it is ILLEGAL. -/
def WaitsFor (i : Instr) (s : State) (w : Wait) : Prop :=
  (s.ctl = false → exec i s = .next (waiting s w)) ∧ (s.ctl = true → NotHere i s)

/-- CAUSE as R164 lays it out. -/
def causeOf (t : Trap) (anch : Bool) (ctx mid : Nat) : Word :=
  nat (t.cause.code + t.sub * 256 + (if anch then 65536 else 0) + ctx * 2 ^ 17 + mid % 2 ^ 16 * 2 ^ 32)

/-- The record and nothing else of a core's per-core registers (R164, R375). -/
def Records (b c : Bank) (t : Trap) (anch : Bool) (ctx mid : Nat) (fpc : Word) : Prop :=
  c = { b with cause := causeOf t anch ctx mid, faddr := c.faddr, fpc := fpc, pginf := c.pginf } ∧
  (∀ a, t.faddr = some a → c.faddr = a) ∧ (∀ a, t.pginf = some a → c.pginf = a)

/-! ### Commits -/

/-- A pending write of a register. -/
def plainPend : Pend → Bool
  | .reg _ _ | .ring _ _ | .tmap _ _ | .user _ _ _ => true
  | .gdone _ | .jcan _ _ | .resend _ _ | .dropr _ _ | .rels _ => false

/-- The couch takes the chunk of context i of a fabric core, which waits at a commit point with `a` to follow; the chunk
stores, writes registers, holds no entry, and no other chunk of the cluster meets its stores. -/
def CommitsAlone (s : State) (core : Nat) (i : Fin 4) (a : After) : Prop :=
  let k := (s.ctx core i).chunk
  core < 2 ^ 18 ∧ s.couchTakes (core, i) = true ∧ (s.ctx core i).wait = .commit a ∧
  (k.cells.map Prod.fst).Nodup ∧ (∀ p ∈ k.pend, plainPend p = true) ∧
  (∀ n : Fin 32, ¬((s.core core).sendq[n].st = .held ∧ (s.core core).sendq[n].ctx = i.val)) ∧
  (∀ d (j : Fin 4), d / 8 = core / 8 → (d, j) ≠ (core, i) → (s.ctx d j).running = true →
    (s.ctx d j).forced = false → (s.ctx d j).meets k.wsig = false)

/-- The same for a chunk whose stores are all to own memory. -/
def CommitsPlainly (s : State) (core : Nat) (i : Fin 4) (a : After) : Prop :=
  CommitsAlone s core i a ∧ ∀ e ∈ (s.ctx core i).chunk.cells, 2 ^ 41 ≤ e.1

/-- What every commit does: the stores reach memory, the register writes the core, and the rest of the cluster is as it
was. -/
def MadeLasting (s t : State) (core : Nat) (i : Fin 4) : Prop :=
  let k := (s.ctx core i).chunk
  (∀ b, t.mem.byte b = (Tab.look k.cells b).getD (s.mem.byte b)) ∧
  (∀ d (j : Fin 4), (d, j) ≠ (core, i) → t.ctx d j = s.ctx d j) ∧
  (∀ d, d ≠ core → t.bank d = s.bank d)

/-- The context after the commit, before it goes on: anchored, nothing pending, its aborts forgotten. -/
def committed (y : Ctx) (fence : Tab Nat) : Ctx :=
  { y with chunk := Chunk.empty, anch := true, restarts := 0
           msg := y.msg.map fun m => { m with abcnt := 0 }, fence := fence }

/-! ### Messages -/

/-- Nothing stands in the way of reads of the executing core's own TCM: a fabric core of a cluster that is not
time-shared, no codeword that cannot be corrected, no outstanding job, no status that a cancelled job still owes. -/
def QuietTcm (s : State) : Prop :=
  s.focus.1 < 2 ^ 18 ∧ Unshared s s.focus.1 ∧ s.uncorrectable = [] ∧ s.failedBanks = [] ∧
  (∀ n : Fin 8, s.me.bank.jobs[n].outstanding = false) ∧ s.me.owed = []

/-- The word of the executing core's TCM at an address, as the task sees it. -/
def tcmWord (s : State) (a : Nat) : Word := nat (seenNum s (2 ^ 41 + s.focus.1 * 2 ^ 18 + a) 8)

/-- A header that SEND and SENDQ take: no reserved bit, LEN to 30, a control core by its number, class request or
ordered (with its two words), and a scope where it is release-tagged (R184). -/
def goodHeader (s : State) (hd : Word) : Prop :=
  hd.toNat / 2 ^ 41 = 0 ∧ hd.toNat / 2 ^ 37 % 4 = 0 ∧ lenOf hd ≤ 30 ∧
  (hd.getLsbD 40 = true → hd.toNat / 2 ^ 6 % 2 ^ 12 = 0) ∧
  (hd.toNat / 2 ^ 30 % 4 = 0 ∨ (hd.toNat / 2 ^ 30 % 4 = 2 ∧ 2 ≤ lenOf hd)) ∧
  (hd.getLsbD 39 = true → s.regs.cr.scur.getLsbD 32 = true)

/-- Entries in use, and reply slots in use (R180, R185). -/
def entriesUsed (s : State) : Nat := s.me.sendq.toList.countP fun e => decide (e.st ≠ .free)
def slotsUsed (s : State) : Nat :=
  (s.me.sendq.toList.countP fun e => e.resv) + (s.me.qReply.countP fun m => decide (m.kind ≠ .copy))

/-- A send finds room: an entry below the limit less the reserved ones, and a reply slot for a request (R180, R185). -/
def hasRoom (s : State) (request : Bool) : Prop :=
  entriesUsed s + min 16 (fld s.view.sqfh 12 8) < fld s.me.bank.sqlim 5 0 ∧
  (request = true → slotsUsed s < fld s.me.bank.qdep 12 8)

/-- n is the lowest free entry. -/
def lowestFree (s : State) (n : Fin 32) : Prop := s.me.sendq[n].st = .free ∧ ∀ m < n, s.me.sendq[m].st ≠ .free

/-- The entry a send takes: the image's HADDR and payload at a of the TCM, the header, the identifier of the request a
reply answers, a reply slot for a request (R185), and for a release-tagged send the scope and the stores its last
RELS covered (R336). -/
def sentEntry (s : State) (a : Nat) (hd mid : Word) : Entry :=
  let rect := if hd.getLsbD 39 then s.regs.cr.scur else 0
  { Entry.free with
    st := .held, ctx := s.focus.2.val, hd := hd, haddr := nat ((tcmWord s a).toNat % 2 ^ 48), mid := mid
    payload := (List.range (lenOf hd)).map (fun k => tcmWord s (a + 16 + 8 * k))
    rect := rect, rels := if rect = 0 then [] else s.cx.rels, seq := s.me.seq
    resv := decide (hd.toNat / 2 ^ 30 % 4 = 0), isRply := decide (hd.toNat / 2 ^ 30 % 4 = 1) }

/-- A send takes entry n: the entry, its number in rd, the reads of the image and the core's count of entries are all
that changes. -/
def TakesEntry (i : Instr) (s : State) (rd : GReg) (n : Fin 32) (e : Entry) : Prop :=
  ∃ sig : BitVec 1024, exec i s = .next (State.settle (s.setMe
    (Core.putCtx { s.me with sendq := s.me.sendq.set n e, seq := s.me.seq + 1 } s.focus.2
      { s.cx with
        regs := { s.regs.put rd (nat n.val) with pc := s.regs.pc + 4 }
        chunk := { s.cx.chunk with rsig := sig } })))

/-- A send finds no room: SENDQ writes a value to rd and moves on, having read the image. -/
def SendFails (i : Instr) (s : State) (rd : GReg) (x : Word) : Prop :=
  ∃ sig : BitVec 1024, exec i s = .next (State.settle (s.setCx { s.cx with
    regs := { s.regs.put rd x with pc := s.regs.pc + 4 }, chunk := { s.cx.chunk with rsig := sig } }))

/-- A send that may not fail finds no room: with SQFH.WAIT = 1, and something in use that another chunk, or none, holds,
it waits and is executed again; else it traps SQF (R184). -/
def WaitsOrSqf (i : Instr) (s : State) (sub : Nat) (others : Prop) : Prop :=
  (s.view.sqfh.getLsbD 0 = true → others → exec i s = .next (waiting s .again)) ∧
  (s.view.sqfh.getLsbD 0 = false ∨ ¬others → TrapsBare i s .sqf sub)

/-- The chunk of the executing context does not hold an entry. -/
def notMine (s : State) (e : Entry) : Prop := ¬(e.st = .held ∧ e.ctx = s.focus.2.val)

/-! ### Rings -/

/-- Slot count, slot size, filled slots and the address of a slot of a ring handle (R194). -/
def ringN (h : Word) : Nat := 2 ^ (h.toNat / 2 ^ 22 % 16)
def ringFilled (h : Word) : Nat :=
  (h.toNat / 2 ^ 37 % 2 ^ 11 + 2 * ringN h - h.toNat / 2 ^ 26 % 2 ^ 11) % (2 * ringN h)

/-! ### Atomics -/

/-- The operations of major 0x10 by number (R342). -/
def atomics : List (Nat × (GReg → GReg → GReg → Instr)) :=
  [(0, .aadd), (1, .aand), (2, .aor), (3, .axor), (4, .amax), (5, .amin), (6, .amaxu), (7, .aminu), (8, .aswp),
   (9, .acas), (10, .aincw), (11, .abfa), (12, .afadd), (13, .afmax), (14, .amxr)]

/-- n encodes the rounded sum of a and b: the exact sum rounded once, +0 for opposite signs; an infinity where one operand
is one; the canonical NaN for a NaN operand or for opposite infinities (R37, R38, R136). -/
def SumIs (f : Fmt) (a b n : Nat) : Prop :=
  let sa := isNegative f a
  let sb := isNegative f b
  (isNan f a = true ∨ isNan f b = true → n = quietNan f) ∧
  (isInf f a = true → isInf f b = true → n = if sa = sb then infinity f sa else quietNan f) ∧
  (isInf f a = true → (value f b).isSome = true → n = infinity f sa) ∧
  ((value f a).isSome = true → isInf f b = true → n = infinity f sb) ∧
  ∀ x y, value f a = some x → value f b = some y → RoundsTo f (x + y) n ∧ (x + y = 0 → n = signBit f (sa && sb))

/-- n is the greater of a and b: −0 is below +0, the other operand stands beside one NaN, and the canonical NaN for two
(R136). -/
def MaxIs (f : Fmt) (a b n : Nat) : Prop :=
  (isNan f a = true → isNan f b = true → n = quietNan f) ∧
  (isNan f a = true → isNan f b = false → n = b) ∧ (isNan f a = false → isNan f b = true → n = a) ∧
  (isNan f a = false → isNan f b = false → (n = a ∨ n = b) ∧ ¬below f n a ∧ ¬below f n b ∧
    (isZero f a = true → isZero f b = true → n = min a b))

/-- The new value and FAIL of an atomic on n bytes (R342). -/
def AtomicResult (op n old v w new : Nat) (fail : Bool) : Prop :=
  let m := 2 ^ (8 * n)
  let a := v % m
  let b := w % m
  let sg (x : Nat) : Int := if 2 * x < m then x else (x : Int) - m
  match op with
  | 0 => new = (old + a) % m ∧ fail = false
  | 1 => new < m ∧ fail = false ∧ ∀ j, new.testBit j = (old.testBit j && a.testBit j)
  | 2 => new < m ∧ fail = false ∧ ∀ j, new.testBit j = (old.testBit j || a.testBit j)
  | 3 => new < m ∧ fail = false ∧ ∀ j, new.testBit j = (old.testBit j != a.testBit j)
  | 4 => new = (if sg old < sg a then a else old) ∧ fail = false
  | 5 => new = (if sg a < sg old then a else old) ∧ fail = false
  | 6 => new = max old a ∧ fail = false
  | 7 => new = min old a ∧ fail = false
  | 9 => new = (if old = a then b else old) ∧ fail = decide (old ≠ a)
  | 10 => new = (if a ≤ old then 0 else old + 1) ∧ fail = false
  | 11 => new = (if old + a ≤ b then old + a else old) ∧ fail = decide (b < old + a)
  | 12 => new < m ∧ fail = false ∧ SumIs (if n = 4 then fmt32 else fmt64) old a new
  | 13 => new < m ∧ fail = false ∧ MaxIs (if n = 4 then fmt32 else fmt64) old a new
  | _ => new = a ∧ fail = false


/-! ### Vectors -/

/-- Lane l of a vector register (R217). -/
def laneOf (et : ETy) (v : VWord) (l : Nat) : Nat := v.toNat / 2 ^ (et.width * l) % 2 ^ et.width

/-- A w-bit number read as signed, and the low w bits of an integer. -/
def signed (w x : Nat) : Int := if x < 2 ^ (w - 1) then x else (x : Int) - (2 : Int) ^ w
def wrap (w : Nat) (x : Int) : Nat := (x % (2 : Int) ^ w).toNat

/-- The instruction writes v to vd, ORs fl into FFLG, moves on and changes nothing else. -/
def VGives (i : Instr) (s : State) (vd : VReg) (v : VWord) (fl : Nat) : Prop :=
  Leaves i s { s.regs.putV vd v with
    pc := s.regs.pc + nat 4
    cr := { s.regs.cr with fflg := s.regs.cr.fflg ||| nat fl } }

/-- The active lanes of vd receive f, the others keep their values, and no flag is raised (R218). -/
def VLanes (i : Instr) (s : State) (et : ETy) (vd : VReg) (k : KReg) (f : Nat → Nat) : Prop :=
  ∃ v, VGives i s vd v 0 ∧ ∀ l < et.lanes, laneOf et v l =
    if (s.regs.getK k).getLsbD l then f l else laneOf et (s.regs.getV vd) l

/-- Every lane of vd receives f, whatever the mask. -/
def VAll (i : Instr) (s : State) (et : ETy) (vd : VReg) (f : Nat → Nat) : Prop :=
  ∃ v, VGives i s vd v 0 ∧ ∀ l < et.lanes, laneOf et v l = f l

/-- A statement of a member in both forms: on its lanes a, b and c with b from a vector, and with b the scalar's low
bits (R221). -/
def BothForms (vf : VReg → Instr) (xf : GReg → Instr) (s : State) (et : ETy) (vd vs2 vs1 : VReg) (gs : GReg)
    (claim : Instr → (Nat → Nat) → (Nat → Nat) → (Nat → Nat) → Prop) : Prop :=
  let a := laneOf et (s.regs.getV vs2)
  let c := laneOf et (s.regs.getV vd)
  claim (vf vs1) a (laneOf et (s.regs.getV vs1)) c ∧
  claim (xf gs) a (fun _ => (s.regs.get gs).toNat % 2 ^ et.width) c

/-- Floating lanes: lane l of vd receives n with flags g where P l n g holds; every active lane's flags are ORed into
FFLG, and inactive lanes keep their values (R218, R221). -/
def FLanes (i : Instr) (s : State) (et : ETy) (vd : VReg) (k : KReg) (P : Nat → Nat → Nat → Prop) : Prop :=
  ∃ (v : VWord) (fl : Nat) (g : Nat → Nat), VGives i s vd v fl ∧
    (∀ l < et.lanes, if (s.regs.getK k).getLsbD l then P l (laneOf et v l) (g l)
      else laneOf et v l = laneOf et (s.regs.getV vd) l) ∧
    ∀ j, fl.testBit j = true ↔ ∃ l < et.lanes, (s.regs.getK k).getLsbD l = true ∧ (g l).testBit j = true

/-- n and g are what the scalar instruction of the lane's type gives on the same operands. -/
def LikeScalar (opS opD : GReg → GReg → GReg → Instr) (et : ETy) (a b c n g : Nat) : Prop :=
  ∀ (u : State) (rd r1 r2 : GReg), (u.regs.get r1).toNat % 2 ^ et.width = a →
    (u.regs.get r2).toNat % 2 ^ et.width = b → (u.regs.get rd).toNat % 2 ^ et.width = c →
    (et = .f32 → FpGives (opS rd r1 r2) u rd n g) ∧ (et = .f64 → FpGives (opD rd r1 r2) u rd n g)

/-- A floating member of two operands on lanes a and b: as the scalar instruction for f32 and f64; rounded once where
both are finite and ok; a NaN operand gives the canonical NaN, with NV where its quiet bit is clear. -/
def FloatLane (opS opD : GReg → GReg → GReg → Instr) (ok : Rat → Prop) (g : Rat → Rat → Rat) (et : ETy)
    (a b c n fl : Nat) : Prop :=
  let f := etFmt et
  LikeScalar opS opD et a b c n fl ∧
  (∀ x y, value f a = some x → value f b = some y → ok y → Rounded f (g x y) n fl) ∧
  (isNan f a = true ∨ isNan f b = true → n = quietNan f ∧
    fl = if isSignalling f a || isSignalling f b then 16 else 0)

/-- A compare: bit j of kd is 1 where lane j is active and c j holds, all other bits are 0, and NV is set where an
active lane has loud j (R222). -/
def CompareMask (i : Instr) (s : State) (et : ETy) (kd : KReg) (k : KReg) (c : Nat → Prop) (loud : Nat → Prop) : Prop :=
  ∃ (m : Word) (fl : Nat), Leaves i s { s.regs.putK kd m with
      pc := s.regs.pc + nat 4
      cr := { s.regs.cr with fflg := s.regs.cr.fflg ||| nat fl } } ∧
    (∀ j < 64, m.getLsbD j = true ↔ j < et.lanes ∧ (s.regs.getK k).getLsbD j = true ∧ c j) ∧
    (fl = 16 ∨ fl = 0) ∧ (fl = 16 ↔ ∃ j < et.lanes, (s.regs.getK k).getLsbD j = true ∧ loud j)

/-- l is the lowest active lane. -/
def lowestActive (s : State) (et : ETy) (k : KReg) (l : Nat) : Prop :=
  l < et.lanes ∧ (s.regs.getK k).getLsbD l = true ∧ ∀ j < l, (s.regs.getK k).getLsbD j = false

/-- Active lanes below lane l, and all of them. -/
def activeBelow (s : State) (k : KReg) (l : Nat) : Nat := (List.range l).countP fun j => (s.regs.getK k).getLsbD j

/-- The partial sums of the fixed tree over 2^n lanes: r is the sum, none where no lane has an element, and fl the
flags of all additions. `adds a b z g` says that z is the rounded sum and g its flags (R53). -/
def TreeSum (adds : Nat → Nat → Nat → Nat → Prop) : Nat → (Nat → Option Nat) → Option Nat → Nat → Prop
  | 0, p, r, fl => r = p 0 ∧ fl = 0
  | n + 1, p, r, fl => ∃ (q : Nat → Option Nat) (g : Nat → Nat) (rest : Nat),
      (∀ l < 2 ^ n, match p (2 * l), p (2 * l + 1) with
        | none, y => q l = y ∧ g l = 0
        | some x, none => q l = some x ∧ g l = 0
        | some x, some y => ∃ z, q l = some z ∧ adds x y z (g l)) ∧
      TreeSum adds n q r rest ∧
      ∀ j, fl.testBit j = true ↔ rest.testBit j = true ∨ ∃ l < 2 ^ n, (g l).testBit j = true

/-- What a vector access of n bytes at va needs: an own place, no job in the way; a store also spares the code region
and finds no other chunk's write. -/
def ElementMay (s : State) (va : Word) (n a : Nat) (store : Bool) : Prop :=
  OwnPlace s va n a ∧ (va.toNat < 2 ^ 18 → s.held { addr := a, home := none } va n store = false) ∧
  (store = true → StoreMay s va a n ∧
    (a < 2 ^ 41 + 2 ^ 36 → ∀ j : Fin 4, j ≠ s.focus.2 → (s.ctx s.focus.1 j).wrote (a / 8) = false))

/-- The read signature after reads of the listed places. -/
def readsAt (s : State) (sig : BitVec 1024) (c : Nat → Prop) (n : Nat) (place : Nat → Nat) : Prop :=
  ∀ j, sig.getLsbD j = true ↔
    s.cx.chunk.rsig.getLsbD j = true ∨ ∃ l < n, c l ∧ (sigBit (place l)).getLsbD j = true

/-- A vector load: where every active element may be read, the active lanes receive their elements, and the others keep
their values (R225, R226). -/
def VLoads (i : Instr) (s : State) (et : ETy) (vd : VReg) (k : KReg) (addr : Nat → Word) : Prop :=
  ∀ place : Nat → Nat,
    let act (l : Nat) : Prop := (s.regs.getK k).getLsbD l = true
    (∀ l < et.lanes, act l → ElementMay s (addr l) et.bytes (place l) false) →
    ∃ (v : VWord) (sig : BitVec 1024),
      exec i s = .next (State.settle (s.setCx { s.cx with
        regs := { s.regs.putV vd v with pc := s.regs.pc + nat 4 }, chunk := { s.cx.chunk with rsig := sig } })) ∧
      (∀ l < et.lanes, (act l → laneOf et v l = seenNum s (place l) et.bytes) ∧
        (¬act l → laneOf et v l = laneOf et (s.regs.getV vd) l)) ∧
      readsAt s sig act et.lanes place

/-- A vector store of m elements of n bytes: where every active element may be written and its words find entries, the
chunk holds the elements, the highest lane's where two meet, and its other bytes are as before (R225, R227). -/
def VStores (i : Instr) (s : State) (m n : Nat) (act : Nat → Prop) (addr : Nat → Word) (x : Nat → Nat) : Prop :=
  ∀ place : Nat → Nat, (∀ l < m, act l → ElementMay s (addr l) n (place l) true) →
    (s.cx.chunk.words true).length + m ≤ 512 → (s.cx.chunk.words false).length + m ≤ 64 →
    let hits (b l : Nat) : Prop := l < m ∧ act l ∧ place l ≤ b ∧ b < place l + n
    ∃ (cells : List (Nat × Byte)) (sig : BitVec 1024),
      exec i s = .next (State.settle (s.setCx { s.cx with
        regs := { s.regs with pc := s.regs.pc + nat 4 }
        chunk := { s.cx.chunk with cells := cells, wsig := sig } })) ∧
      (∀ b l, hits b l → (∀ j, l < j → ¬hits b j) →
        Tab.look cells b = some (BitVec.ofNat 8 (x l / 256 ^ (b - place l)))) ∧
      ∀ b, (∀ l, ¬hits b l) → Tab.look cells b = Tab.look s.cx.chunk.cells b

/-- One lane of VCVT and VPACK: x of type et becomes n, with flags g (R240). -/
def ConvertedLane (et dt : ETy) (x n g : Nat) : Prop :=
  let sx := signed et.width x
  let f := etFmt et
  let r := etFmt dt
  let lo : Int := -(2 : Int) ^ (dt.width - 1)
  let hi : Int := (2 : Int) ^ (dt.width - 1) - 1
  (et.isInt = true → dt.isInt = true → n = wrap dt.width (max lo (min sx hi)) ∧ g = 0) ∧
  (et.isInt = true → dt.isInt = false → Rounded r (sx : Rat) n g) ∧
  (et.isInt = false → dt.isInt = false →
    (∀ q, value f x = some q → Rounded r q n g ∧ (q = 0 → n = signBit r (isNegative f x))) ∧
    (isNan f x = true → n = quietNan r ∧ g = if isSignalling f x then 16 else 0) ∧
    (isInf f x = true → n = infinity r (isNegative f x) ∧ g = 0)) ∧
  (et.isInt = false → dt.isInt = true →
    (isNan f x = true → n = 0 ∧ g = 16) ∧
    (isInf f x = true → n = wrap dt.width (if isNegative f x then lo else hi) ∧ g = 16) ∧
    ∀ q, value f x = some q → ∃ m : Int, |(m : Rat) - q| ≤ 1 / 2 ∧ (|(m : Rat) - q| = 1 / 2 → m % 2 = 0) ∧
      n = wrap dt.width (max lo (min m hi)) ∧
      g = if m < lo ∨ hi < m then 16 else if (m : Rat) = q then 0 else 1)

/-- z and g are what a scalar operation of binary32 gives on a and b (R135). -/
def Scalar32 (op : GReg → GReg → GReg → Instr) (a b z g : Nat) : Prop := ∀ c, LikeScalar op op .f32 a b c z g

/-- A sum over a row in memory, by the order of R53: element e belongs to lane e mod 16, each lane begins with its first
element and adds the others in turn, and the lanes combine by the fixed tree. p e is lane e mod 16's partial sum behind
element e. -/
def RowSum (first : Nat → Nat → Nat → Prop) (next : Nat → Nat → Nat → Nat → Prop) (len : Nat) (d : Nat → Nat)
    (r fl : Nat) : Prop :=
  ∃ (p g : Nat → Nat) (o : Option Nat) (f : Nat),
    (∀ e < len, if e < 16 then first (d e) (p e) (g e) else next (p (e - 16)) (d e) (p e) (g e)) ∧
    TreeSum (Scalar32 .faddS) 4 (fun l => if l < len then some (p (l + (len - 1 - l) / 16 * 16)) else none) o f ∧
    r = o.getD 0 ∧ ∀ j, fl.testBit j = true ↔ f.testBit j = true ∨ ∃ e < len, (g e).testBit j = true

/-- The mean and the variance of a row of finite binary32 elements, every step rounded once, and the flags of all of them
(R55). -/
def RowStatistics (len : Nat) (x : Nat → Nat) (mean var fl : Nat) : Prop :=
  ∃ (d gd : Nat → Nat) (s1 f1 s2 f2 n a ga gm b gb t gt c gc v gv : Nat),
    (∀ e < len, Scalar32 .fsubS (x e) (x 0) (d e) (gd e)) ∧
    RowSum (fun y p g => p = y ∧ g = 0) (fun q y p g => Scalar32 .faddS q y p g) len d s1 f1 ∧
    RowSum (fun y p g => LikeScalar .fmaS .fmaS .f32 y y 0 p g) (fun q y p g => LikeScalar .fmaS .fmaS .f32 y y q p g)
      len d s2 f2 ∧
    n < 2 ^ 32 ∧ value fmt32 n = some (len : Rat) ∧
    Scalar32 .fdivS s1 n a ga ∧ Scalar32 .faddS (x 0) a mean gm ∧
    Scalar32 .fmulS s1 s1 b gb ∧ Scalar32 .fdivS b n t gt ∧
    Scalar32 .fsubS s2 t c gc ∧ Scalar32 .fdivS c n v gv ∧
    var = (if isNan fmt32 v = false ∧ isNegative fmt32 v = true then 0 else v) ∧
    ∀ j, fl.testBit j = true ↔ (∃ e < len, (gd e).testBit j = true) ∨
      ∃ g ∈ [f1, f2, ga, gm, gb, gt, gc, gv], g.testBit j = true

/-- The binary32 encoding of the value that a code has in a decode table: a user's word, an OCP 8-bit format, or an integer
(R42 to R44). -/
def CodeMeans (t : DecodeTable) (c b : Nat) : Prop :=
  let neg := decide (128 ≤ c)
  let sg : Rat := if neg then -1 else 1
  let is (q : Rat) := b < 2 ^ 32 ∧ isNegative fmt32 b = neg ∧ value fmt32 b = some (sg * q)
  match t.preset with
  | 0 => b = (t.words.getD c 0).toNat * 2 ^ 13
  | 1 =>
    let e : Nat := c / 8 % 16
    let m : Nat := c % 8
    if e = 15 ∧ m = 7 then b = quietNan fmt32
    else if e = 0 then is ((2 : Rat) ^ (-6 : Int) * m / 8)
    else is ((2 : Rat) ^ ((e : Int) - 7) * (1 + m / 8))
  | 2 =>
    let e : Nat := c / 4 % 32
    let m : Nat := c % 4
    if e = 31 then b = (if m = 0 then infinity fmt32 neg else quietNan fmt32)
    else if e = 0 then is ((2 : Rat) ^ (-14 : Int) * m / 4)
    else is ((2 : Rat) ^ ((e : Int) - 15) * (1 + m / 4))
  | 3 => is |(signed 8 c : Rat)|
  | 4 => b < 2 ^ 32 ∧ isNegative fmt32 b = false ∧ value fmt32 b = some (c : Rat)
  | _ => False

/-- A binary32 value as a lane of a format: rounded once, an infinity with its sign, the canonical NaN. -/
def Narrowed (f : Fmt) (b n : Nat) : Prop :=
  (isNan fmt32 b = true → n = quietNan f) ∧ (isInf fmt32 b = true → n = infinity f (isNegative fmt32 b)) ∧
  ∀ q, value fmt32 b = some q → RoundsTo f q n ∧ (q = 0 → n = signBit f (isNegative fmt32 b))

/-- The code of a lane z in the table mode, for a table whose codes 0 to TOP have finite values T that do not fall: a
magnitude above the top code saturates, or gives INFC; else the last code not above it, or the next one where that is
nearer, or as near and even (R46, R47). -/
def TableCode (f : Fmt) (t : DecodeTable) (encm : Word) (z n : Nat) : Prop :=
  let top := encm.toNat / 2 ^ 8 % 128
  let s := if isNegative f z then 128 else 0
  let above := (if encm.getLsbD 2 then encm.toNat / 2 ^ 16 % 256 else top) ||| s
  ∀ T : Nat → Rat, (∀ c ≤ top, ∃ b, CodeMeans t c b ∧ value fmt32 b = some (T c)) → (∀ c < top, T c ≤ T (c + 1)) →
    (isInf f z = true → n = above) ∧
    ∀ r, value f z = some r → (T top < |r| → n = above) ∧
      (|r| ≤ T top → ∃ c ≤ top, (T c ≤ |r| ∨ c = 0) ∧ (∀ d ≤ top, c < d → |r| < T d) ∧
        let mid := (T c + T (c + 1)) / 2
        n = (if c < top ∧ T c < |r| ∧ (mid < |r| ∨ (|r| = mid ∧ c % 2 = 1)) then c + 1 else c) ||| s)

/-- The values R232 gives a shipped function at special operands: x is the operand and n the result. -/
def SpecialFunction (f : Fmt) (fn x n : Nat) : Prop :=
  let v := value f
  let neg := isNegative f x
  let one := infinity f false / 2 ^ (f.prec - 1) / 2 * 2 ^ (f.prec - 1)
  let inf := isInf f x
  (isNan f x = true → n = quietNan f) ∧
  (fn < 2 → inf = true → n = if neg then 0 else infinity f false) ∧
  (fn = 0 → ∀ m : Int, -126 ≤ m → m ≤ 127 → v x = some (m : Rat) → v n = some ((2 : Rat) ^ m)) ∧
  (fn = 2 ∨ fn = 3 → (isZero f x = true → n = infinity f true) ∧ (v x = some 1 → n = 0) ∧
    (isZero f x = false → neg = true → n = quietNan f) ∧ (inf = true → neg = false → n = infinity f false)) ∧
  (fn = 2 → ∀ m : Int, v x = some ((2 : Rat) ^ m) → v n = some (m : Rat)) ∧
  (fn = 4 → (isZero f x = true → n = infinity f neg) ∧ (inf = true → n = signBit f neg) ∧
    ∀ m : Int, -126 ≤ m → m ≤ 126 → v x = some ((2 : Rat) ^ m) → v n = some ((2 : Rat) ^ (-m))) ∧
  (fn = 5 → (isZero f x = true → n = infinity f neg) ∧ (isZero f x = false → neg = true → n = quietNan f) ∧
    (inf = true → neg = false → n = 0) ∧
    ∀ m : Int, v x = some ((2 : Rat) ^ (2 * m)) → v n = some ((2 : Rat) ^ (-m))) ∧
  (fn = 6 → (isZero f x = true → n = x) ∧ (isZero f x = false → neg = true → n = quietNan f) ∧
    (inf = true → neg = false → n = infinity f false) ∧
    ∀ m : Int, v x = some ((2 : Rat) ^ (2 * m)) → v n = some ((2 : Rat) ^ m)) ∧
  (fn = 7 → (inf = true → n = if neg then 0 else one) ∧
    ∀ q, v x = some q → (16 ≤ q → n = one) ∧ (q < -16 → n = 0)) ∧
  (fn = 8 → (isZero f x = true → n = x) ∧ (inf = true → n = one + signBit f neg) ∧
    ∀ q, v x = some q → 8 ≤ |q| → n = one + signBit f neg) ∧
  (fn = 9 ∨ fn = 10 → (isZero f x = true → n = x) ∧ (inf = true → n = if neg then signBit f true else infinity f false) ∧
    ∀ q, v x = some q → ((if fn = 9 then 16 else 8) ≤ q → n = x) ∧
      (q < -(if fn = 9 then 16 else 8) → n = signBit f true)) ∧
  (fn = 11 ∨ fn = 12 → inf = true → n = quietNan f) ∧
  (fn = 11 → (x = signBit f true → n = x) ∧ ∀ m : Int, m ≠ 0 → v x = some (m : Rat) → n = 0)

/-- VSFN and VGACT on a function: with c n the demand on lane l's result, a control core writes the lanes at once; a
fabric core's context waits with them for the unit, one turn for f32 and two for bf16. -/
def Evaluates (i : Instr) (s : State) (et : ETy) (vd : VReg) (k : KReg) (c : Nat → Nat → Prop) : Prop :=
  ∃ v : VWord,
    (∀ l < et.lanes, if (s.regs.getK k).getLsbD l then c l (laneOf et v l)
      else laneOf et v l = laneOf et (s.regs.getV vd) l) ∧
    (s.ctl = true → Leaves i s { s.regs.putV vd v with pc := s.regs.pc + nat 4 }) ∧
    (s.ctl = false → ∃ sig : BitVec 1024, exec i s = .next (s.setCx { s.cx with
      chunk := { s.cx.chunk with rsig := sig }, st := .waiting
      wait := .sfu vd v (if et = .bf16 then 2 else 1) }))

/-- A mixing step, and the 32 bits of the generator for a counter under a key (R241). -/
def mixed (z : BitVec 32) : BitVec 32 := (z ^^^ (z >>> 16)) * 0x2C8B4A35
def generator (key c : Word) : BitVec 32 :=
  let z := c.setWidth 32 ^^^ key.setWidth 32 ^^^ ((c >>> 32).setWidth 32 ^^^ (key >>> 32).setWidth 32).rotateLeft 7
  let y := mixed (mixed z)
  y ^^^ (y >>> 16)

/-! ### Jobs -/

/-- The executing core is a fabric core of a cluster that is not time-shared. -/
def OnFabric (s : State) : Prop := s.focus.1 < 2 ^ 18 ∧ Unshared s s.focus.1

/-- n bytes of TCM from a on lie outside the code region. -/
def inData (s : State) (a n : Nat) : Prop := s.me.bank.kernel.cb * 8192 ≤ a ∧ a + n ≤ 2 ^ 18

/-- A mailbox a job instruction takes: none, or a word of the TCM (R257). -/
def goodMailbox (s : State) (m : Word) : Prop := m = 0 ∨ (m.toNat % 8 = 0 ∧ inData s m.toNat 8)

/-- n is the lowest slot that is FREE or ENDED. -/
def freeSlotIs (s : State) (n : Fin 8) : Prop :=
  let idle (m : Fin 8) : Prop := (s.me.bank.jobs[m]).st = .free ∨ (s.me.bank.jobs[m]).st = .ended
  idle n ∧ ∀ m < n, ¬idle m

/-- A JOB SUBMISSION: the lowest FREE or ENDED slot is HELD with the operands, rd receives the job's identifier, and
the context comes to a commit point; where every slot is taken the instruction waits (R250, R252). -/
def Submits (i : Instr) (s : State) (rd : GReg) (kind : Nat) (mbox : Word) (a b : BitVec 256) (ops : List Word) :
    Prop :=
  ∀ n : Fin 8, freeSlotIs s n → ∃ (t : State) (j : Job), exec i s = .next t ∧
    j.st = .held ∧ j.gen = (s.me.bank.jobs[n]).gen + 1 ∧ j.ctx = s.focus.2.val ∧ j.kind = kind ∧ j.mbox = mbox ∧
    j.tmA = a ∧ j.tmB = b ∧ j.ops = ops ∧ j.cr = s.regs.cr ∧
    t.regs = s.regs.put rd (nat (n.val + 8 * j.gen.toNat)) ∧ t.cx.st = .waiting ∧ t.cx.wait = .commit (.job n.val) ∧
    t.me.bank.jobs = s.me.bank.jobs.set n j ∧ t.mem = s.mem ∧ t.net = s.net ∧
    ∀ c (k : Fin 4), (c, k) ≠ s.focus → t.ctx c k = s.ctx c k

/-- Checks in their order, each with what happens where it is the first that fails, and what happens where none does. -/
def InOrder : List (Prop × Prop) → Prop → Prop
  | [], done => done
  | (holds, otherwise) :: rest, done => (¬holds → otherwise) ∧ (holds → InOrder rest done)

/-- A map the executing core takes (R245). -/
def validMap (s : State) (t : BitVec 256) : Prop :=
  let f (hi lo : Nat) := t.toNat / 2 ^ lo % 2 ^ (hi + 1 - lo)
  let base := f 47 0
  let rows := f 74 64
  let cols := f 90 80
  let et := f 98 96
  let stride := f 159 128
  let size := if et = 0 then 1 else if et = 4 then 2 else 4
  let last := base + (rows - 1) * stride + cols * size
  f 63 48 = 0 ∧ f 79 75 = 0 ∧ f 95 91 = 0 ∧ f 127 99 = 0 ∧ f 255 160 = 0 ∧
  1 ≤ rows ∧ rows ≤ 1024 ∧ 1 ≤ cols ∧ cols ≤ 1024 ∧ (et = 0 ∨ et = 4 ∨ et = 5) ∧ cols * size ≤ stride ∧
  base % 8 = 0 ∧ stride % 8 = 0 ∧
  ((s.me.bank.kernel.cb * 8192 ≤ base ∧ last ≤ 2 ^ 18) ∨ (2 ^ 20 ≤ base ∧ last ≤ 2 ^ 21))

/-- The job of a slot has ended with a status word: status, kind, identifier, DCODE and DLEN (R251). -/
def EndedWith (s t : State) (c n status dcode dlen : Nat) : Prop :=
  let j := s.job c n
  (t.job c n).st = .ended ∧ (t.job c n).status =
    nat (status + j.kind % 256 * 2 ^ 8 + (n + 8 * j.gen.toNat) % 2 ^ 16 * 2 ^ 16 + dcode * 2 ^ 32 + dlen * 2 ^ 40)

/-- No task of the cluster runs, and the cluster is not time-shared. -/
def IdleCluster (s : State) (k : Nat) : Prop :=
  (∀ c, c / 8 = k → Unshared s c) ∧ ∀ c (i : Fin 4), c / 8 = k → (s.ctx c i).running = false

/-- The byte of memory behind an offset of a core's map, in a cluster that is not time-shared (R113). -/
def localPlace (c a : Nat) : Option Nat :=
  if a < 2 ^ 18 then some (2 ^ 41 + c * 2 ^ 18 + a)
  else if 2 ^ 20 ≤ a ∧ a < 2 ^ 21 then some (2 ^ 41 + 2 ^ 36 + c / 8 * 2 ^ 20 + (a - 2 ^ 20))
  else none

/-- n bytes at an offset of a core's map, little-endian. -/
def localNum (m : Memory) (c a n : Nat) : Nat :=
  ((List.range n).map fun i => (m.byte ((localPlace c (a + i)).getD 0)).toNat * 256 ^ i).sum

/-- Every codeword of the module can be corrected. -/
def NoErrors (s : State) : Prop := s.uncorrectable = [] ∧ s.failedBanks = []

/-- The head of a core's slice queue is a job j in slot n (R253). -/
def HeadIs (s : State) (c n : Nat) (j : Job) : Prop := s.sliceHead c = some (n, j)

/-- z is x × y + c rounded once, as FMA.S gives it. -/
def FmaStep (x y c z : Nat) : Prop := ∃ g, LikeScalar .fmaS .fmaD .f32 x y c z g

/-- z is x / y rounded once, as FDIV.S gives it; and an encoding with its sign turned. -/
def DivStep (x y z : Nat) : Prop := ∃ g, ∀ c, LikeScalar .fdivS .fdivD .f32 x y c z g
def turned (x : Nat) : Nat := if x < 2 ^ 31 then x + 2 ^ 31 else x - 2 ^ 31

/-- A tile of binary32 in the scratchpad, its rows apart (R283). -/
def ScratchTile (t : BitVec 256) : Prop :=
  tmEt t = 5 ∧ 1 ≤ tmRows t ∧ tmRows t ≤ 128 ∧ 1 ≤ tmCols t ∧ tmCols t * 4 ≤ tmStride t ∧ 2 ^ 20 ≤ tmBase t ∧
  tmBase t + tmSpan t ≤ 2 ^ 21

/-- The bytes of a tile, and of n bytes from a on, as offsets of a core's map. -/
def inTile (t : BitVec 256) (a : Nat) : Prop := tmBase t ≤ a ∧ a < tmBase t + tmSpan t
def inRange (a n b : Nat) : Prop := a ≤ b ∧ b < a + n

/-- A byte of memory that is none of those a core's map has at the offsets in p is as it was. -/
def OnlyLocal (s t : State) (c : Nat) (p : Nat → Prop) : Prop :=
  ∀ b, (∀ a, p a → localPlace c a ≠ some b) → t.mem.byte b = s.mem.byte b

/-- One list entry of a RIDL: score, identifier and input index, and the order of R413. -/
structure ListEntry where
  score : Nat
  id : Nat
  ix : Nat
def ListEntry.ahead (a b : ListEntry) : Prop :=
  below fmt32 b.score a.score ∨
  (¬below fmt32 a.score b.score ∧ ¬below fmt32 b.score a.score ∧ (a.id < b.id ∨ (a.id = b.id ∧ a.ix < b.ix)))

/-! ### Atomic threads -/

/-- The instruction reads memory at most and brings its context to a commit point with a to follow. -/
def Awaits (i : Instr) (s : State) (a : After) : Prop :=
  ∃ sig : BitVec 1024, exec i s = .next
    (waiting (s.setCx { s.cx with chunk := { s.cx.chunk with rsig := sig } }) (.commit a))

/-- The cluster is not time-shared and no context of it that runs has read or written anything in its chunk. -/
def CalmCluster (s : State) (k : Nat) : Prop :=
  (∀ c, c / 8 = k → Unshared s c) ∧
  ∀ c (i : Fin 4), c / 8 = k → (s.ctx c i).running = true → (s.ctx c i).chunk = Chunk.empty

/-- The context of a request goes on with x in its rd from a new checkpoint. -/
def Answered (s t : State) (c : Nat) (i : Fin 4) (rd : GReg) (x : Word) : Prop :=
  let y := s.ctx c i
  let r := { y.regs.put rd x with pc := y.regs.pc + nat 4 }
  t.ctx c i = { y with regs := r, ckpt := r, st := .ready, wait := .none }

/-- A word of a core's TCM in memory. -/
def tcmAtCore (s : State) (c a : Nat) : Word := s.mem.word (2 ^ 41 + c * 2 ^ 18 + a)

/-- The only request of a core is q, of a context that waits for the thread; no CMWAIT is held. -/
def OnlyRequest (s : State) (c : Nat) (q : ThreadReq) (i : Fin 4) : Prop :=
  (s.core c).reqs = [q] ∧ (s.core c).held = [] ∧ q.live = true ∧ q.ctx = i.val ∧ (s.ctx c i).st = .waiting ∧
  (s.ctx c i).wait = .thread q.rd

/-- The entries of a submission mapped by a member's forward map, which is read as a load reads (R118, R427, R433): from
entries es, with `out` kept so far, in a state s, the result is `res` and the state u. -/
def Mapped (fm fn v : Nat) : List Word → List (Nat × Nat) → State → List (Nat × Nat) → State → Prop
  | [], out, s, res, u => res = out ∧ u = s
  | e :: es, out, s, res, u =>
    let l := e.toNat % 2 ^ 32
    let t := e.toNat / 2 ^ 32 % 2 ^ 24
    let dropped := isNan fmt32 l = true ∨ fn ≤ t
    (dropped → Mapped fm fn v es out s res u) ∧
    (¬dropped → ∃ f s', s.load (nat (fm + 4 * t)) 4 = .ok (f, s') ∧
      let useless := 2 ^ 20 ≤ f ∨ v ≤ f ∨ ∃ k, (k, f) ∈ out ∧ ¬below fmt32 k l
      (useless → Mapped fm fn v es out s' res u) ∧
      (¬useless → Mapped fm fn v es (out.filter (fun p => decide (p.2 ≠ f)) ++ [(l, f)]) s' res u))

/-- The inverse entries of id x for the LIVE members among ms, read as loads read (R427, R436); two zero words for each
other one. -/
def Inverses (r x live : Nat) : List Nat → State → List Word → State → Prop
  | [], s, ws, u => ws = [] ∧ u = s
  | m :: ms, s, ws, u =>
    (live.testBit m = false → ∃ rest, ws = 0 :: 0 :: rest ∧ Inverses r x live ms s rest u) ∧
    (live.testBit m = true → ∃ im s1 e s2 rest, s.load (nat (r + 0x80 + 64 * m + 0x28)) 8 = .ok (im, s1) ∧
      s1.loadWords (nat (im % 2 ^ 48 + 16 * x)) 2 = .ok (e, s2) ∧ ws = e ++ rest ∧ Inverses r x live ms s2 rest u)

/-- What feeding id x does to a LIVE member: its feed entry, its position and what its policy does at the limit. i0 and i1
are its inverse entry (R427, R436). -/
def AtLimit (s : State) (c r m i0 : Nat) (policy : Nat) : Prop :=
  let w (k : Nat) := (tcmAtCore s c (r + 0x80 + 64 * m + k)).toNat
  let up := (w 0x10 + if i0 % 8 = 0 then 1 else i0 % 8) % 2 ^ 64
  w 0x18 % 2 ^ 32 ≠ 0 ∧ w 0x18 % 2 ^ 32 ≤ up ∧ w 0 / 2 ^ 4 % 4 = policy
def FedMember (s t : State) (c r feed m i0 i1 : Nat) : Prop :=
  let w (u : State) (k : Nat) := (tcmAtCore u c (r + 0x80 + 64 * m + k)).toNat
  let out (k : Nat) := (tcmAtCore t c (feed + 32 * m + 8 * k)).toNat
  let n := if i0 % 8 = 0 then 1 else i0 % 8
  let up := (w s 0x10 + n) % 2 ^ 64
  let t0 := if i0 % 8 = 0 then w s 0x30 / 2 ^ 40 else i0 / 2 ^ 8 % 2 ^ 24
  let fed (slide retire end_ : Prop) : Prop := ∃ now a b d : Nat,
    (slide → now = (up + 2 ^ 64 - w s 0x18 / 2 ^ 32) % 2 ^ 64 ∧ a = 32) ∧ (¬slide → now = up ∧ a = 0) ∧
    (retire → b = 64 ∧ w t 0 = w s 0 / 4 * 4 + 2) ∧ (¬retire → b = 0 ∧ w t 0 = w s 0) ∧
    (end_ → d = 128) ∧ (¬end_ → d = 0) ∧
    out 0 = n + (if i0 % 8 = 0 then 16 else 0) + a + b + d ∧
    out 1 = t0 + i0 / 2 ^ 32 % 2 ^ 24 * 2 ^ 32 ∧ out 2 = i1 % 2 ^ 24 + i1 / 2 ^ 32 % 2 ^ 24 * 2 ^ 32 ∧
    out 3 = now ∧ w t 0x10 = now ∧ w t 0x38 = ((tcmAtCore s c (r + 8)).toNat + 1) % 2 ^ 64
  fed (AtLimit s c r m i0 0) (AtLimit s c r m i0 1) (AtLimit s c r m i0 2)

/-- The value of a shipped function on a binary32 lane (R232), as VSFN gives it. -/
def Sfu32 (fn : BitVec 4) (x n : Nat) : Prop :=
  ∀ (u : State) (vd vs : VReg) (k : KReg) (v : VWord), u.ctl = true → (u.regs.getK k).getLsbD 0 = true →
    laneOf .f32 (u.regs.getV vs) 0 = x →
    Leaves (.vsfn fn .f32 vd vs k) u { u.regs.putV vd v with pc := u.regs.pc + nat 4 } → laneOf .f32 v 0 = n

/-- The exact value of a user table at a lane of a format: LOW before its first seam, HIGH from its last on, and between
them the segment's polynomial, for entries that are finite (R231, R234). -/
def UserExact (t : UserTable) (f : Fmt) (x : Nat) (q : Rat) : Prop :=
  let v (y : F32) := value fmt32 y.toNat
  let w : Rat := (2 : Rat) ^ t.we
  ∃ z x0 : Rat, value f x = some z ∧ v t.x0 = some x0 ∧
    ((z < x0 ∧ v t.low = some q) ∨ (x0 + t.n * w ≤ z ∧ v t.high = some q) ∨
      (x0 ≤ z ∧ ∃ j < t.n, ∃ y0 y1 d : Rat,
        let u := (z - x0) / w - j
        let g := t.segs.getD j (0, 0, 0)
        0 ≤ u ∧ u < 1 ∧ v g.1 = some y0 ∧ v g.2.1 = some y1 ∧ (if t.lin then d = 0 else v g.2.2 = some d) ∧
        q = y0 + u * (y1 - y0) + u * (u - 1) * d))

/-- A table whose width the model's arithmetic holds exactly. -/
def PlainWidth (t : UserTable) : Prop := -24 ≤ t.we ∧ t.we ≤ 24

/-- A record at r: the members whose lists count, the words of a member's list block, its entries, and the terms (R422 to
R426). -/
def cmJoined (s : State) (c r : Nat) : Nat :=
  (tcmAtCore s c r).toNat / 2 ^ 16 % 256 &&& (tcmAtCore s c r).toNat / 2 ^ 24 % 256
def cmList (s : State) (c r m k : Nat) : Nat := (tcmAtCore s c (r + 0x400 + 544 * m + k)).toNat
def cmEntry (s : State) (c r m : Nat) (id logit : Nat) : Prop :=
  ∃ e < cmList s c r m 0 % 128, cmList s c r m (0x20 + 8 * e) % 2 ^ 32 = logit ∧
    cmList s c r m (0x20 + 8 * e) / 2 ^ 32 % 2 ^ 20 = id
def cmTerm (s : State) (c r t : Nat) : Nat := (tcmAtCore s c (r + 0x40 + 8 * t)).toNat

/-- The lists that count hold at most 64 entries, and no id twice. -/
def GoodLists (s : State) (c r : Nat) : Prop :=
  ∀ m < 8, (cmJoined s c r).testBit m = true → cmList s c r m 0 % 128 ≤ 64 ∧
    ∀ e < cmList s c r m 0 % 128, ∀ d < e,
      cmList s c r m (0x20 + 8 * d) / 2 ^ 32 % 2 ^ 20 ≠ cmList s c r m (0x20 + 8 * e) / 2 ^ 32 % 2 ^ 20

/-- x is a candidate of CMBN, and z is its score (R435). -/
def cmCandidate (s : State) (c r x : Nat) : Prop :=
  ∃ t ≤ (tcmAtCore s c r).toNat / 2 ^ 8 % 8, (cmJoined s c r).testBit (cmTerm s c r t % 8) = true ∧
    ∃ l, cmEntry s c r (cmTerm s c r t % 8) x l
def cmScore (s : State) (c r x z : Nat) : Prop :=
  let ctl := (tcmAtCore s c r).toNat
  let mode := ctl / 2 ^ 4 % 4
  let nt := ctl / 2 ^ 8 % 8
  let tm := (tcmAtCore s c (r + 0x20)).toNat
  let does (op : GReg → GReg → GReg → Instr) (a b y : Nat) : Prop := ∃ g, Scalar32 op a b y g
  ∃ (acc : Nat → Option Nat) (a b : Nat), acc 0 = none ∧ acc (nt + 1) = some a ∧
    (if mode = 1 then Sfu32 3 a b else b = a) ∧ does .fdivS b (tm % 2 ^ 32) z ∧
    ∀ t ≤ nt,
      let m := cmTerm s c r t % 8
      let lnorm := cmList s c r m 0 / 2 ^ 32
      if (cmJoined s c r).testBit m = false then acc (t + 1) = acc t else ∃ lp v q : Nat,
        (∀ l, cmEntry s c r m x l → does .fsubS l lnorm lp) ∧
        ((∀ l, ¬cmEntry s c r m x l) →
          ∃ y, does .fsubS (cmList s c r m 8 % 2 ^ 32) lnorm y ∧ does .fsubS y (tm / 2 ^ 32) lp) ∧
        (if (cmTerm s c r t).testBit 3 then Sfu32 1 lp v else v = lp) ∧
        does .fmulS (cmTerm s c r t / 2 ^ 32) v q ∧
        (acc t = none → acc (t + 1) = some q) ∧
        ∀ k, acc t = some k → ∃ y, acc (t + 1) = some y ∧
          does (if mode = 2 then .fmaxS else if mode = 3 then .fminS else .faddS) k q y

/-- The order of CMBN: score descending, ties to the lower id, NaN last by id (R435). -/
def cmAhead (a b : Nat × Nat) : Prop :=
  (isNan fmt32 a.1 = false ∧ isNan fmt32 b.1 = true) ∨ (isNan fmt32 a.1 = true ∧ isNan fmt32 b.1 = true ∧ a.2 < b.2) ∨
  (isNan fmt32 a.1 = false ∧ isNan fmt32 b.1 = false ∧ (below fmt32 b.1 a.1 ∨
    (¬below fmt32 a.1 b.1 ∧ ¬below fmt32 b.1 a.1 ∧ a.2 < b.2)))

/-- Of es, the scores and ids of all candidates, the first n are written at dst of the TCM, and nothing else is (R435). -/
def CombinedList (s t : State) (c r dst n : Nat) (es : List (Nat × Nat)) : Prop :=
  n ≤ es.length ∧ (es.map Prod.snd).Nodup ∧ (∀ x, x ∈ es.map Prod.snd ↔ cmCandidate s c r x) ∧
  (∀ e ∈ es, cmScore s c r e.2 e.1) ∧ es.Pairwise cmAhead ∧
  (∀ k < n, tcmAtCore t c (dst + 8 * k) = nat ((es.getD k (0, 0)).1 + (es.getD k (0, 0)).2 * 2 ^ 32)) ∧
  ∀ b, ¬inRange (2 ^ 41 + c * 2 ^ 18 + dst) (8 * n) b → t.mem.byte b = s.mem.byte b

/-- The 64-bit result of a barrier's operation over its payloads (R319). -/
def BarrierResult (op : Nat) (as : List Arrival) (x : Word) : Prop :=
  match op with
  | 0 => ∀ j < 64, x.getLsbD j = true ↔ j < 32 ∧ ∀ a ∈ as, a.pl.getLsbD j = true
  | 1 => ∀ j < 64, x.getLsbD j = true ↔ j < 32 ∧ ∃ a ∈ as, a.pl.getLsbD j = true
  | 2 => x = int ((as.map fun a => a.pl.toInt).sum)
  | _ => x = nat (as.countP fun a => decide (a.pl ≠ 0))

/-! ### Translation -/

/-- The second-stage entry of a guest address: inside the guest, valid and well-formed (R366). -/
def SecondStage (s : State) (v ga : Nat) (e : Word) : Prop :=
  ga / 2 ^ 21 < (s.vdev v).s2len.toNat ∧ s.hyperWord true ga ((s.vdev v).s2base.toNat + 8 * (ga / 2 ^ 21)) = .ok e ∧
  e.getLsbD 0 = true ∧ e.toNat / 2 ^ 4 % 2 ^ 4 = 0 ∧ e.toNat / 2 ^ 16 % 2 ^ 5 = 0 ∧ e.toNat < 2 ^ 41 ∧
  (e.getLsbD 40 = true → e.toNat / 2 ^ 33 % 2 ^ 7 = 0)

/-- The word at a guest address, read through a second-stage entry that lets it be read, in a window that admits the
virtual device (R468); no older store to it is left for a load to return. -/
def GuestIs (s : State) (v ga : Nat) (x : Word) : Prop :=
  ∃ e, SecondStage s v ga e ∧ e.getLsbD 1 = true ∧ s.windowOk v (e.toNat / 2 ^ 8 % 2 ^ 8) = true ∧
    let a := e.toNat / 2 ^ 21 % 2 ^ 20 * 2 ^ 21 + ga % 2 ^ 21
    let own : Home := s.guestHome v (e.toNat / 2 ^ 8 % 2 ^ 8) ga
    let p : Place := { addr := a, home := if a < 2 ^ 40 then some own else none }
    (s.lineSt p = .fresh ∨ s.lineSt p = .good) ∧ s.wordAt p = x ∧ Tab.get s.hist (a / 8) [] = []

/-- The table that a root or an entry of level 1 or 2 names, the shape of those, the shape of a leaf, and the guest address
that a leaf gives an access (R362 to R364). -/
def tableOf (e : Word) : Nat := e.toNat / 2 ^ 12 % 2 ^ 28 * 2 ^ 12
def upperEntry (e : Word) : Prop := e.getLsbD 0 = true ∧ e.toNat / 2 % 2 ^ 13 = 0 ∧ e.toNat < 2 ^ 40
def leafEntry (e : Word) : Prop :=
  e.getLsbD 0 = true ∧ e.toNat / 2 % 8 ≠ 0 ∧ (e.getLsbD 2 = true → e.getLsbD 1 = true) ∧
  e.toNat / 2 ^ 5 % 2 ^ 11 = 0 ∧ e.toNat < 2 ^ 40 ∧ (e.getLsbD 4 = true → e.toNat / 2 ^ 16 % 2 ^ 5 = 0)
def leafGpa (e : Word) (va : Nat) : Nat :=
  if e.getLsbD 4 then e.toNat / 2 ^ 21 * 2 ^ 21 + va % 2 ^ 21 else e.toNat / 2 ^ 16 * 2 ^ 16 + va % 2 ^ 16

/-- The guest addresses of the entries that a walk of an address reads at levels 1 to 3, below an entry (R362). -/
def entryAt (level : Nat) (e : Word) (va : Nat) : Nat :=
  tableOf e + 8 * (if level = 1 then va / 2 ^ 37 % 2 ^ 11 else if level = 2 then va / 2 ^ 26 % 2 ^ 11
    else va / 2 ^ 16 % 2 ^ 10)

/-- The address is one that the executing core translates, with no translation cached, under a space of this root. -/
def Rooted (s : State) (va : Nat) (root : Word) : Prop :=
  let v := s.me.bank.vdid
  let sid := s.me.bank.sidr.toNat % 2 ^ 16
  va < 2 ^ 48 ∧ (s.ctl = false → 2 ^ 32 ≤ va) ∧
  (∀ e ∈ s.me.tlb, ¬(e.vd = v ∧ e.sid = sid ∧ e.page = va / 2 ^ 16)) ∧
  s.hyperWord false 0 ((s.vdev v).sidtb.toNat + 8 * sid) = .ok root

/-- The walk of an address ends at a leaf e3 and a second-stage entry f, and with them at a place: HBM under the key of the
virtual device or of a window that admits it, or die SRAM (R362, R366, R468). -/
def PageTo (s : State) (va : Nat) (e3 f : Word) (p : Place) : Prop :=
  let v := s.me.bank.vdid
  let gpa := leafGpa e3 va
  let a := f.toNat / 2 ^ 21 % 2 ^ 20 * 2 ^ 21 + gpa % 2 ^ 21
  (∃ root e1 e2 : Word, Rooted s va root ∧ upperEntry root ∧ GuestIs s v (entryAt 1 root va) e1 ∧ upperEntry e1 ∧
    GuestIs s v (entryAt 2 e1 va) e2 ∧ upperEntry e2 ∧ GuestIs s v (entryAt 3 e2 va) e3) ∧
  leafEntry e3 ∧ SecondStage s v gpa f ∧ s.windowOk v (f.toNat / 2 ^ 8 % 2 ^ 8) = true ∧
  p = { addr := a, home := if a < 2 ^ 40 then some (s.guestHome v (f.toNat / 2 ^ 8 % 2 ^ 8) gpa) else none }

/-- A word that a load of an agent may return at a place: the coherence-latest store, or one it superseded that is not
before the agent's floor (R334). -/
def Returned (s : State) (c : Nat) (p : Place) (w : Word) : Prop :=
  let old := Tab.get s.hist (p.addr / 8) []
  w = s.wordAt p ∨ ∃ k < old.length, Tab.get (s.core c).floors (p.addr / 8) 0 ≤ k ∧ old.getD (old.length - 1 - k) 0 = w

/-- n bytes from an address on within a word of memory, with a chunk's own bytes over them (R120). -/
def overNum (cells : Tab Byte) (a : Nat) (w : Word) (n : Nat) : Nat :=
  ((List.range n).map fun k =>
    ((Tab.look cells (a + k)).getD (BitVec.ofNat 8 (w.toNat / 256 ^ ((a + k) % 8)))).toNat * 256 ^ k).sum

/-- A load of n bytes through a page that may be read, whose data verify: x, extended, goes to rd (R118, R334). -/
def LoadsPage (i : Instr) (s : State) (rd : GReg) (va : Word) (n len : Nat) (ext : Nat → Word) : Prop :=
  ∀ (e3 f : Word) (p : Place), va.toNat % n = 0 → NoErrors s → PageTo s va.toNat e3 f p →
    e3.getLsbD 1 = true → f.getLsbD 1 = true → (s.lineSt p = .fresh ∨ s.lineSt p = .good) →
    ∃ (u : State) (w : Word), exec i s = .next u.settle ∧ Returned s s.focus.1 p w ∧
      u.regs = { s.regs.put rd (ext (overNum s.cx.chunk.cells p.addr w n)) with pc := s.regs.pc + nat len } ∧
      u.mem = s.mem ∧ u.net = s.net ∧ u.cx.chunk.cells = s.cx.chunk.cells ∧
      (s.ctl = false → u.cx.chunk.rsig = s.cx.chunk.rsig ||| sigBit p.addr) ∧
      ∀ c (k : Fin 4), (c, k) ≠ s.focus → u.ctx c k = s.ctx c k

/-- A task's store of the low n bytes of x through a page that may be written: its chunk holds them (R118, R119). -/
def StoresPage (i : Instr) (s : State) (x : Word) (va : Word) (n len : Nat) : Prop :=
  ∀ (e3 f : Word) (p : Place), s.ctl = false → va.toNat % n = 0 → NoErrors s → PageTo s va.toNat e3 f p →
    e3.getLsbD 2 = true → f.getLsbD 2 = true → s.cx.chunk.full p.addr = false →
    ∃ u : State, exec i s = .next u.settle ∧ u.regs = { s.regs with pc := s.regs.pc + nat len } ∧
      u.mem = s.mem ∧ u.net = s.net ∧ u.cx.chunk.wsig = s.cx.chunk.wsig ||| sigBit p.addr ∧
      (∀ b, Tab.look u.cx.chunk.cells b = if p.addr ≤ b ∧ b < p.addr + n
        then some (x.extractLsb' (8 * (b - p.addr)) 8) else Tab.look s.cx.chunk.cells b) ∧
      (∀ h, p.home = some h → Tab.look u.cx.chunk.homes (p.addr / 64) = some h) ∧
      ∀ c (k : Fin 4), (c, k) ≠ s.focus → u.ctx c k = s.ctx c k

/-- The instruction traps for a translation that fails, with PGINF's fields (R375). -/
def PageTraps (i : Instr) (s : State) (cause : Cause) (va : Word) (level stage reason gpa : Nat) : Prop :=
  ∃ t : Trap, exec i s = .next (s.takeTrap t s.regs.pc) ∧ t.cause = cause ∧ t.sub = 0 ∧ t.faddr = some va ∧
    t.pginf = some (nat (level + stage * 2 ^ 2 + reason * 2 ^ 3 + gpa % 2 ^ 40 * 2 ^ 24)) ∧ t.translated = true ∧
    t.stage2 = decide (stage = 1)

/-- What an aligned access of translated memory traps for on its walk: an entry that is not present or malformed at any
level, a page outside the guest, a permission that is missing at either stage (R118, R367, R375). -/
def WalkTraps (i : Instr) (s : State) (va : Word) (n : Nat) (store : Bool) : Prop :=
  ∀ root e1 e2 e3 f : Word,
    let v := s.me.bank.vdid
    let a := va.toNat
    let page := PageTraps i s (if store then .pageW else .pageR) va
    let fails (level ga : Nat) (e : Word) (good : Prop) : Prop :=
      (e.getLsbD 0 = false → page level 0 1 ga) ∧ (e.getLsbD 0 = true → ¬good → page level 0 2 ga)
    let bit := if store then 2 else 1
    a % n = 0 → NoErrors s → Rooted s a root →
    fails 0 0 root (upperEntry root) ∧
    (upperEntry root → GuestIs s v (entryAt 1 root a) e1 →
      fails 1 (entryAt 1 root a) e1 (upperEntry e1) ∧
      (upperEntry e1 → GuestIs s v (entryAt 2 e1 a) e2 →
        fails 2 (entryAt 2 e1 a) e2 (upperEntry e2) ∧
        (upperEntry e2 → GuestIs s v (entryAt 3 e2 a) e3 →
          fails 3 (entryAt 3 e2 a) e3 (leafEntry e3) ∧
          (leafEntry e3 → (s.vdev v).s2len.toNat ≤ leafGpa e3 a / 2 ^ 21 → page 0 1 4 (leafGpa e3 a)) ∧
          (leafEntry e3 → SecondStage s v (leafGpa e3 a) f →
            (e3.getLsbD bit = false → PageTraps i s .perm va 3 0 3 (leafGpa e3 a)) ∧
            (e3.getLsbD bit = true → f.getLsbD bit = false → PageTraps i s .perm va 0 1 3 (leafGpa e3 a))))))

/-! ### The link -/

/-- The hypervisor's report core, where HRPT names one, is sent one report and nothing else (R178, R461). -/
def Reported (s t : State) (payload : List Word) : Prop :=
  ∀ c m, coreRef (s.hrpt.toNat % 2 ^ 31) = some (c, m) →
    ∃ q : Msg, t.net = s.net ++ [q] ∧ q.kind = .report ∧ q.dst = c ∧ q.dmod = netMod s q.src m ∧ q.payload = payload

/-- The event changes link l to y and no other link. -/
def LinkBecomes (s t : State) (l : Nat) (y : Link) : Prop := t.link l = y ∧ ∀ k, k ≠ l → t.link k = s.link k

/-- A word of memory is a window's: its line is written under the window's key, or its frame of die SRAM is mapped with the
window (R366, R457). -/
def OfWindow (s : State) (n : Nat) (w : Window) (word : Nat) : Prop :=
  (8 * word < 2 ^ 40 ∧ ∃ l, Tab.look s.lines (word / 8) = some l ∧ l.key = w.key) ∨
  (2 ^ 40 ≤ 8 * word ∧ 8 * word < 2 ^ 41 ∧ ∃ v < 64, ∃ f < 2 ^ 19, ∃ e, SecondStage s v (f * 2 ^ 21) e ∧
    e.toNat / 2 ^ 8 % 2 ^ 8 = n ∧ e.toNat / 2 ^ 21 % 2 ^ 20 = word / 2 ^ 18)

/-- A number of members of a ring as a mask, and member i's bit. -/
def memberBit (i : Nat) : BitVec 30 := BitVec.ofNat 30 (2 ^ i)

/-- Where the context of a queue lies (R473). -/
def portBase (s : State) (port q : Nat) : Nat := (Tab.get s.pctb port 0).toNat % 2 ^ 41 + 128 * q

/-- The context of a queue as its port holds it: its sixteen words when the port read it (R473). -/
def portCopy (s : State) (port q : Nat) : Option (List Word) := Tab.look s.portCtxs (port * 4096 + q)

/-- A port holds the context ws of a queue of its table, whose control word is w in memory, and the hypervisor's memory
there can be written. -/
def PortContext (s : State) (port q : Nat) (ws : List Word) (w : Word) : Prop :=
  port < 3 ∧ q ≤ (Tab.get s.pctb port 0).toNat / 2 ^ 44 % 2 ^ 12 ∧ portBase s port q % 64 = 0 ∧
  portCopy s port q = some ws ∧ ws.length = 16 ∧ s.hyperWord false 0 (portBase s port q) = .ok w ∧ NoErrors s ∧
  s.version (s.hypHome (portBase s port q)) + 2 < 2 ^ 56

/-- The context of a queue as it stands in memory. -/
def ContextInMemory (s : State) (port q : Nat) (ws : List Word) : Prop :=
  ws.length = 16 ∧ ∀ k < 16, s.hyperWord false 0 (portBase s port q + 8 * k) = .ok (ws.getD k 0)

/-- A port serves a context: it is valid and of the port's kind, and the storage port holds no other (R443, R473). -/
def ServedKind (s : State) (port q : Nat) (ws : List Word) : Prop :=
  (ws.getD 0 0).getLsbD 6 = true ∧ (ws.getD 0 0).toNat / 2 ^ 8 % 2 ^ 4 = (if port = 2 then 0 else 1) ∧
  (port = 2 → ∀ e ∈ s.portCtxs, e.1 / 4096 = 2 → e.1 % 4096 = q)

/-- A store at a place can raise the version of its line. -/
def versionRoom (s : State) (p : Place) : Prop := ∀ h, p.home = some h → s.version h + 1 < 2 ^ 56

/-! ### The control profile -/

/-- An instruction of the control profile: ILLEGAL on a fabric core, PRIV below its level (R79, R475). -/
def ControlOnly (i : Instr) (s : State) (least : Nat) : Prop :=
  (s.ctl = false → NotHere i s) ∧ (s.ctl = true → s.level < least → TrapsBare i s .priv 0)

/-- The executing control core runs at least at a level. -/
def AtLevel (s : State) (least : Nat) : Prop := s.ctl = true ∧ least ≤ s.level

/-- The instruction writes x to rd and moves on; everything else is as in u. -/
def Makes (i : Instr) (s : State) (rd : GReg) (x : Word) (u : State) : Prop :=
  exec i s = .next (u.setRegs { s.regs.put rd x with pc := s.regs.pc + 4 })

/-- The instruction writes 0 to rd and moves on, in a state of which P holds. -/
def KeyDone (i : Instr) (s : State) (rd : GReg) (P : State → Prop) : Prop :=
  ∃ t : State, exec i s = .next t ∧ t.regs = { s.regs.put rd 0 with pc := s.regs.pc + 4 } ∧ P t

/-! ### Pre-emption and the loader -/

/-- The service messages of a core begin with m, of operation op (R171). -/
def ServiceHead (s : State) (c op : Nat) (m : Msg) (rest : List Msg) : Prop :=
  (s.core c).svc = m :: rest ∧ m.w0.toNat % 2 ^ 48 = 0xFFFF_FFFF_FF00 + op

/-- A fabric core of a cluster that is not time-shared, whose SAVEB, b, lets the save record stand in the core's own
TCM. -/
def SaveInTcm (s : State) (c b : Nat) : Prop :=
  c < 2 ^ 18 ∧ Unshared s c ∧ NoErrors s ∧ (s.bank c).saveb = nat b ∧ b % 8 = 0 ∧
  (s.bank c).kernel.cb * 8192 ≤ b ∧ b + 0xA300 ≤ 2 ^ 18

/-- No forced chunk of a cluster's tasks runs: its harts need not wait (R329). -/
def Unforced (s : State) (k : Nat) : Prop :=
  ∀ c (i : Fin 4), c / 8 = k → (s.ctx c i).running = true → (s.ctx c i).forced = false

/-- No task of a core runs or is reserved, no request of one to the atomic thread is left, no status of a cancelled job is
still to be stored, and no job is queued or runs (R172, R279, R401). -/
def RunOut (s : State) (c : Nat) : Prop :=
  (s.core c).reqs = [] ∧ (s.core c).held = [] ∧ (s.core c).owed = [] ∧
  (∀ i : Fin 4, (s.ctx c i).st = .free ∨ (s.ctx c i).st = .suspended ∨ (s.ctx c i).st = .retained) ∧
  ∀ n < 8, (s.job c n).st ≠ .queued ∧ (s.job c n).st ≠ .running

/-- The head command of a virtual device is a, whose block its sender reaches under the space and level it
had when it wrote CMD, and which reads as bs, leaving state u (R205). -/
def Command (s : State) (v : Nat) (a : LoadCmd) (rest : List LoadCmd) (bs : List Word) (u : State) : Prop :=
  (s.vdev v).loads = a :: rest ∧ s.drainingOf v = false ∧ s.deviceGetWordsAs (a.asker v) a.block 8 = (.ok bs, u)

/-- The command ends: the next may begin, and STATUS is written where the block's address leads from state u. -/
def Ended (u t : State) (v : Nat) (a : LoadCmd) (rest : List LoadCmd) (status : Nat) : Prop :=
  (t.vdev v).loads = rest ∧
  ∀ p w, u.deviceFindAs (a.asker v) .store (a.block + 0x38) = (.ok p, w) → t.byteAt p = BitVec.ofNat 8 status

/-- A command block without a fault of its own, for clusters of the virtual device (R205). -/
def goodBlock (s : State) (v : Nat) (bs : List Word) : Prop :=
  let w (k : Nat) : Nat := (bs.getD k 0).toNat
  w 2 < 2 ^ 32 ∧ w 5 = 0 ∧ w 6 = 0 ∧ w 4 < 2 ^ 16 ∧ (w 0 % 2 ^ 8 = 0 → w 1 % 64 = 0) ∧
  s.rectOwned v (bs.getD 2 0) = true

/-! ### Invariants -/

/-- The control profile's registers stay within their fields and ranges. -/
def RegistersInRange (s : State) : Prop :=
  (∀ e ∈ s.cores, e.2.priv.cprv ≤ 2) ∧ 1 ≤ s.slotLen ∧ s.slotLen ≤ 256 ∧ 1 ≤ s.slotLenNext ∧ s.slotLenNext ≤ 256 ∧
  16000 ≤ s.slotPeriod ∧ 16000 ≤ s.slotPeriodNext ∧ s.hrpt.toNat < 2 ^ 31 ∧ s.modw.toNat < 2 ^ 12

end Sys2Proof.Claims

open Sys2Proof.Claims

/-! ### Integer operations -/

/-- R125, R126: every member of major 0x01 writes the value its row gives to rd, moves 4 bytes on and changes
nothing else; no member traps. Sums, differences and products are taken on integers and reduced modulo 2^64. -/
def Sys2Proof.Claims.IntegerOperationsWriteTheirResults : Prop :=
  ∀ (s : State) (rd rs1 rs2 : GReg),
    let a := s.regs.get rs1
    let b := s.regs.get rs2
    let n := b.toNat % 64
    let m := b.toNat % 32
    Gives (.add rd rs1 rs2) s rd (nat (a.toNat + b.toNat)) 4 ∧
    Gives (.sub rd rs1 rs2) s rd (int (a.toInt - b.toInt)) 4 ∧
    (∃ x, Gives (.and rd rs1 rs2) s rd x 4 ∧ ∀ i < 64, x.getLsbD i = (a.getLsbD i && b.getLsbD i)) ∧
    (∃ x, Gives (.or rd rs1 rs2) s rd x 4 ∧ ∀ i < 64, x.getLsbD i = (a.getLsbD i || b.getLsbD i)) ∧
    (∃ x, Gives (.xor rd rs1 rs2) s rd x 4 ∧ ∀ i < 64, x.getLsbD i = (a.getLsbD i != b.getLsbD i)) ∧
    (∃ x, Gives (.andn rd rs1 rs2) s rd x 4 ∧ ∀ i < 64, x.getLsbD i = (a.getLsbD i && !b.getLsbD i)) ∧
    (∃ x, Gives (.orn rd rs1 rs2) s rd x 4 ∧ ∀ i < 64, x.getLsbD i = (a.getLsbD i || !b.getLsbD i)) ∧
    Gives (.sll rd rs1 rs2) s rd (nat (a.toNat * 2 ^ n)) 4 ∧
    Gives (.srl rd rs1 rs2) s rd (nat (a.toNat / 2 ^ n)) 4 ∧
    Gives (.sra rd rs1 rs2) s rd (int (a.toInt / (2 : Int) ^ n)) 4 ∧
    (∃ x, Gives (.rol rd rs1 rs2) s rd x 4 ∧ ∀ i < 64, x.getLsbD ((i + n) % 64) = a.getLsbD i) ∧
    (∃ x, Gives (.ror rd rs1 rs2) s rd x 4 ∧ ∀ i < 64, x.getLsbD i = a.getLsbD ((i + n) % 64)) ∧
    Gives (.slt rd rs1 rs2) s rd (if a.toInt < b.toInt then 1 else 0) 4 ∧
    Gives (.sltu rd rs1 rs2) s rd (if a.toNat < b.toNat then 1 else 0) 4 ∧
    Gives (.min rd rs1 rs2) s rd (int (min a.toInt b.toInt)) 4 ∧
    Gives (.max rd rs1 rs2) s rd (int (max a.toInt b.toInt)) 4 ∧
    Gives (.minu rd rs1 rs2) s rd (nat (min a.toNat b.toNat)) 4 ∧
    Gives (.maxu rd rs1 rs2) s rd (nat (max a.toNat b.toNat)) 4 ∧
    Gives (.mul rd rs1 rs2) s rd (int (a.toInt * b.toInt)) 4 ∧
    Gives (.mulh rd rs1 rs2) s rd (int (a.toInt * b.toInt / (2 : Int) ^ 64)) 4 ∧
    Gives (.mulhu rd rs1 rs2) s rd (nat (a.toNat * b.toNat / 2 ^ 64)) 4 ∧
    Gives (.addw rd rs1 rs2) s rd (low32 (a.toInt + b.toInt)) 4 ∧
    Gives (.subw rd rs1 rs2) s rd (low32 (a.toInt - b.toInt)) 4 ∧
    Gives (.sllw rd rs1 rs2) s rd (low32 (a.toNat * 2 ^ m : Nat)) 4 ∧
    Gives (.srlw rd rs1 rs2) s rd (low32 (a.toNat % 2 ^ 32 / 2 ^ m : Nat)) 4 ∧
    Gives (.sraw rd rs1 rs2) s rd (low32 ((a.setWidth 32).toInt / (2 : Int) ^ m)) 4 ∧
    Gives (.mulw rd rs1 rs2) s rd (low32 (a.toInt * b.toInt)) 4

/-- R126: division truncates toward zero and saturates its quotient, a zero divisor gives the end of the range (the
dividend as the remainder), and nothing traps. -/
def Sys2Proof.Claims.DivisionNeverTraps : Prop :=
  ∀ (s : State) (rd rs1 rs2 : GReg),
    let a := s.regs.get rs1
    let b := s.regs.get rs2
    let x := a.toInt
    let y := b.toInt
    Gives (.div rd rs1 rs2) s rd
      (if b = 0 then (if x < 0 then int (-(2 : Int) ^ 63) else int ((2 : Int) ^ 63 - 1))
        else int (min (x.tdiv y) ((2 : Int) ^ 63 - 1))) 4 ∧
    Gives (.divu rd rs1 rs2) s rd (if b = 0 then nat (2 ^ 64 - 1) else nat (a.toNat / b.toNat)) 4 ∧
    Gives (.rem rd rs1 rs2) s rd (if b = 0 then a else int (x.tmod y)) 4 ∧
    Gives (.remu rd rs1 rs2) s rd (if b = 0 then a else nat (a.toNat % b.toNat)) 4

/-- R125, codes 31 to 40: counts, byte reversal and extensions. -/
def Sys2Proof.Claims.UnaryIntegerOperations : Prop :=
  ∀ (s : State) (rd rs1 : GReg),
    let a := s.regs.get rs1
    (∃ n, Gives (.clz rd rs1) s rd (nat n) 4 ∧ n ≤ 64 ∧
      (∀ i < n, a.getLsbD (63 - i) = false) ∧ (n < 64 → a.getLsbD (63 - n) = true)) ∧
    (∃ n, Gives (.ctz rd rs1) s rd (nat n) 4 ∧ n ≤ 64 ∧
      (∀ i < n, a.getLsbD i = false) ∧ (n < 64 → a.getLsbD n = true)) ∧
    Gives (.popc rd rs1) s rd (nat ((List.range 64).countP fun i => a.getLsbD i)) 4 ∧
    (∃ x, Gives (.bswp rd rs1) s rd x 4 ∧ ∀ i < 8, x.extractLsb' (8 * i) 8 = a.extractLsb' (56 - 8 * i) 8) ∧
    Gives (.sextb rd rs1) s rd (int (a.setWidth 8).toInt) 4 ∧
    Gives (.sexth rd rs1) s rd (int (a.setWidth 16).toInt) 4 ∧
    Gives (.sextw rd rs1) s rd (int (a.setWidth 32).toInt) 4 ∧
    Gives (.zextb rd rs1) s rd (nat (a.toNat % 2 ^ 8)) 4 ∧
    Gives (.zexth rd rs1) s rd (nat (a.toNat % 2 ^ 16)) 4 ∧
    Gives (.zextw rd rs1) s rd (nat (a.toNat % 2 ^ 32)) 4

/-- Integer operations of major 0x01 write their results and never trap. -/
def Obligations.IntegerArithmetic : Prop :=
  IntegerOperationsWriteTheirResults ∧ DivisionNeverTraps ∧ UnaryIntegerOperations

/-- R127 to R129: immediates, shifts by an immediate, LIH and ADDPC. -/
def Sys2Proof.Claims.ImmediateOperations : Prop :=
  ∀ (s : State) (rd rs1 : GReg) (imm : BitVec 11) (sh : BitVec 6) (sw : BitVec 5) (big : BitVec 19),
    let a := s.regs.get rs1
    let i := imm.toInt
    Gives (.addi rd rs1 imm) s rd (int (a.toInt + i)) 4 ∧
    (∃ x, Gives (.andi rd rs1 imm) s rd x 4 ∧
      ∀ j < 64, x.getLsbD j = (a.getLsbD j && imm.getLsbD (min j 10))) ∧
    (∃ x, Gives (.ori rd rs1 imm) s rd x 4 ∧
      ∀ j < 64, x.getLsbD j = (a.getLsbD j || imm.getLsbD (min j 10))) ∧
    (∃ x, Gives (.xori rd rs1 imm) s rd x 4 ∧
      ∀ j < 64, x.getLsbD j = (a.getLsbD j != imm.getLsbD (min j 10))) ∧
    Gives (.slti rd rs1 imm) s rd (if a.toInt < i then 1 else 0) 4 ∧
    Gives (.sltiu rd rs1 imm) s rd (if (a.toNat : Int) < i % (2 : Int) ^ 64 then 1 else 0) 4 ∧
    Gives (.addiw rd rs1 imm) s rd (low32 (a.toInt + i)) 4 ∧
    Gives (.slli rd rs1 sh) s rd (nat (a.toNat * 2 ^ sh.toNat)) 4 ∧
    Gives (.srli rd rs1 sh) s rd (nat (a.toNat / 2 ^ sh.toNat)) 4 ∧
    Gives (.srai rd rs1 sh) s rd (int (a.toInt / (2 : Int) ^ sh.toNat)) 4 ∧
    (∃ x, Gives (.roli rd rs1 sh) s rd x 4 ∧
      ∀ j < 64, x.getLsbD ((j + sh.toNat) % 64) = a.getLsbD j) ∧
    Gives (.slliw rd rs1 sw) s rd (low32 (a.toNat * 2 ^ sw.toNat : Nat)) 4 ∧
    Gives (.srliw rd rs1 sw) s rd (low32 (a.toNat % 2 ^ 32 / 2 ^ sw.toNat : Nat)) 4 ∧
    Gives (.sraiw rd rs1 sw) s rd (low32 ((a.setWidth 32).toInt / (2 : Int) ^ sw.toNat)) 4 ∧
    Gives (.lih rd big) s rd (int (big.toInt * 2 ^ 11)) 4 ∧
    Gives (.addpc rd big) s rd (int (s.regs.pc.toInt + big.toInt * 2 ^ 11)) 4

/-- R65, R66: the compact arithmetic forms do what the instruction they expand to does, and move 2 bytes on. -/
def Sys2Proof.Claims.CompactArithmetic : Prop :=
  ∀ (s : State) (rd rs : GReg) (imm sh : BitVec 5),
    let a := s.regs.get rd
    let b := s.regs.get rs
    Gives (.addiC rd imm) s rd (int (a.toInt + imm.toInt)) 2 ∧
    Gives (.ldiC rd imm) s rd (int imm.toInt) 2 ∧
    Gives (.slliC rd sh) s rd (nat (a.toNat * 2 ^ sh.toNat)) 2 ∧
    Gives (.srliC rd sh) s rd (nat (a.toNat / 2 ^ sh.toNat)) 2 ∧
    Gives (.sraiC rd sh) s rd (int (a.toInt / (2 : Int) ^ sh.toNat)) 2 ∧
    (∃ x, Gives (.andiC rd imm) s rd x 2 ∧
      ∀ j < 64, x.getLsbD j = (a.getLsbD j && imm.getLsbD (min j 4))) ∧
    Gives (.mvC rd rs) s rd b 2 ∧
    Gives (.addC rd rs) s rd (nat (a.toNat + b.toNat)) 2 ∧
    Gives (.subC rd rs) s rd (int (a.toInt - b.toInt)) 2 ∧
    (∃ x, Gives (.andC rd rs) s rd x 2 ∧ ∀ j < 64, x.getLsbD j = (a.getLsbD j && b.getLsbD j)) ∧
    (∃ x, Gives (.orC rd rs) s rd x 2 ∧ ∀ j < 64, x.getLsbD j = (a.getLsbD j || b.getLsbD j)) ∧
    (∃ x, Gives (.xorC rd rs) s rd x 2 ∧ ∀ j < 64, x.getLsbD j = (a.getLsbD j != b.getLsbD j))

/-- Immediate forms, LIH, ADDPC and the compact arithmetic forms write their results. -/
def Obligations.ImmediateAndCompactArithmetic : Prop := ImmediateOperations ∧ CompactArithmetic

/-! ### Branches and jumps -/

/-- R123, R132 to R134: a branch that is not taken moves on; a taken transfer to a target with bits 63:48 clear sets
pc, and a jump writes its link register first; a target with any of bits 63:48 set traps PERM with FADDR the target,
and an odd target of a register jump traps MISALIGN; no register is written then. -/
def Obligations.BranchesAndJumps : Prop :=
  ∀ (s : State) (rd rs1 rs2 : GReg) (imm : BitVec 11) (far : BitVec 19) (near : BitVec 8) (c : CReg),
    let a := s.regs.get rs1
    let b := s.regs.get rs2
    let z := s.regs.get c.full
    let pc := s.regs.pc
    let t := int (pc.toInt + 2 * imm.toInt)
    let tc := int (pc.toInt + 2 * near.toInt)
    let tj := int (pc.toInt + 2 * far.toInt)
    let tr := int (a.toInt + imm.toInt)
    Branches (.beq rs1 rs2 imm) s (a = b) t 4 ∧
    Branches (.bne rs1 rs2 imm) s (a ≠ b) t 4 ∧
    Branches (.blt rs1 rs2 imm) s (a.toInt < b.toInt) t 4 ∧
    Branches (.bge rs1 rs2 imm) s (b.toInt ≤ a.toInt) t 4 ∧
    Branches (.bltu rs1 rs2 imm) s (a.toNat < b.toNat) t 4 ∧
    Branches (.bgeu rs1 rs2 imm) s (b.toNat ≤ a.toNat) t 4 ∧
    Branches (.beqzC c near) s (z = 0) tc 2 ∧
    Branches (.bnezC c near) s (z ≠ 0) tc 2 ∧
    Branches (.bltzC c near) s (z.toInt < 0) tc 2 ∧
    Branches (.bgezC c near) s (0 ≤ z.toInt) tc 2 ∧
    Jumps (.jal rd far) s rd 4 tj ∧
    Jumps (.jC imm) s 0 2 t ∧
    Jumps (.jalC imm) s 1 2 t ∧
    (if tr.getLsbD 0 then Traps (.jalr rd rs1 imm) s .misalign 0 tr else Jumps (.jalr rd rs1 imm) s rd 4 tr) ∧
    (if a.getLsbD 0 then Traps (.jrC rs1) s .misalign 0 a else Jumps (.jrC rs1) s 0 2 a)

/-! ### Register writes, loads and stores -/

/-- R69, R70: a write of a general register is seen at that register alone, g0 reads 0 and keeps nothing, and k0 reads
all ones; and `State.setRegs`, with which every statement here writes registers, changes the registers of the
executing context and no other context, core, memory or table. -/
def Obligations.RegisterWriteFrame : Prop :=
  (∀ (r : Regs) (x y : GReg) (w : Word),
    (r.put x w).get x = (if x = 0 then 0 else w) ∧ (y ≠ x → (r.put x w).get y = r.get y) ∧ r.get 0 = 0 ∧
    (r.put x w).pc = r.pc ∧ (r.put x w).v = r.v ∧ (r.put x w).k = r.k ∧ (r.put x w).cr = r.cr) ∧
  (∀ (r : Regs) (x y : KReg) (w : Word),
    (r.putK x w).getK x = (if x = 0 then BitVec.allOnes 64 else w) ∧ (y ≠ x → (r.putK x w).getK y = r.getK y) ∧
    (r.putK x w).g = r.g ∧ (r.putK x w).v = r.v ∧ (r.putK x w).cr = r.cr) ∧
  (∀ (r : Regs) (x y : VReg) (w : VWord),
    (r.putV x w).getV x = w ∧ (y ≠ x → (r.putV x w).getV y = r.getV y) ∧
    (r.putV x w).g = r.g ∧ (r.putV x w).k = r.k ∧ (r.putV x w).cr = r.cr) ∧
  (∀ (s : State) (r : Regs),
    (s.setRegs r).cx = { s.cx with regs := r } ∧
    { s.setRegs r with cores := s.cores } = s ∧
    (∀ c (i : Fin 4), (c, i) ≠ s.focus → (s.setRegs r).ctx c i = s.ctx c i) ∧
    (∀ c, { (s.setRegs r).core c with ctxs := (s.core c).ctxs } = s.core c))

/-- R113, R118, R120, R130: a load of n bytes from the core's own TCM or from its cluster's scratchpad, aligned, with
no uncorrectable codeword and no interlock, reads the bytes as the task sees them, little-endian, extends them as
its row says, marks the line as read and moves on. The access is made for rd = g0 too. -/
def Sys2Proof.Claims.LoadsReadOwnMemory : Prop :=
  ∀ (s : State) (rd rs1 : GReg) (imm : BitVec 11) (cd c1 : CReg) (off : BitVec 6) (a : Nat),
    let ea := int ((s.regs.get rs1).toInt + imm.toInt)
    let ec (n : Nat) := nat ((s.regs.get c1.full).toNat + off.toNat * n)
    Loads (.lb rd rs1 imm) s a rd ea 1 4 (fun x => int (BitVec.ofNat 8 x).toInt) ∧
    Loads (.lbu rd rs1 imm) s a rd ea 1 4 nat ∧
    Loads (.lh rd rs1 imm) s a rd ea 2 4 (fun x => int (BitVec.ofNat 16 x).toInt) ∧
    Loads (.lhu rd rs1 imm) s a rd ea 2 4 nat ∧
    Loads (.lw rd rs1 imm) s a rd ea 4 4 (fun x => int (BitVec.ofNat 32 x).toInt) ∧
    Loads (.lwu rd rs1 imm) s a rd ea 4 4 nat ∧
    Loads (.ld rd rs1 imm) s a rd ea 8 4 nat ∧
    Loads (.lwC cd c1 off) s a cd.full (ec 4) 4 2 (fun x => int (BitVec.ofNat 32 x).toInt) ∧
    Loads (.ldC cd c1 off) s a cd.full (ec 8) 8 2 nat

/-- R113, R118, R120, R130, R334: a load of n bytes from translated memory, through a page that may be read and whose data
verify, reads a word that R334 lets it return, with the task's own bytes over it, extends as its row says and moves on;
memory is as it was. -/
def Sys2Proof.Claims.LoadsReadTranslatedMemory : Prop :=
  ∀ (s : State) (rd rs1 : GReg) (imm : BitVec 11) (cd c1 : CReg) (off : BitVec 6),
    let ea := int ((s.regs.get rs1).toInt + imm.toInt)
    let ec (n : Nat) := nat ((s.regs.get c1.full).toNat + off.toNat * n)
    LoadsPage (.lb rd rs1 imm) s rd ea 1 4 (fun x => int (BitVec.ofNat 8 x).toInt) ∧
    LoadsPage (.lbu rd rs1 imm) s rd ea 1 4 nat ∧
    LoadsPage (.lh rd rs1 imm) s rd ea 2 4 (fun x => int (BitVec.ofNat 16 x).toInt) ∧
    LoadsPage (.lhu rd rs1 imm) s rd ea 2 4 nat ∧
    LoadsPage (.lw rd rs1 imm) s rd ea 4 4 (fun x => int (BitVec.ofNat 32 x).toInt) ∧
    LoadsPage (.lwu rd rs1 imm) s rd ea 4 4 nat ∧
    LoadsPage (.ld rd rs1 imm) s rd ea 8 4 nat ∧
    LoadsPage (.lwC cd c1 off) s cd.full (ec 4) 4 2 (fun x => int (BitVec.ofNat 32 x).toInt) ∧
    LoadsPage (.ldC cd c1 off) s cd.full (ec 8) 8 2 nat

/-- R113, R118, R119, R131: a task's store of n bytes to translated memory, through a page that may be written, puts the
low n bytes of its register into the chunk, with the line's key, and moves on. -/
def Sys2Proof.Claims.StoresToTranslatedMemoryEnterTheChunk : Prop :=
  ∀ (s : State) (rs1 rs2 : GReg) (imm : BitVec 11) (cd c1 : CReg) (off : BitVec 6),
    let ea := int ((s.regs.get rs1).toInt + imm.toInt)
    let ec (n : Nat) := nat ((s.regs.get c1.full).toNat + off.toNat * n)
    StoresPage (.sb rs2 rs1 imm) s (s.regs.get rs2) ea 1 4 ∧
    StoresPage (.sh rs2 rs1 imm) s (s.regs.get rs2) ea 2 4 ∧
    StoresPage (.sw rs2 rs1 imm) s (s.regs.get rs2) ea 4 4 ∧
    StoresPage (.sd rs2 rs1 imm) s (s.regs.get rs2) ea 8 4 ∧
    StoresPage (.swC cd c1 off) s (s.regs.get cd.full) (ec 4) 4 2 ∧
    StoresPage (.sdC cd c1 off) s (s.regs.get cd.full) (ec 8) 8 2

/-- R118, R367, R375: an access of translated memory whose walk fails traps PAGE_R for a load and PAGE_W for a store, or
PERM where a stage refuses it, with the address in FADDR and the failure in PGINF. -/
def Sys2Proof.Claims.FailedWalksTrap : Prop :=
  ∀ (s : State) (rd rs1 : GReg) (imm : BitVec 11) (c : CReg) (off : BitVec 6),
    let ea := int ((s.regs.get rs1).toInt + imm.toInt)
    let ec (n : Nat) := nat ((s.regs.get c.full).toNat + off.toNat * n)
    WalkTraps (.lb rd rs1 imm) s ea 1 false ∧ WalkTraps (.lbu rd rs1 imm) s ea 1 false ∧
    WalkTraps (.lh rd rs1 imm) s ea 2 false ∧ WalkTraps (.lhu rd rs1 imm) s ea 2 false ∧
    WalkTraps (.lw rd rs1 imm) s ea 4 false ∧ WalkTraps (.lwu rd rs1 imm) s ea 4 false ∧
    WalkTraps (.ld rd rs1 imm) s ea 8 false ∧
    WalkTraps (.sb rd rs1 imm) s ea 1 true ∧ WalkTraps (.sh rd rs1 imm) s ea 2 true ∧
    WalkTraps (.sw rd rs1 imm) s ea 4 true ∧ WalkTraps (.sd rd rs1 imm) s ea 8 true ∧
    WalkTraps (.lwC c c off) s (ec 4) 4 false ∧ WalkTraps (.ldC c c off) s (ec 8) 8 false ∧
    WalkTraps (.swC c c off) s (ec 4) 4 true ∧ WalkTraps (.sdC c c off) s (ec 8) 8 true

/-- R113, R118, R119, R131: a store of n bytes to the core's own TCM outside the code region, or to its cluster's
scratchpad, puts the low n bytes of its register into the chunk and moves on; every other byte reads as before, and
memory itself is unchanged until the chunk commits. -/
def Sys2Proof.Claims.StoresEnterTheChunk : Prop :=
  ∀ (s : State) (rs1 rs2 : GReg) (imm : BitVec 11) (cd c1 : CReg) (off : BitVec 6) (a : Nat),
    let ea := int ((s.regs.get rs1).toInt + imm.toInt)
    let ec (n : Nat) := nat ((s.regs.get c1.full).toNat + off.toNat * n)
    Stores (.sb rs2 rs1 imm) s a (s.regs.get rs2) ea 1 4 ∧
    Stores (.sh rs2 rs1 imm) s a (s.regs.get rs2) ea 2 4 ∧
    Stores (.sw rs2 rs1 imm) s a (s.regs.get rs2) ea 4 4 ∧
    Stores (.sd rs2 rs1 imm) s a (s.regs.get rs2) ea 8 4 ∧
    Stores (.swC cd c1 off) s a (s.regs.get cd.full) (ec 4) 4 2 ∧
    Stores (.sdC cd c1 off) s a (s.regs.get cd.full) (ec 8) 8 2

/-- R113, R117, R118: a load or store whose address is not a multiple of its size traps MISALIGN before any other
check, on both profiles; an aligned one of a fabric core outside TCM, scratchpad and translated memory, or a store to
the code region, traps PERM; FADDR is the effective address. -/
def Sys2Proof.Claims.BadAddressesTrap : Prop :=
  ∀ (s : State) (rd rs1 : GReg) (imm : BitVec 11) (c : CReg) (off : BitVec 6),
    let ea := int ((s.regs.get rs1).toInt + imm.toInt)
    let ec (n : Nat) := nat ((s.regs.get c.full).toNat + off.toNat * n)
    AddressTraps (.lb rd rs1 imm) s ea 1 false ∧ AddressTraps (.lbu rd rs1 imm) s ea 1 false ∧
    AddressTraps (.lh rd rs1 imm) s ea 2 false ∧ AddressTraps (.lhu rd rs1 imm) s ea 2 false ∧
    AddressTraps (.lw rd rs1 imm) s ea 4 false ∧ AddressTraps (.lwu rd rs1 imm) s ea 4 false ∧
    AddressTraps (.ld rd rs1 imm) s ea 8 false ∧
    AddressTraps (.sb rd rs1 imm) s ea 1 true ∧ AddressTraps (.sh rd rs1 imm) s ea 2 true ∧
    AddressTraps (.sw rd rs1 imm) s ea 4 true ∧ AddressTraps (.sd rd rs1 imm) s ea 8 true ∧
    AddressTraps (.lwC c c off) s (ec 4) 4 false ∧ AddressTraps (.ldC c c off) s (ec 8) 8 false ∧
    AddressTraps (.swC c c off) s (ec 4) 4 true ∧ AddressTraps (.sdC c c off) s (ec 8) 8 true

/-- R119, R330: a store that finds no free entry of the undo log or of the store buffer commits its chunk first and is
then executed again; a store of a speculative task to a TCM word that another chunk of the core has written, where no
order between the tasks and no forced run decides, rolls its own chunk back. -/
def Sys2Proof.Claims.StoresThatWaitOrGiveWay : Prop :=
  ∀ (s : State) (rs1 rs2 : GReg) (imm : BitVec 11) (a : Nat),
    let ea := int ((s.regs.get rs1).toInt + imm.toInt)
    OwnPlace s ea 8 a → StoreMay s ea a 8 →
    (s.cx.chunk.full a = true → exec (.sd rs2 rs1 imm) s = .next (s.setWait (.commit .again))) ∧
    (∀ j : Fin 4, a < 2 ^ 41 + 2 ^ 36 → s.cx.chunk.full a = false → j ≠ s.focus.2 →
      (∀ i : Fin 4, i ≠ j → i ≠ s.focus.2 → (s.ctx s.focus.1 i).wrote (a / 8) = false) →
      (s.ctx s.focus.1 j).wrote (a / 8) = true → s.cx.forced = false → s.cx.ordered = none →
      exec (.sd rs2 rs1 imm) s =
        if (s.ctx s.focus.1 j).forced then .next (s.setWait .again)
        else .next (s.rollBack s.focus.1 s.focus.2))

/-- Stores to own and translated memory enter the chunk, wait, give way or trap; failed walks trap with PGINF. -/
def Obligations.StoresEnterTheChunkOrTrap : Prop :=
  StoresEnterTheChunk ∧ StoresToTranslatedMemoryEnterTheChunk ∧ StoresThatWaitOrGiveWay ∧ BadAddressesTrap ∧ FailedWalksTrap

/-- R120, R328: within its chunk a task reads its own latest store: after a store to own memory, a load of the same
place and size, in the state the store leaves, gives the stored bytes. -/
def Sys2Proof.Claims.LoadAfterStoreReadsTheStoredValue : Prop :=
  ∀ (s t : State) (rd rs1 rs2 : GReg) (imm : BitVec 11) (a : Nat),
    let ea := int ((s.regs.get rs1).toInt + imm.toInt)
    OwnPlace s ea 8 a → StoreMay s ea a 8 → StoreGoes s a → s.cx.forced = false →
    exec (.sd rs2 rs1 imm) s = .next t →
    ∃ u, exec (.ld rd rs1 imm) t = .next u ∧ u.regs.get rd = (if rd = 0 then 0 else s.regs.get rs2) ∧
      u.mem = s.mem

/-- Loads from own and translated memory give the latest write of each byte, extended by form. -/
def Obligations.LoadsReadWhatWasStored : Prop :=
  LoadsReadOwnMemory ∧ LoadsReadTranslatedMemory ∧ LoadAfterStoreReadsTheStoredValue

/-! ### Scalar floating point -/

/-- R37, R135: on finite operands the arithmetic instructions of both formats give the exact result rounded once to
nearest even, with NX, UF and OF as R37 and R39 say, ORed into FFLG; an exact sum of opposite signs is +0. -/
def Obligations.FloatingArithmeticIsCorrectlyRounded : Prop :=
  RoundsExact .faddS fmt32 (fun _ _ => True) (fun x y => x + y) (fun a b => a && b) ∧
  RoundsExact .faddD fmt64 (fun _ _ => True) (fun x y => x + y) (fun a b => a && b) ∧
  RoundsExact .fsubS fmt32 (fun _ _ => True) (fun x y => x - y) (fun a b => a && !b) ∧
  RoundsExact .fsubD fmt64 (fun _ _ => True) (fun x y => x - y) (fun a b => a && !b) ∧
  RoundsExact .fmulS fmt32 (fun _ _ => True) (fun x y => x * y) (fun a b => a != b) ∧
  RoundsExact .fmulD fmt64 (fun _ _ => True) (fun x y => x * y) (fun a b => a != b) ∧
  RoundsExact .fdivS fmt32 (fun _ y => y ≠ 0) (fun x y => x / y) (fun a b => a != b) ∧
  RoundsExact .fdivD fmt64 (fun _ y => y ≠ 0) (fun x y => x / y) (fun a b => a != b) ∧
  RoundsFused .fmaS fmt32 ∧ RoundsFused .fmaD fmt64 ∧
  RoundsRoot .fsqrtS fmt32 ∧ RoundsRoot .fsqrtD fmt64

/-- R136, R38: operands that are no finite numbers. A NaN operand gives the canonical quiet NaN, and NV where its quiet
bit is clear; ∞ − ∞, 0 × ∞, 0 / 0, ∞ / ∞ and √−∞ give it with NV; x / ±0 with x finite and nonzero gives an infinity
and DZ. -/
def Sys2Proof.Claims.FloatingSpecialCases : Prop :=
  SpecialCases .faddS .fsubS .fmulS .fdivS .fmaS .fsqrtS fmt32 ∧
  SpecialCases .faddD .fsubD .fmulD .fdivD .fmaD .fsqrtD fmt64

/-- R38, R136, R137: comparisons, minimum and maximum (−0 below +0, the other operand beside one NaN), the class word,
and the sign operations, in both formats; −0 equals +0, and only the flags R136 names are set. -/
def Sys2Proof.Claims.FloatingComparisonsAndSigns : Prop :=
  Compares .feqS .fltS .fleS .fminS .fmaxS .fclassS .fnegS .fabsS fmt32 ∧
  Compares .feqD .fltD .fleD .fminD .fmaxD .fclassD .fnegD .fabsD fmt64

/-- Floating NaNs, infinities, zero divisors, comparisons, classes and signs. -/
def Obligations.FloatingSpecialCasesAndComparisons : Prop := FloatingSpecialCases ∧ FloatingComparisonsAndSigns

/-- R36, R41, R135: conversions between integers and floating point, and between the three formats, round once; an
integer result is judged on the rounded integer, saturates with NV, and is 0 for a NaN. -/
def Obligations.FloatingConversions : Prop :=
  FromInteger .fcvtifS fmt32 ∧ FromInteger .fcvtifD fmt64 ∧
  ToInteger .fcvtfiS fmt32 false ∧ ToInteger .fcvtfiD fmt64 false ∧
  ToInteger .fcvtfirS fmt32 true ∧ ToInteger .fcvtfirD fmt64 true ∧
  Converts .fcvtbfS fmt32 fmtBf ∧ Converts .fcvtbfD fmt64 fmtBf ∧
  Converts .fcvtfbS fmtBf fmt32 ∧ Converts .fcvtfbD fmtBf fmt64 ∧
  Converts .fcvtpdS fmt64 fmt32 ∧ Converts .fcvtpdD fmt32 fmt64

/-! ### Control registers -/

/-- R39, R73, R138, R139: each per-context register that software may write. CRR writes its value to rd; CRW, CRSET and
CRCLR write the old value to rd and a, old OR a, old AND NOT a to the register, whose reserved bits stay zero (R10). -/
def Sys2Proof.Claims.ContextRegistersReadAndWrite : Prop :=
  ∀ (s : State) (rd rs1 : GReg), ∀ e ∈ contextRegs,
    (e.number < 0x040 ∨ 0x04C < e.number ∨ s.ctl = false) →
    let n := BitVec.ofNat 11 e.number
    let old := e.get s.regs.cr
    let a := s.regs.get rs1
    let writes (i : Instr) (x : Word) := exec i s = .next (State.settle (s.setRegs
      { s.regs.put rd old with pc := s.regs.pc + 4, cr := e.set s.regs.cr (x &&& e.kept) }))
    Gives (.crr rd n) s rd old 4 ∧ writes (.crw rd n rs1) a ∧ writes (.crset rd n rs1) (old ||| a) ∧
    writes (.crclr rd n rs1) (old &&& ~~~a)

/-- R138, R139: CRW, CRSET and CRCLR of a per-core register give the old value, and write a, old OR a and old AND NOT a.
On a fabric core the write belongs to the chunk: the writing context sees it at once; the core's registers, its other
contexts and memory are unchanged until the chunk commits. On a control core it takes effect at once. A write of STPL
while tensors or versions are live is ignored, and gives the old value all the same (R388). -/
def Sys2Proof.Claims.CoreRegisterWritesBelongToTheChunk : Prop :=
  ∀ (s : State) (rd rs1 : GReg), ∀ e ∈ coreRegs,
    let n := BitVec.ofNat 11 e.1
    let old := s.view.coreReg e.2.2
    let a := s.regs.get rs1
    let live := e.2.2 = .stpl ∧ fld s.view.stst 14 0 ≠ 0
    Gives (.crr rd n) s rd old 4 ∧
    ∀ q ∈ [(Instr.crw rd n rs1, a), (.crset rd n rs1, old ||| a), (.crclr rd n rs1, old &&& ~~~a)],
    (live → exec q.1 s = .next (State.settle (s.setRegs { s.regs.put rd old with pc := s.regs.pc + 4 }))) ∧
    (¬live → ∃ t : State, exec q.1 s = .next t.settle ∧
      let x := q.2 &&& e.2.1
      t.regs = { s.regs.put rd old with pc := s.regs.pc + 4 } ∧
      t.view.coreReg e.2.2 = x ∧ (∀ r, r ≠ e.2.2 → t.view.coreReg r = s.view.coreReg r) ∧
      t.mem = s.mem ∧ t.cx.chunk.cells = s.cx.chunk.cells ∧
      (∀ c (i : Fin 4), (c, i) ≠ s.focus → t.ctx c i = s.ctx c i) ∧
      (s.ctl = false → t.me.bank = s.me.bank ∧ t.cx.chunk.pend = s.cx.chunk.pend ++ [.reg e.2.2 x]) ∧
      (s.ctl = true → t.me.bank = s.me.bank.setCoreReg e.2.2 x ∧ t.cx.chunk.pend = s.cx.chunk.pend))

/-- CRR, CRW, CRSET and CRCLR on the per-context and per-core registers software may write. -/
def Obligations.ControlRegistersReadAndWrite : Prop :=
  ContextRegistersReadAndWrite ∧ CoreRegisterWritesBelongToTheChunk

/-- R9, R73, R75, R138: a read-only register gives its value to all four forms, and a write to it is ignored. -/
def Sys2Proof.Claims.ReadOnlyRegistersKeepTheirValue : Prop :=
  ∀ (s : State) (rd rs1 : GReg), ∀ e ∈ readOnlyRegs,
    (e.1 < 0x040 ∨ 0x04D < e.1 ∨ s.ctl = false) →
    let n := BitVec.ofNat 11 e.1
    let old := e.2 s
    Gives (.crr rd n) s rd old 4 ∧
    ∀ i ∈ [Instr.crw rd n rs1, .crset rd n rs1, .crclr rd n rs1],
      exec i s = .next (State.settle (s.setRegs { s.regs.put rd old with pc := s.regs.pc + 4 }))

/-- R72, R75, R82: a number with no register, or one of a range the profile excludes, traps ILLEGAL in all four forms,
with the instruction's encoding in FADDR. -/
def Sys2Proof.Claims.UnassignedRegistersTrapIllegal : Prop :=
  ∀ (s : State) (rd rs1 : GReg) (n : BitVec 11), assigned s.ctl n.toNat = false →
    ∀ i ∈ [Instr.crr rd n, .crw rd n rs1, .crset rd n rs1, .crclr rd n rs1],
      Traps i s .illegal 0 (nat (ofBytes (encode i).bytes))

/-- R75, R461: on a control core a register of the control profile below the privilege it needs traps PRIV, for reads
and writes alike; a fabric core traps ILLEGAL there. -/
def Sys2Proof.Claims.PrivilegedRegistersTrapBelowTheirLevel : Prop :=
  ∀ (s : State) (rd rs1 : GReg) (n : BitVec 11), 0x100 ≤ n.toNat → assigned true n.toNat = true →
    ∀ i ∈ [Instr.crr rd n, .crw rd n rs1, .crset rd n rs1, .crclr rd n rs1],
      (s.ctl = true → s.level < privilegeOf n.toNat → TrapsBare i s .priv 0) ∧
      (s.ctl = false → Traps i s .illegal 0 (nat (ofBytes (encode i).bytes)))

/-- R9, R461: the hypervisor's registers at level 2. Each write keeps the bits its map gives, a per-VD register acts on
the virtual device VDSEL names, EPC, EPRV and TVEC are the copies of the executing level (EPC and TVEC without bit 0:
log 31), and IPEND clears the bits written 1. KLDB (R205) queues the command with its writer: the core, its space and its
level (log 70). -/
def Obligations.HypervisorRegisterWrites : Prop :=
  ∀ (s : State) (rd rs1 : GReg), s.ctl = true → s.level = 2 →
    let a := s.regs.get rs1
    let p := s.me.priv
    let v := fld p.vdsel 5 0
    let d := s.vdev v
    let writes (n : Nat) (old : Word) (t : State) :=
      exec (.crw rd (BitVec.ofNat 11 n) rs1) s =
        .next (t.setRegs { s.regs.put rd old with pc := s.regs.pc + 4 })
    let priv (q : Priv) : State := s.setMe { s.me with priv := q }
    let vd (e : Vd) : State := { s with vds := Tab.put s.vds v e }
    writes 0x101 p.epc[2] (priv { p with epc := p.epc.set 2 (a &&& ~~~1) }) ∧
    writes 0x102 p.eprv[2] (priv { p with eprv := p.eprv.set 2 (a &&& 3) }) ∧
    writes 0x103 p.tvec[2] (priv { p with tvec := p.tvec.set 2 (a &&& ~~~1) }) ∧
    writes 0x104 p.ipend (priv { p with ipend := p.ipend &&& ~~~a }) ∧
    writes 0x105 p.vdsel (priv { p with vdsel := a &&& 0x3F }) ∧
    writes 0x10B p.clsel (priv { p with clsel := a &&& 0x7_7FFF }) ∧
    writes 0x110 p.isel (priv { p with isel := a &&& 0x3F }) ∧
    writes 0x114 p.psel (priv { p with psel := a &&& 3 }) ∧
    writes 0x117 p.rsel (priv { p with rsel := a &&& 0xFFF }) ∧
    writes 0x119 p.lsel (priv { p with lsel := a &&& 0x1F }) ∧
    writes 0x106 d.s2base (vd { d with s2base := a }) ∧
    writes 0x107 d.s2len (vd { d with s2len := a }) ∧
    writes 0x108 d.bcap (vd { d with bcap := a }) ∧
    writes 0x109 d.apol (vd { d with apol := a &&& 3 }) ∧
    writes 0x10F d.lqbv (vd { d with lqbv := a &&& 0xFFFF_FFFF_FFFF }) ∧
    writes 0x113 d.sidtb (vd { d with sidtb := a &&& 0x1FF_FFFF_FFFF }) ∧
    writes 0x10A s.hrpt { s with hrpt := a &&& 0x7FFF_FFFF } ∧
    writes 0x11B s.modw { s with modw := a &&& 0xFFF } ∧
    (if a.toNat % 64 = 0 then
        writes 0x140 0
          { s with vds := Tab.put s.vds s.vd ({ s.vdev s.vd with
              loads := (s.vdev s.vd).loads ++ [⟨a, s.focus.1, fld s.me.bank.sidr 15 0, 2⟩] } : Vd) }
      else Traps (.crw rd 0x140 rs1) s .misalign 0 a)

/-- R140: CRR of CYC returns a count of the core's island that is later than the one read before, so that a task that
runs again reads a later one; the count kept is the one returned. How much later is free (log 6). -/
def Sys2Proof.Claims.CycleCountGoesOn : Prop :=
  ∀ (s : State) (rd : GReg), ∃ x : Word, ((s.cyc s.focus.1).toNat < 2 ^ 64 - 1 → (s.cyc s.focus.1).toNat < x.toNat) ∧
    let i : Island := { Tab.get s.islands (islandOf s.focus.1) Island.reset with cyc := x }
    exec (.crr rd 0x00F) s = .next (State.setRegs { s with islands := Tab.put s.islands (islandOf s.focus.1) i }
      { s.regs.put rd x with pc := s.regs.pc + 4 })

/-- Read-only registers keep their value, unassigned ones trap ILLEGAL, privileged ones PRIV; CYC goes on. -/
def Obligations.ControlRegistersThatKeepOrTrap : Prop :=
  ReadOnlyRegistersKeepTheirValue ∧ UnassignedRegistersTrapIllegal ∧ PrivilegedRegistersTrapBelowTheirLevel ∧ CycleCountGoesOn

/-! ### Tasks, commit points and traps -/

/-- R155, R157, R158, R161, R322: HALT, COMMIT, HALTR with a good successor, TRAPI and the barrier instructions bring
the context to a commit point, where it waits with what follows the commit; a bad successor traps BOUNDS before that.
Each is ILLEGAL on a control core. -/
def Sys2Proof.Claims.TaskInstructionsReachACommitPoint : Prop :=
  ∀ (s : State) (rd rs1 : GReg),
    let a := s.regs.get rs1
    let pc := s.regs.pc
    let succ := a.toNat % 2 ^ 48
    let good := succ % 2 = 0 ∧ s.me.bank.hblo.toNat ≤ succ ∧ succ ≤ s.me.bank.hbhi.toNat
    let bar (block : Bool) (op : Nat) := Wait.commit (.barrier block op (a.setWidth 32) rd)
    WaitsFor .halt s (.commit .halt) ∧ WaitsFor .haltC s (.commit .halt) ∧
    WaitsFor .commit s (.commit (.next 4)) ∧ WaitsFor .commitC s (.commit (.next 2)) ∧
    WaitsFor (.trapi rs1) s (.commit (.suspend (Trap.at_ .trapi 0 a) (pc + 4) pc)) ∧
    (good → WaitsFor (.haltr rs1) s (.commit (.haltr (nat succ)))) ∧
    (¬good → s.ctl = false → Traps (.haltr rs1) s .bounds 0 a) ∧
    WaitsFor (.barrAnd rd rs1) s (bar false 0) ∧ WaitsFor (.barrOr rd rs1) s (bar false 1) ∧
    WaitsFor (.barrSum rd rs1) s (bar false 2) ∧ WaitsFor (.barrPopc rd rs1) s (bar false 3) ∧
    WaitsFor (.bargAnd rd rs1) s (bar true 0) ∧ WaitsFor (.bargOr rd rs1) s (bar true 1) ∧
    WaitsFor (.bargSum rd rs1) s (bar true 2) ∧ WaitsFor (.bargPopc rd rs1) s (bar true 3)

/-- R156, R160, R186: ABORT frees the context and consumes its message, discards what its chunk holds, and sends a
release reply for a request no chunk has answered; BUDGQ gives a count from 1 to BUDG, below the one that the
activation's last BUDGQ gave, and changes no other register. -/
def Sys2Proof.Claims.AbortAndBudgq : Prop :=
  ∀ (s : State) (rd : GReg), s.ctl = false →
    (∃ t : State, exec .abort s = .next t ∧ t.cx = Ctx.reset ∧ t.mem = s.mem ∧
      (∀ c (i : Fin 4), (c, i) ≠ s.focus → t.ctx c i = s.ctx c i) ∧
      (∀ n : Fin 32, t.me.sendq[n] =
        let e := s.me.sendq[n]
        if e.st = .held ∧ e.ctx = s.focus.2.val then Entry.free
        else if e.claim = some s.focus.2.val then { e with claim := none } else e) ∧
      (∀ m, s.cx.msg = some m → s.cx.isRequest = true → s.cx.replied = false →
        ∃ r, t.net = s.net ++ [r] ∧ r.kind = .release ∧ r.mid = m.mid ∧ r.src = s.focus.1 ∧ r.payload = [] ∧
          r.dst = hdrCore m.w1 ∧ r.dmod = netMod s s.focus.1 (hdrMod m.w1) ∧ r.cls = .reply) ∧
      (s.cx.msg = none ∨ s.cx.isRequest = false ∨ s.cx.replied = true → t.net = s.net)) ∧
    (∃ n : Nat, exec (.budgq rd) s = .next (State.setCx { s with free := s.free + 1 }
        { s.cx with left := n, regs := { s.regs.put rd (nat n) with pc := s.regs.pc + 4 } }) ∧
      (s.cx.left = 0 → s.regs.cr.budg ≠ 0 → 1 ≤ n ∧ n ≤ s.regs.cr.budg.toNat) ∧
      (1 < s.cx.left → 1 ≤ n ∧ n < s.cx.left))

/-- HALT, COMMIT, HALTR, TRAPI and barriers reach a commit point; ABORT frees the context; BUDGQ answers. -/
def Obligations.TaskInstructionsAndAborts : Prop := TaskInstructionsReachACommitPoint ∧ AbortAndBudgq

/-- R164, R460: a trap on a control core records CAUSE, FADDR and FPC and enters level 2 for a failure at the second
stage or from level 2, else level 1: EPC of that level holds FPC, EPRV the old level, CPRV the new one and pc the
level's TVEC (an address of the hypervisor window at level 2: log 26). No other register and no memory changes, and no
trap report leaves the core (log 30). (INTEG and UNCORR raise the alarm and the machine check as well.) -/
def Obligations.ControlCoreTrapsEnterALevel : Prop :=
  ∀ (s : State) (t : Trap) (fpc : Word), s.ctl = true → t.cause ≠ .integ → t.cause ≠ .uncorr → s.level ≤ 2 →
    let u := s.takeTrap t fpc
    let p := s.me.priv
    let l : Fin 3 := if t.stage2 = true ∨ s.level = 2 then 2 else 1
    u.me.priv = { p with cprv := l.val, epc := p.epc.set l fpc, eprv := p.eprv.set l (nat s.level) } ∧
    u.regs = { s.regs with pc := pcAt l.val p.tvec[l] } ∧
    Records s.me.bank u.me.bank t false s.focus.2.val s.regs.cr.msgid.toNat fpc ∧
    u.mem = s.mem ∧ u.net = s.net ∧ u.cx = { s.cx with regs := u.regs } ∧
    (∀ c, c ≠ s.focus.1 → u.core c = s.core c)

/-- R162 to R164, R167: a trap of a speculative task frees its context, puts its message back at the head of its queue
with the abort counted, records the trap with ANCH 0 and reports it to TSVC (to HRPT for a failure at the second
stage); a trap of an anchored task waits for the commit of its chunk, and what follows is the suspension with the same
trap and FPC. -/
def Obligations.TaskTrapsAbortOrSuspend : Prop :=
  ∀ (s : State) (t : Trap) (fpc : Word), s.ctl = false → t.cause ≠ .integ → t.cause ≠ .uncorr →
    let u := s.takeTrap t fpc
    let target := if t.stage2 then s.hrpt else s.me.bank.tsvc
    (s.cx.anch = true → u = waiting s (.commit (.suspend t fpc fpc))) ∧
    (s.cx.anch = false →
      u.cx = Ctx.reset ∧ u.mem = s.mem ∧
      (∀ c (i : Fin 4), (c, i) ≠ s.focus → u.ctx c i = s.ctx c i) ∧
      u.me.bank.cause = causeOf t false s.focus.2.val s.regs.cr.msgid.toNat ∧ u.me.bank.fpc = fpc ∧
      (∀ a, t.faddr = some a → u.me.bank.faddr = a) ∧
      (∀ m, s.cx.msg = some m → s.regs.cr.rfinf.getLsbD 16 = false →
        u.me.queue m.cls = { m with abcnt := min 4 (m.abcnt + 1) } :: s.me.queue m.cls) ∧
      (∀ d k, coreRef (fld target 30 0) = some (d, k) →
        ∃ r, u.net = s.net ++ [r] ∧ r.kind = .report ∧ r.dst = d ∧ r.dmod = netMod s s.focus.1 k ∧ r.src = s.focus.1 ∧
          r.payload = [u.me.bank.cause, u.me.bank.faddr, fpc, nat s.focus.1] ++
            (if t.translated then [u.me.bank.pginf] else [])) ∧
      (coreRef (fld target 30 0) = none → u.net = s.net))

/-- R148, R155, R329, R332: the commit of a chunk that stores to own memory and writes registers. Its bytes reach memory
and its register writes the core; the task is anchored with no aborts counted; then COMMIT goes on at the next
instruction from a new checkpoint, HALT frees the context, HALTR retains it with its successor, and a trap suspends
it with ANCH set in the record. -/
def Sys2Proof.Claims.CommitMakesAChunkLasting : Prop :=
  ∀ (s : State) (core : Nat) (i : Fin 4),
    let y := s.ctx core i
    let bank := y.chunk.pend.foldl Bank.apply (s.bank core)
    (∀ len, CommitsPlainly s core i (.next len) → ∃ (t : State) (f : Tab Nat),
      exec (.chunkCommit core i.val) s = .next t ∧ MadeLasting s t core i ∧ t.bank core = bank ∧ t.net = s.net ∧
      (let r := { y.regs with pc := y.regs.pc + nat len }
       t.ctx core i = { committed y f with regs := r, ckpt := r, st := .ready, wait := .none })) ∧
    (CommitsPlainly s core i .halt → ∃ t : State,
      exec (.chunkCommit core i.val) s = .next t ∧ MadeLasting s t core i ∧ t.bank core = bank ∧
      t.ctx core i = Ctx.reset ∧
      (∀ m, y.msg = some m → y.isRequest = true → y.replied = false →
        ∃ r, t.net = s.net ++ [r] ∧ r.kind = .release ∧ r.mid = m.mid) ∧
      (y.msg = none ∨ y.isRequest = false ∨ y.replied = true → t.net = s.net)) ∧
    (∀ succ, CommitsPlainly s core i (.haltr succ) → ∃ t : State,
      exec (.chunkCommit core i.val) s = .next t ∧ MadeLasting s t core i ∧ t.bank core = bank ∧
      t.ctx core i = { Ctx.reset with st := .retained, succ := succ, age := (s.core core).ages }) ∧
    (∀ trap at_ fpc, trap.cause ≠ .uncorr → CommitsPlainly s core i (.suspend trap at_ fpc) → ∃ (t : State) (f : Tab Nat),
      exec (.chunkCommit core i.val) s = .next t ∧ MadeLasting s t core i ∧
      Records bank (t.bank core) trap true i.val y.regs.cr.msgid.toNat fpc ∧
      (let r := { y.regs with pc := at_ }
       t.ctx core i = { committed y f with regs := r, ckpt := r, st := .suspended, wait := .none }))

/-- R119, R332, R333, R383: the commit of a chunk that stores to HBM, under keys that live and whose lines verify, or to
die SRAM. Its bytes stand in memory and no other byte changes; every core of the cluster reads them at once, and a core
of another cluster may still read what they superseded. -/
def Sys2Proof.Claims.CommitReachesTranslatedMemory : Prop :=
  ∀ (s : State) (core len : Nat) (i : Fin 4),
    let y := s.ctx core i
    let k := y.chunk
    let place (a : Nat) : Place := { addr := a, home := if a < 2 ^ 40 then Tab.look k.homes (a / 64) else none }
    CommitsAlone s core i (.next len) → NoErrors s → (∀ e ∈ k.cells, e.1 < 2 ^ 41) →
    (∀ e ∈ k.cells, e.1 < 2 ^ 40 → ∃ h, Tab.look k.homes (e.1 / 64) = some h ∧
      (s.lineSt (place e.1) = .fresh ∨ s.lineSt (place e.1) = .good) ∧ s.version h + 1 < 2 ^ 56 ∧
      ∀ d ∈ k.cells, ∀ g, Tab.look k.homes (d.1 / 64) = some g → d.1 / 64 ≠ e.1 / 64 → (g.key, g.gline) ≠ (h.key, h.gline)) →
    ∃ (t : State) (f : Tab Nat), exec (.chunkCommit core i.val) s = .next t ∧ t.net = s.net ∧
      (∀ a b, (a, b) ∈ k.cells → t.byteAt (place a) = b) ∧
      (∀ a, a ∉ k.cells.map Prod.fst → (∃ e ∈ k.cells, e.1 / 64 = a / 64) → t.byteAt (place a) = s.byteAt (place a)) ∧
      (∀ a, (∀ e ∈ k.cells, e.1 / 64 ≠ a / 64) → t.mem.byte a = s.mem.byte a) ∧
      (∀ e ∈ k.cells, ∀ d w, d < 2 ^ 18 →
        (d / 8 = core / 8 → Returned t d (place e.1) w → w = t.wordAt (place e.1)) ∧
        (d / 8 ≠ core / 8 → Tab.get (s.core d).floors (e.1 / 8) 0 ≤ (Tab.get s.hist (e.1 / 8) []).length →
          Returned t d (place e.1) (s.wordAt (place e.1)))) ∧
      (∀ d (j : Fin 4), (d, j) ≠ (core, i) → t.ctx d j = s.ctx d j) ∧
      (let r := { y.regs with pc := y.regs.pc + nat len }
       t.ctx core i = { committed y f with regs := r, ckpt := r, st := .ready, wait := .none })

/-- R149, R150, R328, R329: at a commit every other chunk of the cluster whose signatures meet the written lines is
rolled back, unless it is forced: a speculative task's context is freed, and an anchored one goes back to its
checkpoint, forced at the fourth restart in a row. -/
def Sys2Proof.Claims.CommitRollsBackTheChunksItMeets : Prop :=
  ∀ (s : State) (core d : Nat) (i j : Fin 4) (len : Nat),
    let k := (s.ctx core i).chunk
    let y := s.ctx d j
    core < 2 ^ 18 → s.couchTakes (core, i) = true → (s.ctx core i).wait = .commit (.next len) →
    (∀ e ∈ k.cells, 2 ^ 41 ≤ e.1) → k.pend = [] → d / 8 = core / 8 → (d, j) ≠ (core, i) →
    y.running = true → y.meets k.wsig = true → y.forced = false →
    ∃ t : State, exec (.chunkCommit core i.val) s = .next t ∧
      (y.anch = false → t.ctx d j = Ctx.reset) ∧
      (y.anch = true →
        let r := if y.restarts < 3 then y.ckpt
          else { y.ckpt with cr := { y.ckpt.cr with actf := y.ckpt.cr.actf ||| 2 } }
        t.ctx d j = { y with regs := r, ckpt := r, st := .ready, wait := .none, chunk := Chunk.empty
                             restarts := y.restarts + 1 })

/-- A commit makes its chunk lasting, in own and translated memory, and rolls back the chunks its writes meet. -/
def Obligations.CommitsMakeLastingAndRollBack : Prop :=
  CommitMakesAChunkLasting ∧ CommitReachesTranslatedMemory ∧ CommitRollsBackTheChunksItMeets

/-- R71, R74, R116, R147, R170, R190: a task starts. With one request waiting, a context free and none retained, the
lowest free context (log 38) is READY with the registers of R71: pc from word 0, g3 and g4 the kernel's, g6 the
header, g7 and g8 the first payload words, all other registers 0, and the message's words stand in TCM at the address
in g5. -/
def Obligations.TaskStartSetsTheRegisters : Prop :=
  ∀ (s : State) (core : Nat) (i : Fin 4) (m : Msg) (rest : List Msg),
    let x := s.core core
    let b := x.bank
    let y (t : State) := t.ctx core i
    core < 2 ^ 18 → (s.cluster (core / 8)).lost = false → (s.cluster (core / 8)).shared = false → b.kernel.base = 0 →
    b.kst = .active → (s.vdev b.vdid).switchedIn = true → x.stopped = false → x.svc = [] →
    x.qSys = [] → x.refusals = [] → x.qReply = [] → x.qOrd = [] → x.qReq = m :: rest → m.kind = .task →
    m.payload.length ≤ 30 → b.kernel.cb + b.kernel.rb + 4 ≤ 32 → b.kernel.banks = 32 → b.kernel.stk = false →
    (x.ctx i).st = .free → (∀ j, j < i → (x.ctx j).st ≠ .free) → (∀ j, (x.ctx j).st ≠ .retained) →
    ∃ t : State, exec (.taskStart core) s = .next t ∧
      (y t).st = .ready ∧ (y t).msg = some m ∧ (y t).isRequest = true ∧ (y t).chunk = Chunk.empty ∧
      (y t).anch = decide (m.abcnt = 4) ∧ (y t).regs = (y t).ckpt ∧ (t.core core).qReq = rest ∧
      (let r := (y t).regs
       r.pc = nat (m.w0.toNat % 2 ^ 48) ∧ r.get 3 = b.kernel.gp ∧ r.get 4 = nat ((32 - b.kernel.rb) * 8192) ∧
       r.get 2 = r.get 5 ∧ r.get 6 = m.w1 ∧ r.get 7 = m.payload.getD 0 0 ∧ r.get 8 = m.payload.getD 1 0 ∧
       (∀ g : GReg, g = 1 ∨ 8 < g.toNat → r.get g = 0) ∧
       (∀ v : VReg, r.getV v = 0) ∧ (∀ k : KReg, k ≠ 0 → r.getK k = 0) ∧
       r.cr.fflg = 0 ∧ r.cr.tstp = 0 ∧ r.cr.msgid = nat (m.w0.toNat / 2 ^ 48) ∧ r.cr.rfinf = 0 ∧ r.cr.sminf = 0 ∧
       r.cr.actf = nat (m.abcnt * 4 + if m.abcnt = 4 then 2 else 0) ∧
       ∀ n (w : Word), (m.w0 :: m.w1 :: m.payload)[n]? = some w →
         t.mem.word (2 ^ 41 + core * 2 ^ 18 + (r.get 5).toNat + 8 * n) = w)

/-- R147, R166, R171, R196, R208, R214: a context that waits goes on when its condition is met, one that waits to execute
its instruction again executes it at any time (log 27); a SUSPENDED context goes
on after RESUME and is freed by KILL; a task whose budget is spent is freed, its chunk discarded, with CAUSE BUDGET, and
the anchored kind's kernel is FAULTED; a fault notice makes the kernel it tells of FAULTED where it is ACTIVE. -/
def Obligations.WaitsServicesAndKills : Prop :=
  ∀ (s : State) (core : Nat) (i : Fin 4),
    let y := s.ctx core i
    (y.st = .waiting → y.wait = .again →
      exec (.contextWake core i.val) s = .next (s.putCtx core i { y with st := .ready, wait := .none })) ∧
    (∀ h n rd, y.st = .waiting → y.wait = .ring false h n rd → n ≤ hFilled ((s.bank core).ring h) →
      (let r := { y.regs.put rd (nat (hHeadAddr ((s.bank core).ring h))) with pc := y.regs.pc + 4 }
       exec (.contextWake core i.val) s =
        .next (s.putCtx core i { y with regs := r, ckpt := r, st := .ready, wait := .none }))) ∧
    (∀ m rest, (s.core core).svc = m :: rest → m.payload = [nat i.val] → y.st = .suspended →
      (s.core core).saved = false →
      (fld m.w0 47 0 = 0xFFFF_FFFF_FF00 → ∃ t : State, exec (.resume core) s = .next t ∧
        (t.core core).svc = rest ∧ t.ctx core i = { y with st := .ready, wait := .none }) ∧
      (fld m.w0 47 0 = 0xFFFF_FFFF_FF01 → ∃ t : State, exec (.kill core) s = .next t ∧
        (t.core core).svc = rest ∧ t.ctx core i = Ctx.reset)) ∧
    (core < 2 ^ 18 → y.running = true →
      (y.anch = false → ∀ d (j : Fin 4), d / 8 = core / 8 → (s.ctx d j).running = true → (s.ctx d j).forced = false) →
      ∃ t : State, exec (.budgetExpiry core i.val) s = .next t ∧ t.ctx core i = Ctx.reset ∧
      (y.anch = true → (s.bank core).kst = .active → (t.bank core).kst = .faulted ∧ t.mem = s.mem ∧
        (t.bank core).cause = causeOf (Trap.at_ .budget 1 0) true i.val y.regs.cr.msgid.toNat ∧
        (t.bank core).fpc = y.regs.pc) ∧
      (y.anch = false → (t.bank core).kst = (s.bank core).kst ∧ (t.bank core).cause.toNat % 256 = 9)) ∧
    (∀ m vd, s.net = [m] → m.kind = .fault → m.dst = core → m.vd = vd → (s.bank core).vdid = vd →
      (s.bank core).kst = .active → m.payload = [nat (s.bank core).kernel.serial] →
      ∃ t : State, exec (.faultNotice core vd) s = .next t ∧ t.net = [] ∧
        (t.bank core).kst = .faulted ∧ t.mem = s.mem)

/-! ### Messages, rings, atomics and scopes -/

/-- R176, R179, R180, R184, R185: SEND and SENDQ of a good header, with the image in quiet TCM, take the lowest free
entry HELD with the header, the image's HADDR and its LEN payload words, and write its number to rd; RPLY takes one for
the task's request, once, with the request's source and class reply. Nothing else of the machine changes but what the
task has read. Without an entry, or without a reply slot for a request, SENDQ writes its failure value; SEND and RPLY
wait, with SQFH.WAIT set and something in use that other chunks hold, and else trap SQF. An ordered send below the
task's timestamp traps TSORDER. -/
def Sys2Proof.Claims.SendsTakeTheLowestFreeEntry : Prop :=
  ∀ (s : State) (rd rs1 rs2 : GReg) (n : Fin 32),
    let a := (s.regs.get rs1).toNat
    let hd := s.regs.get rs2
    let cls := hd.toNat / 2 ^ 30 % 4
    let send := Instr.send rd rs1 rs2
    let sendq := Instr.sendq rd rs1 rs2
    let rply := Instr.rply rd rs1 rs2
    let lim := fld s.me.bank.sqlim 5 0
    let reserved := min 16 (fld s.view.sqfh 12 8)
    let slots := fld s.me.bank.qdep 12 8
    let entryBusy := ∃ e ∈ s.me.sendq.toList, e.st ≠ .free ∧ notMine s e
    let slotBusy := (∃ e ∈ s.me.sendq.toList, e.resv = true ∧ notMine s e) ∨ ∃ m ∈ s.me.qReply, m.kind ≠ .copy
    QuietTcm s → a % 8 = 0 → a + 256 ≤ 2 ^ 18 →
    (goodHeader s hd →
      (cls = 2 → (tcmWord s (a + 16)).toNat < s.regs.cr.tstp.toNat →
        TrapsBare send s .tsorder 0 ∧ TrapsBare sendq s .tsorder 0) ∧
      ((cls = 2 → s.regs.cr.tstp.toNat ≤ (tcmWord s (a + 16)).toNat) →
        (hasRoom s (decide (cls = 0)) → lowestFree s n →
          TakesEntry send s rd n (sentEntry s a hd 0) ∧ TakesEntry sendq s rd n (sentEntry s a hd 0)) ∧
        (lim ≤ entriesUsed s + reserved →
          SendFails sendq s rd (BitVec.allOnes 64) ∧ WaitsOrSqf send s 0 entryBusy) ∧
        (entriesUsed s + reserved < lim → cls = 0 → slots ≤ slotsUsed s →
          SendFails sendq s rd (BitVec.allOnes 64 - 1) ∧ WaitsOrSqf send s 1 slotBusy))) ∧
    (∀ m, s.cx.msg = some m → s.cx.isRequest = true → s.cx.replied = false →
      (∀ e ∈ s.me.sendq.toList, ¬(e.isRply = true ∧ e.st = .held ∧ e.ctx = s.focus.2.val)) →
      lenOf hd ≤ 30 → (hd.getLsbD 39 = true → s.regs.cr.scur.getLsbD 32 = true) →
      m.w1.toNat / 2 ^ 6 % 2 ^ 12 = 0 ∨ m.w1.getLsbD 40 = false →
      let sent := nat (hd.toNat / 2 ^ 32 % 32 * 2 ^ 32 + hd.toNat / 2 ^ 39 % 2 * 2 ^ 39 + 2 ^ 30 + m.w1.toNat % 2 ^ 30 +
        m.w1.toNat / 2 ^ 40 % 2 * 2 ^ 40)
      (entriesUsed s < lim → lowestFree s n → TakesEntry rply s rd n (sentEntry s a sent m.mid)) ∧
      (lim ≤ entriesUsed s → WaitsOrSqf rply s 0 entryBusy))

/-- R184: the checks of a send, in their order, before any load: a system message of a fabric core traps PRIV, an image
address that is no multiple of 8 MISALIGN, RPLY without a request to answer BOUNDS 3, and a bad header BOUNDS 1 or
SCOPE 1. -/
def Sys2Proof.Claims.BadSendsTrap : Prop :=
  ∀ (s : State) (rd rs1 rs2 : GReg), s.ctl = false →
    let a := s.regs.get rs1
    let hd := s.regs.get rs2
    let cls := hd.toNat / 2 ^ 30 % 4
    let aligned := a.toNat % 8 = 0
    ∀ i ∈ [Instr.send rd rs1 rs2, .sendq rd rs1 rs2],
      (cls = 3 → TrapsBare i s .priv 0) ∧
      (cls ≠ 3 → ¬aligned → Traps i s .misalign 0 a) ∧
      (cls ≠ 3 → aligned → (hd.toNat / 2 ^ 41 ≠ 0 ∨ hd.toNat / 2 ^ 37 % 4 ≠ 0 ∨ 30 < lenOf hd ∨ cls = 1 ∨
        (hd.getLsbD 40 = true ∧ hd.toNat / 2 ^ 6 % 2 ^ 12 ≠ 0) ∨ (cls = 2 ∧ lenOf hd < 2)) →
        TrapsBare i s .bounds 1) ∧
      (aligned → hd.toNat / 2 ^ 41 = 0 → hd.toNat / 2 ^ 37 % 4 = 0 → lenOf hd ≤ 30 → cls = 0 →
        hd.getLsbD 40 = false → hd.getLsbD 39 = true → s.regs.cr.scur.getLsbD 32 = false → TrapsBare i s .scope 1) ∧
      (¬aligned → Traps (.rply rd rs1 rs2) s .misalign 0 a) ∧
      (aligned → s.cx.msg = none ∨ s.cx.isRequest = false ∨ s.cx.replied = true →
        TrapsBare (.rply rd rs1 rs2) s .bounds 3)

/-- R193: RESEND and DROPR of a REFUSED entry that no other context claims mark it for the chunk and write 0; of any
other entry they write 1 and change nothing. -/
def Sys2Proof.Claims.ResendAndDropClaimRefusedEntries : Prop :=
  ∀ (s : State) (rd rs1 : GReg), s.ctl = false →
    let e := (s.regs.get rs1).toNat
    let mine (n : Fin 32) := s.me.sendq[n].claim = none ∨ s.me.sendq[n].claim = some s.focus.2.val
    let fails (i : Instr) := exec i s = .next (State.settle (s.setRegs
      { s.regs.put rd 1 with pc := s.regs.pc + 4 }))
    let claims (i : Instr) (n : Fin 32) (p : Pend) := ∃ t : State, exec i s = .next t.settle ∧
      t.regs = { s.regs.put rd 0 with pc := s.regs.pc + 4 } ∧ t.mem = s.mem ∧
      t.me.sendq = s.me.sendq.set n ({ s.me.sendq[n] with claim := some s.focus.2.val } : Entry) ∧
      t.cx.chunk.pend = s.cx.chunk.pend ++ [p] ∧ t.cx.chunk.cells = s.cx.chunk.cells
    (31 < e → fails (.resend rd rs1) ∧ fails (.dropr rd rs1)) ∧
    (∀ n : Fin 32, e = n.val →
      (s.me.sendq[n].st ≠ .refused ∨ ¬mine n → fails (.resend rd rs1) ∧ fails (.dropr rd rs1)) ∧
      (s.me.sendq[n].st = .refused → mine n →
        claims (.resend rd rs1) n (.resend n.val s.me.seq) ∧ claims (.dropr rd rs1) n (.dropr n.val s.me.seq)))

/-- Sends take the lowest free entry or trap in order; RESEND and DROPR claim refused entries. -/
def Obligations.SendsAndTheirEntries : Prop :=
  SendsTakeTheLowestFreeEntry ∧ BadSendsTrap ∧ ResendAndDropClaimRefusedEntries

/-- R194 to R196: rings. HSET of a good descriptor sets the handle with HEAD and TAIL 0, and a bad one traps RING 0;
CADV and PADV move HEAD and TAIL within what is filled and free, and trap RING 3 beyond it; CWAIT and PWAIT come to a
commit point, and trap RING 2 above N; HQRY gives the handle with its filled count; every one but HSET traps RING 1 on an
unset handle. The writes belong to the chunk and are seen by the writing context at once; beside them, and the mark that
the handle was read or written, nothing changes. A control core, whose map has no TCM, sets no handle. -/
def Obligations.RingInstructions : Prop :=
  ∀ (s : State) (rd rs1 : GReg) (h : HReg),
    let a := s.regs.get rs1
    let n := a.toNat
    let x := s.view.ring h
    let size := 2 ^ (n / 2 ^ 18 % 16)
    let good := n < 2 ^ 26 ∧ 3 ≤ n / 2 ^ 18 % 16 ∧ n / 2 ^ 18 % 16 ≤ 12 ∧ 1 ≤ n / 2 ^ 22 % 16 ∧
      n / 2 ^ 22 % 16 ≤ 10 ∧ n % 2 ^ 18 % size = 0 ∧ n % 2 ^ 18 + ringN a * size ≤ 2 ^ 18 ∧
      s.me.bank.kernel.cb * 8192 ≤ n % 2 ^ 18
    let unset := x.toNat / 2 ^ 22 % 16 = 0
    let marked (pend : List Pend) (r w : BitVec 1024) : Ctx :=
      { s.cx with chunk := { s.cx.chunk with pend := s.cx.chunk.pend ++ pend, rsig := r, wsig := w } }
    let moved (y : Ctx) : Ctx := { y with regs := { y.regs with pc := s.regs.pc + 4 } }
    let sets (i : Instr) (y : Word) := ∃ (t : State) (r w : BitVec 1024), exec i s = .next t.settle ∧
      t = s.setCx (moved (marked [.ring h y] r w)) ∧
      t.view.ring h = y ∧ ∀ g, g ≠ h → t.view.ring g = s.view.ring g
    let trapsRead (i : Instr) (sub : Nat) := ∃ r : BitVec 1024, exec i s =
      .next ((s.setCx (marked [] r s.cx.chunk.wsig)).takeTrap (Trap.bare .ring sub) s.regs.pc)
    let head (y : Word) := y.toNat / 2 ^ 26 % 2 ^ 11
    let tail (y : Word) := y.toNat / 2 ^ 37 % 2 ^ 11
    let all := [Instr.cwait rd h rs1, .pwait rd h rs1, .cadv h rs1, .padv h rs1, .hqry rd h]
    (s.ctl = true → TrapsBare (.hset h rs1) s .ring 0 ∧ (unset → ∀ i ∈ all, TrapsBare i s .ring 1)) ∧
    (s.ctl = false →
      (good → sets (.hset h rs1) a) ∧ (¬good → TrapsBare (.hset h rs1) s .ring 0) ∧
      (unset → ∀ i ∈ all, trapsRead i 1) ∧
      (¬unset → n ≤ ringFilled x → head x < 2 * ringN x → ringN x ≤ 1024 → ∃ y, sets (.cadv h rs1) y ∧
        head y = (head x + n) % (2 * ringN x) ∧ tail y = tail x ∧ y.toNat % 2 ^ 26 = x.toNat % 2 ^ 26) ∧
      (¬unset → ringFilled x + n ≤ ringN x → head x < 2 * ringN x → ringN x ≤ 1024 → ∃ y, sets (.padv h rs1) y ∧
        tail y = (tail x + n) % (2 * ringN x) ∧ head y = head x ∧ y.toNat % 2 ^ 26 = x.toNat % 2 ^ 26) ∧
      (¬unset → head x < 2 * ringN x → (ringFilled x < n → trapsRead (.cadv h rs1) 3) ∧
        (ringN x - ringFilled x < n → trapsRead (.padv h rs1) 3)) ∧
      (¬unset → n ≤ ringN x → Awaits (.cwait rd h rs1) s (.ring false h n rd) ∧
        Awaits (.pwait rd h rs1) s (.ring true h n rd)) ∧
      (¬unset → ringN x < n → trapsRead (.cwait rd h rs1) 2 ∧ trapsRead (.pwait rd h rs1) 2) ∧
      (¬unset → head x < 2 * ringN x → ∃ r : BitVec 1024, exec (.hqry rd h) s = .next (State.settle (s.setCx
        { marked [] r s.cx.chunk.wsig with
          regs := { s.regs.put rd (nat (x.toNat % 2 ^ 48 + ringFilled x * 2 ^ 48)) with pc := s.regs.pc + 4 } }))))

/-- R177, R179, R181, R187 to R189, R191: the life of a message on this module. A READY entry with none before it on its
way departs with its MID; a message whose handler is in bounds and whose queue has room enters the queue of its class
with its source in the header, and the sender is told; a request to a full queue is refused QFULL; the accepted
entry of a request awaits its reply and any other is freed; a refused one is REFUSED with its WHY, and its refusal
task queued with the image as it was sent, marked REFD. -/
def Sys2Proof.Claims.MessageLifeOnTheModule : Prop :=
  ∀ (s : State),
    (∀ (c : Nat) (n : Fin 32), let e := (s.core c).sendq[n]
      e.st = .ready → e.away = false → e.atomic = none → (s.core c).saved = false → (s.core c).saveHalt = none →
      netMod s c (hdrMod e.hd) = 0xFFF → (∀ f ∈ (s.core c).sendq.toList, f.st = .ready → e.seq ≤ f.seq) →
      ∃ (m : Msg) (t : State), exec (.entryDepart c n.val) s = .next t ∧ t.net = s.net ++ [m] ∧ m.w1 = e.hd ∧
        m.payload = e.payload ∧
        m.w0 = nat (e.haddr.toNat % 2 ^ 48 + e.mid.toNat % 2 ^ 16 * 2 ^ 48) ∧ m.src = c ∧ m.dst = hdrCore e.hd ∧
        m.dmod = 0xFFF ∧ m.entry = some n.val ∧ m.vd = (s.bank c).vdid ∧ t.mem = s.mem ∧
        (let f : Entry := { e with away := true }
         t.core c = { s.core c with sendq := (s.core c).sendq.set n f })) ∧
    (∀ (m : Msg) (rest : List Msg), let x := s.core m.dst
      s.net = m :: rest → m.kind = .task → m.cls = .request ∨ m.cls = .ordered ∨ m.cls = .system →
      m.dst < 2 ^ 18 → m.src < 2 ^ 18 → m.dmod = 0xFFF → m.barred = false → m.w1.getLsbD 39 = false →
      (∀ r ∈ rest, m.order = 0 ∨ r.order = 0 ∨ m.order ≤ r.order) → m.rels = [] →
      (s.cluster (m.dst / 8)).lost = false → x.bank.kst = .active → x.bank.vdid = m.vd →
      x.saved = false → x.saveHalt = none → m.w0.toNat % 2 = 0 → x.bank.hblo.toNat ≤ m.w0.toNat % 2 ^ 48 →
      m.w0.toNat % 2 ^ 48 ≤ x.bank.hbhi.toNat → m.w0.toNat % 2 ^ 48 < 0xFFFF_FFFF_FF00 →
      (let told (t : State) (why : Option Nat) := t.net = rest ∧ t.mem = s.mem ∧
        ∀ k, m.entry = some k → ∃ v : Verdict, t.verdicts = s.verdicts ++ [v] ∧ v.core = m.src ∧ v.entry = k ∧ v.why = why
       ((x.queue m.cls).length < fld x.bank.qdep (match m.cls with
            | .system => 4 | .reply => 12 | .ordered => 20 | .request => 28) (match m.cls with
            | .system => 0 | .reply => 8 | .ordered => 16 | .request => 24) →
          ∃ (t : State) (d : Msg), exec (.messageArrival 0) s = .next t ∧ told t none ∧
            (t.core m.dst).queue m.cls = x.queue m.cls ++ [d] ∧ d.w0 = m.w0 ∧ d.payload = m.payload ∧
            d.w1.toNat % 2 ^ 18 = m.src ∧ d.w1.toNat / 2 ^ 18 % 2 ^ 12 = 0xFFF ∧
            d.w1.toNat / 2 ^ 30 % 2 ^ 10 = m.w1.toNat / 2 ^ 30 % 2 ^ 10) ∧
       (m.cls = .request → fld x.bank.qdep 28 24 ≤ x.qReq.length →
          ∃ t : State, exec (.messageArrival 0) s = .next t ∧ told t (some 0) ∧ t.core m.dst = x))) ∧
    (∀ (v : Verdict) (rest : List Verdict) (n : Fin 32), let x := s.core v.core
      let e := x.sendq[n]
      s.verdicts = v :: rest → v.entry = n.val → v.core < 2 ^ 18 → x.saved = false → x.saveHalt = none → x.bank.vdid = v.vd →
      e.gone = false → e.st = .ready → e.away = true → e.mid.toNat = v.mid →
      (v.why = none → ∃ t : State, exec (.entryAccepted 0) s = .next t ∧ t.verdicts = rest ∧
        (let f : Entry := if e.hd.toNat / 2 ^ 30 % 4 = 0 then { e with st := .await, away := false } else Entry.free
         t.core v.core = { x with sendq := x.sendq.set n f })) ∧
      (∀ w, v.why = some w → ∃ (t : State) (im : Msg), exec (.entryRefused 0) s = .next t ∧ t.verdicts = rest ∧
        im.payload = e.payload ∧ im.w0 = nat (e.haddr.toNat % 2 ^ 48 + e.mid.toNat % 2 ^ 16 * 2 ^ 48) ∧
        (∀ j < 64, im.w1.getLsbD j = (e.hd.getLsbD j || j == 38)) ∧
        (let f : Entry := { e with st := .refused, away := false, why := w }
         t.core v.core = { x with sendq := x.sendq.set n f, refusals := x.refusals ++ [⟨n.val, im, w⟩] })))

/-- R336, R337: a release-tagged message outside its scope loses its tag, is marked STRIP and goes on, and a scope-miss
message with its header goes to its source. -/
def Sys2Proof.Claims.ScopeStripTellsTheSource : Prop :=
  ∀ (s : State) (m : Msg),
    s.net = [m] → m.kind = .task → m.w1.getLsbD 39 = true → m.dmod ≠ 0xFFF ∨ inRect m.rect m.dst = false →
    ∃ (t : State) (a b : Msg), exec (.scopeStrip 0) s = .next t ∧ t.net = [a, b] ∧ t.mem = s.mem ∧ t.cores = s.cores ∧
      a = { m with w1 := a.w1, rect := 0, rels := [] } ∧ a.w1.getLsbD 39 = false ∧ a.w1.getLsbD 37 = true ∧
      (∀ j, j ≠ 37 → j ≠ 39 → a.w1.getLsbD j = m.w1.getLsbD j) ∧
      b.kind = .scopeMiss ∧ b.dst = m.src ∧ b.w1 = a.w1 ∧ b.payload = m.payload ∧ b.rect = m.rect ∧ b.entry = none

/-- R180, R185, R341, R344: an atomic of a fabric core on a location of its own TCM takes the lowest free entry HELD with
the operation, both operands, the width of ARH and its handler, and a reply slot where the handler is not 0; it writes
the entry's number to rd, and nothing else changes. A misaligned address traps MISALIGN on either profile, a handler out
of bounds BOUNDS 7; without an entry or a reply slot it waits or traps SQF, as SEND does. -/
def Sys2Proof.Claims.AtomicsTakeAnEntry : Prop :=
  ∀ (s : State) (rd rs1 rs2 : GReg) (n : Fin 32),
    let a := s.regs.get rs1
    let w := if s.regs.cr.arh.getLsbD 48 then 4 else 8
    let h := s.regs.cr.arh.toNat % 2 ^ 48
    let lim := fld s.me.bank.sqlim 5 0
    let used := entriesUsed s + min 16 (fld s.view.sqfh 12 8)
    let own := QuietTcm s ∧ a.toNat % w = 0 ∧ a.toNat + 8 ≤ 2 ^ 18 ∧ s.me.bank.kernel.cb * 8192 ≤ a.toNat
    let goodHandler := h = 0 ∨ (h % 2 = 0 ∧ s.me.bank.hblo.toNat ≤ h ∧ h ≤ s.me.bank.hbhi.toNat)
    ∀ p ∈ atomics, let i := p.2 rd rs1 rs2
      let x : AtomicOp :=
        { op := p.1, addr := a, place := 2 ^ 41 + s.focus.1 * 2 ^ 18 + a.toNat, home := none, v := s.regs.get rs2
          w := s.regs.get (rs2 + 1), n := w, haddr := nat h, rel := s.regs.cr.arh.getLsbD 49 }
      (a.toNat % w ≠ 0 → Traps i s .misalign 0 a) ∧
      (own → ¬goodHandler → TrapsBare i s .bounds 7) ∧
      (own → goodHandler →
        (hasRoom s (decide (h ≠ 0)) → lowestFree s n → TakesEntry i s rd n
          { Entry.free with
            st := .held, ctx := s.focus.2.val, haddr := nat h, atomic := some x, seq := s.me.seq
            resv := decide (h ≠ 0) }) ∧
        (lim ≤ used → WaitsOrSqf i s 0 (∃ e ∈ s.me.sendq.toList, e.st ≠ .free ∧ notMine s e)) ∧
        (used < lim → h ≠ 0 → fld s.me.bank.qdep 12 8 ≤ slotsUsed s → WaitsOrSqf i s 1
          ((∃ e ∈ s.me.sendq.toList, e.resv = true ∧ notMine s e) ∨ ∃ m ∈ s.me.qReply, m.kind ≠ .copy)))

/-- R121, R329, R340, R342, R344: the owner performs a READY atomic on the TCM of its core, first of its owner: the
n bytes become what the operation gives, no other byte changes, the entry awaits the fetching form's reply (old value,
address and FAIL) and is freed otherwise. -/
def Sys2Proof.Claims.AtomicsReadModifyWrite : Prop :=
  ∀ (s : State) (core : Nat) (n : Fin 32) (x : AtomicOp),
    let e := (s.core core).sendq[n]
    let old := ofBytes (s.mem.bytes x.place x.n)
    core < 2 ^ 18 → s.uncorrectable = [] → s.failedBanks = [] → e.st = .ready → e.atomic = some x → x.op < 15 →
    (x.n = 4 ∨ x.n = 8) → x.home = none → x.rel = false → x.place = 2 ^ 41 + core * 2 ^ 18 + x.addr.toNat →
    x.addr.toNat + 8 ≤ 2 ^ 18 → x.addr.toNat % x.n = 0 → (s.core core).saved = false → (s.core core).saveHalt = none →
    e.barred = false → e.gone = false →
    (∀ f ∈ (s.core core).sendq.toList, f.st = .ready → e.seq ≤ f.seq) →
    (∀ j : Fin 8, (s.bank core).jobs[j].outstanding = false) → (s.core core).owed = [] → (s.core core).held = [] →
    (∀ d (j : Fin 4), d / 8 = core / 8 → (s.ctx d j).running = false) →
    ∃ (t : State) (new : Nat) (fail : Bool), exec (.atomicPerform core n.val) s = .next t ∧
      AtomicResult x.op x.n old x.v.toNat x.w.toNat new fail ∧
      ofBytes (t.mem.bytes x.place x.n) = new ∧
      (∀ b, b < x.place ∨ x.place + x.n ≤ b → t.mem.byte b = s.mem.byte b) ∧
      (∀ m, m ≠ n → (t.core core).sendq[m] = (s.core core).sendq[m]) ∧
      (x.haddr = 0 → (t.core core).sendq[n] = Entry.free ∧ t.net = s.net) ∧
      (x.haddr ≠ 0 → (t.core core).sendq[n] = ({ e with st := .await } : Entry) ∧
        ∃ r, t.net = s.net ++ [r] ∧ r.kind = .atomic ∧ r.dst = core ∧ r.mid = e.mid ∧
          r.payload = [nat old, nat (x.addr.toNat % 2 ^ 48 + if fail then 2 ^ 63 else 0)])

/-- Atomics take an entry, and their owner reads, modifies and writes once. -/
def Obligations.AtomicsReadModifyWriteOnce : Prop := AtomicsTakeAnEntry ∧ AtomicsReadModifyWrite

/-- R334, R335, R338, R339, R457: RELS of a valid rectangle sets SCUR and leaves the release for the commit, a bad one
traps SCOPE 0; ACQS raises the floors of the core's later loads to the stores performed for it, and no floor goes
down; FENCE waits for the stores it covers. -/
def Sys2Proof.Claims.ScopeInstructions : Prop :=
  ∀ (s : State) (rs1 : GReg),
    let q := s.regs.get rs1
    let x0 := q.toNat % 256
    let y0 := q.toNat / 2 ^ 8 % 256
    let x1 := q.toNat / 2 ^ 16 % 256
    let y1 := q.toNat / 2 ^ 24 % 256
    let good := q.toNat < 2 ^ 32 ∧ x0 ≤ x1 ∧ y0 ≤ y1 ∧ y1 ≤ 127
    (good → ∃ t : State, exec (.rels rs1) s = .next t.settle ∧ t.mem = s.mem ∧
      t.regs = { s.regs with pc := s.regs.pc + 4, cr := { s.regs.cr with scur := nat (q.toNat + 2 ^ 32) } } ∧
      (s.ctl = false → t.cx.chunk.pend = s.cx.chunk.pend ++ [.rels q])) ∧
    (¬good → TrapsBare (.rels rs1) s .scope 0) ∧
    (∃ t : State, exec .acqs s = .next t ∧ t.regs = { s.regs with pc := s.regs.pc + 4 } ∧ t.mem = s.mem ∧
      (∀ w, Tab.get s.me.floors w 0 ≤ Tab.get t.me.floors w 0) ∧
      (∀ p ∈ s.performed, p.covers s.focus.1 = true → p.ix ≤ Tab.get t.me.floors p.word 0)) ∧
    (s.ctl = false → exec .fence s = .next (waiting s (.fence s.cx.fence none 0))) ∧
    (s.ctl = true → ∃ t : State, exec .fence s = .next t ∧ t.regs = { s.regs with pc := s.regs.pc + 4 } ∧
      t.mem = s.mem)

/-- Messages depart, arrive, are accepted or refused; scopes strip, release, acquire and fence. -/
def Obligations.MessagesAndScopes : Prop := MessageLifeOnTheModule ∧ ScopeStripTellsTheSource ∧ ScopeInstructions

/-! ### Vector arithmetic -/

/-- R217, R218, R221: the arithmetic and logic members on integer lanes, in the V and the VX form: the lane result is
the integer result modulo 2^w; division saturates; no flag is set; inactive lanes keep their values. -/
def Sys2Proof.Claims.IntegerLanes : Prop :=
  ∀ (s : State) (et : ETy) (vd vs2 vs1 : VReg) (gs : GReg) (k : KReg), et.isInt = true →
    let w := et.width
    let sg := signed w
    let both (vf : VReg → Instr) (xf : GReg → Instr) (f : Nat → Nat → Nat → Nat) :=
      BothForms vf xf s et vd vs2 vs1 gs fun i a b c => VLanes i s et vd k fun l => f (a l) (b l) (c l)
    let a := laneOf et (s.regs.getV vs2)
    both (.vadd et vd vs2 · k) (.vaddVx et vd vs2 · k) (fun a b _ => (a + b) % 2 ^ w) ∧
    both (.vsub et vd vs2 · k) (.vsubVx et vd vs2 · k) (fun a b _ => wrap w ((a : Int) - b)) ∧
    both (.vmul et vd vs2 · k) (.vmulVx et vd vs2 · k) (fun a b _ => a * b % 2 ^ w) ∧
    both (.vfma et vd vs2 · k) (.vfmaVx et vd vs2 · k) (fun a b c => (a * b + c) % 2 ^ w) ∧
    both (.vmin et vd vs2 · k) (.vminVx et vd vs2 · k) (fun a b _ => wrap w (min (sg a) (sg b))) ∧
    both (.vmax et vd vs2 · k) (.vmaxVx et vd vs2 · k) (fun a b _ => wrap w (max (sg a) (sg b))) ∧
    both (.vminu et vd vs2 · k) (.vminuVx et vd vs2 · k) (fun a b _ => min a b) ∧
    both (.vmaxu et vd vs2 · k) (.vmaxuVx et vd vs2 · k) (fun a b _ => max a b) ∧
    both (.vshl et vd vs2 · k) (.vshlVx et vd vs2 · k) (fun a b _ => a * 2 ^ (b % w) % 2 ^ w) ∧
    both (.vshr et vd vs2 · k) (.vshrVx et vd vs2 · k) (fun a b _ => a / 2 ^ (b % w)) ∧
    both (.vsra et vd vs2 · k) (.vsraVx et vd vs2 · k) (fun a b _ => wrap w (sg a / (2 : Int) ^ (b % w))) ∧
    both (.vmulh et vd vs2 · k) (.vmulhVx et vd vs2 · k) (fun a b _ => wrap w (sg a * sg b / (2 : Int) ^ w)) ∧
    both (.vdiv et vd vs2 · k) (.vdivVx et vd vs2 · k) (fun a b _ => wrap w
      (if b = 0 then (if sg a < 0 then -(2 : Int) ^ (w - 1) else (2 : Int) ^ (w - 1) - 1)
        else min ((sg a).tdiv (sg b)) ((2 : Int) ^ (w - 1) - 1))) ∧
    VLanes (.vabs et vd vs2 k) s et vd k (fun l => wrap w |sg (a l)|) ∧
    VLanes (.vneg et vd vs2 k) s et vd k (fun l => wrap w (-(a l : Int)))

/-- R221: the floating lanes of the arithmetic members, in the V and the VX form: f32 and f64 lanes are what the scalar
instruction gives, with its flags; the exact result is rounded once to the lane's type, bf16 included; a NaN operand
gives the canonical NaN. -/
def Obligations.FloatingLanes : Prop :=
  ∀ (s : State) (et : ETy) (vd vs2 vs1 : VReg) (gs : GReg) (k : KReg), et.isInt = false →
    let f := etFmt et
    let both (vf : VReg → Instr) (xf : GReg → Instr) (P : Nat → Nat → Nat → Nat → Nat → Prop) :=
      BothForms vf xf s et vd vs2 vs1 gs fun i a b c => FLanes i s et vd k fun l n g => P (a l) (b l) (c l) n g
    let all (_ : Rat) := True
    both (.vadd et vd vs2 · k) (.vaddVx et vd vs2 · k) (FloatLane .faddS .faddD all (fun x y => x + y) et) ∧
    both (.vsub et vd vs2 · k) (.vsubVx et vd vs2 · k) (FloatLane .fsubS .fsubD all (fun x y => x - y) et) ∧
    both (.vmul et vd vs2 · k) (.vmulVx et vd vs2 · k) (FloatLane .fmulS .fmulD all (fun x y => x * y) et) ∧
    both (.vdiv et vd vs2 · k) (.vdivVx et vd vs2 · k) (FloatLane .fdivS .fdivD (· ≠ 0) (fun x y => x / y) et) ∧
    both (.vfma et vd vs2 · k) (.vfmaVx et vd vs2 · k) (fun a b c n g =>
      LikeScalar .fmaS .fmaD et a b c n g ∧
      (∀ x y z, value f a = some x → value f b = some y → value f c = some z → Rounded f (x * y + z) n g) ∧
      (isNan f a = true ∨ isNan f b = true → n = quietNan f)) ∧
    both (.vmin et vd vs2 · k) (.vminVx et vd vs2 · k) (fun a b c n g =>
      LikeScalar .fminS .fminD et a b c n g ∧
      (isNan f a = false → isNan f b = false → (n = a ∨ n = b) ∧ ¬below f a n ∧ ¬below f b n)) ∧
    both (.vmax et vd vs2 · k) (.vmaxVx et vd vs2 · k) (fun a b c n g =>
      LikeScalar .fmaxS .fmaxD et a b c n g ∧
      (isNan f a = false → isNan f b = false → (n = a ∨ n = b) ∧ ¬below f n a ∧ ¬below f n b))

/-- R221 to R224, on every type: the logic members work on the lane's bits, VABS and VNEG of a floating type on its
sign bit; a compare writes its mask, with every other bit 0 and NV by FEQ, FLT and FLE; VSEL writes every lane; VEXT
gives the lowest active lane, or 0. -/
def Sys2Proof.Claims.BitwiseLanesAndCompares : Prop :=
  ∀ (s : State) (et : ETy) (vd vs2 vs1 : VReg) (gs : GReg) (kd k : KReg),
    let w := et.width
    let f := etFmt et
    let sg := signed w
    let top := 2 ^ (w - 1)
    let a := laneOf et (s.regs.getV vs2)
    let act := s.regs.getK k
    let both (vf : VReg → Instr) (xf : GReg → Instr) (g : Nat → Nat → Nat) :=
      BothForms vf xf s et vd vs2 vs1 gs fun i a b _ => VLanes i s et vd k fun l => g (a l) (b l)
    let cmp (vf : VReg → Instr) (xf : GReg → Instr) (int : Int → Int → Prop) (flt : Nat → Nat → Prop)
        (loud : Nat → Nat → Prop) :=
      BothForms vf xf s et vd vs2 vs1 gs fun i a b _ =>
        if et.isInt then CompareMask i s et kd k (fun l => int (sg (a l)) (sg (b l))) (fun _ => False)
        else CompareMask i s et kd k (fun l => isNan f (a l) = false ∧ isNan f (b l) = false ∧ flt (a l) (b l))
          (fun l => loud (a l) (b l))
    let sig (x y : Nat) := isSignalling f x = true ∨ isSignalling f y = true
    let any (x y : Nat) := isNan f x = true ∨ isNan f y = true
    both (.vand et vd vs2 · k) (.vandVx et vd vs2 · k) (fun x y => x &&& y) ∧
    both (.vor et vd vs2 · k) (.vorVx et vd vs2 · k) (fun x y => x ||| y) ∧
    both (.vxor et vd vs2 · k) (.vxorVx et vd vs2 · k) (fun x y => x ^^^ y) ∧
    (et.isInt = false →
      VLanes (.vabs et vd vs2 k) s et vd k (fun l => a l % top) ∧
      VLanes (.vneg et vd vs2 k) s et vd k (fun l => if a l < top then a l + top else a l - top)) ∧
    cmp (.vcmpeq et kd vs2 · k) (.vcmpeqVx et kd vs2 · k) (· = ·) (fun x y => ¬below f x y ∧ ¬below f y x) sig ∧
    cmp (.vcmplt et kd vs2 · k) (.vcmpltVx et kd vs2 · k) (· < ·) (fun x y => below f x y) any ∧
    cmp (.vcmple et kd vs2 · k) (.vcmpleVx et kd vs2 · k) (· ≤ ·) (fun x y => ¬below f y x) any ∧
    (et.isInt = true → BothForms (.vcmpltu et kd vs2 · k) (.vcmpltuVx et kd vs2 · k) s et vd vs2 vs1 gs
      fun i a b _ => CompareMask i s et kd k (fun l => a l < b l) (fun _ => False)) ∧
    BothForms (.vsel et vd vs2 · k) (.vselVx et vd vs2 · k) s et vd vs2 vs1 gs
      (fun i a b _ => VAll i s et vd fun l => if act.getLsbD l then b l else a l) ∧
    (∀ l, lowestActive s et k l →
      Gives (.vext et gs vs2 k) s gs (if et.isInt then int (sg (a l)) else nat (a l)) 4) ∧
    ((∀ l < et.lanes, act.getLsbD l = false) → Gives (.vext et gs vs2 k) s gs 0 4)

/-- Integer and bitwise vector lanes and compares, under their masks. -/
def Obligations.IntegerLanesAndCompares : Prop := IntegerLanes ∧ BitwiseLanesAndCompares

/-! ### Vector memory, permutations and reductions -/

/-- R225 to R227: vector loads and stores of own memory. Each active lane's element is read or written at the address
of its form; VLDB reads one element for all active lanes, VLDK and VSTK move a predicate register; VLD and VST at no
multiple of 64 trap MISALIGN, whatever the mask. -/
def Obligations.VectorMemory : Prop :=
  ∀ (s : State) (et : ETy) (vd vi : VReg) (gs1 gs2 : GReg) (k kd : KReg),
    let a := s.regs.get gs1
    let n := et.bytes
    let act (l : Nat) : Prop := (s.regs.getK k).getLsbD l = true
    let unit (l : Nat) := a + nat (l * n)
    let stride (l : Nat) := a + nat l * s.regs.get gs2
    let index (l : Nat) := a + int (signed et.width (laneOf et (s.regs.getV vi) l) * n)
    let x := laneOf et (s.regs.getV vd)
    (a.toNat % 64 ≠ 0 → Traps (.vld et vd gs1 k) s .misalign 0 a ∧ Traps (.vst et vd gs1 k) s .misalign 0 a) ∧
    (a.toNat % 64 = 0 → VLoads (.vld et vd gs1 k) s et vd k unit ∧
      VStores (.vst et vd gs1 k) s et.lanes n act unit x) ∧
    VLoads (.vlds et vd gs1 gs2 k) s et vd k stride ∧ VStores (.vsts et vd gs1 gs2 k) s et.lanes n act stride x ∧
    VLoads (.vgath et vd gs1 vi k) s et vd k index ∧ VStores (.vscat et vd gs1 vi k) s et.lanes n act index x ∧
    (∀ p, ElementMay s a n p false → (∃ l < et.lanes, act l) → ∃ v : VWord,
      exec (.vldb et vd gs1 k) s = .next (State.settle (s.setCx { s.cx with
        regs := { s.regs.putV vd v with pc := s.regs.pc + nat 4 }
        chunk := { s.cx.chunk with rsig := s.cx.chunk.rsig ||| sigBit p } })) ∧
      ∀ l < et.lanes, (act l → laneOf et v l = seenNum s p n) ∧ (¬act l → laneOf et v l = x l)) ∧
    ((∀ l < et.lanes, ¬act l) → Leaves (.vldb et vd gs1 k) s { s.regs with pc := s.regs.pc + nat 4 }) ∧
    (∀ p, ElementMay s a 8 p false → exec (.vldk kd gs1) s = .next (State.settle (s.setCx { s.cx with
        regs := { s.regs.putK kd (nat (seenNum s p 8)) with pc := s.regs.pc + nat 4 }
        chunk := { s.cx.chunk with rsig := s.cx.chunk.rsig ||| sigBit p } }))) ∧
    VStores (.vstk kd gs1) s 1 8 (fun _ => True) (fun _ => a) (fun _ => (s.regs.getK kd).toNat)

/-- R228: the permutations copy lanes and set no flag. -/
def Sys2Proof.Claims.VectorPermutations : Prop :=
  ∀ (s : State) (et : ETy) (vd vs2 vs1 : VReg) (k : KReg),
    let a := laneOf et (s.regs.getV vs2)
    let b := laneOf et (s.regs.getV vs1)
    let old := laneOf et (s.regs.getV vd)
    let n := et.lanes
    let act (l : Nat) : Prop := (s.regs.getK k).getLsbD l = true
    let half := n / 2
    VLanes (.vpermb vd vs2 vs1 k) s .i8 vd k (fun l =>
      let x := laneOf .i8 (s.regs.getV vs1) l
      if 128 ≤ x then 0 else laneOf .i8 (s.regs.getV vs2) (x % 64)) ∧
    VLanes (.vbcst et vd vs2 k) s et vd k (fun _ => a 0) ∧
    (et.isInt = true → VAll (.viota et vd k) s et vd (activeBelow s k)) ∧
    (∃ v, VGives (.vcompr et vd vs2 k) s vd v 0 ∧
      (∀ l < n, act l → laneOf et v (activeBelow s k l) = a l) ∧
      ∀ l < n, activeBelow s k n ≤ l → laneOf et v l = 0) ∧
    VLanes (.vexpnd et vd vs2 k) s et vd k (fun l => a (activeBelow s k l)) ∧
    VLanes (.vslide et vd vs2 vs1 k) s et vd k (fun l =>
      let j := (l : Int) + signed 8 ((s.regs.getV vs1).toNat % 256)
      if 0 ≤ j ∧ j < n then a j.toNat else 0) ∧
    VAll (.vins et vd vs2 vs1) s et vd
      (fun l => if l = (s.regs.getV vs2).toNat % 2 ^ 64 % n then b 0 else old l) ∧
    VLanes (.vzip et vd vs2 vs1 k) s et vd k (fun l => if l % 2 = 0 then a (l / 2) else b (l / 2)) ∧
    VLanes (.vunzip et vd vs2 vs1 k) s et vd k (fun l => if l < half then a (2 * l) else b (2 * (l - half)))

/-- R53 to R55, R229, R230: a reduction of the active lanes goes to lane 0, and every other lane becomes 0. Sums of floating
lanes follow the fixed tree, with a rounding and its flags at every addition; bf16 lanes are summed in binary32 and
rounded once at the end; a NaN that passes the tree alone becomes the canonical one (R38). VROWST gives the mean and the
variance of its row by the steps of R55, each rounded once, in R53's order; NaNs for an infinite or NaN element; NaNs and
NV for no row or one beyond 2^24 elements. -/
def Sys2Proof.Claims.VectorReductions : Prop :=
  ∀ (s : State) (et : ETy) (vd vs2 : VReg) (k : KReg),
    let a := laneOf et (s.regs.getV vs2)
    let n := et.lanes
    let w := et.width
    let f := etFmt et
    let act (l : Nat) : Prop := l < n ∧ (s.regs.getK k).getLsbD l = true
    let list := (List.range n).filter fun l => (s.regs.getK k).getLsbD l
    let less (x y : Nat) : Prop := if et.isInt then signed w x < signed w y else below f x y
    let gives (i : Instr) (x fl : Nat) := VGives i s vd (BitVec.ofNat 512 x) fl
    let nv (fl : Nat) := (fl = 16 ∨ fl = 0) ∧ (fl = 16 ↔ ∃ l, act l ∧ et.isInt = false ∧ isSignalling f (a l) = true)
    let nan := ∃ l, act l ∧ et.isInt = false ∧ isNan f (a l) = true
    let part (g : Nat → Nat) (l : Nat) := if (s.regs.getK k).getLsbD l then some (g (a l)) else none
    (et.isInt = true → gives (.vrsum et vd vs2 k) ((list.map a).sum % 2 ^ w) 0) ∧
    (et = .f32 ∨ et = .f64 → ∃ r fl x g, gives (.vrsum et vd vs2 k) x (fl ||| g) ∧
      TreeSum (fun x y z g => ∀ c, LikeScalar .faddS .faddD et x y c z g) (if et = .f32 then 4 else 3) (part id) r fl ∧
      (isNan f (r.getD 0) = true → x = quietNan f ∧ g = if isSignalling f (r.getD 0) then 16 else 0) ∧
      (isNan f (r.getD 0) = false → x = r.getD 0 ∧ g = 0)) ∧
    (et = .bf16 → ∃ r fl x g, gives (.vrsum et vd vs2 k) x (fl ||| g) ∧
      TreeSum (Scalar32 .faddS) 5 (part (· * 2 ^ 16)) r fl ∧
      ∀ (u : State) (rd rs : GReg), (u.regs.get rs).toNat % 2 ^ 32 = r.getD 0 → FpGives (.fcvtbfS rd rs) u rd x g) ∧
    (list = [] → gives (.vrmax et vd vs2 k) 0 0 ∧ gives (.vrmin et vd vs2 k) 0 0 ∧
      gives (.vrarg et vd vs2 k) (2 ^ 64 - 1) 0) ∧
    (∃ fl, nv fl ∧ (nan → gives (.vrmax et vd vs2 k) (quietNan f) fl ∧ gives (.vrmin et vd vs2 k) (quietNan f) fl ∧
        ∃ l, act l ∧ isNan f (a l) = true ∧ (∀ j < l, act j → isNan f (a j) = false) ∧
          gives (.vrarg et vd vs2 k) l fl) ∧
      (list ≠ [] → ¬nan →
        (∃ l, act l ∧ gives (.vrmax et vd vs2 k) (a l) fl ∧ (∀ j, act j → ¬less (a l) (a j)) ∧
          (et.isInt = false → isZero f (a l) = true → ∀ j, act j → isZero f (a j) = true → a l ≤ a j)) ∧
        (∃ l, act l ∧ gives (.vrmin et vd vs2 k) (a l) fl ∧ (∀ j, act j → ¬less (a j) (a l)) ∧
          (et.isInt = false → isZero f (a l) = true → ∀ j, act j → isZero f (a j) = true → a j ≤ a l)) ∧
        (∃ l, act l ∧ gives (.vrarg et vd vs2 k) l fl ∧ (∀ j, act j → ¬less (a l) (a j)) ∧
          ∀ j < l, act j → less (a j) (a l)))) ∧
    gives (.vrpopc et vd vs2 k) ((list.map fun l => (List.range w).countP fun j => (a l).testBit j).sum) 0 ∧
    (et = .bf16 ∨ et = .f32 →
      let base := nat ((s.regs.getV vs2).toNat % 2 ^ 64)
      let len := (s.regs.getV vs2).toNat / 2 ^ 64 % 2 ^ 64
      let row (i : Instr) (v : VWord) (fl : Nat) (sig : BitVec 1024) :=
        exec i s = .next (State.settle (s.setCx { s.cx with
          regs := { s.regs.putV vd v with
            pc := s.regs.pc + nat 4
            cr := { s.regs.cr with fflg := s.regs.cr.fflg ||| nat fl } }
          chunk := { s.cx.chunk with rsig := sig } }))
      (len = 0 ∨ 2 ^ 24 < len → gives (.vrowst et vd vs2) (quietNan fmt32 + quietNan fmt32 * 2 ^ 32) 16) ∧
      (1 ≤ len → len ≤ 2 ^ 24 → ∀ place : Nat → Nat,
        (∀ e < len, ElementMay s (base + nat (e * et.bytes)) et.bytes (place e) false) →
        ∃ mean var fl sig, row (.vrowst et vd vs2) (BitVec.ofNat 512 (mean + var * 2 ^ 32)) fl sig ∧
          readsAt s sig (fun _ => True) len place ∧
          let x (e : Nat) := seenNum s (place e) et.bytes * (if et = .bf16 then 2 ^ 16 else 1)
          ((∃ e < len, value fmt32 (x e) = none) → mean = quietNan fmt32 ∧ var = quietNan fmt32) ∧
          ((∀ e < len, (value fmt32 (x e)).isSome = true) → RowStatistics len x mean var fl) ∧
          ∀ q, len = 1 → value fmt32 (x 0) = some q → q ≠ 0 → mean = x 0 ∧ var = 0))

/-- Vector permutations, and reductions over their fixed trees. -/
def Obligations.VectorPermutationsAndReductions : Prop := VectorPermutations ∧ VectorReductions

/-! ### Special functions and conversions -/

/-- R231, R232, R234 to R238: VSFN and VGACT evaluate a function of each active lane, with R232's values at special
operands and at exact powers; a user's table gives LOW, HIGH or its segment's polynomial, rounded once, and a slot
without one NaN; VGACT multiplies by the up lane before the rounding, and beyond the range of the tables of silu and gelu
the product is that of the lanes. SFU_SERVICE writes the results with the last turn, and the second turn of a pair comes
before any other. VSTBL checks its record's address, and enters the table, and whether it passed its check, or the
refusal of a bad record with the chunk. -/
def Obligations.SpecialFunctions : Prop :=
  ∀ (s : State) (fn : BitVec 4) (et : ETy) (vd vs2 vs1 : VReg) (k : KReg) (t : BitVec 4), et = .f32 ∨ et = .bf16 →
    let f := etFmt et
    let x := laneOf et (s.regs.getV vs2)
    let up := laneOf et (s.regs.getV vs1)
    let user := fn.toNat - 13
    let a := nat ((s.regs.getV vs2).toNat % 2 ^ 64)
    let h := tcmWord s a.toNat
    let n := h.toNat % 64 + 1
    let bytes := 16 + 16 * n
    let word (k : Nat) : Nat := (tcmWord s (a.toNat + k)).toNat
    let we := signed 8 (h.toNat / 2 ^ 16 % 2 ^ 8)
    let mono := h.toNat / 2 ^ 6 % 4
    let bad : Prop := mono = 3 ∨ h.toNat / 2 ^ 9 % 2 ^ 7 ≠ 0 ∨ h.toNat / 2 ^ 24 % 2 ^ 8 ≠ 0 ∨ we < -24 ∨ 24 < we ∨
      value fmt32 (h.toNat / 2 ^ 32) = none ∨ ∃ j < n, word (16 + 16 * j + 8) / 2 ^ 32 ≠ 0
    let low := word 8 % 2 ^ 32
    let high := word 8 / 2 ^ 32
    let y0 (j : Nat) := word (16 + 16 * j) % 2 ^ 32
    let y1 (j : Nat) := word (16 + 16 * j) / 2 ^ 32
    let d (j : Nat) := word (16 + 16 * j + 8) % 2 ^ 32
    let upTo (p q : Nat) : Prop := ¬below fmt32 q p
    let passes : Prop := isNan fmt32 low = false ∧ isNan fmt32 high = false ∧
      (∀ j < n, isNan fmt32 (y0 j) = false ∧ isNan fmt32 (y1 j) = false ∧ isNan fmt32 (d j) = false) ∧
      (mono = 1 → upTo low (y0 0) ∧ (∀ j < n - 1, upTo (y1 j) (y0 (j + 1))) ∧ upTo (y1 (n - 1)) high) ∧
      (mono = 2 → upTo (y0 0) low ∧ (∀ j < n - 1, upTo (y0 (j + 1)) (y1 j)) ∧ upTo high (y1 (n - 1)))
    let b (x : Nat) : F32 := BitVec.ofNat 32 x
    (fn.toNat < 13 → Evaluates (.vsfn fn et vd vs2 k) s et vd k (fun l n => SpecialFunction f fn.toNat (x l) n)) ∧
    (13 ≤ fn.toNat → Evaluates (.vsfn fn et vd vs2 k) s et vd k
      (fun l n => (s.view.user.getD user none = none ∨ isNan f (x l) = true → n = quietNan f) ∧
        ∀ y q, s.view.user.getD user none = some y → PlainWidth y → UserExact y f (x l) q → RoundsTo f q n)) ∧
    Evaluates (.vgact fn et vd vs2 vs1 k) s et vd k (fun l n =>
      (isNan f (x l) = true ∨ isNan f (up l) = true → n = quietNan f) ∧
      (13 ≤ fn.toNat → ∀ y q u, s.view.user.getD user none = some y → PlainWidth y → UserExact y f (x l) q →
        value f (up l) = some u → RoundsTo f (q * u) n) ∧
      (fn = 9 ∨ fn = 10 → ∀ q u, value f (x l) = some q → value f (up l) = some u →
        (if fn = 9 then 16 else 8) ≤ q → RoundsTo f (q * u) n)) ∧
    (a.toNat % 64 ≠ 0 → Traps (.vstbl t vs2) s .misalign 0 a) ∧
    (a.toNat % 64 = 0 → s.ctl = true ∨ 2 ^ 18 < a.toNat + 32 → Traps (.vstbl t vs2) s .perm 0 a) ∧
    (QuietTcm s → a.toNat % 64 = 0 → a.toNat + 32 ≤ 2 ^ 18 →
      (2 ^ 18 < a.toNat + bytes → Traps (.vstbl t vs2) s .perm 0 a) ∧
      (a.toNat + bytes ≤ 2 ^ 18 → ∃ u : State, exec (.vstbl t vs2) s = .next u.settle ∧
        u.regs = { s.regs with pc := s.regs.pc + nat 4 } ∧ u.mem = s.mem ∧
        u.cx.chunk.cells = s.cx.chunk.cells ∧
        (bad → u.cx.chunk.pend = s.cx.chunk.pend ++ [.user t.toNat none false]) ∧
        (¬bad → ∃ ok : Bool, (ok = true ↔ passes) ∧ u.cx.chunk.pend = s.cx.chunk.pend ++ [.user t.toNat
          (some { n := n, lin := h.getLsbD 8, we := we, x0 := b (h.toNat / 2 ^ 32), low := b low, high := b high
                  segs := (List.range n).map fun j => (b (y0 j), b (y1 j), b (d j)) }) ok]))) ∧
    ∀ (cluster c : Nat) (i : Fin 4) (res : VWord) (turns : Nat),
      let y := s.ctx c i
      c < 2 ^ 18 → cluster = c / 8 → y.st = .waiting → y.wait = .sfu vd res turns →
      (∀ d (j : Fin 4), d / 8 = cluster → (d, j) ≠ (c, i) → (s.ctx d j).st = .waiting →
        ∀ v r n, (s.ctx d j).wait = .sfu v r n → turns = 0 ∧ n ≠ 0) →
      ∃ u : State, exec (.sfuService cluster) s = .next u ∧
        (turns = 2 → u.ctx c i = { y with wait := .sfu vd res 0 }) ∧
        (turns ≤ 1 → u.ctx c i = { y with
          regs := { y.regs.putV vd res with pc := y.regs.pc + nat 4 }, st := .ready, wait := .none })

/-- R36, R42 to R47, R239 to R241: conversions round once and saturate; VDEC gives the value of each byte's
code in the core's table, of a user's words or of a preset; VENC writes the codes of the active lanes, nearest table
values in the table mode and saturated integers in the integer modes, and MODE 3 traps ILLEGAL; VNIB
takes nibbles; VSCL scales by a power of two; VRNG gives the generator's value of its key and counter. -/
def Obligations.VectorConversions : Prop :=
  ∀ (s : State) (et dt half : ETy) (vd vs2 vs1 : VReg) (q m : BitVec 4) (k : KReg),
    let x := laneOf et (s.regs.getV vs2)
    let y := laneOf et (s.regs.getV vs1)
    let byte := laneOf .i8 (s.regs.getV vs2)
    let f := etFmt et
    let act (l : Nat) : Prop := (s.regs.getK k).getLsbD l = true
    let mode := s.regs.cr.encm.toNat % 4
    let first := q.toNat * et.lanes
    (∃ (v : VWord) (fl : Nat) (g : Nat → Nat), VGives (.vcvt et vd vs2 dt k) s vd v fl ∧
      (∀ l < dt.lanes, if act l ∧ l < et.lanes then ConvertedLane et dt (x l) (laneOf dt v l) (g l)
        else laneOf dt v l = laneOf dt (s.regs.getV vd) l) ∧
      ∀ j, fl.testBit j = true ↔ ∃ l < dt.lanes, act l ∧ l < et.lanes ∧ (g l).testBit j = true) ∧
    ((et, half) ∈ [(ETy.i16, ETy.i8), (.i32, .i16), (.i64, .i32), (.f32, .bf16), (.f64, .f32)] →
      FLanes (.vpack et vd vs2 vs1 k) s half vd k (fun l n g => ConvertedLane et half
        (if l < half.lanes / 2 then x l else y (l - half.lanes / 2)) n g)) ∧
    (et = .f32 ∨ et = .bf16 → first + et.lanes ≤ 64 →
      (∃ v, VGives (.vdec et vd vs2 q k) s vd v 0 ∧ ∀ l < et.lanes,
        let c := byte (first + l)
        let n := laneOf et v l
        (¬act l → n = laneOf et (s.regs.getV vd) l) ∧
        (act l → ∀ b, CodeMeans s.view.dtab c b → Narrowed f b n ∧ (et = .f32 → isNan f b = false → n = b))) ∧
      (mode = 3 → Traps (.venc et vd vs2 q k) s .illegal 0 (nat (ofBytes (encode (.venc et vd vs2 q k)).bytes))) ∧
      (mode ≠ 3 → ∃ v, VGives (.venc et vd vs2 q k) s vd v 0 ∧ ∀ l < 64,
        let n := laneOf .i8 v l
        let z := x (l - first)
        (¬(first ≤ l ∧ l < first + et.lanes ∧ act (l - first)) → n = laneOf .i8 (s.regs.getV vd) l) ∧
        (first ≤ l → l < first + et.lanes → act (l - first) →
          (mode ≠ 0 → isNan f z = true → n = 0) ∧
          (mode = 0 → isNan f z = true → n = s.regs.cr.encm.toNat / 2 ^ 24 % 256) ∧
          (mode = 0 → TableCode f s.view.dtab s.regs.cr.encm z n) ∧
          (mode ≠ 0 → isInf f z = true →
            n = if mode = 1 then (if isNegative f z then 128 else 127) else (if isNegative f z then 0 else 255)) ∧
          (mode ≠ 0 → ∀ r, value f z = some r → ∃ p : Int, |(p : Rat) - r| ≤ 1 / 2 ∧
            (|(p : Rat) - r| = 1 / 2 → p % 2 = 0) ∧
            n = if mode = 1 then wrap 8 (max (-128) (min p 127)) else wrap 8 (max 0 (min p 255)))))) ∧
    VLanes (.vnib vd vs2 m k) s .i8 vd k (fun l =>
      let b := byte (32 * (m.toNat % 2) + l / 2)
      let n := if l % 2 = 0 then b % 16 else b / 16
      if m.getLsbD 1 then wrap 8 (signed 4 n) else n) ∧
    (et.isInt = false → FLanes (.vscl et vd vs2 vs1 k) s et vd k (fun l n g =>
      (∀ r, value f (x l) = some r → Rounded f (r * (2 : Rat) ^ signed et.width (y l)) n g ∧
        (r = 0 → n = signBit f (isNegative f (x l)))) ∧
      (isNan f (x l) = true → n = quietNan f) ∧ (isInf f (x l) = true → n = x l ∧ g = 0))) ∧
    (et = .i32 ∨ et = .f32 → ∃ v, VGives (.vrng et vd vs2 k) s vd v 0 ∧ ∀ l < et.lanes,
      let z := (generator s.regs.cr.rngk ((s.regs.getV vs2).setWidth 64 + nat l)).toNat
      (¬act l → laneOf et v l = laneOf et (s.regs.getV vd) l) ∧
      (act l → et = .i32 → laneOf et v l = z) ∧
      (act l → et = .f32 → value f (laneOf et v l) = some (((z / 2 ^ 8 : Nat) : Rat) / 2 ^ 24)))

/-! ### Jobs: their instructions -/

/-- R245, R252, R256 to R258, R263, R265, R268, R271, R283, R296, R297, R312, R412: every job instruction checks its
operands in its rule's order, and traps JOB with R256's sub-cause at the first limit that fails: 1 an unset map, 2 a
map's shape or type, 3 a mailbox, an option or a record, 4 a pair, 5 a copy descriptor, 6 a spawn, 7 a list. On operands
that keep all of them it submits its job, with its maps, its mailbox and its operand words sampled at issue. -/
def Obligations.JobInstructionsSubmit : Prop :=
  ∀ (s : State) (rd gs1 gs2 : GReg) (tmA tmB : TMReg), OnFabric s →
    let x := s.regs.get gs1
    let y := s.regs.get gs2
    let A := s.view.tmap tmA
    let B := s.view.tmap tmB
    let cr := s.regs.cr
    let split := (s.cluster (s.focus.1 / 8)).split
    let low2 (w : Word) := w.toNat % 4
    let etOf (kind : Nat) := if kind = 0 then 0 else if kind = 1 then 4 else 5
    let shape (m : BitVec 256) (et : Nat) :=
      tmBase m < 2 ^ 18 ∧ tmRows m = 16 ∧ tmCols m = (if split then 64 else 128) ∧ tmEt m = et
    let paired := y.getLsbD 0 = true
    let clear (a n b m : Nat) := a + n ≤ b ∨ b + m ≤ a
    let job (i : Instr) (sub : Nat) := TrapsBare i s .job sub
    let set (m : BitVec 256) (i : Instr) : Prop × Prop := (tmRows m ≠ 0, job i 1)
    let box (i : Instr) (w : Word) : Prop × Prop := (goodMailbox s w, job i 3)
    let ra := y.toNat
    let tile (m : BitVec 256) := 2 ^ 20 ≤ tmBase m ∧ tmEt m = 5
    let apart (m : BitVec 256) := clear ra 256 (tmBase m) (tmSpan m)
    let mode (i : Instr) : Prop × Prop := (cr.fctl &&& ~~~0x731 = 0, job i 3)
    let record (i : Instr) (clears : Prop) : Prop × Prop :=
      (ra % 256 = 0 ∧ 2 ^ 20 ≤ ra ∧ ra + 256 ≤ 2 ^ 21 ∧ clears, job i 3)
    let size := if split then 64 else 128
    let one (i : Instr) (kind : Nat) := InOrder [set A i,
        (tile A ∧ tmRows A = tmCols A ∧ tmRows A ≤ size, job i 2), mode i, record i (apart A), box i x]
      (Submits i s rd kind x A 0 [y])
    let two (i : Instr) (kind : Nat) (shapes : Prop) := InOrder [set A i, set B i,
        (tile A ∧ tile B ∧ shapes ∧ tmRows A ≤ size ∧ clear (tmBase A) (tmSpan A) (tmBase B) (tmSpan B), job i 2),
        mode i, record i (apart A ∧ apart B), box i x]
      (Submits i s rd kind x A B [y])
    (let i := Instr.mgang rd tmA tmB gs1 gs2
     InOrder [(low2 cr.fmta ≠ 3 ∧ low2 cr.fmtb ≠ 3 ∧ low2 cr.sclf ≠ 3, NotHere i s), set A i, set B i,
        (tmBase A < 2 ^ 18 ∧ tmBase B < 2 ^ 18 ∧ tmRows A = 16 ∧ 16 ≤ tmCols A ∧ tmRows B = tmCols A ∧
          tmCols B = (if paired then 8 else 16) ∧ tmEt A = etOf (low2 cr.fmta) ∧ tmEt B = etOf (low2 cr.fmtb), job i 2),
        (y.toNat ≤ 1, job i 3), box i x,
        (paired → split = false ∧ cr.pairc.getLsbD 16 = true ∧ adjacent (s.focus.1 / 8) (pairOf cr.pairc) = true, job i 4),
        (low2 cr.sclf = 0 ∨ (cr.scla.toNat % 2 ^ 18 % 32 = 0 ∧ cr.sclb.toNat % 2 ^ 18 % 32 = 0),
          TrapsBare i s .misalign 0)]
      (Submits i s rd 0 x A B [y])) ∧
    (let i := Instr.mzero rd gs1
     InOrder [box i x] (Submits i s rd 1 x 0 0 [])) ∧
    (let i := Instr.msta rd tmA gs1
     InOrder [(low2 cr.fmtc ≠ 3 ∧ ¬(low2 cr.fmtc = 2 ∧ low2 cr.encm = 3), NotHere i s), set A i,
        (shape A (if low2 cr.fmtc = 0 then 5 else if low2 cr.fmtc = 1 then 4 else 0), job i 2), box i x]
      (Submits i s rd 2 x A 0 [])) ∧
    (let i := Instr.mlda rd tmA gs1
     InOrder [set A i, (shape A 5, job i 2), box i x] (Submits i s rd 3 x A 0 [])) ∧
    (let i := Instr.msplit rd gs1 gs2
     InOrder [(y.toNat ≤ 1, job i 3), box i x] (Submits i s rd 4 x 0 0 [y])) ∧
    (let i := Instr.dtld rd gs1 gs2
     InOrder [(y.toNat ≤ 4, job i 3), (if y = 0 then x.toNat % 64 = 0 ∧ inData s x.toNat 1024 else gs1 = 0, job i 3)]
      (Submits i s rd 5 0 0 0 [x, y])) ∧
    one (.flu rd tmA gs1 gs2) 8 ∧ one (.fchol rd tmA gs1 gs2) 9 ∧
    two (.fqr rd tmA tmB gs1 gs2) 10 (tmCols A ≤ tmRows A ∧ tmRows B = 1 ∧ tmCols B = tmCols A) ∧
    two (.ftrs rd tmA tmB gs1 gs2) 11 (tmRows A = tmCols A ∧ tmRows B = tmRows A ∧ tmCols B ≤ 128) ∧
    (let i := Instr.prapl rd tmA gs1 gs2
     InOrder [set A i, (tmRows A ≤ 128, job i 2), (y.toNat < 8, job i 3), box i x] (Submits i s rd 12 x A 0 [y])) ∧
    (let i := Instr.prmov rd gs1 gs2
     InOrder [(y.toNat < 16, job i 3),
        (if 8 ≤ y.toNat then gs1 = 0 else x.toNat % 128 = 0 ∧ inData s x.toNat 128, job i 3)]
      (Submits i s rd 13 0 0 0 [x, y])) ∧
    (∀ i ∈ [Instr.cpy rd gs1 gs2, .cpyr rd gs1 gs2, .gspawn rd gs1 gs2], x.toNat % 32 ≠ 0 → Traps i s .misalign 0 x) ∧
    (x.toNat % 32 ≠ 0 ∨ 2 ^ 18 < x.toNat + 32 → job (.ridl rd gs1 gs2) 7) ∧
    (QuietTcm s → x.toNat % 32 = 0 → x.toNat + 32 ≤ 2 ^ 18 →
      let w (k : Nat) := tcmWord s (x.toNat + 8 * k)
      let n (k : Nat) := (w k).toNat
      let ws := [w 0, w 1, w 2, w 3]
      let len := n 2 % 2 ^ 24
      let copy := n 0 % 8 = 0 ∧ n 1 % 8 = 0 ∧ len % 8 = 0 ∧ 8 ≤ len ∧ n 2 / 2 ^ 24 % 2 ^ 8 = 0 ∧ n 2 / 2 ^ 36 = 0 ∧
        n 3 < 2 ^ 48 ∧ (2 ^ 63 ≤ n 1 → n 1 / 2 ^ 48 % 2 ^ 15 = 0)
      let bytes := if n 1 / 2 ^ 24 % 4 = 1 then 8 else if n 1 / 2 ^ 24 % 4 = 2 then 2 else 4
      let entries := n 1 % 2 ^ 16
      let src := n 0 % 2 ^ 48
      let dst := n 3 % 2 ^ 48
      let out := 8 * (n 1 / 2 ^ 16 % 2 ^ 8 + 1)
      let place (a m : Nat) := a + m ≤ 2 ^ 18 ∨ (2 ^ 20 ≤ a ∧ a + m ≤ 2 ^ 21)
      let r (k : Nat) := (tcmWord s (n 0 + 8 * k)).toNat
      (let i := Instr.cpy rd gs1 gs2
       InOrder [(copy ∧ n 2 / 2 ^ 32 % 16 = 0, job i 5), box i y] (Submits i s rd 6 y 0 0 (x :: ws))) ∧
      (let i := Instr.cpyr rd gs1 gs2
       InOrder [(copy ∧ 2 ^ 63 ≤ n 1 ∧ n 3 = 0, job i 5), box i y] (Submits i s rd 7 y 0 0 (x :: ws))) ∧
      (let i := Instr.ridl rd gs1 gs2
       InOrder [(n 1 / 2 ^ 24 % 4 ≠ 3 ∧ 1 ≤ entries ∧ entries ≤ 32768 ∧ src % bytes = 0 ∧ place src (entries * bytes) ∧
          dst % 8 = 0 ∧ place dst out ∧ clear src (entries * bytes) dst out ∧
          (if n 1 / 2 ^ 24 % 4 = 1 then n 2 = 0
            else 1 ≤ n 2 % 2 ^ 16 ∧ n 2 / 2 ^ 16 % 2 ^ 16 < n 2 % 2 ^ 16 ∧ n 2 < 2 ^ 32), job i 7), box i y]
        (Submits i s rd 18 y 0 0 (x :: ws))) ∧
      (let i := Instr.gspawn rd gs1 gs2
       n 0 % 8 = 0 → n 0 + 32 ≤ 2 ^ 18 →
       InOrder [(n 0 % 64 = 0 ∧ 1 ≤ n 1 / 2 ^ 24 % 2 ^ 24 ∧ n 1 % 2 ^ 24 + n 1 / 2 ^ 24 % 2 ^ 24 ≤ r 1 / 2 ^ 16 % 2 ^ 25 ∧
          n 2 % 8 = 0 ∧ n 3 % 64 = 0 ∧ n 3 ≠ 0 ∧ r 3 ≤ 4095 ∧ r 0 % 2 = 0 ∧ s.view.hblo.toNat ≤ r 0 ∧
          r 0 ≤ s.view.hbhi.toNat, job i 6), box i y]
        (Submits i s rd 14 y 0 0 (ws ++ [tcmWord s (n 0 + 24)]))))

/-- R245, R246, R251, R269, R270, R305, R312, R404: TMSET checks a map and enters it with the chunk; GID, GDONE, DRAW
and the instructions that ask for a job's end. -/
def Obligations.MapsIdentityAndJobQueries : Prop :=
  ∀ (s : State) (rd gs1 gs2 : GReg) (tm : TMReg),
    let x := s.regs.get gs1
    let pc := s.regs.pc + nat 4
    let n := x.toNat % 8
    let j := s.me.bank.job n
    let named := x.toNat < 2 ^ 16 ∧ x.toNat / 8 = j.gen.toNat
    let gone := ¬named ∨ j.st = .free ∨ j.st = .held
    let live := named ∧ (j.st = .queued ∨ j.st = .running ∨ j.st = .parked)
    let ended := named ∧ j.st = .ended
    let status := { s.regs.put rd j.status with
      pc := pc
      cr := { s.regs.cr with grow := if 8 ≤ j.kind ∧ j.kind ≤ 11 then j.gamma.setWidth 64 else s.regs.cr.grow } }
    let b := s.view
    let gp (hi lo : Nat) := b.gpos.toNat / 2 ^ lo % 2 ^ (hi + 1 - lo)
    let lx := clusterX (s.focus.1 / 8) - gp 7 0
    let ly := clusterY (s.focus.1 / 8) - gp 14 8
    (x.toNat % 32 ≠ 0 → s.ctl = false → Traps (.tmset tm gs1) s .misalign 0 x) ∧
    (QuietTcm s → x.toNat % 32 = 0 → x.toNat + 32 ≤ 2 ^ 18 → ∀ t : BitVec 256,
      (∀ k < 4, t.extractLsb' (64 * k) 64 = tcmWord s (x.toNat + 8 * k)) →
      (¬validMap s t → TrapsBare (.tmset tm gs1) s .job 1) ∧
      (validMap s t → ∃ u : State, exec (.tmset tm gs1) s = .next u.settle ∧
        u.regs = { s.regs with pc := pc } ∧ u.mem = s.mem ∧ u.cx.chunk.pend = s.cx.chunk.pend ++ [.tmap tm t])) ∧
    (s.ctl = false → exec (.jwait rd gs1) s = .next (waiting s (.commit (.jwait x rd)))) ∧
    (gone → Leaves (.jpoll rd gs1) s { s.regs.put rd (nat (2 ^ 64 - 1)) with pc := pc }) ∧
    (live → Leaves (.jpoll rd gs1) s
      { s.regs.put rd (nat (0xFF + j.kind % 256 * 2 ^ 8 + x.toNat * 2 ^ 16 +
          (if j.copying then j.done / 8 % 2 ^ 24 else 0) * 2 ^ 40)) with pc := pc }) ∧
    (ended → Leaves (.jpoll rd gs1) s status) ∧
    (gone ∨ ended → exec (.jcan rd gs1) s =
      .next (State.settle (s.setRegs { s.regs.put rd 1 with pc := pc }))) ∧
    (live → s.ctl = false → exec (.jcan rd gs1) s = .next (State.settle (s.setCx { s.cx with
      regs := { s.regs.put rd 0 with pc := pc }
      chunk := { s.cx.chunk with pend := s.cx.chunk.pend ++ [.jcan n (x.toNat / 8)] } }))) ∧
    (s.ctl = false → 4 < x.toNat → TrapsBare (.gid rd gs1) s .bounds 5) ∧
    (s.ctl = false → x = 0 → Gives (.gid rd gs1) s rd (nat (s.focus.1 % 8)) 4) ∧
    (s.ctl = false → 1 ≤ x.toNat → x.toNat ≤ 4 → b.gpos = 0 → Gives (.gid rd gs1) s rd (nat (2 ^ 64 - 1)) 4) ∧
    (s.ctl = false → b.gpos ≠ 0 →
      (x = 1 → Gives (.gid rd gs1) s rd (nat (lx + ly * 2 ^ 8 + (ly * gp 21 16 + lx) * 2 ^ 16)) 4) ∧
      (x = 2 → Gives (.gid rd gs1) s rd (nat (gp 55 32 + gp 21 16 * 2 ^ 32 + gp 29 24 * 2 ^ 40)) 4) ∧
      (x = 3 → Gives (.gid rd gs1) s rd b.gbat 4) ∧ (x = 4 → Gives (.gid rd gs1) s rd b.lrec 4)) ∧
    (s.ctl = false → x ≠ 1 → x ≠ 2 → TrapsBare (.gdone gs1) s .bounds 5) ∧
    (s.ctl = false → x = 1 ∨ x = 2 → exec (.gdone gs1) s = .next (State.settle (s.setCx { s.cx with
      regs := { s.regs with pc := pc }
      chunk := { s.cx.chunk with pend := s.cx.chunk.pend ++ [.gdone x.toNat] } }))) ∧
    (let la := x.toNat % 2 ^ 18
     let len := x.toNat / 2 ^ 32
     s.ctl = false → x.toNat / 2 ^ 18 % 2 ^ 14 = 0 → 1 ≤ len → len ≤ 256 →
      (la % 8 ≠ 0 → Traps (.draw rd gs1 gs2) s .misalign 0 (nat la)) ∧
      (la % 8 = 0 → 2 ^ 18 < la + 8 * len → Traps (.draw rd gs1 gs2) s .perm 0 (nat la)) ∧
      (la % 8 = 0 → la + 8 * len ≤ 2 ^ 18 →
        exec (.draw rd gs1 gs2) s = .next (waiting s (.draw x (s.regs.get gs2) rd))))

/-! ### Matrix jobs as they run -/

/-- R259, R266, R267, R280: gangs. A round of eight waiting products that agree starts to run, and no time-out ends it; one
that does not agree ends GANGMIS. A member's time-out ends every gang job that waits at a member's head TIMEOUT. Two
paired rounds that name each other and agree start together; the wait for a partner ends TIMEOUT; the loss of a partner
ends a pair's products PAIRLOST, the lost cluster's own too. -/
def Sys2Proof.Claims.GangsFormAndFail : Prop :=
  ∀ (s : State) (k : Nat) (slot : Nat → Nat) (job : Nat → Job), k < 2 ^ 15 → IdleCluster s k →
    (s.cluster k).split = false →
    let heads (paired : Bool) (st : JobSt) := ∀ i < 8, HeadIs s (8 * k + i) (slot i) (job i) ∧ (job i).kind = 0 ∧
      (job i).ops = [if paired then 1 else 0] ∧ (job i).st = st
    let same := ∀ i < 8, (job i).gangKey = (job 0).gangKey
    let allEnd (t : State) (status : Nat) := ∀ i < 8, EndedWith s t (8 * k + i) (slot i) status 0 0
    (∀ half, heads false .queued → same → ∃ t : State, exec (.gangRound k half) s = .next t ∧
      (∀ i < 8, t.job (8 * k + i) (slot i) = { job i with st := .running }) ∧ t.mem = s.mem) ∧
    (∀ half m, heads false .queued → m < 8 → exec (.gangTimeout k half m) s = .next s) ∧
    (∀ half, heads false .queued → ¬same → ∃ t : State, exec (.gangRound k half) s = .next t ∧ allEnd t 2) ∧
    (∀ half m n j, m < 8 → HeadIs s (8 * k + m) n j → j.kind = 0 ∨ j.kind = 4 → j.st = .queued →
      j.cr.gangt.toNat % 2 ^ 32 ≠ 0 → (∃ i < 8, s.sliceHead (8 * k + i) = none) →
      ∃ t : State, exec (.gangTimeout k half m) s = .next t ∧ ∀ i < 8, ∀ q g, HeadIs s (8 * k + i) q g →
        g.kind = 0 ∨ g.kind = 4 → g.st = .queued → EndedWith s t (8 * k + i) q 1 0 0) ∧
    (∀ half p (slot' : Nat → Nat) (job' : Nat → Job), p ≠ k → heads true .queued → same →
      (∀ i < 8, pairOf (job i).cr.pairc = p ∧ pairOf (job' i).cr.pairc = k ∧ HeadIs s (8 * p + i) (slot' i) (job' i) ∧
        (job' i).kind = 0 ∧ (job' i).ops = [1] ∧ (job' i).st = .queued ∧ (job' i).gangKey = (job 0).gangKey) →
      (s.cluster p).split = false → ∃ t : State, exec (.gangRound k half) s = .next t ∧
        ∀ i < 8, t.job (8 * k + i) (slot i) = { job i with st := .running } ∧
          t.job (8 * p + i) (slot' i) = { job' i with st := .running }) ∧
    (∀ p, p ≠ k → heads true .queued → same → (∀ i < 8, pairOf (job i).cr.pairc = p) → s.sliceHead (8 * p) = none →
      (s.cluster p).split = false → (job 0).cr.pairt.toNat % 2 ^ 32 ≠ 0 →
      ∃ t : State, exec (.pairWaitTimeout k) s = .next t ∧ allEnd t 1) ∧
    (∀ near, adjacent near k = true → heads true .running ∨ heads true .queued →
      (∀ i < 8, pairOf (job i).cr.pairc = near) → (∀ l, l ≠ k → IdleCluster s l) →
      (∃ t : State, exec (.partnerLost near) s = .next t ∧ allEnd t 3) ∧
      (∃ t : State, exec (.partnerLost k) s = .next t ∧ allEnd t 3))

/-- R50 to R52, R248, R260, R263: a running product ends with every member's accumulator replaced: an unmasked element
has received its K products in rising k, each sum rounded once; a masked one is as it was. MZERO clears the
accumulator and its latches; MLDA loads the unmasked elements; MSTA without scales stores them as they stand. -/
def Obligations.ProductsAndAccumulators : Prop :=
  ∀ (s : State) (k : Nat) (slot : Nat → Nat) (job : Nat → Job), k < 2 ^ 15 → IdleCluster s k →
    (s.cluster k).split = false →
    let core (i : Nat) := 8 * k + i
    let open_ (j : Job) (cols r c : Nat) : Prop :=
      j.cr.mmsk.getLsbD r = true ∧ c < cols ∧ c < j.cr.mmsk.toNat / 2 ^ 16 % 256
    let fits (j : Job) (et : Nat) := tmRows j.tmA = 16 ∧ tmCols j.tmA = 128 ∧ tmEt j.tmA = et ∧
      tmCols j.tmA * tmSize j.tmA ≤ tmStride j.tmA ∧ tmBase j.tmA + tmSpan j.tmA ≤ 2 ^ 18
    ((∀ i < 8, HeadIs s (core i) (slot i) (job i) ∧ (job i).kind = 0 ∧ (job i).ops = [0] ∧ (job i).st = .running ∧
        s.memberBad { core := core i, slot := slot i, job := job i } = none) →
      (∀ o ∈ (s.core (core 0)).owed, o.slot ≠ slot 0) → ∃ t : State, exec (.jobEnd (core 0) (slot 0)) s = .next t ∧
        ∀ i < 8, EndedWith s t (core i) (slot i) 0 0 0 ∧ ∀ r < 16, ∀ c < 128,
          let old := (s.core (core i)).accAt r c
          let new := (t.core (core i)).accAt r c
          let p := c / 16
          (¬open_ (job i) 128 r c → new = old) ∧
          (open_ (job i) 128 r c → ∃ sum : Nat → Nat, sum 0 = old ∧ sum (tmCols (job i).tmA) = new ∧
            ∀ q < tmCols (job i).tmA,
              FmaStep (s.inputAt (core i) (job i).tmA ((job i).cr.fmta.toNat % 4) r q)
                (s.inputAt (core p) (job p).tmB ((job p).cr.fmtb.toNat % 4) q (c % 16)) (sum q) (sum (q + 1)))) ∧
    (∀ i n j, i < 8 → HeadIs s (core i) n j → j.st = .queued → NoErrors s →
      let x := s.core (core i)
      let run := exec (.accumulatorJobRun (core i)) s
      (j.kind = 1 → ∃ t : State, run = .next t ∧ EndedWith s t (core i) n 0 0 0 ∧
        (t.core (core i)).latchA = [] ∧ (t.core (core i)).latchB = [] ∧
        ∀ r < 16, ∀ c < 128, (t.core (core i)).accAt r c = 0) ∧
      (j.kind = 3 → fits j 5 → ∃ t : State, run = .next t ∧ EndedWith s t (core i) n 0 0 0 ∧
        ∀ r < 16, ∀ c < 128, (open_ j 128 r c → (t.core (core i)).accAt r c =
            localNum s.mem (core i) (tmElem j.tmA r c) 4) ∧
          (¬open_ j 128 r c → (t.core (core i)).accAt r c = x.accAt r c)) ∧
      (j.kind = 2 → fits j 5 → j.cr.fmtc.toNat % 4 = 0 → j.mbox = 0 → x.latchA = [] → x.latchB = [] →
        ∃ t : State, run = .next t ∧ EndedWith s t (core i) n 0 0 0 ∧
          ∀ r < 16, ∀ c < 128,
            (open_ j 128 r c → isNan fmt32 (x.accAt r c) = false →
              localNum t.mem (core i) (tmElem j.tmA r c) 4 = x.accAt r c) ∧
            (¬open_ j 128 r c → localNum t.mem (core i) (tmElem j.tmA r c) 4 =
              localNum s.mem (core i) (tmElem j.tmA r c) 4)))

/-- R43, R44, R251, R255, R265, R268, R345: DTLD replaces the decode table by a preset or by 256 words of TCM; the round
of MSPLIT sets the mode of the array and clears the accumulators; a job that ends stores its status word to its
mailbox, one that a JCAN ended in a step of its own (log 51). -/
def Sys2Proof.Claims.TablesModesAndMailboxes : Prop :=
  ∀ (s : State) (k i n : Nat) (j : Job), k < 2 ^ 15 → i < 8 → IdleCluster s k → NoErrors s →
    HeadIs s (8 * k + i) n j → j.st = .queued →
    let c := 8 * k + i
    let word (q : Nat) : Word := j.ops.getD q 0
    let mail (t : State) (w : Word) : Prop := j.mbox ≠ 0 → j.mbox.toNat % 8 = 0 →
      (s.bank c).kernel.cb * 8192 ≤ j.mbox.toNat → j.mbox.toNat < 2 ^ 18 →
      t.mem.word (2 ^ 41 + c * 2 ^ 18 + j.mbox.toNat) = w
    (j.kind = 5 → ∃ t : State, exec (.decodeTableLoad c) s = .next t ∧ EndedWith s t c n 0 0 0 ∧
      (word 1 ≠ 0 → (t.bank c).dtab.preset = (word 1).toNat) ∧
      (word 1 = 0 → (word 0).toNat + 1024 ≤ 2 ^ 18 → (t.bank c).dtab.preset = 0 ∧ ∀ q < 256,
        ((t.bank c).dtab.words.getD q 0).toNat = localNum s.mem c ((word 0).toNat + 4 * q) 4 % 2 ^ 19)) ∧
    (j.kind = 1 → ∃ t : State, exec (.accumulatorJobRun c) s = .next t ∧ mail t (t.job c n).status) ∧
    (∀ o rest, (s.core c).owed = o :: rest → o.mbox.toNat % 8 = 0 → (s.bank c).kernel.cb * 8192 ≤ o.mbox.toNat →
      o.mbox.toNat < 2 ^ 18 → ∃ t : State, exec (.jobEnd c o.slot) s = .next t ∧ (t.core c).owed = rest ∧
        t.mem.word (2 ^ 41 + c * 2 ^ 18 + o.mbox.toNat) = o.status) ∧
    (∀ half (slot : Nat → Nat) (job : Nat → Job), (∀ m < 8, HeadIs s (8 * k + m) (slot m) (job m) ∧
        (job m).kind = 4 ∧ (job m).st = .queued ∧ (job m).ops = [1]) →
      (s.cluster k).split = false → (s.cluster k).locked = false →
      ∃ t : State, exec (.gangRound k half) s = .next t ∧ (t.cluster k).split = true ∧
        ∀ m < 8, EndedWith s t (8 * k + m) (slot m) 0 0 0 ∧ ∀ r < 16, ∀ q < 128, (t.core (8 * k + m)).accAt r q = 0)

/-- Gangs form and fail, tables and modes change, and ended jobs write their mailboxes. -/
def Obligations.GangsTablesAndMailboxes : Prop := GangsFormAndFail ∧ TablesModesAndMailboxes

/-! ### Factorisations, permutations, copies and the riddle -/

/-- R285 to R289, R299: a factorisation at the head of its queue. It starts by writing its record alone; each further
step writes its tiles and its record alone and does one column, or ends; a column of FLU takes the greatest pivot,
divides by it and updates the rest with one rounding each. After START a foreign record is met first. At the boundary
behind a column a zero pivot or NPD comes first, then a cancel, then a STOP (R300). -/
def Obligations.FactorisationsStepByColumns : Prop :=
  ∀ (s : State) (c n : Nat) (j : Job), c < 2 ^ 18 → IdleCluster s (c / 8) → NoErrors s → HeadIs s c n j →
    8 ≤ j.kind → j.kind ≤ 11 → ScratchTile j.tmA → (10 ≤ j.kind → ScratchTile j.tmB) →
    let rec_ := (j.ops.getD 0 0).toNat
    2 ^ 20 ≤ rec_ → rec_ + 256 ≤ 2 ^ 21 → (∀ a, inRange rec_ 256 a → ¬inTile j.tmA a ∧ (10 ≤ j.kind → ¬inTile j.tmB a)) →
    (10 ≤ j.kind → ∀ a, inTile j.tmA a → ¬inTile j.tmB a) → j.mbox = 0 →
    let run := exec (.factorisationStep c) s
    let at_ (m : Memory) (a k : Nat) := localNum m c (rec_ + a) k
    let next := at_ s.mem 8 1
    (if j.kind = 10 then tmCols j.tmA ≤ tmRows j.tmA ∧ tmRows j.tmB = 1 ∧ tmCols j.tmB = tmCols j.tmA
      else tmRows j.tmA = tmCols j.tmA ∧ (j.kind = 11 → tmRows j.tmB = tmRows j.tmA)) →
    let cols := if j.kind = 11 then tmCols j.tmB else tmCols j.tmA
    let tag := n + j.gen.toNat * 8 + j.kind * 2 ^ 16
    let el (m : Memory) (r k : Nat) := localNum m c (tmElem j.tmA r k) 4
    (j.st = .queued → s.arrayFree c = true → j.kind ≠ 11 ∨ j.cr.fctl.getLsbD 9 = true →
      ∃ t : State, run = .next t ∧ (t.job c n).st = .running ∧ at_ t.mem 0 8 = tag ∧ at_ t.mem 8 1 = 0 ∧
        at_ t.mem 9 1 = 0xFF ∧ (j.kind = 8 → ∀ i < 128, at_ t.mem (0x80 + i) 1 = i) ∧
        OnlyLocal s t c (inRange rec_ 256)) ∧
    let own := j.prep = true ∨ at_ s.mem 0 8 = tag
    (j.st = .running → ¬own →
      ∃ t : State, run = .next t ∧ EndedWith s t c n 4 0x0D 0) ∧
    (j.st = .running → own → next < cols → cols ≤ 128 →
      ∃ t : State, run = .next t ∧
        (∀ b, (∀ a, inTile j.tmA a ∨ (10 ≤ j.kind ∧ inTile j.tmB a) ∨ inRange rec_ 256 a → localPlace c a ≠ some b) →
          t.mem.byte b = s.mem.byte b) ∧
        ((at_ t.mem 8 1 = next + 1 ∧ next + 1 < cols ∧
            (if j.cancel = true then EndedWith s t c n 5 0 0
              else if (s.core c).stopped = true then (t.job c n).st = .parked ∧ (t.job c n).prep = false
              else (t.job c n).st = .running)) ∨
          ((t.job c n).st = .ended ∧ at_ t.mem 8 1 = next + 1 ∧ next + 1 = cols ∧
            ((t.job c n).status.toNat % 256 = 0 ∨ (t.job c n).status.toNat % 256 = 6)) ∨
          ((t.job c n).st = .ended ∧ at_ t.mem 8 1 = next ∧ at_ t.mem 9 1 = next ∧
            ((j.kind = 8 ∧ (t.job c n).status.toNat % 256 = 6) ∨
             (j.kind = 9 ∧ (t.job c n).status.toNat % 256 = 7))) ∨
          ((t.job c n).st = .ended ∧ j.kind = 8 ∧ at_ t.mem 8 1 = next ∧ (t.job c n).status.toNat % 256 = 6)) ∧
        (j.kind = 8 → (∃ i, next ≤ i ∧ i < cols ∧ el s.mem i next % 2 ^ 31 ≠ 0) →
          (∀ i < cols, next ≤ i → isNan fmt32 (el s.mem i next) = false) →
          ∃ p, next ≤ p ∧ p < cols ∧ (∀ i < cols, next ≤ i → el s.mem i next % 2 ^ 31 ≤ el s.mem p next % 2 ^ 31) ∧
            let old (r k : Nat) := el s.mem (if r = next then p else if r = p then next else r) k
            (∀ k < cols, ∀ r < cols, r ≤ next ∨ k < next → el t.mem r k = old r k) ∧
            ∀ r, next < r → r < cols → DivStep (old r next) (old next next) (el t.mem r next) ∧
              ∀ k, next < k → k < cols → FmaStep (turned (el t.mem r next)) (old next k) (old r k) (el t.mem r k)))

/-- R296, R297: PRAPL permutes the rows of its tile by a p register, or by its inverse; entries that are no permutation
end it FAULT; PRMOV resets, loads or stores a p register. -/
def Sys2Proof.Claims.PermutationJobs : Prop :=
  ∀ (s : State) (c n : Nat) (j : Job), c < 2 ^ 18 → IdleCluster s (c / 8) → NoErrors s → HeadIs s c n j →
    j.st = .queued → j.mbox = 0 → (s.bank c).permsDue = [] →
    let word (q : Nat) := (j.ops.getD q 0).toNat
    let p (q : Nat) : List Nat := (s.bank c).p.getD (q % 4) identityPerm
    let rows := tmRows j.tmA
    let width := tmCols j.tmA * tmSize j.tmA
    let byte (m : Memory) (r b : Nat) := localNum m c (tmElem j.tmA r 0 + b) 1
    let base := word 0
    (j.kind = 12 → rows ≤ 128 → width ≤ tmStride j.tmA → tmBase j.tmA + tmSpan j.tmA ≤ 2 ^ 18 →
      ((∃ i < rows, i ∉ (p (word 0)).take rows) → ∃ t : State,
        exec (.permutationApply c) s = .next t ∧ EndedWith s t c n 4 0x0D 0) ∧
      ((∀ i < rows, i ∈ (p (word 0)).take rows) → ∃ t : State,
        exec (.permutationApply c) s = .next t ∧ EndedWith s t c n 0 0 0 ∧ OnlyLocal s t c (inTile j.tmA) ∧
        ∀ i < rows, ∀ b < width,
          if (j.ops.getD 0 0).getLsbD 2 then byte t.mem ((p (word 0)).getD i i) b = byte s.mem i b
          else byte t.mem i b = byte s.mem ((p (word 0)).getD i i) b)) ∧
    (j.kind = 13 → base + 128 ≤ 2 ^ 18 → (s.bank c).p.length = 4 → (p (word 1)).length = 128 →
      (∀ x ∈ p (word 1), x < 256) →
      ∃ t : State, exec (.permutationMove c) s = .next t ∧ EndedWith s t c n 0 0 0 ∧
        (word 1 / 8 % 2 = 1 → (t.bank c).p = (s.bank c).p.set (word 1 % 4) (List.range 128) ∧ t.mem = s.mem) ∧
        (word 1 / 8 % 2 = 0 → word 1 / 4 % 2 = 1 → t.mem = s.mem ∧ (t.bank c).p = (s.bank c).p.set (word 1 % 4)
          ((List.range 128).map fun i => localNum s.mem c (base + i) 1 % 128)) ∧
        (word 1 / 8 % 2 = 0 → word 1 / 4 % 2 = 0 → (t.bank c).p = (s.bank c).p ∧
          OnlyLocal s t c (inRange base 128) ∧
          ∀ i < 128, localNum t.mem c (base + i) 1 = (p (word 1)).getD i 0))

/-- R270 to R276: the copy unit. A segment of a copy within the core's TCM moves from 1 to 512 words as one write and
nothing else; the last one ends the job DONE with the words moved. Every waiting copy that was cancelled ends CANCEL;
a delivery that finds a context free reserves the lowest one (log 38), whose scratch it opens (R116), and sends a
segment, and its last one starts the handler; a segment to another module leaves by a link (log 108); a ring delivery
that finds room fills the slot and moves TAIL; a remote range outside the TCM, or in code, ends PERM before any
segment. -/
def Obligations.CopiesMoveSegments : Prop :=
  ∀ (s : State) (c n : Nat) (j : Job), c < 2 ^ 18 → IdleCluster s (c / 8) → NoErrors s → s.job c n = j → j.mbox = 0 →
    let word (q : Nat) := (j.ops.getD q 0).toNat
    let src := word 1
    let dst := word 2
    let len := word 3 % 2 ^ 24
    let hnd := word 4 % 2 ^ 48
    let ring : HReg := BitVec.ofNat 4 (word 3 / 2 ^ 32)
    let left := len - j.done
    let own := 2 ^ 41 + c * 2 ^ 18
    let code := (s.bank c).kernel.cb * 8192
    let mine := src % 8 = 0 ∧ len % 8 = 0 ∧ j.done % 8 = 0 ∧ j.done < len ∧ src + len ≤ 2 ^ 18
    let within := mine ∧ dst % 8 = 0 ∧ code ≤ dst ∧ dst + len ≤ 2 ^ 18
    let moves (t : State) (m : Nat) (open_ : Nat → Prop) := 1 ≤ m ∧ m ≤ 512 ∧ 8 * m ≤ left ∧
      (∀ b, ¬open_ b → if own + dst + j.done ≤ b ∧ b < own + dst + j.done + 8 * m
        then open_ (b - dst + src) ∨ t.mem.byte b = s.mem.byte (b - dst + src)
        else t.mem.byte b = s.mem.byte b) ∧
      (8 * m = left → EndedWith s t c n 0 0 (len / 8)) ∧
      (8 * m < left → t.job c n = { j with st := .running, prep := true, done := j.done + 8 * m })
    let scratch (b : Nat) := (own + s.partBase c 0 ≤ b ∧ b < own + s.partTop c 0) ∨ inRange (own + s.imageSlot c 0) 256 b
    let begins := s.nextCopy c = some (n, j) ∧ s.copyTurn c = true ∧ j.kind = 6 ∧ j.cancel = false
    let first := ∀ m < 8, m ≠ n → (s.job c m).outstanding = true → j.seq < (s.job c m).seq
    let d := dst / 2 ^ 18 % 2 ^ 18
    let here := 2 ^ 63 ≤ dst ∧ s.localFor c (dst / 2 ^ 36 % 2 ^ 12) = true ∧ IdleCluster s (d / 8)
    (begins → j.st = .queued ∨ (j.st = .running ∧ j.prep = true) → hnd = 0 → within →
      ∃ (t : State) (m : Nat), exec (.copySegment c) s = .next t ∧ moves t m (fun _ => False)) ∧
    (begins → j.st = .running → j.prep = true → mine → 2 ^ 63 ≤ dst → s.localFor c (dst / 2 ^ 36 % 2 ^ 12) = false →
      (∀ ws, ws.length ≤ 512 → (s.route (segmentMsg c n j (s.bank c).vdid ws)).isSome = true) →
      ∃ (t : State) (m : Nat), exec (.copySegment c) s = .next t ∧ 1 ≤ m ∧ m ≤ 512 ∧ 8 * m ≤ left ∧ t.mem = s.mem ∧
        t.job c n = { j with flying := 8 * m }) ∧
    (begins → j.st = .queued → here → (s.cluster (d / 8)).lost = false → (s.bank d).runs (s.bank c).vdid = true →
      (s.core d).atRest = false → s.permits c (s.bank c).vdid j.header = true →
      hnd = 0 ∨ (s.bank d).handlerOk hnd = true →
      dst % 2 ^ 18 < (s.bank d).kernel.cb * 8192 ∨ 2 ^ 18 < dst % 2 ^ 18 + len →
      ∃ t : State, exec (.copySegment c) s = .next t ∧ EndedWith s t c n 4 0x06 (j.done / 8) ∧ t.mem = s.mem) ∧
    (∀ kind, kind = 6 ∨ kind = 7 →
      (∀ m ∈ (s.bank c).waitingCopies kind, (s.job c m).cancel = true ∧ (s.job c m).mbox = 0) →
      ∃ t : State, exec (if kind = 6 then .contextReserveRetry c else .ringDeliveryRetry c) s = .next t ∧ t.mem = s.mem ∧
        ∀ m ∈ (s.bank c).waitingCopies kind, EndedWith s t c m 5 0 ((s.job c m).done / 8)) ∧
    ((s.bank c).waitingCopies 6 = [n] → first → j.cancel = false → within → hnd ≠ 0 → hnd % 2 = 0 →
      (s.bank c).hblo.toNat ≤ hnd → hnd ≤ (s.bank c).hbhi.toNat → (s.cluster (c / 8)).lost = false →
      (s.core c).stopped = false → (s.bank c).kst = .active → (s.vdev (s.bank c).vdid).switchedIn = true →
      ((s.core c).ctx 0).st = .free → ∃ (t : State) (m : Nat), exec (.contextReserveRetry c) s = .next t ∧ moves t m scratch ∧
        (8 * m < left → (t.ctx c 0).st = .dormant) ∧
        (8 * m = left → (t.ctx c 0).st = .ready ∧ (t.ctx c 0).regs.pc = nat hnd)) ∧
    ((s.bank c).waitingCopies 7 = [n] → first → j.cancel = false → here → mine →
      let h := (s.bank d).ring ring
      s.copyChecks c j = some 0 → j.done = 0 → hNlg h ≠ 0 → len ≤ hSlot h → hFree h ≠ 0 → hTailAddr h + hSlot h ≤ 2 ^ 18 →
      ∃ t : State, exec (.ringDeliveryRetry c) s = .next t ∧ EndedWith s t c n 0 0 (len / 8) ∧
        (t.bank d).ring ring = setFld h 47 37 ((hTail h + 1) % (2 * hCount h)) ∧
        ∀ b, t.mem.byte b =
          let a := 2 ^ 41 + d * 2 ^ 18 + hTailAddr h
          if a ≤ b ∧ b < a + len then s.mem.byte (own + src + (b - a)) else s.mem.byte b)

/-- R413, R415: the riddle. RIDL writes the first K entries in the order of R413, NaN scores left out, and ends DONE with
their number; DRAW of one number returns that entry. -/
def Sys2Proof.Claims.RiddleOrdersAndDraws : Prop :=
  ∀ (s : State) (c n : Nat) (j : Job), c < 2 ^ 18 → Unshared s c → NoErrors s →
    let word (q : Nat) := (j.ops.getD q 0).toNat
    let src := word 1 % 2 ^ 48
    let dst := word 4 % 2 ^ 48
    let entries := word 2 % 2 ^ 16
    let k := word 2 / 2 ^ 16 % 2 ^ 8 + 1
    let mode := word 2 / 2 ^ 24 % 4
    let size := if mode = 1 then 8 else if mode = 2 then 2 else 4
    let input (i : Nat) : ListEntry :=
      let x := localNum s.mem c (src + size * i) size
      let id := i * (word 3 % 2 ^ 16) + word 3 / 2 ^ 16 % 2 ^ 16
      if mode = 1 then { score := x % 2 ^ 32, id := x / 2 ^ 32, ix := i }
      else if mode = 2 then { score := x * 2 ^ 16, id := id, ix := i } else { score := x, id := id, ix := i }
    let place (a m : Nat) := a + m ≤ 2 ^ 18 ∨ (2 ^ 20 ≤ a ∧ a + m ≤ 2 ^ 21)
    let number (i : Nat) := isNan fmt32 (input i).score = false
    (((s.bank c).oldest fun j => decide (j.kind = 18)) = some (n, j) → s.riddleTurn c = true →
      IdleCluster s (c / 8) → j.mbox = 0 → mode ≠ 3 → place src (entries * size) → place dst (8 * k) →
      (s.bank c).kernel.cb * 8192 ≤ dst →
      ∃ (t : State) (m : Nat) (pick : Nat → Nat), exec (.ridlRun c) s = .next t ∧ EndedWith s t c n 0 0 m ∧
        m = min k ((List.range entries).countP fun i => !isNan fmt32 (input i).score) ∧
        (∀ i < m, pick i < entries ∧ number (pick i) ∧ localNum t.mem c (dst + 8 * i) 8 =
          (input (pick i)).score + (input (pick i)).id * 2 ^ 32) ∧
        (∀ i < m, ∀ q < i, (input (pick q)).ahead (input (pick i))) ∧
        (∀ x < entries, number x → (∀ i < m, pick i ≠ x) → ∀ i < m, (input (pick i)).ahead (input x)) ∧
        OnlyLocal s t c (inRange dst (8 * m))) ∧
    (∀ (i : Fin 4) (d ctr : Word) (rd : GReg),
      let y := s.ctx c i
      let la := d.toNat % 2 ^ 18
      let u := { s with focus := (c, i) }
      let e := seenNum u (2 ^ 41 + c * 2 ^ 18 + la) 8
      y.st = .waiting → y.wait = .draw d ctr rd → d.toNat / 2 ^ 32 % 2 ^ 16 = 1 → la % 8 = 0 → la + 8 ≤ 2 ^ 18 →
      (∀ q : Fin 8, ((s.bank c).jobs[q]).outstanding = false) → (s.core c).owed = [] →
      (value fmt32 (e % 2 ^ 32)).isSome = true →
      ∃ t : State, exec (.riddleDraw c i.val) s = .next t ∧ (t.ctx c i).st = .ready ∧ (t.ctx c i).wait = .none ∧
        (t.ctx c i).regs = { y.regs.put rd (nat (e / 2 ^ 32)) with pc := y.regs.pc + nat 4 } ∧ t.mem = s.mem)

/-- Permutation jobs move rows and entries; the riddle orders candidates and draws. -/
def Obligations.PermutationsOrdersAndDraws : Prop := PermutationJobs ∧ RiddleOrdersAndDraws

/-! ### Committees -/

/-- R427, R429 to R437: a COMM instruction checks its record's address and its operands, reads what it needs, the maps of
CMJOIN and CMADV as loads of translated memory read, and brings its context to a commit point with its request; a bad
address traps MISALIGN or PERM, a bad operand BOUNDS, SUB 11. -/
def Sys2Proof.Claims.CommitteeInstructionsAsk : Prop :=
  ∀ (s : State) (rd gs1 gs2 : GReg), QuietTcm s →
    let c := s.regs.get gs1
    let x := s.regs.get gs2
    let r := c.toNat
    let good := r % 8192 = 0 ∧ (32 - s.me.bank.kernel.rb) * 8192 ≤ r ∧ r < 2 ^ 18
    let all := [.cmnew rd gs1 gs2, .cmjoin rd gs1 gs2, .cmwait rd gs1, .cmbn rd gs1 gs2, .cmadv rd gs1 gs2,
      .cmsetMember rd gs1 gs2, .cmsetExpr rd gs1 gs2, .cmsetQuorum rd gs1 gs2, .cmsetOpen rd gs1 gs2, .cmend rd gs1]
    let outside (a n : Nat) := inData s a n ∧ (a + n ≤ r ∨ r + 8192 ≤ a)
    let w (k : Nat) := tcmWord s (x.toNat + 8 * k)
    let clear (k : Nat) (m : Word) : Prop := w k &&& ~~~m = 0
    let block := (List.range 12).map w
    let sel (n : Nat) := (w 0).toNat % 8 = n ∧ clear 0 0x707
    let cmset (i : Instr) (n : Nat) := Awaits i s (.comm (8 * n + 5) r block rd)
    let ctl := (tcmWord s r).toNat
    let mem (m k : Nat) := (tcmWord s (r + 0x80 + 64 * m + k)).toNat
    let reads (sig : BitVec 1024) : State := s.setCx { s.cx with chunk := { s.cx.chunk with rsig := sig } }
    (r % 8192 ≠ 0 → ∀ i ∈ all, Traps i s .misalign 0 c) ∧
    (r % 8192 = 0 → ¬good → ∀ i ∈ all, Traps i s .perm 0 c) ∧
    (good → Awaits (.cmwait rd gs1) s (.comm 2 r [] rd) ∧ Awaits (.cmend rd gs1) s (.comm 6 r [] rd) ∧
      (if 1 ≤ x.toNat ∧ x.toNat ≤ 2 ^ 20 then Awaits (.cmnew rd gs1 gs2) s (.comm 0 r [x] rd)
        else TrapsBare (.cmnew rd gs1 gs2) s .bounds 11) ∧
      (let dst := x.toNat % 2 ^ 18
       let cap := x.toNat / 2 ^ 32 % 2 ^ 9
       let ok := x.toNat / 2 ^ 18 % 2 ^ 14 = 0 ∧ x.toNat / 2 ^ 41 = 0 ∧ dst % 8 = 0 ∧ 1 ≤ cap ∧ cap ≤ 256 ∧
         outside dst (8 * cap)
       (ok → Awaits (.cmbn rd gs1 gs2) s (.comm 3 r [x] rd)) ∧ (¬ok → TrapsBare (.cmbn rd gs1 gs2) s .bounds 11)) ∧
      (x.toNat % 32 = 0 → inData s x.toNat 96 →
        (sel 0 → clear 1 0x33 → clear 7 0xFFFF_FF00_01FF_FFFF → w 9 = 0 → w 10 = 0 → w 11 = 0 →
          cmset (.cmsetMember rd gs1 gs2) 0) ∧
        (sel 1 → clear 1 0x73 → (∀ k, 3 ≤ k → k ≤ 10 → clear k 0xFFFF_FFFF_0000_000F) → w 11 = 0 →
          cmset (.cmsetExpr rd gs1 gs2) 1) ∧
        (sel 2 → clear 1 0xFFFF_FFFF_0000_000F → (∀ k, 2 ≤ k → k ≤ 11 → w k = 0) →
          cmset (.cmsetQuorum rd gs1 gs2) 2) ∧
        (sel 3 → (∀ k, 1 ≤ k → k ≤ 11 → w k = 0) → cmset (.cmsetOpen rd gs1 gs2) 3) ∧
        ((w 0).toNat % 8 > 3 → TrapsBare (.cmsetMember rd gs1 gs2) s .bounds 11)) ∧
      (let m := (w 0).toNat % 8
       let k := (w 0).toNat / 2 ^ 8 % 2 ^ 7
       x.toNat % 8 = 0 → clear 0 0x7F07 → 1 ≤ k → k ≤ 64 → outside x.toNat (32 + 8 * k) →
        ∃ sig : BitVec 1024, ∀ (out : List (Nat × Nat)) (u : State),
          Mapped (mem m 0x20 % 2 ^ 48) (mem m 0x30 % 2 ^ 25) (ctl / 2 ^ 43) ((List.range k).map fun q => w (4 + q)) []
            (reads sig) out u →
          exec (.cmjoin rd gs1 gs2) s = .next (waiting u
            (.commit (.comm 1 r ([nat m, w 1, w 2] ++ out.map fun e => nat (e.1 + e.2 * 2 ^ 32)) rd)))) ∧
      (let feed := x.toNat / 2 ^ 32 % 2 ^ 18
       x.toNat / 2 ^ 20 % 2 ^ 12 = 0 → x.toNat / 2 ^ 50 = 0 → feed % 8 = 0 → outside feed 256 →
        ∃ sig : BitVec 1024, ∀ (ws : List Word) (u : State),
          Inverses r (x.toNat % 2 ^ 20) (ctl / 2 ^ 24 % 256) (List.range 8) (reads sig) ws u →
          exec (.cmadv rd gs1 gs2) s = .next (waiting u (.commit (.comm 4 r (x :: ws) rd)))))

/-- R423, R428, R430 to R437: what the thread does with a COMM request, and the answer the context receives: records open,
gather, close and end; CMBN writes the combined list in order; CMADV feeds every LIVE member, and applies its policy at
its limit; a request in another state changes nothing and answers STATE, which CMJOIN tests first (log 55); the feed of a
member that is not LIVE has no tokens (log 21). A held CMWAIT is answered when its quorum is met, by the arrivals or by the
deadline, and answers STATE where the record has left GATHER. -/
def Sys2Proof.Claims.CommitteeThreadPerformsRequests : Prop :=
  ∀ (s : State) (c : Nat) (i : Fin 4) (q : ThreadReq), c < 2 ^ 18 → CalmCluster s (c / 8) → NoErrors s → q.comm = true →
    let r := q.a.toNat
    r % 8192 = 0 → r < 2 ^ 18 →
    let at_ (t : State) (k : Nat) := tcmAtCore t c (r + k)
    let ctl := (at_ s 0).toNat
    let st := ctl % 8
    let live := ctl / 2 ^ 24 % 256
    let joined := ctl / 2 ^ 16 % 256
    let arg (k : Nat) := (q.ops.getD k 0).toNat
    let none_ := nat (2 ^ 64 - 1)
    let gives (op : Nat) (x : Word) (claim : State → Prop) : Prop := q.op = op → ∃ t : State,
      exec (.committeeRequest c) s = .next t ∧ Answered s t c i q.rd x ∧ (t.core c).reqs = [] ∧ claim t
    let same (t : State) : Prop := t.mem = s.mem
    let ctlIs (n : Nat) (t : State) : Prop := at_ t 0 = nat n
    (OnlyRequest s c q i →
      (st = 0 → gives 0 0 fun t => at_ t 0 = nat (1 + arg 0 * 2 ^ 43) ∧
        ∀ k, 1 ≤ k → k < 1024 → at_ t (8 * k) = 0) ∧
      (st ≠ 0 → gives 0 none_ same) ∧
      (st ≠ 2 → gives 1 none_ same) ∧
      (st = 2 → arg 0 < 8 →
        (live.testBit (arg 0) = false ∨ q.ops.getD 2 0 ≠ at_ s 8 → gives 1 (nat (2 ^ 64 - 2)) same) ∧
        (live.testBit (arg 0) = true → q.ops.getD 2 0 = at_ s 8 → joined.testBit (arg 0) = true →
          gives 1 (nat (2 ^ 64 - 3)) same) ∧
        (live.testBit (arg 0) = true → q.ops.getD 2 0 = at_ s 8 → joined.testBit (arg 0) = false → q.ops.length ≤ 67 →
          3 ≤ q.ops.length → gives 1 (nat (q.ops.length - 3)) fun t => ctlIs (ctl + 2 ^ (16 + arg 0)) t ∧
            at_ t (0x400 + 544 * arg 0) = nat (q.ops.length - 3 + arg 1 % 2 ^ 32 * 2 ^ 32) ∧
            at_ t (0x400 + 544 * arg 0 + 8) = nat (arg 1 / 2 ^ 32) ∧ at_ t (0x400 + 544 * arg 0 + 16) = at_ s 8 ∧
            ∀ k, 3 + k < q.ops.length → at_ t (0x400 + 544 * arg 0 + 32 + 8 * k) = q.ops.getD (3 + k) 0)) ∧
      (st ≠ 3 → gives 3 none_ same ∧ gives 4 none_ same) ∧
      (st = 3 → GoodLists s c r → arg 0 % 2 ^ 18 % 8 = 0 → arg 0 % 2 ^ 18 + 8 * (arg 0 / 2 ^ 32 % 2 ^ 9) ≤ 2 ^ 18 →
        ∃ es : List (Nat × Nat), gives 3 (nat (min (arg 0 / 2 ^ 32 % 2 ^ 9) es.length)) fun t =>
          CombinedList s t c r (arg 0 % 2 ^ 18) (min (arg 0 / 2 ^ 32 % 2 ^ 9) es.length) es) ∧
      (st = 3 → ctl / 2 ^ 43 ≤ arg 0 % 2 ^ 20 → gives 4 (nat (2 ^ 64 - 4)) same) ∧
      (st = 3 → (∃ m < 8, live.testBit m = true ∧ 4 < arg (1 + 2 * m) % 8) → gives 4 (nat (2 ^ 64 - 4)) same) ∧
      (let feed := arg 0 / 2 ^ 32 % 2 ^ 18
       let i0 (m : Nat) := arg (1 + 2 * m)
       let word (t : State) (m k : Nat) := tcmAtCore t c (feed + 32 * m + 8 * k)
       st = 3 → arg 0 % 2 ^ 20 < ctl / 2 ^ 43 → (∀ m < 8, live.testBit m = true → i0 m % 8 ≤ 4) → feed % 8 = 0 →
        (feed + 256 ≤ r ∨ r + 8192 ≤ feed) → feed + 256 ≤ 2 ^ 18 → ∃ live' st' : Nat, live' < 256 ∧
          (∀ m < 8, live'.testBit m = true ↔ live.testBit m = true ∧ ¬AtLimit s c r m (i0 m) 1) ∧
          (live' = 0 → st' = 4) ∧
          ((∃ m < 8, live.testBit m = true ∧ AtLimit s c r m (i0 m) 2) → st' = 4) ∧
          (live' ≠ 0 → (∀ m < 8, live.testBit m = true → ¬AtLimit s c r m (i0 m) 2) → st' = 2) ∧
          gives 4 (nat (live' + st' * 2 ^ 8)) fun t =>
            (∀ m < 8, (live.testBit m = true → FedMember s t c r feed m (i0 m) (arg (2 + 2 * m))) ∧
              (live.testBit m = false → word t m 0 = 0 ∧ word t m 1 = 0 ∧ word t m 2 = 0 ∧
                word t m 3 = at_ s (0x80 + 64 * m + 0x10))) ∧
            at_ t 8 = at_ s 8 + 1 ∧ at_ t 0x28 = nat (arg 0 % 2 ^ 20) ∧ (at_ t 0).toNat % 8 = st' ∧
            (at_ t 0).toNat / 2 ^ 16 % 2 ^ 16 = live' * 2 ^ 8 ∧ (at_ t 0).toNat / 2 ^ 32 % 2 = 0 ∧
            (at_ t 0).toNat / 2 ^ 43 = ctl / 2 ^ 43 ∧ (st' = 2 → at_ t 0x10 = t.cyc c)) ∧
      (st ≠ 1 → gives 5 none_ same ∧ gives 29 none_ same) ∧
      (st = 1 → memberOk q.ops = true → gives 5 0 fun t =>
        let m := arg 0 / 2 ^ 8 % 8
        (at_ t 0).toNat / 2 ^ 24 % 256 = live ||| 2 ^ m ∧ ∀ k < 8, at_ t (0x80 + 64 * m + 8 * k) = q.ops.getD (k + 1) 0) ∧
      (1 ≤ st → st ≤ 3 → exprOk q.ops = true → gives 13 0 fun t => (at_ t 0).toNat / 2 ^ 3 % 2 = 1 ∧
        at_ t 0x20 = q.ops.getD 2 0 ∧ ∀ k < 8, at_ t (0x40 + 8 * k) = q.ops.getD (k + 3) 0) ∧
      (1 ≤ st → st ≤ 3 → 1 ≤ arg 1 % 16 → arg 1 % 16 ≤ 8 → gives 21 0 fun t =>
        (at_ t 0).toNat / 2 ^ 12 % 16 = arg 1 % 16 ∧ at_ t 0x18 = nat (arg 1 / 2 ^ 32)) ∧
      (st = 1 → live ≠ 0 → ctl / 2 ^ 3 % 2 = 1 → gives 29 0 fun t => ctlIs (ctl + 1) t ∧ at_ t 8 = 0) ∧
      (st = 0 → gives 6 none_ same) ∧ (st ≠ 0 → gives 6 0 fun t => at_ t 0 = 0)) ∧
    ((s.core c).reqs = [] → (s.core c).held = [q] → q.live = true → q.ctx = i.val →
      let done (x : Nat) := ∃ t : State, exec (.quorumDeadline c) s = .next t ∧ Answered s t c i q.rd (nat x) ∧
        (t.core c).held = [] ∧ (at_ t 0).toNat % 8 = 3
      let met := live &&& joined
      let deadl := (at_ s 0x18).toNat % 2 ^ 32
      let count (x : Nat) := (List.range 8).countP fun m => x.testBit m
      let least := min (ctl / 2 ^ 12 % 16) (count live)
      let stays := ∃ t : State, exec (.quorumDeadline c) s = .next t ∧ (t.core c).held = [q] ∧ t.mem = s.mem
      (st = 2 → live ≠ 0 → met = live → done (live + live * 2 ^ 8)) ∧
      (st = 2 → met ≠ live → deadl = 0 ∨ count met < least ∨ least = 0 → stays) ∧
      (st = 2 → met ≠ live → deadl ≠ 0 → least ≤ count met → 1 ≤ least →
        ∃ t : State, exec (.quorumDeadline c) s = .next t ∧
          (deadl ≤ (t.cyc c - at_ s 0x10).toNat → Answered s t c i q.rd (nat (met + live * 2 ^ 8 + 2 ^ 16)) ∧
            (t.core c).held = [] ∧ (at_ t 0).toNat % 8 = 3 ∧ (at_ t 0).toNat / 2 ^ 32 % 2 = 1) ∧
          ((t.cyc c - at_ s 0x10).toNat < deadl → (t.core c).held = [q] ∧ t.mem = s.mem)) ∧
      (st ≠ 2 → ∃ t : State, exec (.quorumDeadline c) s = .next t ∧ Answered s t c i q.rd none_ ∧
        (t.core c).held = [] ∧ t.mem = s.mem))

/-- Committee instructions reach a commit point, and the atomic thread performs their requests. -/
def Obligations.CommitteesAskAndAnswer : Prop := CommitteeInstructionsAsk ∧ CommitteeThreadPerformsRequests

/-! ### Stitches and the sequence -/

/-- R388, R394 to R400: a STCH instruction traps STITCH, SUB 1 where STPL names no pool, and else brings its context to a
commit point with its request; SPLICE reads and checks its descriptor; SIDX finds the row's entry in a version and
gives its address, the rows left, or the piece. -/
def Sys2Proof.Claims.StitchInstructions : Prop :=
  ∀ (s : State) (rd rs1 rs2 : GReg), QuietTcm s →
    let h := s.regs.get rs1
    let x := s.regs.get rs2
    let i := x.toNat % 2 ^ 32
    let w (k : Nat) := tcmWord s (x.toNat + 8 * k)
    let n := (w 0).toNat / 2 ^ 16 % 2 ^ 8
    let asks (j : Instr) (op : Nat) (a : Word) := Awaits j s (.stitch op a [] rd)
    (s.view.pool = none → ∀ j ∈ [.stnew rd, .splice rd rs1 rs2, .spin rd rs1, .sunpin rd rs1, .sfork rd rs1,
      .sdrop rd rs1], TrapsBare j s .stitch 1) ∧
    ∀ p, s.view.pool = some p →
      (asks (.stnew rd) 0 0 ∧ asks (.spin rd rs1) 2 h ∧ asks (.sunpin rd rs1) 3 h ∧ asks (.sfork rd rs1) 5 h ∧
        asks (.sdrop rd rs1) 6 h) ∧
      (x.toNat % 32 ≠ 0 → Traps (.splice rd rs1 rs2) s .misalign 0 x) ∧
      (x.toNat % 32 = 0 → inData s x.toNat (32 + 32 * n) → (w 0).toNat % 256 ≤ 124 → (w 0).toNat / 2 ^ 8 % 256 ≤ 124 →
        n ≤ 8 → (w 0).toNat / 2 ^ 24 = 0 → w 1 = 0 → w 2 = 0 → w 3 = 0 →
        (∀ q < n,
          let item := (w (4 + 4 * q)).toNat
          let count := item / 2 ^ 34 % 2 ^ 21
          let last := item / 2 ^ 14 % 2 ^ 20 + count
          let shape := (w (6 + 4 * q)).toNat
          let rows := shape % 2 ^ 21
          let stride := shape / 2 ^ 32 % 2 ^ 20
          item / 2 ^ 55 = 0 ∧ 1 ≤ count ∧ count ≤ 2 ^ 20 ∧ last ≤ 2 ^ 20 ∧ w (7 + 4 * q) = 0 ∧
          ((item % 4 = 0 ∧ item / 4 % 2 ^ 12 < p.np ∧ w (5 + 4 * q) = 0 ∧ shape = 0) ∨
           (item % 4 = 1 ∧ (w (5 + 4 * q)).toNat % 8 = 0 ∧ (w (5 + 4 * q)).toNat < 2 ^ 48 ∧
            shape / 2 ^ 21 % 2 ^ 11 = 0 ∧ shape / 2 ^ 52 = 0 ∧ 1 ≤ rows ∧ rows ≤ 2 ^ 20 ∧ stride % 8 = 0 ∧
            8 ≤ stride ∧ last ≤ rows))) →
        Awaits (.splice rd rs1 rs2) s (.stitch 1 h ((List.range (4 + 4 * n)).map w) rd)) ∧
      (let mode := x.toNat / 2 ^ 62
       let ver := p.version (h.toNat / 2 ^ 8 % 2 ^ 7)
       let word (k : Nat) := (tcmWord s (ver + 8 * k)).toNat
       let entry (e : Nat) := word (4 + e)
       let count (e : Nat) := entry e / 2 ^ 32 % 2 ^ 21
       let start (e : Nat) := ((List.range e).map count).sum
       let named := h.toNat / 2 ^ 15 % 2 = 0 ∧ h.toNat < 2 ^ 48 ∧ h.toNat % 2 ^ 8 < p.nt ∧ h.toNat / 2 ^ 8 % 2 ^ 7 < p.nv
       let current := word 0 = h.toNat % 2 ^ 8 + 2 ^ 8 + h.toNat / 2 ^ 16 * 2 ^ 16
       let sound := word 1 < 2 ^ 24 ∧ word 1 / 2 ^ 16 ≤ 124 ∧ word 2 < 2 ^ 32 ∧ word 3 = 0
       let row (y : Word) : Prop := ∃ t : State, exec (.sidx rd rs1 rs2) s = .next t.settle ∧
         t.regs = { s.regs.put rd y with pc := s.regs.pc + nat 4 } ∧ t.mem = s.mem ∧
         t.cx.chunk.cells = s.cx.chunk.cells ∧ t.cx.chunk.pend = s.cx.chunk.pend
       x.toNat / 2 ^ 32 % 2 ^ 30 = 0 → mode ≠ 3 →
         (¬named → TrapsBare (.sidx rd rs1 rs2) s .stitch 3) ∧
         (named → ¬current → TrapsBare (.sidx rd rs1 rs2) s .stitch 3) ∧
         (named → current → ¬sound → TrapsBare (.sidx rd rs1 rs2) s .stitch 3) ∧
         (named → current → sound → word 2 ≤ i →
           TrapsBare (.sidx rd rs1 rs2) s .stitch 4) ∧
         ∀ e, named → current → sound → i < word 2 → e < word 1 / 2 ^ 16 →
           start e ≤ i → i < start e + count e →
           let piece := entry e % 2 ^ 12
           let rec_ := p.piece piece
           (mode = 0 → piece < p.np → row (nat ((tcmWord s rec_).toNat % 2 ^ 48 + (entry e / 2 ^ 12 % 2 ^ 20 + i - start e) *
             ((tcmWord s (rec_ + 8)).toNat / 2 ^ 32 % 2 ^ 20)))) ∧
           (mode = 1 → row (nat (start e + count e - i))) ∧ (mode = 2 → row (nat (e + piece * 2 ^ 8))))

/-- R391 to R399: what the thread does with a STCH request, and the answer: a new tensor takes the lowest free tensor and
version with the next serial, or answers CORRUPT where that version is not all zero; a handle that names none answers
its code and changes nothing; pins are counted; SDROP
ends the tensor; a SPLICE of nothing makes the next version of an empty tensor. -/
def Sys2Proof.Claims.StitchThreadPerformsRequests : Prop :=
  ∀ (s : State) (c : Nat) (i : Fin 4) (q : ThreadReq) (p : Pool), c < 2 ^ 18 → CalmCluster s (c / 8) → NoErrors s →
    q.comm = false → OnlyRequest s c q i → (s.bank c).pool = some p →
    let gives (op : Nat) (x : Word) (claim : State → Prop) : Prop := q.op = op → ∃ t : State,
      exec (.stitchRequest c) s = .next t ∧ Answered s t c i q.rd x ∧ (t.core c).reqs = [] ∧ claim t
    let same (t : State) : Prop := t.mem = s.mem
    let h := q.a.toNat
    let counts (t : State) (up : Nat) : Prop :=
      (t.bank c).stst.toNat % 2 ^ 8 = ((s.bank c).stst.toNat + up) % 2 ^ 8
    let freeT (n : Nat) := n < p.nt ∧ (s.tensor c p n).live = false ∧ ∀ m < n, (s.tensor c p m).live = true
    let freeV (n : Nat) := n < p.nv ∧ (s.versionAt c p n).live = false ∧ ∀ m < n, (s.versionAt c p m).live = true
    let version (t : State) (v k : Nat) := tcmAtCore t c (p.version v + 8 * k)
    let blank (v : Nat) := ∀ k < 128, version s v k = 0
    let made (op : Nat) : Prop := ∀ n v,
      let r := s.tensor c p n
      let ser := r.ser + 1
      freeT n → freeV v → blank v → r.ok = true → r.ser ≠ 0xFFFF_FFFF → gives op (nat (n + ser * 2 ^ 16)) fun t =>
        tcmAtCore t c (p.tensor n) = nat (1 + v * 2 ^ 8 + ser * 2 ^ 16) ∧ tcmAtCore t c (p.tensor n + 8) = nat ser ∧
        version t v 0 = nat (n + 2 ^ 8 + ser * 2 ^ 16) ∧ version t v 1 = 0 ∧ version t v 2 = 0 ∧ counts t 1
    made 0 ∧
    (∀ n v, freeT n → freeV v → (s.tensor c p n).ok = true → (s.tensor c p n).ser ≠ 0xFFFF_FFFF → ¬blank v →
      gives 0 (nat (2 ^ 64 - 7)) same) ∧
    ((∀ n < p.nt, (s.tensor c p n).live = true) → gives 0 (nat (2 ^ 64 - 1)) same) ∧
    (∀ e, s.findTensor c p q.a = .error e → gives 1 e same ∧ gives 2 e same ∧ gives 5 e same ∧ gives 6 e same) ∧
    (h / 2 ^ 8 % 2 ^ 8 ≠ 0 ∨ 2 ^ 48 ≤ h ∨ p.nt ≤ h % 2 ^ 8 → s.findTensor c p q.a = .error (nat (2 ^ 64 - 5))) ∧
    (∀ n r v, s.findTensor c p q.a = .ok (n, r, v) →
      n = h % 2 ^ 8 ∧ r.live = true ∧ r.birth = h / 2 ^ 16 % 2 ^ 32 ∧ v.live = true ∧ v.t = n ∧
      (v.pins < 65535 → gives 2 (nat (n + r.cur * 2 ^ 8 + v.ser * 2 ^ 16)) fun t =>
        (version t r.cur 1).toNat % 2 ^ 16 = v.pins + 1) ∧
      (v.pins = 65535 → gives 2 (nat (2 ^ 64 - 2)) same) ∧
      (v.entries = [] → made 5) ∧
      (v.pins ≠ 0 → gives 6 0 fun t => (tcmAtCore t c (p.tensor n)).toNat % 2 = 0 ∧
        version t r.cur 0 = version s r.cur 0) ∧
      (∀ v2, v.entries = [] → q.ops.getD 0 0 = 0 → r.ser ≠ 0xFFFF_FFFF → freeV v2 → blank v2 →
        let ser := r.ser + 1
        gives 1 (nat (n + v2 * 2 ^ 8 + ser * 2 ^ 16)) fun t =>
          (tcmAtCore t c (p.tensor n)).toNat / 2 ^ 8 % 2 ^ 7 = v2 ∧ version t v2 0 = nat (n + 2 ^ 8 + ser * 2 ^ 16) ∧
          (v.pins = 0 → version t r.cur 0 = 0))) ∧
    (let n := h % 2 ^ 8
     let k := h / 2 ^ 8 % 2 ^ 7
     let v := s.versionAt c p k
     h / 2 ^ 15 % 2 = 0 → h < 2 ^ 48 → n < p.nt → k < p.nv → v.live = true → v.t = n → v.ser = h / 2 ^ 16 →
       v.ok = true → (s.tensor c p n).ok = true →
       (v.pins = 0 → gives 3 (nat (2 ^ 64 - 3)) same) ∧
       (2 ≤ v.pins ∨ (v.pins = 1 ∧ (s.tensor c p n).live = true ∧ (s.tensor c p n).cur = k) →
         gives 3 0 fun t => (version t k 1).toNat % 2 ^ 16 = v.pins - 1))

/-- STCH reaches a commit point, and the atomic thread performs its requests on the pool. -/
def Obligations.StitchesAskAndAnswer : Prop := StitchInstructions ∧ StitchThreadPerformsRequests

/-- R404, R408: SPARK moves a record out of its batch row into the next slot of a ring, SRES one from the head of a ring
into the lowest vacant row; each answers a code where the states, the layer or the room forbid it, and then changes
nothing else. -/
def Obligations.SequenceHandover : Prop :=
  ∀ (s : State) (rd gs1 gs2 : GReg), QuietTcm s → s.cx.chunk.cells = [] →
    (∀ (j : Fin 4) w, j ≠ s.focus.2 → (s.ctx s.focus.1 j).wrote w = false) →
    let y := (s.regs.get gs1).toNat
    let x := (s.regs.get gs2).toNat
    let ring : HReg := BitVec.ofNat 4 (x / 2 ^ 16)
    let h := s.view.ring ring
    let layer := x % 2 ^ 16
    let own (t : State) (a n : Nat) := seenNum t (2 ^ 41 + s.focus.1 * 2 ^ 18 + a) n
    let data (a n : Nat) := s.me.bank.kernel.cb * 8192 ≤ a ∧ a + n ≤ 2 ^ 18
    let apart3 (a n b m : Nat) := a + n ≤ b ∨ b + m ≤ a
    let answers (i : Instr) (v : Word) (claim : State → Prop) := ∃ t : State, exec i s = .next t.settle ∧
      t.regs = { s.regs.put rd v with pc := s.regs.pc + nat 4 } ∧ t.mem = s.mem ∧ claim t
    let nothing (t : State) : Prop := t.cx.chunk.cells = [] ∧ t.cx.chunk.pend = s.cx.chunk.pend
    let moved (t : State) (produce : Bool) : Prop :=
      t.cx.chunk.pend = s.cx.chunk.pend ++ [.ring ring (hMove h produce 1)]
    let spark : Instr := .spark rd gs1 gs2
    let sres : Instr := .sres rd gs1 gs2
    (2 ^ 20 ≤ x → TrapsBare spark s .bounds 10 ∧ TrapsBare sres s .bounds 10) ∧
    (x < 2 ^ 20 → y % 64 ≠ 0 → Traps spark s .misalign 0 (nat y) ∧ Traps sres s .misalign 0 (nat y)) ∧
    (x < 2 ^ 20 → y % 64 = 0 → ¬data y 64 → Traps spark s .perm 0 (nat y) ∧ Traps sres s .perm 0 (nat y)) ∧
    (x < 2 ^ 20 → y % 64 = 0 → data y 64 → hNlg h = 0 → TrapsBare spark s .ring 1 ∧ TrapsBare sres s .ring 1) ∧
    (x < 2 ^ 20 → y % 64 = 0 → data y 64 → hNlg h ≠ 0 →
      (let w := own s y 8
       let b := own s (y + 0x20) 8 % 2 ^ 18
       let r := w / 2 ^ 8 % 2 ^ 8
       let good := w % 8 = 1 ∧ r ≤ 15 ∧ b % 64 = 0 ∧ s.me.bank.kernel.cb * 8192 ≤ b
       let row := b + 0x40 + 4 * r
       let tail := hTailAddr h
       (¬good → answers spark (nat (2 ^ 64 - 3)) nothing) ∧
       (good → b + 0x80 ≤ 2 ^ 18 → own s row 4 % 2 ^ 18 ≠ y → answers spark (nat (2 ^ 64 - 3)) nothing) ∧
       (good → b + 0x80 ≤ 2 ^ 18 → own s row 4 % 2 ^ 18 = y → hFree h = 0 →
         answers spark (nat (2 ^ 64 - 1)) nothing) ∧
       (good → b + 0x80 ≤ 2 ^ 18 → own s row 4 % 2 ^ 18 = y → hFree h ≠ 0 → data tail 8 → tail % 8 = 0 →
         apart3 y 64 b 128 → apart3 y 64 tail 8 → apart3 b 128 tail 8 → answers spark 0 fun t => moved t true ∧
           (∀ k, (own t b 8).testBit k = ((own s b 8).testBit k && decide (k ≠ r))) ∧ own t row 4 = 0 ∧ own t tail 8 = y ∧
           own t y 8 % 8 = 2 ∧ own t y 8 / 2 ^ 8 % 2 ^ 8 = 0xFF ∧ own t y 8 / 2 ^ 16 % 2 ^ 16 = layer ∧
           own t y 8 / 2 ^ 32 = w / 2 ^ 32)) ∧
      (let head := hHeadAddr h
       let a := own s head 8 % 2 ^ 18
       let w := own s a 8
       let row (r : Nat) := y + 0x40 + 4 * r
       let good := a % 64 = 0 ∧ s.me.bank.kernel.cb * 8192 ≤ a ∧ w % 8 = 2 ∧ w / 2 ^ 16 % 2 ^ 16 = layer ∧
         own s y 8 / 2 ^ 16 % 2 ^ 16 = layer
       (hFilled h = 0 → answers sres (nat (2 ^ 64 - 2)) nothing) ∧
       (hFilled h ≠ 0 → head % 8 = 0 → head + 8 ≤ 2 ^ 18 →
         (¬good → answers sres (nat (2 ^ 64 - 3)) nothing) ∧
         (good → y + 0x80 ≤ 2 ^ 18 → (∀ r < 16, own s (row r) 4 ≠ 0) → answers sres (nat (2 ^ 64 - 1)) nothing) ∧
         ∀ r < 16, good → y + 0x80 ≤ 2 ^ 18 → own s (row r) 4 = 0 → (∀ q < r, own s (row q) 4 ≠ 0) → apart3 a 64 y 128 →
           answers sres (nat r) fun t => moved t false ∧ own t (row r) 4 = a ∧
             (∀ k, (own t y 8).testBit k = ((own s y 8).testBit k || decide (k = r))) ∧
             own t a 8 % 8 = 1 ∧ own t a 8 / 2 ^ 8 % 2 ^ 8 = r ∧ own t a 8 / 2 ^ 16 = w / 2 ^ 16)))

/-! ### Groups, launch queues and slots -/

/-- R315 to R320, R324, R325: the completion test of a barrier's round passes where the round holds an arrival and every
member has one; the round is then released, once to each cluster that has a participant (log 46), and the arrivals held
behind it make the next round. A release gives every participant the combination of the round's payloads, and its
context goes on; BARST of the copy that arrived counts the round, at level 1 in bits 15:0 and at level 2 in bits 31:16.
That of a block barrier makes every participant's stores visible in the block's rectangle and each participant's later
loads begin at them. Where no release is on its way to the cluster nothing happens. -/
def Obligations.BarriersReleaseTheirRound : Prop :=
  ∀ (s : State) (k : Nat),
    let complete (as : List Arrival) (v bit : Nat) (cores : Nat → Prop) : Prop :=
      as ≠ [] ∧ ∀ c, cores c → ((s.core c).gmemOf v).getLsbD bit = true → ∃ a ∈ as, a.core = c
    let once (r : Round) : Prop := (r.arrivals.map (·.core)).Nodup ∧ (r.held.map (·.core)).Nodup
    let next (r : Round) : Round := { arrivals := r.held, held := [] }
    let sets (x : Release) (r : Round) (v : Nat) (rect : Option Word) : Prop :=
      x.vd = v ∧ x.rect = rect ∧ x.counts = true ∧ x.rels = r.arrivals.map (·.rels) ∧
      x.parts.map (·.1) = r.arrivals.filter (fun a => decide (a.core / 8 = x.cluster)) ∧
      ∀ e ∈ x.parts, BarrierResult e.1.op r.arrivals e.2
    (∀ (v : Nat) (r : Round), (s.cluster k).rounds = [(v, r)] → (∀ b ∈ s.blocks, k ∉ b.clusters) → s.releasing = [] →
      once r → (∀ a ∈ r.arrivals, a.core / 8 = k) →
      let t := s.testRounds k
      let all (as : List Arrival) := complete as v 0 fun c => c / 8 = k
      (¬all r.arrivals → (t.cluster k).rounds = [(v, r)] ∧ t.releasing = []) ∧
      (all r.arrivals → ¬all r.held → (t.cluster k).rounds = [(v, next r)] ∧
        ∃ x, t.releasing = [x] ∧ x.cluster = k ∧ sets x r v none)) ∧
    (∀ b, s.blocks = [b] → k ∈ b.clusters → (s.cluster k).rounds = [] → s.releasing = [] → once b.round →
      (∀ a ∈ b.round.arrivals, a.core / 8 ∈ b.clusters) → b.clusters.Nodup →
      let t := s.testRounds k
      let all (as : List Arrival) := complete as b.vd 1 (· ∈ b.cores)
      let rect := nat (b.x0 + b.y0 * 2 ^ 8 + (b.x0 + b.bw - 1) * 2 ^ 16 + (b.y0 + b.bh - 1) * 2 ^ 24)
      (¬all b.round.arrivals → t.blocks = [b] ∧ t.releasing = []) ∧
      (all b.round.arrivals → ¬all b.round.held → t.blocks = [{ b with round := next b.round }] ∧
        (t.releasing.map (·.cluster)).Nodup ∧
        (∀ q, q ∈ t.releasing.map (·.cluster) ↔ ∃ a ∈ b.round.arrivals, a.core / 8 = q) ∧
        ∀ x ∈ t.releasing, sets x b.round b.vd (some rect))) ∧
    (∀ x, s.releasing = [x] → x.cluster = k → (x.parts.map (·.1.core)).Nodup → (∀ e ∈ x.parts, e.1.ctx < 4) →
      let lo := if x.rect.isSome then 16 else 0
      let rounds (t : State) (c : Nat) := (t.bank c).barst.toNat / 2 ^ lo % 2 ^ 16
      ∃ t : State, exec (.barrierRelease k x.rect.isSome) s = .next t ∧ t.releasing = [] ∧ t.mem = s.mem ∧
        (∀ e ∈ x.parts, ∀ i : Fin 4, i.val = e.1.ctx → Answered s t e.1.core i e.1.rd e.2) ∧
        (∀ e ∈ x.parts, x.counts = true → (s.bank e.1.core).vdid = x.vd →
          rounds t e.1.core = (rounds s e.1.core + 1) % 2 ^ 16) ∧
        ∀ rect, x.rect = some rect →
          (∀ r ∈ x.rels, ∀ e ∈ r, ∃ p ∈ t.performed, p.rect = some rect ∧ p.word = e.1 ∧ p.ix = e.2) ∧
          ∀ e ∈ x.parts, inRect rect e.1.core = true → ∀ r ∈ x.rels, ∀ f ∈ r,
            f.2 ≤ Tab.get (t.core e.1.core).floors f.1 0) ∧
    ∀ block, (∀ x ∈ s.releasing, x.cluster ≠ k ∨ x.rect.isSome ≠ block) → exec (.barrierRelease k block) s = .next s

/-- R306 to R308, R312, R461, R466, R467: GSPAWN's job enters its batch into the launch queue, in own or translated
memory, or ends FAULT 0x82 where the queue is full, or with the cause of an access that fails; the placer's block
makes its cores members and starts them; at a slot boundary the index advances, the virtual devices of the new entry
and no others are switched in, a leaving one's cores stop and its placement with them, and every control core is told.
-/
def Obligations.BatchesBlocksAndSlots : Prop :=
  ∀ s : State,
    (∀ (c n : Nat) (j : Job), c < 2 ^ 18 → n < 8 → IdleCluster s (c / 8) → NoErrors s → s.job c n = j → j.kind = 14 →
      j.st = .queued → j.mbox = 0 →
      let b := s.bank c
      let word (k : Nat) : Word := j.ops.getD k 0
      let own (t : State) (a : Nat) := tcmAtCore t c a
      let q := b.lqb.toNat + 64 * (word 4).toNat
      let put := (own s q).toNat
      let cap := (own s (q + 16)).toNat
      let entry := (own s (q + 24)).toNat + 32 * (put % cap)
      let bst := (word 3).toNat
      let place (a : Nat) := a % 8 = 0 ∧ b.kernel.cb * 8192 ≤ a ∧ a + 32 ≤ 2 ^ 18
      let clear (x y : Nat) := x + 32 ≤ y ∨ y + 32 ≤ x
      place q →
      (cap ≤ (own s q - own s (q + 8)).toNat → ∃ t : State, exec (.gspawnEnqueue c n) s = .next t ∧
        EndedWith s t c n 4 0x82 0 ∧ t.mem = s.mem) ∧
      ((own s q - own s (q + 8)).toNat < cap → place entry → place bst → clear q entry → clear q bst →
        clear entry bst → ∃ t : State, exec (.gspawnEnqueue c n) s = .next t ∧ EndedWith s t c n 0 0 0 ∧
          own t q = own s q + 1 ∧ own t entry = word 0 ∧
          own t (entry + 8) = nat ((word 1).toNat % 2 ^ 48 + b.kid.toNat % 2 ^ 16 * 2 ^ 48) ∧
          own t (entry + 16) = word 2 ∧ own t (entry + 24) = word 3 ∧
          own t bst = nat ((word 1).toNat / 2 ^ 24 % 2 ^ 24) ∧ own t (bst + 8) = 0)) ∧
    (∀ (c n : Nat) (j : Job) (r : Except Trap (List Word)) (u : State), (∀ k, Unforced s k) → s.job c n = j → j.kind = 14 →
      j.st = .queued → j.mbox = 0 →
      let word (k : Nat) : Word := j.ops.getD k 0
      let q := (s.bank c).lqb + nat (64 * (word 4).toNat)
      let ends (u : State) (status dcode : Nat) : Prop := ∃ t : State, exec (.gspawnEnqueue c n) s = .next t ∧
        EndedWith u t c n status dcode 0 ∧ t.mem = u.mem
      let faults (e : Trap) (u : State) : Prop := ends u 4 e.cause.code
      State.deviceGetWords { s with wrote := [] } c q 4 = (r, u) →
      (∀ e, r = .error e → faults e u) ∧
      ∀ d, r = .ok d →
        let put := d.getD 0 0
        let cap := (d.getD 2 0).toNat
        let entry := d.getD 3 0 + nat (32 * (put.toNat % cap))
        (cap ≤ (put - d.getD 1 0).toNat → ends u 4 0x82) ∧
        ((put - d.getD 1 0).toNat < cap → ∀ (r1 r2 r3 : Except Trap Unit) (u1 u2 u3 : State),
          u.devicePutWords c entry [word 0, nat ((word 1).toNat % 2 ^ 48 + (s.bank c).kid.toNat % 2 ^ 16 * 2 ^ 48), word 2,
            word 3] = (r1, u1) →
          u1.devicePutWords c (word 3) [nat ((word 1).toNat / 2 ^ 24 % 2 ^ 24), 0, 0, 0] = (r2, u2) →
          u2.devicePutWord c q (put + 1) = (r3, u3) →
          (∀ e, r1 = .error e → faults e u1) ∧ (∀ e, r1 = .ok () → r2 = .error e → faults e u2) ∧
          (∀ e, r1 = .ok () → r2 = .ok () → r3 = .error e → faults e u3) ∧
          (r1 = .ok () → r2 = .ok () → r3 = .ok () → ends u3 0 0))) ∧
    (∀ (v n q : Nat) (b : Block) (entry args placed : Word) (u : State),
      (s.vdev v).placing = true → (s.vdev v).switchedIn = true → n < 64 →
      (s.vdev v).slots = [(n, q)] → s.headBatch v q = (.block b entry args placed, u) → b.vd = v →
      ∃ t : State, exec (.blockPlace v) s = .next t ∧ (t.vdev v).lastSlot = n ∧ b ∈ t.blocks ∧
        ∀ c ∈ b.cores, (s.bank c).vdid = v → (t.bank c).gmem = 3 ∧ (t.bank c).lrec = b.lrec ∧
          (t.bank c).gbat = nat (b.gbat.toNat % 2 ^ 48) ∧
          (t.bank c).gpos = nat (b.x0 + b.y0 * 2 ^ 8 + b.bw * 2 ^ 16 + b.bh * 2 ^ 24 + b.num % 2 ^ 24 * 2 ^ 32) ∧
          ∃ m ∈ t.net, m.kind = .start ∧ m.dst = c ∧ m.payload = [nat b.num, args]) ∧
    (∀ v, (s.vdev v).placing = true → (s.vdev v).switchedIn = true → (s.vdev v).slots = [] →
      ∃ t : State, exec (.blockPlace v) s = .next t ∧ (t.vdev v).placing = false ∧ t.blocks = s.blocks) ∧
    (let ix := (s.slotIx + 1) % s.slotLenNext
     let e := (Tab.get s.slotTab ix 0)
     ∃ t : State, exec .slotBoundary s = .next t ∧ t.slotIx = ix ∧ t.slotLen = s.slotLenNext ∧
       t.slotPeriod = s.slotPeriodNext ∧ (∀ v < 64, (t.vdev v).switchedIn = e.getLsbD v) ∧
       (∀ v < 64, (s.vdev v).switchedIn = true → e.getLsbD v = false → (t.vdev v).placing = false) ∧
       (∀ n < 64, (t.core (0x4000_0000 + n)).priv.ipend.getLsbD 0 = true) ∧
       ∀ v < 64, ∀ c, (s.vdev v).switchedIn = true → e.getLsbD v = false → c / 8 ∈ s.clustersOf v →
         c < 2 ^ 18 → (s.bank c).vdid = v → (s.cluster (c / 8)).shared = false → (t.core c).stopped = true)

/-! ### Translation -/

/-- R370 to R374, R475: TLBI, TLBIA and SIDW trap PRIV on fabric cores and below their level; TLBIS is a submission
anywhere; on a control core the job is queued at once; a bad operand traps JOB 3, or BOUNDS 9 for SIDW, which writes one
root and gives the old one; ATRN traps for an access kind above 2 only. -/
def Sys2Proof.Claims.TranslationInstructions : Prop :=
  ∀ (s : State) (rd rs1 rs2 : GReg),
    let x := s.regs.get rs1
    let d := s.regs.get rs2
    let tlbi := Instr.tlbi rd rs1 rs2
    let tlbis := Instr.tlbis rd rs1 rs2
    let tlbia := Instr.tlbia rd rs1 rs2
    let sidw := Instr.sidw rd rs1 rs2
    let queues (i : Instr) (kind v : Nat) : Prop :=
      (d = 0 ∨ (d.toNat % 8 = 0 ∧ d.toNat < 2 ^ 48)) → ∀ n : Fin 8, freeSlotIs s n →
      ∃ (t : State) (j : Job), exec i s = .next t ∧ j.st = .queued ∧ j.gen = (s.me.bank.jobs[n]).gen + 1 ∧
        j.kind = kind ∧ j.mbox = d ∧ j.ops = [x, nat v] ∧ t.me.bank.jobs = s.me.bank.jobs.set n j ∧
        t.regs = { s.regs.put rd (nat (n.val + 8 * j.gen.toNat)) with pc := s.regs.pc + 4 } ∧ t.mem = s.mem ∧
        t.net = s.net
    let a := (s.vdev s.vd).sidtb.toNat + 8 * x.toNat
    (s.ctl = false → TrapsBare tlbi s .priv 0 ∧ TrapsBare tlbia s .priv 0 ∧ TrapsBare sidw s .priv 0 ∧
      (x.toNat < 2 ^ 16 → OnFabric s → goodMailbox s d → Submits tlbis s rd 16 d 0 0 [x, nat s.vd])) ∧
    (2 ^ 16 ≤ x.toNat → TrapsBare tlbis s .job 3) ∧
    (s.ctl = true →
      (s.level = 0 → TrapsBare tlbi s .priv 0 ∧ TrapsBare sidw s .priv 0) ∧
      (s.level < 2 → TrapsBare tlbia s .priv 0) ∧
      (1 ≤ s.level → queues tlbi 15 s.vd) ∧ (x.toNat < 2 ^ 16 → queues tlbis 16 s.vd) ∧
      (2 ≤ s.level → (x.toNat < 64 → queues tlbia 17 x.toNat) ∧ (64 ≤ x.toNat → TrapsBare tlbia s .job 3)) ∧
      (1 ≤ s.level →
        let badRoot := d.toNat / 2 % 2 ^ 11 ≠ 0 ∨ 2 ^ 40 ≤ d.toNat ∨ (d.getLsbD 0 = true ∧ d.toNat / 2 ^ 12 % 2 ^ 2 ≠ 0)
        (2 ^ 16 ≤ x.toNat ∨ badRoot → TrapsBare sidw s .bounds 9) ∧
        (x.toNat < 2 ^ 16 → ¬badRoot → a % 8 = 0 → NoErrors s →
          s.version (s.hypHome a) + 1 < 2 ^ 56 → ∀ old, s.hyperWord false 0 a = .ok old →
          ∃ t : State, exec sidw s = .next t ∧ t.regs = { s.regs.put rd old with pc := s.regs.pc + 4 } ∧
            t.hyperWord false 0 a = .ok d ∧
            ∀ b, b % 8 = 0 → b ≠ a → t.hyperWord false 0 b = s.hyperWord false 0 b))) ∧
    (2 < d.toNat → TrapsBare (.atrn rd rs1 rs2) s .bounds 9)

/-- R362 to R367, R374: with no translation cached, ATRN walks the root of the space, three levels of guest tables, each
reached through the second stage, and the second stage of the page. Its word has OK, LG, the effective permissions and
the guest address where the access is permitted; at the first entry that is not valid, the walk fails with REASON 1, the
level and the entry's address; a page outside the guest fails at stage 2 with REASON 4 and the leaf's LG; a permission
that is missing gives REASON 3, of level 3 or of stage 2. -/
def Obligations.AtrnWalksBothStages : Prop :=
  ∀ (s : State) (rd rs1 rs2 : GReg) (root e1 e2 e3 f : Word),
    let va := (s.regs.get rs1).toNat
    let k := (s.regs.get rs2).toNat
    let v := s.me.bank.vdid
    let g1 := entryAt 1 root va
    let g2 := entryAt 2 e1 va
    let g3 := entryAt 3 e2 va
    let bit (e : Word) (n : Nat) : Bool := e.getLsbD n
    let gpa := leafGpa e3 va
    let pR := bit e3 1 && bit f 1
    let pW := bit e3 2 && bit f 2
    let pX := bit e3 3 && !bit e3 2 && bit f 3
    let num (b : Bool) : Nat := if b then 1 else 0
    let word (ok : Bool) (level stage reason : Nat) : Word :=
      nat (num ok + level * 2 + stage * 8 + reason * 16 + num (bit e3 4) * 2 ^ 7 +
        (num pR + num pW * 2 + num pX * 4) * 2 ^ 8 + gpa * 2 ^ 16)
    let gives (P : Word → Prop) : Prop := ∃ (t : State) (y : Word), exec (.atrn rd rs1 rs2) s = .next t ∧
      t.regs = { s.regs.put rd y with pc := s.regs.pc + 4 } ∧ t.mem = s.mem ∧ P y
    let absent (level ga : Nat) (y : Word) : Prop :=
      bit y 0 = false ∧ y.toNat / 2 % 4 = level ∧ y.toNat / 8 % 2 = 0 ∧ y.toNat / 16 % 8 = 1 ∧
        y.toNat / 2 ^ 16 % 2 ^ 40 = ga
    k ≤ 2 → NoErrors s → Rooted s va root →
    (bit root 0 = false → gives (absent 0 0)) ∧
    (upperEntry root → GuestIs s v g1 e1 →
      (bit e1 0 = false → gives (absent 1 g1)) ∧
      (upperEntry e1 → GuestIs s v g2 e2 →
        (bit e2 0 = false → gives (absent 2 g2)) ∧
        (upperEntry e2 → GuestIs s v g3 e3 →
          (bit e3 0 = false → gives (absent 3 g3)) ∧
          (leafEntry e3 → (s.vdev v).s2len.toNat ≤ gpa / 2 ^ 21 → gives fun y => bit y 0 = false ∧ y.toNat / 2 % 4 = 0 ∧
            y.toNat / 8 % 2 = 1 ∧ y.toNat / 16 % 8 = 4 ∧ bit y 7 = bit e3 4 ∧ y.toNat / 2 ^ 16 % 2 ^ 40 = gpa) ∧
          (leafEntry e3 → SecondStage s v gpa f → f.toNat / 2 ^ 8 % 2 ^ 8 = 0 →
            let first := if k = 0 then bit e3 1 else if k = 1 then bit e3 2 else bit e3 3 && !bit e3 2
            let second := if k = 0 then bit f 1 else if k = 1 then bit f 2 else bit f 3
            gives fun y => y = if !first then word false 3 0 3 else if !second then word false 0 1 3
              else word true 0 0 0))))

/-- R365, R371, R372: a queued invalidation that no forced chunk and no atomic holds up ends DONE: no core keeps a
translation that it removes, each core keeps the others, and every chunk that has used a removed one is discarded. The
device may drop any cached translation at any time. -/
def Sys2Proof.Claims.InvalidationsRemoveTranslations : Prop :=
  ∀ (s : State) (c n : Nat),
    let j := s.job c n
    let x := j.ops.getD 0 0
    let v := (j.ops.getD 1 0).toNat
    let gone (sid page : Nat) (lg : Bool) : Prop :=
      (j.kind = 15 → sid = x.toNat / 2 ^ 48 ∧ (page = x.toNat / 2 ^ 16 % 2 ^ 32 ∨
        (lg = true ∧ page / 32 = x.toNat / 2 ^ 21 % 2 ^ 27))) ∧ (j.kind = 16 → sid = x.toNat % 2 ^ 16)
    let used (d : Nat) (i : Fin 4) : Prop := isControl d = false ∧ (s.ctx d i).running = true ∧
      (s.bank d).vdid = v ∧ ∃ u ∈ (s.ctx d i).chunk.used, gone u.sid u.page u.lg
    (n < 8 → 15 ≤ j.kind → j.kind ≤ 17 → j.st = .queued → j.mbox = 0 →
      (∀ d (i : Fin 4), used d i → (s.ctx d i).forced = false) →
      (∀ e ∈ s.cores, (∀ q ∈ e.2.sendq.toList, q.atomic = none) ∧ ∀ x, e.2.bank.save = some x ∨ e.2.other.save = some x →
        ∀ q ∈ x.sendq.toList, q.atomic = none) →
      ∃ t : State, exec (.invalidationJob c n) s = .next t ∧ EndedWith s t c n 0 0 0 ∧ t.mem = s.mem ∧
        (∀ d, ∀ e, e ∈ (t.core d).tlb ↔ e ∈ (s.core d).tlb ∧ ¬(e.vd = v ∧ gone e.sid e.page e.lg)) ∧
        ∀ d (i : Fin 4), (used d i → (t.ctx d i).chunk = Chunk.empty ∧
            ((s.ctx d i).anch = false → (t.ctx d i).st = .free)) ∧
          (¬used d i → t.ctx d i = s.ctx d i)) ∧
    ∀ ix, ∃ t : State, exec (.translationEvict c ix) s = .next t ∧ t.mem = s.mem ∧
      (t.core c).tlb = (s.core c).tlb.eraseIdx ix ∧ (t.core c).ctxs = (s.core c).ctxs ∧
      ∀ d, d ≠ c → t.core d = s.core d

/-- TLBI, TLBIS, TLBIA, SIDW and ATRN, and the invalidations they queue. -/
def Obligations.TranslationInstructionsAndInvalidations : Prop :=
  TranslationInstructions ∧ InvalidationsRemoveTranslations

/-! ### The link -/

/-- R455 to R458, R468: RVBEG and RVEND check their operands, then come to a commit point, and give NOTMEM on a control
core; RVQRY reads the module's copy; WREL waits for the stores to the window's lines, a control core's raises the
release count at once, and WACQ reads it; a window out of range traps BOUNDS 12, one that is not granted VDPERM; LSTAT
reads a link. -/
def Sys2Proof.Claims.RevolutionWindowAndStatusInstructions : Prop :=
  ∀ (s : State) (rd rs1 rs2 : GReg),
    let a := (s.regs.get rs1).toNat
    let n := (s.regs.get rs2).toNat
    let g := s.ring (s.me.bank.vdid * 64 + a)
    let bad : Prop := 63 < a ∨ n = 0 ∨ 2 ^ 48 ≤ n
    let wrel := Instr.wrel rd rs1
    let wacq := Instr.wacq rd rs1
    let granted (w : Window) : Prop := w.owner = s.me.bank.vdid ∨ w.grants.getLsbD s.me.bank.vdid = true
    (bad → TrapsBare (.rvbeg rd rs1 rs2) s .bounds 12 ∧ TrapsBare (.rvend rd rs1 rs2) s .bounds 12) ∧
    (¬bad → s.ctl = true → Gives (.rvbeg rd rs1 rs2) s rd (BitVec.allOnes 64) 4 ∧
      Gives (.rvend rd rs1 rs2) s rd (BitVec.allOnes 64) 4) ∧
    (¬bad → s.ctl = false →
      (s.me.bank.rvtb = 0 → TrapsBare (.rvbeg rd rs1 rs2) s .bounds 12 ∧ TrapsBare (.rvend rd rs1 rs2) s .bounds 12) ∧
      (s.me.bank.rvtb ≠ 0 →
        exec (.rvbeg rd rs1 rs2) s = .next (waiting s (.commit (.rev false a n rd))) ∧
        exec (.rvend rd rs1 rs2) s = .next (waiting s (.commit (.rev true a n rd))))) ∧
    (63 < a ∨ 1 < n ∨ s.me.bank.rvtb = 0 → TrapsBare (.rvqry rd rs1 rs2) s .bounds 12) ∧
    (a ≤ 63 → s.me.bank.rvtb ≠ 0 →
      (n = 0 → Gives (.rvqry rd rs1 rs2) s rd (nat (g.cur % 2 ^ 48 + g.epoch.toNat * 2 ^ 48)) 4) ∧
      (n = 1 → Gives (.rvqry rd rs1 rs2) s rd
        (nat ((match g.st with | .idle => 0 | .opened => 1 | .aborted => 2) + g.members.length * 4 +
          g.ended.toNat * 2 ^ 32)) 4)) ∧
    (a = 0 ∨ 255 < a → TrapsBare wrel s .bounds 12 ∧ TrapsBare wacq s .bounds 12) ∧
    (1 ≤ a → a ≤ 255 → (∀ w, Tab.look s.windows a = some w → ¬granted w) →
      TrapsBare wrel s .vdperm 0 ∧ TrapsBare wacq s .vdperm 0) ∧
    (∀ w, 1 ≤ a → a ≤ 255 → Tab.look s.windows a = some w → granted w →
      (s.ctl = false → ∃ st : Tab Nat, exec wrel s = .next (waiting s (.fence st (some a) rd)) ∧
        ∀ e, e ∈ st ↔ e ∈ s.cx.fence ∧ OfWindow s a w e.1) ∧
      (s.ctl = true → ∃ t : State, exec wrel s = .next t ∧ t.mem = s.mem ∧
        t.regs = { s.regs.put rd (w.count + 1) with pc := s.regs.pc + 4 } ∧
        Tab.look t.windows a = some ({ w with count := w.count + 1 } : Window)) ∧
      (∃ t : State, exec wacq s = .next t.settle ∧ t.mem = s.mem ∧ t.windows = s.windows ∧
        t.regs = { s.regs.put rd w.count with pc := s.regs.pc + 4 } ∧
        ∀ p ∈ s.performed, p.rect = none → OfWindow s a w p.word →
          p.ix ≤ Tab.get t.me.floors p.word 0)) ∧
    (28 < a → TrapsBare (.lstat rd rs1) s .bounds 12) ∧
    (a < 24 → ∃ (t : State) (x : Word), exec (.lstat rd rs1) s = .next t ∧ t.mem = s.mem ∧
      t.regs = { s.regs.put rd x with pc := s.regs.pc + 4 } ∧
      let y := s.link a
      x.toNat % 2 ^ 8 = (match y.st with | .down => 0 | .training => 1 | .up => 2 | .degraded => 3 | .reset => 4) ∧
      x.toNat / 2 ^ 12 % 2 ^ 4 = 0 ∧ x.toNat / 2 ^ 16 % 2 ^ 16 = y.retry % 2 ^ 16 ∧
      x.toNat / 2 ^ 32 % 2 ^ 16 = min 65535 y.lost ∧ x.toNat / 2 ^ 48 = y.peer % 2 ^ 12 ∧
      (y.st = .up ∨ y.st = .degraded → x.toNat / 2 ^ 8 % 2 ^ 4 = y.lanes % 2 ^ 4))

/-- R447 to R449, R458, R474: flits in sequence are taken and acknowledged, with the message they complete; a bad flit or a
gap is answered with a NAK of the flit expected, a repeated one is discarded. An acknowledgement empties the replay buffer
up to its flit, and a NAK counts a replay, the eighth in a row of one flit resetting the link. A link goes from RESET and
DOWN to TRAINING, from TRAINING to UP or DEGRADED or, at the fourth failure, DOWN, where its requests are refused, its
flits are counted lost, and this end's counts of flits sent and expected begin at 0 again, as the far end's do (log 18),
and stay so while it trains; each change of state is reported. -/
def Sys2Proof.Claims.LinksMoveAndCarryFlits : Prop :=
  ∀ (s : State) (l : Nat),
    let y := s.link l
    let carries : Prop := y.st = .up ∨ y.st = .degraded
    let step (i : Instr) (P : State → Prop) : Prop := ∃ t : State, exec i s = .next t ∧ t.mem = s.mem ∧ P t
    let ignored (i : Instr) : Prop := exec i s = .next s
    let down (i : Instr) (cause : Word) : Prop := step i fun t =>
      (t.link l).st = .down ∧ (t.link l).replay = [] ∧ (t.link l).retry = y.retry ∧
      (t.link l).sendSeq = 0 ∧ (t.link l).recvSeq = 0 ∧ Reported s t [nat l, 0, cause] ∧
      (∀ k, k ≠ l → t.link k = s.link k) ∧
      (∀ e ∈ y.replay, ∀ n, e.2.entry = some n → e.2.cls = .request → ∃ v ∈ t.verdicts,
        v.core = e.2.src ∧ v.entry = n ∧ v.why = some 3) ∧
      (t.link l).lost = y.lost + y.replay.length
    (∀ seq ok ws,
      let gap := seq ≠ y.recvSeq ∧ (seq + 4096 - y.recvSeq) % 4096 < 2048
      (¬carries → ignored (.flitReceive l seq ok ws)) ∧
      (carries → ok = false ∨ gap → step (.flitReceive l seq ok ws) fun t =>
        LinkBecomes s t l { y with answer := some (true, y.recvSeq) } ∧ t.net = s.net) ∧
      (carries → ok = true → seq ≠ y.recvSeq → ¬gap → ignored (.flitReceive l seq ok ws)) ∧
      (carries → ok = true → seq = y.recvSeq → step (.flitReceive l seq ok ws) fun t =>
        LinkBecomes s t l { y with recvSeq := (y.recvSeq + 1) % 4096, answer := some (false, seq) } ∧
        (flitMsg ws = none → t.net = s.net) ∧ ∀ m, flitMsg ws = some m → t.net = s.net ++ [m])) ∧
    (∀ seq, (∀ e ∈ y.replay, e.1 ≠ seq) → ignored (.ackReceive l seq) ∧ ignored (.nakReceive l seq)) ∧
    (∀ seq m pre post, carries → y.replay = pre ++ (seq, m) :: post → (∀ e ∈ pre, e.1 ≠ seq) →
      let n := if y.nakSeq = seq then y.naks + 1 else 1
      let z := { y with retry := min 65535 (y.retry + 1), nakSeq := seq }
      step (.ackReceive l seq) (fun t => LinkBecomes s t l
        { y with replay := post, naks := 0, gone := y.gone + (pre.length + 1) } ∧ t.net = s.net) ∧
      (n < 8 → step (.nakReceive l seq) fun t => LinkBecomes s t l { z with naks := n } ∧ t.net = s.net) ∧
      (8 ≤ n → step (.nakReceive l seq) fun t =>
        LinkBecomes s t l { z with naks := 0, st := .reset } ∧ Reported s t [nat l, 4, 2]) ∧
      step (.ltoExpiry l) fun t =>
        LinkBecomes s t l { y with naks := 0, st := .reset } ∧ Reported s t [nat l, 4, 3]) ∧
    (carries → step (.linkReset l) fun t =>
      LinkBecomes s t l { y with naks := 0, st := .reset } ∧ Reported s t [nat l, 4, 1]) ∧
    (¬carries → ignored (.linkReset l)) ∧
    (y.st = .down → ignored (.linkDisable l) ∧ (l < 24 → step (.linkEnable l) fun t =>
      LinkBecomes s t l { y with st := .training, attempt := 0, fromDown := true } ∧ Reported s t [nat l, 1, 1])) ∧
    (y.st ≠ .down → ignored (.linkEnable l) ∧ down (.linkDisable l) 1) ∧
    (y.st = .reset → step (.electricalResetComplete l) fun t =>
      LinkBecomes s t l { y with st := .training, attempt := 0, fromDown := false } ∧
        ∃ cause, Reported s t [nat l, 1, cause]) ∧
    (y.st = .training →
      (y.attempt < 3 → step (.trainingAttemptFail l) fun t => LinkBecomes s t l { y with attempt := y.attempt + 1 }) ∧
      (y.attempt = 3 → down (.trainingAttemptFail l) 4) ∧
      ∀ peer, l < 24 → peer < 4096 → ∀ lanes ∈ [8, 4], step (.trainingComplete l lanes peer) fun t =>
        (t.link l).st = (if lanes = 8 then .up else .degraded) ∧ (t.link l).lanes = lanes ∧ (t.link l).peer = peer ∧
        (t.link l).replay = y.replay ∧ (t.link l).sendSeq = y.sendSeq ∧ (t.link l).recvSeq = y.recvSeq ∧
        (∀ k, k ≠ l → t.link k = s.link k) ∧
        (∃ cause, Reported s t [nat l, if lanes = 8 then 2 else 3, cause]) ∧
        (y.fromDown = true → ∀ e ∈ s.rsets, e.2.testBit l = true → (Tab.look t.drains e.1).isSome = true))

/-- R445, R474: a route set is written through a drain, which counts every flit sent over the set's links so far, to any
module, and it applies once each of them is acknowledged or lost (log 61); a module of its own or 0xFFF has none. -/
def Sys2Proof.Claims.RouteSetsDrain : Prop :=
  ∀ (s : State) (m : Nat),
    (∀ mask, (m = 0xFFF ∨ m = s.moduleId → exec (.rsetWrite m mask) s = .next s) ∧
      (m < 0xFFF → m ≠ s.moduleId → ∃ (t : State) (d : Drain), exec (.rsetWrite m mask) s = .next t ∧ t.rsets = s.rsets ∧
        t.links = s.links ∧ Tab.look t.drains m = some d ∧ d.mask = mask % 2 ^ 24 ∧
        ∀ l n, (l, n) ∈ d.marks ↔ l < 24 ∧ (Tab.get s.rsets m 0).testBit l = true ∧
          n = (s.link l).gone + (s.link l).replay.length)) ∧
    (∀ d : Drain, Tab.look s.drains m = some d →
      ((∃ e ∈ d.marks, (s.link e.1).gone < e.2) → exec (.routeDrainComplete m) s = .next s) ∧
      ((∀ e ∈ d.marks, e.2 ≤ (s.link e.1).gone) → ∃ t : State, exec (.routeDrainComplete m) s = .next t ∧
        Tab.get t.rsets m 0 = d.mask ∧ Tab.look t.drains m = none ∧ t.links = s.links ∧
        ∀ k, k ≠ m → Tab.get t.rsets k 0 = Tab.get s.rsets k 0 ∧ Tab.look t.drains k = Tab.look s.drains k)) ∧
    (Tab.look s.drains m = none → exec (.routeDrainComplete m) s = .next s)

/-- Links carry flits and change state; route sets apply through a drain. -/
def Obligations.LinksAndRoutes : Prop := LinksMoveAndCarryFlits ∧ RouteSetsDrain

/-- R453 to R455: on a ring whose members are this module's, an RVBEG of the open revolution adds its member to BEGUN
and gives the tag; an RVEND by a member that has begun is added to ENDED and waits, and the last one closes the ring and
answers every member's RVEND of the revolution that waits with 0; any other revolution is BADREV. A lost member aborts the
revolution, raises EPOCH, answers ABORTED to the members in ENDED and tells every member the cause; when all are back, CUR
falls by 1 and every member is told. -/
def Sys2Proof.Claims.RevolutionsCloseOrAbort : Prop :=
  ∀ (s : State) (v r : Nat), v < 64 → r < 64 →
    let key := v * 64 + r
    let g := s.ring key
    let all := BitVec.ofNat 30 (2 ^ g.members.length - 1)
    let isMember (d k : Nat) : Prop := ∀ q, (g.members[q]?).map Prod.fst = some d ↔ q = k
    let answered (t : State) (x : Word) (taken : Nat → Prop) (other : Nat × Fin 4 → Prop) : Prop :=
      ∀ d (j : Fin 4) k rd, isMember d k → taken k → other (d, j) →
        (s.ctx d j).wait = .rev true key g.cur rd → t.ctx d j = { s.ctx d j with wait := .result rd x }
    let told (t : State) (tag word : Word) : Prop := ∀ m ∈ g.members, ∃ q ∈ t.net, q.kind = .notice ∧ q.dst = m.1 ∧
      q.payload = [nat r, tag, word]
    (∀ m ∈ g.members, s.localMod m.2 = true) → g.members.length ≤ 30 → g.cur < 2 ^ 48 →
    (g.st = .opened → ∀ (c : Nat) (i : Fin 4) (n m : Nat) (rd : GReg), (s.bank c).vdid = v →
      isMember c m →
      let bit := memberBit m
      let goes (fin : Bool) (h : Ring) (w : Wait) : Prop :=
        CommitsPlainly s c i (.rev fin r n rd) → (s.ctx c i).chunk = Chunk.empty →
        ∃ t : State, exec (.chunkCommit c i.val) s = .next t ∧ t.ring key = h ∧ t.mem = s.mem ∧
          (t.ctx c i).st = .waiting ∧ (t.ctx c i).wait = w ∧ (t.ctx c i).regs = (s.ctx c i).regs ∧
          (h.st = .idle → answered t 0 (fun _ => True) (· ≠ (c, i)))
      (n ≠ g.cur → goes false g (.result rd 0xFFFF_FFFF_FFFF_FFFE) ∧ goes true g (.result rd 0xFFFF_FFFF_FFFF_FFFE)) ∧
      (n = g.cur →
        goes false { g with begun := g.begun ||| bit } (.result rd (nat (n + g.epoch.toNat * 2 ^ 48))) ∧
        (g.begun &&& bit = 0 → goes true g (.result rd 0xFFFF_FFFF_FFFF_FFFE)) ∧
        (g.begun &&& bit ≠ 0 → g.ended ||| bit ≠ all →
          goes true { g with ended := g.ended ||| bit } (.rev true key n rd)) ∧
        (g.begun &&& bit ≠ 0 → g.ended ||| bit = all →
          goes true { g with ended := all, st := .idle } (.result rd 0)))) ∧
    (g.st = .opened → ∀ k m, g.members[k]? = some m → (s.core m.1).failed = true →
      ∃ t : State, exec (.memberLost key k 1) s = .next t ∧
        t.ring key = { g with st := .aborted, epoch := g.epoch + 1, cause := 1 } ∧ t.mem = s.mem ∧
        answered t 0xFFFF_FFFF_FFFF_FFFD (fun q => g.ended &&& memberBit q ≠ 0) (fun _ => True) ∧
        told t (nat (g.cur + (g.epoch + 1).toNat * 2 ^ 48)) (nat (1 + 1 * 256))) ∧
    (g.st = .aborted → (∀ m ∈ g.members, (s.core m.1).failed = false ∧
        (s.cluster (m.1 / 8)).clown.getLsbD 31 = false ∧ (s.core m.1).bank.vdid = v ∧
        (s.core m.1).bank.kst = .active) →
      ∃ t : State, exec (.revolutionReady key) s = .next t ∧ t.mem = s.mem ∧
        t.ring key = { g with st := .idle, cur := g.cur - 1 } ∧
        told t (nat (g.cur + g.epoch.toNat * 2 ^ 48)) (nat (2 + g.cause * 256)))

/-- Revolutions begin, close and abort; windows release and acquire; link status reads. -/
def Obligations.RevolutionsWindowsAndStatus : Prop := RevolutionWindowAndStatusInstructions ∧ RevolutionsCloseOrAbort

/-! ### The ports -/

/-- R443, R444, R473: a port reads a context when V becomes 1 and at each doorbell, and holds it until V is 0. It
makes the accesses of a context it holds that is not STOPPED under the context's virtual device and space: a store
reaches memory, and a network port's RDMA atomic reads and writes its word; a request is worked once it has been
submitted, and the pair's head is then at it (log 105). A failed translation sets STOPPED and FAILIX and sends a trap
report to the context's report core; a completion is written and its notice sent to a core of the virtual device;
RESUME goes on at FAILIX. An invalid or stopped context, or a request not submitted, does nothing. -/
def Sys2Proof.Claims.PortsActForTheirContexts : Prop :=
  ∀ (s : State) (port q ix : Nat) (va : Word),
    let base := portBase s port q
    let drawn : State := { s with free := s.free + 1 }
    let working : State := s.setQueue port q { s.queue port q with head := ix }
    (s.portValid port q = false → ∀ x op, exec (.portRequest port q ix va x) s = .next s ∧
      exec (.portCompletion port q ix (x.toList) ) s = .next s ∧ exec (.pqcmdResume port q) s = .next s ∧
      exec (.pqcmdStop port q) s = .next s ∧
      exec (.networkInbound port q va op) s = .next (if port < 2 then drawn else s)) ∧
    (2 ≤ port → ∀ op, exec (.networkInbound port q va op) s = .next s) ∧
    (s.portSubmitted port q ix = false → ∀ x, exec (.portRequest port q ix va x) s = .next s) ∧
    (∀ ws, port < 3 → q ≤ (Tab.get s.pctb port 0).toNat / 2 ^ 44 % 2 ^ 12 → ContextInMemory s port q ws →
      let looked := s.portLook port q
      ((ws.getD 0 0).getLsbD 6 = false → portCopy looked port q = none) ∧
      ((ws.getD 0 0).getLsbD 6 = true → portCopy s port q ≠ none → looked = s) ∧
      (ServedKind s port q ws → portCopy s port q = none → portCopy looked port q = some ws) ∧
      ∀ a new, ServedKind s port q ws → portCopy s port q ≠ none → a % 8 = 0 → s.doorbellAt port q = some a →
        let told := s.tellQueue a new port q
        portCopy told port q = some ws ∧
          (told.queue port q).tail = new % 2 ^ ((ws.getD 5 0).toNat % 2 ^ 4) ∧ told.mem = s.mem) ∧
    ∀ ws w, PortContext s port q ws w →
      let held (k : Nat) : Word := ws.getD k 0
      let v := (held 0).toNat % 2 ^ 6
      let sid := (held 0).toNat / 2 ^ 16 % 2 ^ 16
      let asker := vdAsker (portAgent port) v sid
      let live : Prop := (held 0).getLsbD 7 = false
      let submitted : Prop := s.portSubmitted port q ix = true
      let failed (u t : State) (f : Trap) : Prop := t.hyperWord false 0 base = .ok (w ||| 0x80) ∧
        (∃ x, portCopy t port q = some ((ws.set 0 (w ||| 0x80)).set 7 x)) ∧
        ∀ c m, coreRef ((held 1).toNat % 2 ^ 31) = some (c, m) → ∃ r : Msg,
          t.net = u.net ++ [r] ∧ r.kind = .report ∧ r.dst = c ∧ r.dmod = netMod s r.src m ∧ ∃ id pg,
            r.payload = [nat (f.cause.code + f.sub * 256 + q % 2 ^ 16 * 2 ^ 32), f.faddr.getD 0, 0, id, pg]
      ((held 0).getLsbD 7 = true → ∀ x, exec (.portCompletion port q ix (x.toList)) s = .next s ∧
        (submitted → exec (.portRequest port q ix va x) s = .next working)) ∧
      (live → va.toNat % 8 = 0 →
        (∀ (p : Place) (u : State), submitted → working.vdFind asker .store va = (.ok p, u) → versionRoom s p →
          ∀ x, ∃ t : State, exec (.portRequest port q ix va (some x)) s = .next t ∧ t.wordAt p = x ∧ t.net = s.net) ∧
        (∀ (p : Place) (u : State), submitted → working.vdFind asker .load va = (.ok p, u) → ∃ t : State,
          exec (.portRequest port q ix va none) s = .next t ∧ t.mem = s.mem ∧ t.net = s.net ∧
          (t.queue port q).head = ix) ∧
        (∀ (p : Place) (u : State), port < 2 → drawn.vdFind asker .store va = (.ok p, u) → versionRoom s p →
          let after (op : PortOp) (y : Word) : Prop := ∃ t : State, exec (.networkInbound port q va op) s = .next t ∧
            t.wordAt p = y ∧ t.net = s.net
          ∀ x y, after (.write x) x ∧ after (.fetchAdd x) (s.wordAt p + x) ∧
            after (.compareSwap x y) (if s.wordAt p = x then y else s.wordAt p)) ∧
        (∀ (p : Place) (u : State), port < 2 → drawn.vdFind asker .load va = (.ok p, u) → ∃ t : State,
          exec (.networkInbound port q va .read) s = .next t ∧ t.mem = s.mem ∧ t.net = s.net) ∧
        (∀ (f : Trap) (u : State) (x : Option Word), submitted → f.cause ≠ .integ → f.cause ≠ .uncorr →
          working.vdFind asker (if x.isSome then .store else .load) va = (.error f, u) →
          ∃ t : State, exec (.portRequest port q ix va x) s = .next t ∧ failed u t f ∧
            t.hyperWord false 0 (base + 0x38) = .ok (nat (ix % 2 ^ 16)) ∧
            portCopy t port q = some ((ws.set 0 (w ||| 0x80)).set 7 (nat (ix % 2 ^ 16)))) ∧
        (∀ (f : Trap) (u : State) (op : PortOp), port < 2 → f.cause ≠ .integ → f.cause ≠ .uncorr →
          drawn.vdFind asker (if op = .read then .load else .store) va = (.error f, u) →
          ∃ t : State, exec (.networkInbound port q va op) s = .next t ∧ failed u t f)) ∧
      (live → ∀ (es : List Word) (u : State), ix < 2 ^ ((held 5).toNat / 2 ^ 4 % 2 ^ 4) →
        s.vdPutWords asker (held 3 + nat (8 * es.length * ix)) es = (.ok (), u) →
        ∃ t : State, exec (.portCompletion port q ix es) s = .next t ∧ t.mem = u.mem ∧
          ((held 8).toNat % 2 ^ 31 = 0 → t.net = u.net) ∧
          ∀ c, (held 8).toNat % 2 ^ 31 = c → c < 2 ^ 18 → c ≠ 0 → s.moduleId = 0 →
            (u.cluster (c / 8)).vds.contains v = true → ∃ r : Msg, t.net = u.net ++ [r] ∧ r.kind = .port ∧ r.dst = c ∧
              r.w0 = nat ((held 9).toNat % 2 ^ 48) ∧ r.payload = [nat q, nat ix]) ∧
      (∃ t : State, exec (.pqcmdResume port q) s = .next t ∧ t.hyperWord false 0 base = .ok (w &&& ~~~0x80) ∧
        portCopy t port q = some (ws.set 0 (w &&& ~~~0x80)) ∧
        (port, q) ∉ t.portStops ∧ (t.queue port q).head = (held 7).toNat % 2 ^ 16) ∧
      (∃ t : State, exec (.pqcmdStop port q) s = .next t ∧ (port, q) ∈ t.portStops ∧ t.mem = s.mem) ∧
      ((port, q) ∈ s.portStops → ∃ t : State, exec (.portStopped port q) s = .next t ∧
        t.hyperWord false 0 base = .ok (w ||| 0x80) ∧ portCopy t port q = some (ws.set 0 (w ||| 0x80)) ∧
        (port, q) ∉ t.portStops) ∧
      ((port, q) ∉ s.portStops → exec (.portStopped port q) s = .next s)

/-- R443, R444, R458: the host reaches a guest frame of a virtual device through its second stage, and only what that
lets it read or write; a port's link status is what its standard says, and a host port comes up with 16 or 8 lanes,
the storage port with 16 (R443). -/
def Sys2Proof.Claims.TheHostReachesGuestFrames : Prop :=
  ∀ (s : State) (v gpa : Nat), v < 64 → gpa % 8 = 0 →
    (∀ x, s.stage2 v gpa = .error x → ∀ y, exec (.hostAccess v gpa y) s = .next s) ∧
    (∀ f, NoErrors s → SecondStage s v gpa f → f.toNat / 2 ^ 8 % 2 ^ 8 = 0 →
      let a := f.toNat / 2 ^ 21 % 2 ^ 20 * 2 ^ 21 + gpa % 2 ^ 21
      let home : Home := s.guestHome v 0 gpa
      let p : Place := { addr := a, home := if a < 2 ^ 40 then some home else none }
      (f.getLsbD 2 = false → ∀ x, exec (.hostAccess v gpa (some x)) s = .next s) ∧
      (f.getLsbD 2 = true → s.lineSt p = .fresh ∨ s.lineSt p = .good → versionRoom s p → ∀ x, ∃ t : State,
        exec (.hostAccess v gpa (some x)) s = .next t ∧ t.wordAt p = x ∧ t.net = s.net) ∧
      (s.lineSt p = .fresh ∨ s.lineSt p = .good → exec (.hostAccess v gpa none) s = .next s)) ∧
    ∀ port up lanes,
      let width : Prop := up = true → ((port = 24 ∨ port = 25) → lanes = 16 ∨ lanes = 8) ∧ (port = 28 → lanes = 16)
      (24 ≤ port → port ≤ 28 → width → ∃ t : State, exec (.portLinkChange port up lanes) s = .next t ∧
        Tab.look t.ports port = some (up, lanes) ∧ (∀ k, k ≠ port → Tab.look t.ports k = Tab.look s.ports k) ∧
        t.mem = s.mem ∧ t.net = s.net) ∧
      (port < 24 ∨ 28 < port ∨ ¬width → exec (.portLinkChange port up lanes) s = .next s)

/-- Ports act under their contexts, and the host under the second stage. -/
def Obligations.PortsAndTheHost : Prop := PortsActForTheirContexts ∧ TheHostReachesGuestFrames

/-! ### The hypervisor's instructions -/

/-- R460, R475, R476: HVCALL enters level 2 with TRAPI 2 recorded, EPC the next instruction; ERET at level L goes to
EPC(L) at level EPRV(L), or traps PRIV where that is above L; each sets pc to an address of the new level, of the
window at level 2 (R69; log 26). WFI waits until IPEND is not 0, and the context is then woken; VDSW changes VDID and
gives the old one; SLOTW writes a field of the slot table and gives the old value: for PERIOD and LEN, whose selectors
have bits 7:0 zero, the one written last (log 63). Each is ILLEGAL on a fabric core and PRIV below its level, and a
bad operand traps BOUNDS 13. -/
def Sys2Proof.Claims.HypervisorInstructions : Prop :=
  ∀ (s : State) (rd rs1 rs2 : GReg),
    let x := s.regs.get rs1
    let d := s.regs.get rs2
    let n := d.toNat
    let p := s.me.priv
    let bad (i : Instr) : Prop := TrapsBare i s .bounds 13
    let both : Prop := ∃ e ∈ s.clusters, e.2.shared = true ∧ d.getLsbD (e.2.clown.toNat % 2 ^ 6) = true ∧
      d.getLsbD (e.2.clown.toNat / 2 ^ 8 % 2 ^ 6) = true
    let hv := Instr.hvcall rd rs1
    (ControlOnly hv s 0 ∧ ControlOnly .eret s 1 ∧ ControlOnly .wfi s 1 ∧ ControlOnly (.vdsw rd rs1) s 2 ∧
      ControlOnly (.slotwEntry rd rs1 rs2) s 2 ∧ ControlOnly (.slotwPeriod rd rs1 rs2) s 2 ∧
      ControlOnly (.slotwLen rd rs1 rs2) s 2) ∧
    (AtLevel s 2 → s.level = 2 → NotHere hv s) ∧
    (AtLevel s 0 → s.level < 2 → ∃ t : State, exec hv s = .next t ∧
      t.me.priv = { p with cprv := 2, epc := p.epc.set 2 (s.regs.pc + 4), eprv := p.eprv.set 2 (nat s.level) } ∧
      t.regs = { s.regs with pc := pcAt 2 p.tvec[2] } ∧
      Records s.me.bank t.me.bank (Trap.at_ .trapi 2 x) false s.focus.2.val s.regs.cr.msgid.toNat s.regs.pc ∧
      t.mem = s.mem ∧ t.net = s.net) ∧
    (AtLevel s 1 → ∀ l : Fin 3, s.level = l.val →
      (l.val < p.eprv[l].toNat % 4 → TrapsBare .eret s .priv 0) ∧
      (p.eprv[l].toNat % 4 ≤ l.val → exec .eret s = .next
        ((s.setMe { s.me with priv := { p with cprv := p.eprv[l].toNat % 4 } }).setRegs
          { s.regs with pc := pcAt (p.eprv[l].toNat % 4) p.epc[l] }))) ∧
    (AtLevel s 1 → (p.ipend ≠ 0 → Leaves .wfi s { s.regs with pc := s.regs.pc + 4 }) ∧
      (p.ipend = 0 → exec .wfi s = .next (waiting s .wfi))) ∧
    (∀ c, (s.ctx c 0).st = .waiting → (s.ctx c 0).wait = .wfi →
      ((s.core c).priv.ipend = 0 → exec (.wfiWake c) s = .next s) ∧
      ((s.core c).priv.ipend ≠ 0 → let y := s.ctx c 0
        exec (.wfiWake c) s = .next (s.putCtx c 0
          { y with regs := { y.regs with pc := y.regs.pc + 4 }, st := .ready, wait := .none }))) ∧
    (AtLevel s 2 →
      (64 ≤ x.toNat → bad (.vdsw rd rs1)) ∧
      (x.toNat < 64 → Makes (.vdsw rd rs1) s rd (nat s.me.bank.vdid)
        (s.setMe { s.me with bank := { s.me.bank with vdid := x.toNat } })) ∧
      (256 ≤ x.toNat ∨ both → bad (.slotwEntry rd rs1 rs2)) ∧
      (x.toNat < 256 → ¬both → Makes (.slotwEntry rd rs1 rs2) s rd (Tab.get s.slotTab x.toNat 0)
        { s with slotTab := Tab.put s.slotTab x.toNat d }) ∧
      (x ≠ 0x100 ∨ n < 16000 ∨ 2 ^ 32 ≤ n → bad (.slotwPeriod rd rs1 rs2)) ∧
      (x = 0x100 → 16000 ≤ n → n < 2 ^ 32 → Makes (.slotwPeriod rd rs1 rs2) s rd (nat s.slotPeriodNext)
        { s with slotPeriodNext := n }) ∧
      (x ≠ 0x200 ∨ n = 0 ∨ 256 < n → bad (.slotwLen rd rs1 rs2)) ∧
      (x = 0x200 → 1 ≤ n → n ≤ 256 → Makes (.slotwLen rd rs1 rs2) s rd (nat s.slotLenNext)
        { s with slotLenNext := n }))

/-- R468, R470, R471, R477: KEYOP. MEXT extends the measurement of the executing virtual device; ATTEST fills a report
behind its nonce, with MODW as its MODID (log 65); VDKEY gives a fresh key with a zero measurement and no quench; WNEW
a window of one owner; WGRANT and WREVOKE change its grant mask but never remove the owner. QUENCH erases the key of
the virtual device and those of its windows: no line under it is read again. FMOVE copies a frame as it is stored, in
one step (log 66), or traps UNCORR on a line that cannot be corrected (log 112). A field outside its range traps
BOUNDS 13, and so does an operation number above 7, at any level (log 64). -/
def Obligations.KeyOperations : Prop :=
  ∀ (s : State) (rd rs1 rs2 : GReg),
    let op := (s.regs.get rs1).toNat
    let x := s.regs.get rs2
    let n := x.toNat
    let w := n % 2 ^ 8
    let v := n / 2 ^ 8 % 2 ^ 6
    let me := s.me.bank.vdid
    let mext := Instr.mext rd rs1 rs2
    let attest := Instr.attest rd rs1 rs2
    let win : Prop := n < 2 ^ 14 ∧ w ≠ 0
    let done (i : Instr) (P : State → Prop) : Prop := KeyDone i s rd P
    let bad (i : Instr) : Prop := TrapsBare i s .bounds 13
    (op ≤ 7 → ControlOnly mext s 1) ∧ ControlOnly attest s 1 ∧
    (∀ i ∈ [Instr.vdkey rd rs1 rs2, .wnew rd rs1 rs2, .wgrant rd rs1 rs2, .wrevoke rd rs1 rs2, .quench rd rs1 rs2,
      .fmove rd rs1 rs2], ControlOnly i s 2) ∧
    (AtLevel s 0 → 7 < op → bad mext) ∧
    (AtLevel s 1 →
      (op ≤ 7 → n % 32 ≠ 0 → Traps mext s .misalign 0 x) ∧
      (op ≤ 7 → n % 32 = 0 → ∀ ws u, s.loadWords x 4 = .ok (ws, u) → done mext fun t => t.mem = s.mem ∧
        (t.vdev me).measurement = sha256 ((s.vdev me).measurement ++ wordsBytes ws) ∧
        ∀ k, k ≠ me → t.vdev k = s.vdev k) ∧
      (n % 64 ≠ 0 → Traps attest s .misalign 0 x)) ∧
    (AtLevel s 2 →
      (s.level = 2 → NoErrors s → s.cx.chunk.cells = [] → ∀ a, n = 0xFFFF * 2 ^ 48 + a → a % 64 = 0 → 2 ^ 40 ≤ a →
        a + 512 ≤ 2 ^ 40 + 2 ^ 33 → done attest fun t =>
          (∀ b, b < a + 32 ∨ a + 512 ≤ b → t.mem.byte b = s.mem.byte b) ∧
          t.mem.word (a + 0x20) = nat me ∧ t.mem.word (a + 0x28) = nat s.moduleId ∧ t.mem.word (a + 0x30) = 0 ∧
          t.mem.word (a + 0x38) = 0 ∧
          (∀ i < 32, t.mem.byte (a + 0x40 + i) = (s.vdev me).measurement.getD i 0) ∧
          (∀ i < 32, t.mem.byte (a + 0x60 + i) = 0) ∧
          ∃ k, ∀ i < 384, t.mem.byte (a + 0x80 + i) = (Config.signature (t.mem.bytes a 0x80) k).getD i 0) ∧
      (64 ≤ n → bad (.vdkey rd rs1 rs2)) ∧
      (n < 64 → done (.vdkey rd rs1 rs2) fun t => t.nextKey = s.nextKey + 1 ∧ t.mem = s.mem ∧
        t.vdev n = { s.vdev n with key := s.nextKey, measurement := List.replicate 32 0, quenched := false } ∧
        ∀ k, k ≠ n → t.vdev k = s.vdev k) ∧
      (¬win → bad (.wnew rd rs1 rs2) ∧ bad (.wgrant rd rs1 rs2) ∧ bad (.wrevoke rd rs1 rs2)) ∧
      (win → done (.wnew rd rs1 rs2) (fun t => t.mem = s.mem ∧ t.nextKey = s.nextKey + 1 ∧ ∃ g,
          Tab.look t.windows w = some g ∧ g.key = s.nextKey ∧ g.owner = v ∧ ∀ k < 64, g.grants.getLsbD k = decide (k = v)) ∧
        ∀ g, Tab.look s.windows w = some g →
          (done (.wgrant rd rs1 rs2) fun t => t.mem = s.mem ∧ ∃ h, Tab.look t.windows w = some h ∧ h.key = g.key ∧
            h.owner = g.owner ∧ h.count = g.count ∧ ∀ k < 64, h.grants.getLsbD k = (g.grants.getLsbD k || decide (k = v))) ∧
          (done (.wrevoke rd rs1 rs2) fun t => t.mem = s.mem ∧ ∃ h, Tab.look t.windows w = some h ∧ h.key = g.key ∧
            h.owner = g.owner ∧ h.count = g.count ∧
            ∀ k < 64, h.grants.getLsbD k = (g.grants.getLsbD k && (decide (k ≠ v) || decide (g.owner = v))))) ∧
      (128 ≤ n → bad (.quench rd rs1 rs2)) ∧
      (n < 128 → done (.quench rd rs1 rs2) fun t => t.mem = s.mem ∧ (∀ k < 64, (t.vdev k).quenched =
          ((s.vdev k).quenched || decide (k = n) || decide (64 ≤ n))) ∧
        (∀ k < 64, k = n ∨ 64 ≤ n → t.keyOf k = none ∧
          ∀ (p : Place) (h : Home), p.home = some h → h.owner = k → h.key ≠ s.hypKey → (∀ e ∈ s.windows, e.2.key ≠ h.key) →
            t.lineSt p = .erased) ∧
        ∀ k g, Tab.look s.windows k = some g → g.owner < 64 →
          Tab.look t.windows k = some (if g.owner = n ∨ 64 ≤ n then { g with key := 0 } else g)) ∧
      (let a := n % 2 ^ 19
       let b := n / 2 ^ 32 % 2 ^ 19
       let good : Prop := n / 2 ^ 19 % 2 ^ 13 = 0 ∧ n < 2 ^ 51
       (¬good → bad (.fmove rd rs1 rs2)) ∧
       (good → ∀ l, l / 2 ^ 15 = a → Tab.look s.lines l ≠ none → codeword (64 * l) ∈ s.uncorrectable → ∃ x : Trap,
         x.cause = .uncorr ∧ x.faddr = none ∧ exec (.fmove rd rs1 rs2) s = .next (s.takeTrap x s.regs.pc)) ∧
       (good → NoErrors s → s.mem.wf = true → (s.lines.map Prod.fst).Nodup → done (.fmove rd rs1 rs2) fun t =>
         (∀ o < 2 ^ 21, t.mem.byte (b * 2 ^ 21 + o) = s.mem.byte (a * 2 ^ 21 + o)) ∧
         (∀ o < 2 ^ 15, Tab.look t.lines (b * 2 ^ 15 + o) = Tab.look s.lines (a * 2 ^ 15 + o)) ∧
         (∀ c, c / 2 ^ 21 ≠ b → t.mem.byte c = s.mem.byte c) ∧
         ∀ c, c / 2 ^ 15 ≠ b → Tab.look t.lines c = Tab.look s.lines c)))

/-- R183, R250, R461, R462, R464: a write to CLOWN takes effect unless FAILED is set, a virtual device with a kernel
there would change, both are equal, BSPL is out of range or a slot entry names both. A core of the cluster then runs
the copy of the virtual device named, or holds one for each of the two; a copy that served it before is as it was, and
one that comes to it keeps its values (log 32). A write to IPEND clears the bits written 1. -/
def Sys2Proof.Claims.ClusterAssignmentAndInterrupts : Prop :=
  ∀ (s : State) (k : Nat) (x : Word), k < 2 ^ 15 →
    let old := (s.cluster k).clown.toNat
    let n := x.toNat
    let a := n % 2 ^ 6
    let b := n / 2 ^ 8 % 2 ^ 6
    let split := n / 2 ^ 16 % 2 ^ 5
    let va := x.getLsbD 6
    let vb := x.getLsbD 14
    let holds (v : Nat) : Prop := ∃ c, c / 8 = k ∧
      (((s.core c).bank.vdid = v ∧ (s.core c).bank.kst ≠ .absent) ∨
        ((s.core c).other.vdid = v ∧ (s.core c).other.kst ≠ .absent))
    let moved (lo v : Nat) : Prop := (s.cluster k).clown.getLsbD v = true ∧
      (old / 2 ^ lo % 2 ^ 6 ≠ n / 2 ^ lo % 2 ^ 6 ∨ x.getLsbD v = false) ∧ holds (old / 2 ^ lo % 2 ^ 6)
    let ignored : Prop := (s.cluster k).clown.getLsbD 31 = true ∨ moved 0 6 ∨ moved 8 14 ∨
      (va = true ∧ vb = true ∧ a = b) ∨ split < 4 ∨ 28 < split ∨
      (va = true ∧ vb = true ∧ ∃ e ∈ s.slotTab, e.2.getLsbD a = true ∧ e.2.getLsbD b = true)
    (ignored → exec (.clownWrite k x) s = .next s) ∧
    (¬ignored → ∃ t : State, exec (.clownWrite k x) s = .next t ∧ (t.cluster k).clown = x &&& 0x001F_7F7F ∧
      (∀ j, j ≠ k → t.cluster j = s.cluster j) ∧ t.mem = s.mem ∧ t.net = s.net ∧
      (∀ c, c / 8 ≠ k → t.core c = s.core c) ∧
      (va ≠ vb → ∀ c, c / 8 = k →
        let v := if va then a else b
        let x := s.core c
        (t.core c).bank = if x.bank.vdid = v then x.bank else if x.other.vdid = v then x.other
          else { x.bank with vdid := v }) ∧
      (va = true → vb = true → ∀ c, c / 8 = k →
        let x := s.core c
        let y := t.core c
        ((y.bank.vdid = a ∧ y.other.vdid = b) ∨ (y.bank.vdid = b ∧ y.other.vdid = a)) ∧
        ∀ v ∈ [a, b], x.bank.vdid = v ∨ x.other.vdid = v → y.copyOf v = x.copyOf v)) ∧
    ∀ c y, isControl c = true → exec (.ipendClear c y) s = .next (s.putCore c
      { s.core c with priv := { (s.core c).priv with ipend := (s.core c).priv.ipend &&& ~~~y } })

/-- HVCALL, ERET, WFI, VDSW and SLOTW; cluster assignment and interrupts. -/
def Obligations.HypervisorInstructionsAndClusters : Prop := HypervisorInstructions ∧ ClusterAssignmentAndInterrupts

/-! ### Pre-emption and the loader -/

/-- R172 to R174, R279: STOP marks a core; when it has run out its save record is written at SAVEB, in own or translated
memory, its contexts, queues and entries are emptied and the sender of STOP is told; START restores what the record then
holds, or refuses a record with a value that no save writes and reports it; a save halted by a store that traps, whatever
the trap (log 82), leaves a continuation record, and CONTINUE finishes it. Within a context image pc stands first and g1
to g31 behind it (log 20); START of a core without a complete save changes nothing (log 94). -/
def Obligations.SaveAndRestore : Prop :=
  ∀ (s : State) (c b : Nat),
    let x := s.core c
    let told (u t : State) : Prop := ∀ d k, x.stopBy = some (d, k) → ∃ m : Msg, t.net = u.net ++ [m] ∧ m.kind = .done ∧
      m.dst = d ∧ m.dmod = netMod s c k ∧ m.src = c ∧ m.payload = []
    let emptied (t : State) : Prop := (t.core c).saved = true ∧ (t.core c).stopped = true ∧
      (t.core c).saveHalt = none ∧
      (∀ i : Fin 4, (t.ctx c i).st = .free) ∧ (t.core c).qSys = [] ∧ (t.core c).qReply = [] ∧ (t.core c).qOrd = [] ∧
      (t.core c).qReq = [] ∧ ∀ n : Fin 32, ((t.core c).sendq[n]).st = .free
    let wrote (t : State) (k : Nat) (w : Word) : Prop := tcmAtCore t c (b + 8 * k) = w
    let asWas (t : State) : Prop := (t.core c).ctxs = x.ctxs ∧ t.mem = s.mem ∧ t.net = s.net
    let stays : Prop := x.stopped = true ∧ x.saved = false ∧ x.stopBy ≠ none ∧ RunOut s c ∧ Unforced s (c / 8) ∧
      (x.bank.kst = .active ∨ x.bank.kst = .faulted)
    let counts := x.qSys.length % 32 + x.qReply.length % 32 * 2 ^ 5 + x.qOrd.length % 32 * 2 ^ 10 +
      x.qReq.length % 32 * 2 ^ 15 + (x.sendq.toList.countP fun e => decide (e.st ≠ .free)) % 64 * 2 ^ 20 +
      x.since % 8 * 2 ^ 32
    (∀ m rest, ServiceHead s c 2 m rest → ∃ t : State, exec (.stop c) s = .next t ∧ (t.core c).svc = rest ∧
      (t.core c).stopped = true ∧ asWas t ∧ (x.stopped = false → (t.core c).stopBy = some (hdrCore m.w1, hdrMod m.w1))) ∧
    (SaveInTcm s c b → stays → x.saveHalt = none →
      ∃ t : State, exec (.saveRecordWrite c) s = .next t ∧ emptied t ∧ told s t ∧ wrote t 0 (nat counts) ∧
        (let flags := tcmAtCore t c (b + 8)
         (∀ n : Fin 32, flags.getLsbD n.val = decide ((x.sendq[n]).st = .refused)) ∧
         (∀ i : Fin 4, flags.getLsbD (32 + i.val) = decide ((s.ctx c i).st = .retained) ∧
           flags.getLsbD (36 + i.val) = decide ((s.ctx c i).st = .suspended))) ∧
        ∀ i : Fin 4, ((s.ctx c i).st = .retained → wrote t (8 + i.val) (s.ctx c i).succ) ∧
          wrote t (32 + 512 * i.val) (s.ctx c i).regs.pc ∧
          wrote t (32 + 512 * i.val + 256) (s.ctx c i).ckpt.pc ∧
          ∀ g : Fin 31, wrote t (33 + 512 * i.val + g.val) ((s.ctx c i).regs.g[g.val + 1])) ∧
    (¬(x.stopped = true ∧ RunOut s c) → exec (.saveRecordWrite c) s = .next s) ∧
    (∀ off f, SaveInTcm s c b → stays → x.saveHalt = some (off, f) → off % 8 = 0 → ∀ m rest, ServiceHead s c 4 m rest →
      ∃ t : State, exec (.continueSave c) s = .next t ∧ emptied t ∧ told s t ∧ (t.core c).svc = rest ∧
        (off = 0 → wrote t 0 (nat counts))) ∧
    (∀ r u, c < 2 ^ 18 → (s.cluster (c / 8)).shared = false → stays → x.saveHalt = none →
      State.devicePutWords { s with wrote := [] } c x.bank.saveb x.record = (r, u) →
      x.record.length = 0xA300 / 8 ∧ x.record.getD 0 0 = nat counts ∧
      ∃ t : State, exec (.saveRecordWrite c) s = .next t ∧
        (r = .ok () → emptied t ∧ told u t ∧ t.mem = u.mem) ∧
        ∀ e, r = .error e → (t.core c).saved = false ∧ (∀ i : Fin 4, (t.ctx c i).st = (s.ctx c i).st) ∧
          ∃ off, (t.core c).saveHalt = some (off, e.faddr.getD 0)) ∧
    (∀ saveb, c < 2 ^ 18 → Unshared s c → NoErrors s → stays → x.saveHalt = none →
      x.bank.saveb = nat saveb → saveb % 8 = 0 → 2 ^ 18 ≤ saveb → saveb < 2 ^ 20 →
      x.bank.emrgb = nat b → b % 64 = 0 → x.bank.kernel.cb * 8192 ≤ b → b + 2048 * (c % 8) + 64 ≤ 2 ^ 18 →
      ∃ t : State, exec (.saveRecordWrite c) s = .next t ∧ (t.core c).saveHalt = some (0, nat saveb) ∧
        (t.core c).saved = false ∧ tcmAtCore t c (b + 2048 * (c % 8)) = 0 ∧
        tcmAtCore t c (b + 2048 * (c % 8) + 8) = nat saveb) ∧
    (∀ kept m rest (word : Nat → Word), x.stopped = true → x.saved = true → x.bank.save = some kept → kept.asIs = false →
      ServiceHead s c 3 m rest → c < 2 ^ 18 → NoErrors s → x.bank.saveb = nat b → b < 2 ^ 64 →
      (SaveInTcm s c b ∧ ∀ k, word k = tcmAtCore s c (b + 8 * k)) ∨
        (∃ ws, (State.deviceGetWords { s with cores := Tab.put s.cores c { x with svc := rest } } c (nat b) (0xA300 / 8)).1 =
          .ok ws ∧ ∀ k, word k = ws.getD k 0) →
      (x.bank.qdep.toNat % 2 ^ 5 < (word 0).toNat % 2 ^ 5 → (word 0).toNat % 2 ^ 5 ≠ kept.qSys.length →
        ∃ t : State, exec (.start c) s = .next t ∧
        (t.core c).stopped = true ∧ (t.core c).ctxs = x.ctxs ∧
        ∀ d k, coreRef (x.bank.tsvc.toNat % 2 ^ 31) = some (d, k) → ∃ r : Msg, t.net = s.net ++ [r] ∧ r.kind = .report ∧
          r.dst = d ∧ r.dmod = netMod s c k ∧ r.payload = [nat (7 + 14 * 2 ^ 8), nat b, 0, nat c]) ∧
      (word 0 = 0 → (∀ n < 32, (word (0x8100 / 8 + 32 * n + 1)).toNat / 2 ^ 56 % 8 = 0) →
        (∀ n < 8, (word (0xA100 / 8 + 8 * n)).toNat % 2 ^ 8 = 0) →
        (∀ i : Fin 4, ∀ k ∈ [0, 256], (word (32 + 512 * i.val + k + 171)).toNat / 4 % 8 ≤ 4) →
        ∃ t : State, exec (.start c) s = .next t ∧ (t.core c).stopped = false ∧ (t.core c).svc = rest ∧
          (t.core c).qReq = [] ∧ t.mem = s.mem ∧ ∀ i : Fin 4,
            let flag (k : Nat) : Bool := (word 1).getLsbD (k + i.val)
            let y := t.ctx c i
            (flag 36 = true → y.st = .suspended ∧ y.anch = true ∧ y.regs.pc = pcAt 0 (word (32 + 512 * i.val)) ∧
              y.ckpt.pc = pcAt 0 (word (32 + 512 * i.val + 256)) ∧
              ∀ g : Fin 31, y.regs.g[g.val + 1] = word (33 + 512 * i.val + g.val)) ∧
            (flag 36 = false → flag 32 = true → y.st = .retained ∧ y.succ = word (8 + i.val)) ∧
            (flag 36 = false → flag 32 = false → y.st = .free))) ∧
    (∀ m rest, ServiceHead s c 3 m rest → x.saved = false → ∃ t : State, exec (.start c) s = .next t ∧
      (t.core c).svc = rest ∧ (t.core c).stopped = x.stopped ∧ asWas t)

/-- R200 to R209, R279: the loader's commands. A bad block or a rectangle of another virtual device ends at once,
before any core changes (that a DESC no multiple of 64 counts as a bad block is log 103); a LOAD of a good descriptor
makes every core of the rectangle ACTIVE with the registers, code, region image and zeroed scratch it gives, and
BADDESC, NOFIT and BUSY are told apart; UNLOAD makes the holders DRAINING, ends their queued and parked jobs CANCEL
(log 73), but no job that has started at the head of its queue, and kills what they have parked, CLEAR makes FAULTED
ones ACTIVE, and either is NOKID without a holder (logs 70, 71). -/
def Sys2Proof.Claims.LoaderCommands : Prop :=
  ∀ (s u : State) (v : Nat) (a : LoadCmd) (rest : List LoadCmd) (bs : List Word),
    let w (k : Nat) : Word := bs.getD k 0
    let op := (w 0).toNat % 2 ^ 8
    let i := if op = 1 then Instr.unload v else if op = 2 then Instr.clear v else Instr.load v
    let rect := rectCores (w 2)
    let kidc := (w 3).toNat % 2 ^ 16
    let who := a.asker v
    let only (t : State) : Prop := t.net = s.net ∧ ∀ d, isControl d = false → t.core d = s.core d
    let ends (z : State) (status : Nat) : Prop := ∃ t : State, exec i s = .next t ∧ Ended z t v a rest status ∧ only t
    let holds (d : Nat) : Prop := (s.core d).bank.vdid = v ∧ (s.core d).bank.kst ≠ .absent ∧
      (s.core d).bank.kid.toNat % 2 ^ 16 = kidc
    let plain : Prop := ∀ d ∈ rect, (s.cluster (d / 8)).shared = false ∧ (s.core d).bank.vdid = v ∧
      (s.core d).other.kst = .absent
    let head : Prop := op ≤ 2 ∧ (w 2).toNat < 2 ^ 32 ∧ w 5 = 0 ∧ w 6 = 0 ∧ (w 4).toNat < 2 ^ 16 ∧
      (op = 0 → (w 1).toNat % 64 = 0)
    NoErrors s → (∀ h, s.version h + 1 < 2 ^ 56) → isControl a.core = true → Command s v a rest bs u →
    (¬head → ends u 2) ∧ (head → s.rectOwned v (w 2) = false → ends u 5) ∧
    (op ≤ 2 → goodBlock s v bs → plain →
      (op ≠ 0 → (∀ d ∈ rect, ¬holds d) → ends u 6) ∧
      (op = 2 → (∃ d ∈ rect, holds d) → ∃ t : State, exec i s = .next t ∧ Ended u t v a rest 0 ∧ t.net = s.net ∧
        ∀ d ∈ rect, holds d → (t.bank d).kst = (if (s.bank d).kst = .faulted then .active else (s.bank d).kst)) ∧
      (op = 1 → (∃ d ∈ rect, holds d) → (∀ d ∈ rect, Unforced s (d / 8)) →
        ∃ t : State, exec i s = .next t ∧ (t.vdev v).loads = a :: rest ∧
        ∀ d ∈ rect, holds d → (t.bank d).kst = .draining ∧
          ((s.bank d).save = none → ∀ k : Fin 4,
            (s.ctx d k).st = .suspended ∨ (s.ctx d k).st = .retained → (t.ctx d k).st = .free) ∧
          ∀ n < 8, ((s.job d n).st = .queued → (s.job d n).gang = false → (∀ j, ¬HeadIs s d n j) →
              EndedWith s t d n 5 0 0) ∧
            ((s.job d n).st = .parked → (t.job d n).st = .ended ∧ (t.job d n).status.toNat % 2 ^ 8 = 5)) ∧
      (op = 0 → ∀ ds u1, u.deviceGetWordsAs who (w 1) 144 = (.ok ds, u1) →
        let need := descCb ds + descRb ds
        (descOk ds = false → ends u1 2) ∧
        (descOk ds = true → (∃ d ∈ rect, 32 < need + 4) → ends u1 3) ∧
        (descOk ds = true → need + 4 ≤ 32 → (∃ d ∈ rect, (s.bank d).kst ≠ .absent) → ends u1 1) ∧
        (descOk ds = true → need + 4 ≤ 32 → (∀ d ∈ rect, (s.bank d).kst = .absent) → ∀ code regions u2 u3,
          u1.readImage who (ds.getD 5 0) (descCodeSz ds) = (.ok code, u2) →
          u2.readImage who (ds.getD 7 0) (descRb ds * 8192) = (.ok regions, u3) →
          ∃ t : State, exec i s = .next t ∧ Ended u3 t v a rest 0 ∧ t.net = s.net ∧ ∀ d ∈ rect,
            let b := t.bank d
            let tcm (k : Nat) : Byte := t.mem.byte (2 ^ 41 + d * 2 ^ 18 + k)
            b.kst = .active ∧ b.kid = nat ((ds.getD 0 0).toNat % 2 ^ 16) ∧ b.hblo = ds.getD 1 0 ∧ b.hbhi = ds.getD 2 0 ∧
            b.qdep = (ds.getD 8 0 &&& 0x1F1F_1F1F) ∧ b.sqlim = (ds.getD 9 0 &&& 0x3F) ∧ b.gmem = 1 ∧
            b.p = List.replicate 4 (List.range 128) ∧ b.kernel.cb = descCb ds ∧
            (∀ k < descCodeSz ds, tcm k = code.getD k 0) ∧
            (∀ k < descRb ds * 8192, tcm ((32 - descRb ds) * 8192 + k) = regions.getD k 0) ∧
            ∀ k, descCb ds * 8192 ≤ k → k < (32 - descRb ds) * 8192 → tcm k = 0)))

/-- R207, R209, R279: a DRAINING core that has run out reaches ABSENT: the kernel's registers read 0, its queues are
empty, REFUSED and AWAIT entries are free, READY ones will have no verdict, and its queued requests are refused
NOKERNEL; the last core to drain ends the UNLOAD, DONE. -/
def Sys2Proof.Claims.DrainedCoresReachAbsent : Prop :=
  ∀ (s : State) (c v : Nat),
    let x := s.core c
    x.bank.kst = .draining → x.bank.vdid = v → x.bank.save = none → RunOut s c → s.blocks = [] →
    (∀ k : Fin 4, (s.ctx c k).st = .free) → (∀ n < 8, (s.job c n).st ≠ .parked) →
    ∃ t : State, exec (.kernelDrained c) s = .next t ∧
      (let b := t.bank c
       b.kst = .absent ∧ b.kid = 0 ∧ b.hblo = 0 ∧ b.hbhi = 0 ∧ b.qdep = 0 ∧ b.sqlim = 0 ∧ b.tsvc = 0 ∧ b.saveb = 0 ∧
         b.gmem = 0 ∧ b.lqb = 0 ∧ b.sidr = 0 ∧ b.h = Vector.replicate 16 0 ∧ b.tm = Vector.replicate 8 0) ∧
      (t.core c).qSys = [] ∧ (t.core c).qReply = [] ∧ (t.core c).qOrd = [] ∧ (t.core c).qReq = [] ∧
      (∀ n : Fin 32, (t.core c).sendq[n] =
        if (x.sendq[n]).st = .refused ∨ (x.sendq[n]).st = .await then Entry.free
        else if (x.sendq[n]).st = .ready then { x.sendq[n] with gone := true } else x.sendq[n]) ∧
      (∀ m ∈ x.qReq, m.kind = .task → m.cls = .request → m.src < 2 ^ 32 → ∀ n, m.entry = some n →
        ∃ r ∈ t.verdicts, r.core = m.src ∧ r.entry = n ∧ r.why = some 3) ∧
      ∀ a rest, (s.vdev v).loads = a :: rest → isControl a.core = true →
        let others : Prop := ∃ d, d ≠ c ∧ d / 8 ∈ s.clustersOf v ∧ ((s.core d).copyOf v).kst = .draining
        (others → (t.vdev v).loads = a :: rest) ∧
        (¬others → x.other.kst = .absent → (t.vdev v).loads = rest ∧
          ∀ p w, NoErrors s → (∀ h, s.version h + 1 < 2 ^ 56) →
            s.deviceFindAs (a.asker v) .store (a.block + 0x38) = (.ok p, w) → t.byteAt p = 0)

/-- The loader's commands load, unload and clear kernels, and drained cores reach ABSENT. -/
def Obligations.LoaderCommandsAndDrains : Prop := LoaderCommands ∧ DrainedCoresReachAbsent

/-! ### The module -/

/-- R479 to R482, R278: power-on and reset give the state of READY, or stop at the phase that fails: no core runs, and
memory is as it was up to phase 5 and zero at phase 6 (log 74). The host clears MCHK by writing 1; ICTL gives an
island its divider and ramp bounds; the governor's divider rises by 1 in every island above 24,000 W and falls below
22,000 W after a quiet millisecond, never under what FDIV asks for, and the power of the window is divided among the
islands; the matrix slots of a window keep within the ramp's bounds, and bounds written since act from the next
window; a divider that is written takes effect once. -/
def Obligations.PowerOnIslandsAndGovernor : Prop :=
  ∀ s : State,
    let isl (t : State) (i : Nat) : Island := Tab.get t.islands i Island.reset
    let only (t : State) (i : Nat) : Prop := (∀ k, k ≠ i → isl t k = isl s k) ∧ t.mem = s.mem ∧ t.cores = s.cores
    (∀ n, ∀ i ∈ [Instr.powerApplied n, .moduleReset n],
      (n = 0 ∨ 6 < n → exec i s = .next { State.reset with inputs := s.inputs, tick := s.tick, free := s.free }) ∧
      (1 ≤ n → n ≤ 6 → ∃ t : State, exec i s = .next t ∧ t.msts = { ready := false, phase := n, fail := n, mchk := false } ∧
        t.cores = [] ∧ t.vds = [] ∧ t.net = [] ∧ (n ≤ 5 → t.mem = s.mem) ∧ (n = 6 → t.mem = []))) ∧
    (∀ x, exec (.mstsWrite x) s =
      .next { s with msts := if x.getLsbD 8 then { s.msts with mchk := false } else s.msts }) ∧
    (∀ i x, (36 ≤ i → exec (.ictlWrite i x) s = .next s) ∧ (i < 36 → ∃ t : State, exec (.ictlWrite i x) s = .next t ∧
      only t i ∧ isl t i = { isl s i with
        fdiv := x.toNat % 2 ^ 4, fdivDue := (isl s i).fdivDue || decide (x.toNat % 2 ^ 4 ≠ (isl s i).fdiv)
        rise := nat (x.toNat / 2 ^ 16 % 2 ^ 16), fall := nat (x.toNat / 2 ^ 32 % 2 ^ 16) })) ∧
    (∀ i, (i < 36 ∧ (isl s i).fdivDue = true → ∃ t : State, exec (.fdivChange i) s = .next t ∧ only t i ∧
      isl t i = { isl s i with eff := min 12 (isl s i).fdiv, fdivDue := false }) ∧
      (¬(i < 36 ∧ (isl s i).fdivDue = true) → exec (.fdivChange i) s = .next s)) ∧
    (∀ watts quiet, watts < 2 ^ 32 → ∃ t : State, exec (.governorWindow watts quiet) s = .next t ∧ t.mem = s.mem ∧
      t.cores = s.cores ∧ ((List.range 36).map fun i => (isl t i).power.toNat).sum = watts ∧
      ∀ i < 32, (isl t i).fdiv = (isl s i).fdiv ∧ (isl t i).eff =
        if 24000 < watts then min 12 ((isl s i).eff + 1)
        else if watts < 22000 ∧ quiet = true ∧ min 12 (isl s i).fdiv < (isl s i).eff then (isl s i).eff - 1
        else (isl s i).eff) ∧
    (∀ i, i < 32 → ∃ t : State, exec (.rampWindow i) s = .next t ∧ only t i ∧
      (isl t i).slots ≤ (isl s i).slots + max 1 (isl s i).riseNow.toNat ∧
      (isl s i).slots ≤ (isl t i).slots + max 1 (isl s i).fallNow.toNat ∧
      (isl t i).riseNow = (isl s i).rise ∧ (isl t i).fallNow = (isl s i).fall)

/-- R29, R261, R380, R381, R469, R470, R483 to R486: a decode of a codeword corrects two errors, or one beside a
failed bank, without changing a value, and counts and reports them by bank, with the virtual device that owns the bank
(logs 77, 78); more are a machine check of the virtual device that owns the memory, or a codeword rewritten as zeros
where none does, and one that no read has met yet stays for the next access. A bank that fails its self-test is
reported; an alarm is reported and quenches by its virtual device's policy, and an unattributed one quenches all; a
failed core takes its cluster out of the partition map, and the product its array runs ends FAULT UNCORR; a counter
node's write-back raises its parent's counter, the place of the node being the event's (log 80). -/
def Obligations.ErrorsAlarmsAndFailures : Prop :=
  ∀ (s : State) (g o : Nat),
    let v0 := (s.cluster (g / 8)).vds
    let owner (b : Nat) : Nat := if v0.length = 2 ∧ (s.cluster (g / 8)).clown.toNat / 2 ^ 16 % 2 ^ 5 ≤ b ∧ b < 32
      then v0.getD 1 0xFF else v0.headD 0xFF
    let report (t : State) (cls mem addr owner : Nat) : Prop := Reported s t [nat (cls + mem * 256), nat addr, nat owner]
    let checked (t : State) (v : Nat) : Prop := t.msts.mchk = true ∧ (t.vdev v).switchedIn = false ∧
      (∀ i, (Tab.get t.slotTab i 0).getLsbD v = false) ∧
      ∀ c, c / 8 ∈ s.clustersOf v → (s.bank c).vdid = v → (t.core c).stopped = true
    let quenched (t : State) (p : Nat → Prop) : Prop := t.mem = s.mem ∧
      ∀ v < 64, (t.vdev v).quenched = true ↔ (s.vdev v).quenched = true ∨ p v
    let tooMany (e : Nat) : Prop := (if s.failedIn g = 0 then 2 else if s.failedIn g = 1 then 1 else 0) <
      (List.range 36).countP fun b => e.testBit b && !s.failedBanks.contains (g, b)
    (∀ e, (∀ b < 36, e.testBit b = true → (g, b) ∈ s.failedBanks) → exec (.scrub g o e) s = .next s) ∧
    (∀ b, b < 36 → g < 2 ^ 18 → s.failedIn g ≤ 1 → (g, b) ∉ s.failedBanks → o < 8192 →
      Tab.look s.corrected (g * 64 + b) = none →
      ∃ t : State, exec (.scrub g o (2 ^ b)) s = .next t ∧ t.mem = s.mem ∧ t.uncorrectable = s.uncorrectable ∧
        report t 1 1 g (owner b)) ∧
    (∀ b b', b < b' → b' < 36 → g < 2 ^ 18 → s.failedIn g = 0 → o < 8192 → Tab.look s.corrected (g * 64 + b) = none →
      Tab.look s.corrected (g * 64 + b') = none → ∃ t : State, exec (.scrub g o (2 ^ b + 2 ^ b')) s = .next t ∧
        t.mem = s.mem ∧ t.uncorrectable = s.uncorrectable ∧ t.failedBanks = s.failedBanks ∧ t.msts = s.msts ∧
        ∀ c m, coreRef (s.hrpt.toNat % 2 ^ 31) = some (c, m) → ∃ q r : Msg, t.net = s.net ++ [q, r] ∧
          q.payload = [nat (1 + 1 * 256), nat g, nat (owner b)] ∧ r.payload = [nat (1 + 1 * 256), nat g, nat (owner b')] ∧
          ∀ x ∈ [q, r], x.kind = .report ∧ x.dst = c) ∧
    (∀ e, tooMany e → e.testBit 36 = true → exec (.scrub g o e) s = .next
      { s with uncorrectable := (g, o) :: s.uncorrectable.filter fun x => decide (x ≠ (g, o)) }) ∧
    (∀ e, g < 2 ^ 18 → o < 8192 → tooMany e → e.testBit 36 = false →
      (∀ v, v0 = [v] → v < 64 → ∃ t : State, exec (.scrub g o e) s = .next t ∧ (g, o) ∈ t.uncorrectable ∧ t.mem = s.mem ∧
        checked t v ∧ report t 2 1 g v) ∧
      (v0 = [] → ∃ t : State, exec (.scrub g o e) s = .next t ∧ (g, o) ∉ t.uncorrectable ∧
        t.msts = s.msts ∧ report t 2 1 g 0xFF ∧
        (∀ b < 32, t.mem.byte (2 ^ 41 + g * 2 ^ 18 + b * 8192 + o) = 0) ∧
        ∀ a, (∀ b < 32, a ≠ 2 ^ 41 + g * 2 ^ 18 + b * 8192 + o) → t.mem.byte a = s.mem.byte a)) ∧
    (∀ b, b < 36 → g < 2 ^ 18 →
      ((g, b) ∈ s.failedBanks → exec (.bankSelfTestFail g b) s = .next s) ∧
      ((g, b) ∉ s.failedBanks → s.failedIn g = 0 → Tab.look s.corrected (g * 64 + b) = none → ∃ t : State,
        exec (.bankSelfTestFail g b) s = .next t ∧ t.failedBanks = s.failedBanks ++ [(g, b)] ∧ t.mem = s.mem ∧
        t.msts = s.msts ∧ report t 3 1 g (owner b)) ∧
      ((g, b) ∉ s.failedBanks → 1 ≤ s.failedIn g → ∀ v, v0 = [v] → v < 64 → ∃ t : State,
        exec (.bankSelfTestFail g b) s = .next t ∧ (g, b) ∈ t.failedBanks ∧ checked t v)) ∧
    (∃ t : State, exec .tamperSensor s = .next t ∧ quenched t (fun _ => True) ∧ Reported s t [4, 0xFF, 0]) ∧
    (∀ v < 64, ∃ t : State, exec (.measurementCheckFail v) s = .next t ∧ Reported s t [3, nat v, 0] ∧
      let policy := (s.vdev v).apol.toNat % 4
      quenched t fun k => if policy = 0 then False else if policy = 1 then k = v else True) ∧
    (∀ c, c < 2 ^ 18 → (∀ k, Unforced s k) → ∃ t : State, exec (.coreFailure c) s = .next t ∧ (t.core c).failed = true ∧
      (t.cluster (c / 8)).clown.getLsbD 31 = true ∧ (t.cluster (c / 8)).vds = [] ∧
      (∀ k, k ≠ c / 8 → t.cluster k = s.cluster k) ∧
      ∀ (slot : Nat → Nat) (job : Nat → Job), (s.cluster (c / 8)).split = false →
        (∀ i < 8, HeadIs s (c / 8 * 8 + i) (slot i) (job i) ∧ (job i).kind = 0 ∧ (job i).st = .running ∧
          (job i).paired = false) → ∀ i < 8, EndedWith s t (c / 8 * 8 + i) (slot i) 4 0x11 0) ∧
    ∀ key level node, 1 ≤ level → level ≤ 11 → node < 2 ^ (34 - 3 * level) →
      let count (t : State) : Nat := ((t.counters.find? fun e => decide (e.1 = (key, level, node))).map Prod.snd).getD 0
      (key = s.hypKey ∨ s.keyOwner key ≠ none → count s + 1 < 2 ^ 56 → ∃ t : State,
        exec (.counterNodeWriteBack key level node) s = .next t ∧ count t = count s + 1 ∧ t.mem = s.mem) ∧
      (key ≠ s.hypKey → s.keyOwner key = none → exec (.counterNodeWriteBack key level node) s = .next s)

/-! ### Fetch, decode, step -/

/-- R56, R58, R80, R82, R122: the fetch from the code region of the core's own TCM gives one halfword, or two where bits
15:14 of the first are 11; outside it the fetch traps PERM at the halfword that fails, and UNCORR where a
codeword of the line of 64 bytes cannot be corrected. The trap has FPC the address of
the first halfword, and an encoding that is none traps ILLEGAL with the encoding in FADDR. -/
def Obligations.FetchingAndItsTraps : Prop :=
  ∀ s : State,
    let pc := s.regs.pc
    let n := pc.toNat
    let code := s.me.bank.kernel.cb * 8192
    let at_ (k : Nat) : Byte := s.mem.byte (2 ^ 41 + s.focus.1 * 2 ^ 18 + n + k)
    let long : Prop := 192 ≤ (at_ 1).toNat
    (OnFabric s → NoErrors s → code ≤ 2 ^ 18 → n % 2 = 0 →
      (n + 2 ≤ code → ¬long → (s.fetch).1 = .bytes [at_ 0, at_ 1]) ∧
      (n + 4 ≤ code → long → (s.fetch).1 = .bytes [at_ 0, at_ 1, at_ 2, at_ 3]) ∧
      (n + 2 = code → long → exec (.fetchFault true) s = .next (s.takeTrap (Trap.at_ .perm 0 (pc + 2)) pc)) ∧
      (code ≤ n → n < 2 ^ 32 ∨ 2 ^ 48 ≤ n → exec (.fetchFault false) s = .next (s.takeTrap (Trap.at_ .perm 0 pc) pc))) ∧
    (OnFabric s → code ≤ 2 ^ 18 → n % 2 = 0 → n + 2 ≤ code →
      (∃ b < 64, codeword (2 ^ 41 + s.focus.1 * 2 ^ 18 + n / 64 * 64 + b) ∈ s.uncorrectable) →
      ∃ x : Trap, x.cause = .uncorr ∧ x.faddr = some pc ∧ exec (.fetchFault false) s = .next (s.takeTrap x pc)) ∧
    (∀ b bs, (s.fetch).1 = .bytes bs → exec (.fetchFault b) s = .next s) ∧
    (∀ b f t, s.fetch = (.fault b f, t) → exec (.fetchFault b) s = .next (t.takeTrap f pc) ∧
      exec (.fetchFault !b) s = .next t) ∧
    ∀ w : BitVec 32, Traps (.illegalEncoding w false) s .illegal 0 (nat w.toNat) ∧
      Traps (.illegalEncoding w true) s .illegal 0 (nat (w.toNat % 2 ^ 16))

/-- R145, R479: a step takes the next turn of the schedule, or the core in focus where there is none. The context whose
turn it is fetches; bytes that decode to an instruction run exactly it, by its row where an operand picks the row;
other bytes run ILLEGAL_ENCODING, a failing fetch FETCH_FAULT; a core with nothing READY runs the next of the device's
chores, if any, and an event of the schedule runs as it stands. A module that is not READY runs nothing but its start.
(The schedule is the model's own, log 5.) SLOTW and KEYOP pick their row by rs1 (R476, R477; log 7). -/
def Obligations.StepRunsTheDecodedInstruction : Prop :=
  ∀ s : State,
    let u (rest : List Turn) : State := { s with tick := s.tick + 1, inputs := rest }
    let issues (c : Nat) (v : State) : Prop :=
      (∀ i, v.nextReady c = some i →
        let d := v.dispatch c i
        d.focus = (c, i) ∧ d.mem = v.mem ∧ d.regs = (v.ctx c i).regs ∧
        (∀ bs t j len, d.fetch = (.bytes bs, t) → decode bs = .instr j len → step s = exec (t.row j) t) ∧
        (∀ bs t w b, d.fetch = (.bytes bs, t) → decode bs = .illegal w b → step s = exec (.illegalEncoding w b) t) ∧
        (∀ b f t, d.fetch = (.fault b f, t) → step s = exec (.fetchFault b) d)) ∧
      (v.nextReady c = none → (∀ i, v.agenda c = some i → step s = exec i v) ∧ (v.agenda c = none → step s = .next v))
    (s.msts.ready = true →
      (s.inputs = [] → issues s.focus.1 (u [])) ∧
      (∀ c rest, s.inputs = .issue c :: rest → issues c (u rest)) ∧
      ∀ i rest, s.inputs = .event i :: rest → encode i = .event → step s = exec i (u rest)) ∧
    (s.msts.ready = false →
      (s.inputs = [] → step s = .fault .notReady) ∧
      (∀ c rest, s.inputs = .issue c :: rest → step s = .next (u rest)) ∧
      (∀ i rest, s.inputs = .event i :: rest → (∃ n x, i = .powerApplied n ∨ i = .moduleReset n ∨ i = .mstsWrite x) →
        step s = exec i (u rest))) ∧
    ∀ rd a b,
      let x := (s.regs.get a).toNat
      s.row (.slotwEntry rd a b) = (if x / 2 ^ 8 % 4 = 1 then .slotwPeriod rd a b
        else if x / 2 ^ 8 % 4 = 2 then .slotwLen rd a b else .slotwEntry rd a b) ∧
      s.row (.mext rd a b) = (if x = 1 then .attest rd a b else if x = 2 then .vdkey rd a b else if x = 3 then .wnew rd a b
        else if x = 4 then .wgrant rd a b else if x = 5 then .wrevoke rd a b else if x = 6 then .quench rd a b
        else if x = 7 then .fmove rd a b else .mext rd a b)

/-- R11, R479: at READY the hypervisor runs at level 2 on control core 0, no kernel is loaded, every byte of memory is 0,
and the slot table has LEN 1 with entry 0 = 0. (The entry address and the first control core's number are
constants of the model, log 4.) -/
def Sys2Proof.Claims.ResetIsTheModuleAtReady : Prop :=
  let s := State.reset
  let c := controlCore Config.firstControlCore
  s.msts = { ready := true, phase := 6, fail := 0, mchk := false } ∧ s.slotLen = 1 ∧ Tab.get s.slotTab 0 0 = 0 ∧
  (∀ a, s.mem.byte a = 0) ∧ (∀ d, (s.bank d).kst = .absent) ∧
  (s.ctx c 0).st = .ready ∧ (s.ctx c 0).regs.pc = Config.hypervisorEntry ∧ (s.core c).priv.cprv = 2 ∧
  (∀ d (i : Fin 4), (d, i) ≠ (c, 0) → (s.ctx d i).st = .free) ∧
  ∀ k, (s.cluster k).clown = 0x0010_0000 ∧ ∀ e, Tab.get (s.cluster k).perm e 0 = 0

/-! ### Encodings -/

/-- R56 to R68, R76: decoding the encoding of any well-formed instruction gives it back with its length; where rows of
the table share their words, it gives the row that an operand's value then refines. -/
def Obligations.DecodingGivesEncodingsBack : Prop :=
  ∀ i : Instr, WellFormed i = true → encode i ≠ .event →
    decode (encode i).bytes = .instr (Laws.tableRow i) (encode i).bytes.length

/-- R64, R76 to R80: every word has one meaning. What the decoder accepts is well formed, and its encoding is the very
bytes read, so no bit of a word is ignored and no two words are one instruction; it looks at no byte behind them. -/
def Sys2Proof.Claims.WordsHaveOneMeaning : Prop :=
  ∀ (bs : List Byte) (i : Instr) (n : Nat), decode bs = .instr i n →
    WellFormed i = true ∧ (encode i).bytes = bs.take n ∧ (n = 2 ∨ n = 4) ∧ ∀ rest, decode (bs.take n ++ rest) = .instr i n

/-- R56, R66, R67, R80: the halfword 0, majors 0x00 and 0x24 to 0x3F, op4 0 and op3 6 and 7 of the compact groups are no
instruction. -/
def Sys2Proof.Claims.ReservedEncodingsAreRefused : Prop :=
  (∀ w : BitVec 32, w.toNat / 2 ^ 14 % 4 = 3 → (w.toNat / 2 ^ 8 % 2 ^ 6 = 0 ∨ 0x24 ≤ w.toNat / 2 ^ 8 % 2 ^ 6) →
    decode (toBytes 4 w.toNat) = .illegal w false) ∧
  (∀ h : BitVec 16, h.toNat / 2 ^ 10 = 0 ∨ 14 ≤ h.toNat / 2 ^ 11 ∧ h.toNat / 2 ^ 11 < 16 →
    decode (toBytes 2 h.toNat) = .illegal (h.setWidth 32) true)

/-- Every word has at most one meaning, and reserved words have none. -/
def Obligations.EveryWordHasOneMeaning : Prop := WordsHaveOneMeaning ∧ ReservedEncodingsAreRefused

/-- R66 to R68, R154, R176, R342, R370, R475: words that the spec writes out decode to the instructions it writes beside
them (t0 is g13, a0 g5, a1 g6). -/
def Obligations.SpecWordsDecode : Prop :=
  decodeTableWord 16 0x8282 = some (.lwC 1 2 2) ∧ decodeTableWord 16 0x5CFC = some (.bnezC 4 0xFC) ∧
  decodeTableWord 32 0x010AC689 = some (.lw 9 10 8) ∧ decodeTableWord 16 0x3800 = some .haltC ∧
  decodeTableWord 32 0x000DCD20 = some (.haltr 13) ∧ decodeTableWord 32 0x0000CDAD = some (.budgq 13) ∧
  decodeTableWord 32 0x00C5CE0D = some (.send 13 5 6) ∧ decodeTableWord 32 0x00C5E10D = some (.tlbi 13 5 6) ∧
  decodeTableWord 32 0x00C5D00D = some (.aadd 13 5 6) ∧ decodeTableWord 32 0x0000E380 = some .eret

/-! ### What every step keeps -/

/-- The memory keeps its canonical form: addresses strictly rising, no byte listed that reads as an unlisted one does.
(A property of the model's memory; the spec gives memory a value at every address, R24, R479.) -/
def Obligations.StepKeepsMemoryCanonical : Prop :=
  ∀ s t : State, s.mem.wf = true → step s = .next t → t.mem.wf = true

/-- R10, R460, R461, R476: through every step a control core's level is 0, 1 or 2, LEN stays in 1 to 256 and PERIOD at
16,000 or more, and the reserved bits of HRPT and MODW stay zero. -/
def Obligations.StepKeepsRegistersInRange : Prop :=
  ∀ s t : State, RegistersInRange s → step s = .next t → RegistersInRange t

/-- The state at READY has both invariants. -/
def Sys2Proof.Claims.ResetInvariants : Prop :=
  State.reset.mem.wf = true ∧ RegistersInRange State.reset

/-- The state at READY is as the spec says, and has the invariants. -/
def Obligations.ResetHasTheInvariants : Prop := ResetIsTheModuleAtReady ∧ ResetInvariants

end
end

