-- ==== Sys2Proof/Laws/Tables.lean ====
section
/-! SUPPORT. Laws of the tables and of memory by byte: a read after a write, and the canonical form that every write
keeps. -/

namespace Sys2Proof.Machine

/-! ### Tables -/

@[simp] theorem Tab.look_put_self {α : Type} (t : Tab α) (k : Nat) (x : α) : Tab.look (Tab.put t k x) k = some x := by
  induction t with
  | nil => simp [Tab.put, Tab.look]
  | cons e t ih =>
    obtain ⟨a, b⟩ := e
    unfold Tab.put
    split
    · simp [Tab.look]
    · split
      · simp [Tab.look]
      · rename_i h
        simp [Tab.look, h, ih]

@[simp] theorem Tab.look_put_other {α : Type} (t : Tab α) (k j : Nat) (x : α) (h : j ≠ k) :
    Tab.look (Tab.put t k x) j = Tab.look t j := by
  induction t with
  | nil => simp [Tab.put, Tab.look, h]
  | cons e t ih =>
    obtain ⟨a, b⟩ := e
    unfold Tab.put
    split
    · simp [Tab.look, h]
    · split
      · rename_i hk
        have : j ≠ a := hk ▸ h
        simp [Tab.look, h, this]
      · simp only [Tab.look, ih]

@[simp] theorem Tab.get_put_self {α : Type} (t : Tab α) (k : Nat) (x d : α) : Tab.get (Tab.put t k x) k d = x := by
  simp [Tab.get]

@[simp] theorem Tab.get_put_other {α : Type} (t : Tab α) (k j : Nat) (x d : α) (h : j ≠ k) :
    Tab.get (Tab.put t k x) j d = Tab.get t j d := by
  simp [Tab.get, h]

/-- Of two writes to a key only the second counts. -/
@[simp] theorem Tab.put_put {α : Type} (t : Tab α) (k : Nat) (x y : α) : Tab.put (Tab.put t k x) k y = Tab.put t k y := by
  induction t with
  | nil => simp [Tab.put]
  | cons e t ih =>
    obtain ⟨a, b⟩ := e
    by_cases h1 : k < a
    · simp [Tab.put, h1]
    · by_cases h2 : k = a
      · subst h2
        simp [Tab.put]
      · simp [Tab.put, h1, h2, ih]

@[simp] theorem Tab.look_drop_self {α : Type} (t : Tab α) (k : Nat) : Tab.look (Tab.drop t k) k = none := by
  induction t with
  | nil => rfl
  | cons e t ih =>
    obtain ⟨a, b⟩ := e
    by_cases h : k = a
    · subst h
      simpa [Tab.drop] using ih
    · simp [Tab.drop, Tab.look, h, ih]

@[simp] theorem Tab.look_drop_other {α : Type} (t : Tab α) (k j : Nat) (h : j ≠ k) :
    Tab.look (Tab.drop t k) j = Tab.look t j := by
  induction t with
  | nil => rfl
  | cons e t ih =>
    obtain ⟨a, b⟩ := e
    by_cases hk : k = a
    · subst hk
      simp [Tab.drop, Tab.look, h, ih]
    · simp [Tab.drop, Tab.look, hk, ih]

/-! ### Memory by byte -/

@[simp] theorem Memory.byte_nil (a : Nat) : Memory.byte [] a = 0 := rfl

@[simp] theorem Memory.byte_put_self (m : Memory) (a : Nat) (b : Byte) : (m.put a b).byte a = b := by
  unfold Memory.byte Memory.put
  split
  · rename_i h
    simp [Tab.get, h]
  · simp

@[simp] theorem Memory.byte_put_other (m : Memory) (a c : Nat) (b : Byte) (h : c ≠ a) : (m.put a b).byte c = m.byte c := by
  unfold Memory.byte Memory.put
  split <;> simp [Tab.get, h]

/-- Writing cells in turn leaves every other byte alone. -/
theorem Memory.byte_fold_other (cells : List (Nat × Byte)) (m : Memory) (c : Nat) (h : ∀ e ∈ cells, c ≠ e.1) :
    (cells.foldl (fun m e => m.put e.1 e.2) m : Memory).byte c = m.byte c := by
  induction cells generalizing m with
  | nil => rfl
  | cons e cells ih =>
    rw [List.foldl_cons, ih _ fun x hx => h x (List.mem_cons_of_mem _ hx)]
    exact Memory.byte_put_other m e.1 c e.2 (h e List.mem_cons_self)

/-! ### The canonical form -/

theorem Memory.wfFrom_mono {lo hi : Nat} (h : lo ≤ hi) : ∀ m : Memory, Memory.wfFrom hi m = true → Memory.wfFrom lo m = true
  | [], _ => rfl
  | (a, b) :: m, hm => by
    simp only [Memory.wfFrom, Bool.and_eq_true, decide_eq_true_eq] at hm ⊢
    exact ⟨⟨by omega, hm.1.2⟩, hm.2⟩

theorem Memory.wfFrom_drop (x : Nat) : ∀ (lo : Nat) (m : Memory), Memory.wfFrom lo m = true →
    Memory.wfFrom lo (Tab.drop m x) = true
  | _, [], _ => rfl
  | lo, (a, b) :: m, hm => by
    simp only [Memory.wfFrom, Bool.and_eq_true, decide_eq_true_eq] at hm
    unfold Tab.drop
    split
    · exact Memory.wfFrom_mono (by omega) _ (Memory.wfFrom_drop x (a + 1) m hm.2)
    · simp only [Memory.wfFrom, Bool.and_eq_true, decide_eq_true_eq]
      exact ⟨hm.1, Memory.wfFrom_drop x (a + 1) m hm.2⟩

theorem Memory.wfFrom_put (x : Nat) (y : Byte) (hy : y ≠ 0) : ∀ (lo : Nat) (m : Memory), lo ≤ x →
    Memory.wfFrom lo m = true → Memory.wfFrom lo (Tab.put m x y) = true
  | lo, [], hlo, _ => by
    simp only [Tab.put, Memory.wfFrom, Bool.and_eq_true, decide_eq_true_eq, bne_iff_ne]
    exact ⟨⟨hlo, hy⟩, trivial⟩
  | lo, (a, b) :: m, hlo, hm => by
    simp only [Memory.wfFrom, Bool.and_eq_true, decide_eq_true_eq, bne_iff_ne] at hm
    unfold Tab.put
    split
    · simp only [Memory.wfFrom, Bool.and_eq_true, decide_eq_true_eq, bne_iff_ne]
      exact ⟨⟨hlo, hy⟩, ⟨by omega, hm.1.2⟩, hm.2⟩
    · split
      · rename_i h
        subst h
        simp only [Memory.wfFrom, Bool.and_eq_true, decide_eq_true_eq, bne_iff_ne]
        exact ⟨⟨hlo, hy⟩, hm.2⟩
      · simp only [Memory.wfFrom, Bool.and_eq_true, decide_eq_true_eq, bne_iff_ne]
        exact ⟨hm.1, Memory.wfFrom_put x y hy (a + 1) m (by omega) hm.2⟩

/-- Writing a byte keeps the canonical form. -/
theorem Memory.wf_put (m : Memory) (a : Nat) (b : Byte) (h : m.wf = true) : (m.put a b).wf = true := by
  unfold Memory.put
  split
  · exact Memory.wfFrom_drop a 0 m h
  · exact Memory.wfFrom_put a b ‹_› 0 m (Nat.zero_le a) h

/-- Writing cells in turn keeps the canonical form. -/
theorem Memory.wf_fold (cells : List (Nat × Byte)) (m : Memory) (h : m.wf = true) :
    (cells.foldl (fun m e => m.put e.1 e.2) m : Memory).wf = true := by
  induction cells generalizing m with
  | nil => exact h
  | cons e cells ih => exact ih _ (m.wf_put e.1 e.2 h)

/-- Writing bytes from an address upward keeps the canonical form. -/
theorem Memory.wf_putAll (bs : List Byte) (m : Memory) (a : Nat) (h : m.wf = true) : (m.putAll a bs).wf = true := by
  induction bs generalizing m a with
  | nil => exact h
  | cons b bs ih => exact ih _ _ (m.wf_put a b h)

/-- Taking cells away keeps the canonical form. -/
theorem Memory.wfFrom_filter (p : Nat × Byte → Bool) : ∀ (lo : Nat) (m : Memory), Memory.wfFrom lo m = true →
    Memory.wfFrom lo (m.filter p) = true
  | _, [], _ => rfl
  | lo, (a, b) :: m, hm => by
    simp only [Memory.wfFrom, Bool.and_eq_true, decide_eq_true_eq] at hm
    rw [List.filter_cons]
    split
    · simp only [Memory.wfFrom, Bool.and_eq_true, decide_eq_true_eq]
      exact ⟨hm.1, Memory.wfFrom_filter p (a + 1) m hm.2⟩
    · exact Memory.wfFrom_mono (by omega) _ (Memory.wfFrom_filter p (a + 1) m hm.2)

theorem Memory.wf_filter (p : Nat × Byte → Bool) (m : Memory) (h : m.wf = true) : Memory.wf (m.filter p) = true :=
  Memory.wfFrom_filter p 0 m h

/-! ### Bytes (R7) -/

@[simp] theorem toBytes_length (n x : Nat) : (toBytes n x).length = n := by
  induction n generalizing x with
  | zero => rfl
  | succ n ih => simp [toBytes, ih]

/-- n bytes of a number are the number modulo 2^(8n). -/
theorem ofBytes_toBytes (n x : Nat) : ofBytes (toBytes n x) = x % 256 ^ n := by
  induction n generalizing x with
  | zero => simp [toBytes, ofBytes, Nat.mod_one]
  | succ n ih =>
    have h : 256 ^ (n + 1) = 256 * 256 ^ n := by ring
    simp only [toBytes, ofBytes, ih, BitVec.toNat_ofNat, h, Nat.mod_mul]

end Sys2Proof.Machine
end

