-- ==== Sys2Proof/Laws/State.lean ====
section
/-! SUPPORT. Laws of the state record: each field after each of the named updates, and the registers of the executing
context after a write to one of them (R69, R70). -/

set_option Elab.async false

namespace Sys2Proof.Machine

/-! ### One lemma a field for each update of a table of the state -/

@[simp] theorem State.putCore_inputs (s : State) (c : Nat) (x : Core) : (s.putCore c x).inputs = s.inputs := rfl
@[simp] theorem State.putCore_focus (s : State) (c : Nat) (x : Core) : (s.putCore c x).focus = s.focus := rfl
@[simp] theorem State.putCore_tick (s : State) (c : Nat) (x : Core) : (s.putCore c x).tick = s.tick := rfl
@[simp] theorem State.putCore_free (s : State) (c : Nat) (x : Core) : (s.putCore c x).free = s.free := rfl
@[simp] theorem State.putCore_msts (s : State) (c : Nat) (x : Core) : (s.putCore c x).msts = s.msts := rfl
@[simp] theorem State.putCore_mem (s : State) (c : Nat) (x : Core) : (s.putCore c x).mem = s.mem := rfl
@[simp] theorem State.putCore_lines (s : State) (c : Nat) (x : Core) : (s.putCore c x).lines = s.lines := rfl
@[simp] theorem State.putCore_counters (s : State) (c : Nat) (x : Core) : (s.putCore c x).counters = s.counters := rfl
@[simp] theorem State.putCore_nextKey (s : State) (c : Nat) (x : Core) : (s.putCore c x).nextKey = s.nextKey := rfl
@[simp] theorem State.putCore_hypKey (s : State) (c : Nat) (x : Core) : (s.putCore c x).hypKey = s.hypKey := rfl
@[simp] theorem State.putCore_hist (s : State) (c : Nat) (x : Core) : (s.putCore c x).hist = s.hist := rfl
@[simp] theorem State.putCore_performed (s : State) (c : Nat) (x : Core) : (s.putCore c x).performed = s.performed := rfl
@[simp] theorem State.putCore_walked (s : State) (c : Nat) (x : Core) : (s.putCore c x).walked = s.walked := rfl
@[simp] theorem State.putCore_clusters (s : State) (c : Nat) (x : Core) : (s.putCore c x).clusters = s.clusters := rfl
@[simp] theorem State.putCore_blocks (s : State) (c : Nat) (x : Core) : (s.putCore c x).blocks = s.blocks := rfl
@[simp] theorem State.putCore_releasing (s : State) (c : Nat) (x : Core) : (s.putCore c x).releasing = s.releasing := rfl
@[simp] theorem State.putCore_vds (s : State) (c : Nat) (x : Core) : (s.putCore c x).vds = s.vds := rfl
@[simp] theorem State.putCore_windows (s : State) (c : Nat) (x : Core) : (s.putCore c x).windows = s.windows := rfl
@[simp] theorem State.putCore_net (s : State) (c : Nat) (x : Core) : (s.putCore c x).net = s.net := rfl
@[simp] theorem State.putCore_verdicts (s : State) (c : Nat) (x : Core) : (s.putCore c x).verdicts = s.verdicts := rfl
@[simp] theorem State.putCore_links (s : State) (c : Nat) (x : Core) : (s.putCore c x).links = s.links := rfl
@[simp] theorem State.putCore_ports (s : State) (c : Nat) (x : Core) : (s.putCore c x).ports = s.ports := rfl
@[simp] theorem State.putCore_pctb (s : State) (c : Nat) (x : Core) : (s.putCore c x).pctb = s.pctb := rfl
@[simp] theorem State.putCore_portCtxs (s : State) (c : Nat) (x : Core) : (s.putCore c x).portCtxs = s.portCtxs := rfl
@[simp] theorem State.putCore_queues (s : State) (c : Nat) (x : Core) : (s.putCore c x).queues = s.queues := rfl
@[simp] theorem State.putCore_portStops (s : State) (c : Nat) (x : Core) : (s.putCore c x).portStops = s.portStops := rfl
@[simp] theorem State.putCore_rsets (s : State) (c : Nat) (x : Core) : (s.putCore c x).rsets = s.rsets := rfl
@[simp] theorem State.putCore_drains (s : State) (c : Nat) (x : Core) : (s.putCore c x).drains = s.drains := rfl
@[simp] theorem State.putCore_rings (s : State) (c : Nat) (x : Core) : (s.putCore c x).rings = s.rings := rfl
@[simp] theorem State.putCore_islands (s : State) (c : Nat) (x : Core) : (s.putCore c x).islands = s.islands := rfl
@[simp] theorem State.putCore_hrpt (s : State) (c : Nat) (x : Core) : (s.putCore c x).hrpt = s.hrpt := rfl
@[simp] theorem State.putCore_modw (s : State) (c : Nat) (x : Core) : (s.putCore c x).modw = s.modw := rfl
@[simp] theorem State.putCore_slotTab (s : State) (c : Nat) (x : Core) : (s.putCore c x).slotTab = s.slotTab := rfl
@[simp] theorem State.putCore_slotLen (s : State) (c : Nat) (x : Core) : (s.putCore c x).slotLen = s.slotLen := rfl
@[simp] theorem State.putCore_slotPeriod (s : State) (c : Nat) (x : Core) : (s.putCore c x).slotPeriod = s.slotPeriod := rfl
@[simp] theorem State.putCore_slotLenNext (s : State) (c : Nat) (x : Core) : (s.putCore c x).slotLenNext = s.slotLenNext := rfl
@[simp] theorem State.putCore_slotPeriodNext (s : State) (c : Nat) (x : Core) : (s.putCore c x).slotPeriodNext = s.slotPeriodNext := rfl
@[simp] theorem State.putCore_slotIx (s : State) (c : Nat) (x : Core) : (s.putCore c x).slotIx = s.slotIx := rfl
@[simp] theorem State.putCore_failedBanks (s : State) (c : Nat) (x : Core) : (s.putCore c x).failedBanks = s.failedBanks := rfl
@[simp] theorem State.putCore_uncorrectable (s : State) (c : Nat) (x : Core) : (s.putCore c x).uncorrectable = s.uncorrectable := rfl
@[simp] theorem State.putCore_corrected (s : State) (c : Nat) (x : Core) : (s.putCore c x).corrected = s.corrected := rfl
@[simp] theorem State.putCore_seq (s : State) (c : Nat) (x : Core) : (s.putCore c x).seq = s.seq := rfl
@[simp] theorem State.putCore_wrote (s : State) (c : Nat) (x : Core) : (s.putCore c x).wrote = s.wrote := rfl

@[simp] theorem State.modCluster_inputs (s : State) (k : Nat) (f : Cluster → Cluster) : (s.modCluster k f).inputs = s.inputs := rfl
@[simp] theorem State.modCluster_focus (s : State) (k : Nat) (f : Cluster → Cluster) : (s.modCluster k f).focus = s.focus := rfl
@[simp] theorem State.modCluster_tick (s : State) (k : Nat) (f : Cluster → Cluster) : (s.modCluster k f).tick = s.tick := rfl
@[simp] theorem State.modCluster_free (s : State) (k : Nat) (f : Cluster → Cluster) : (s.modCluster k f).free = s.free := rfl
@[simp] theorem State.modCluster_msts (s : State) (k : Nat) (f : Cluster → Cluster) : (s.modCluster k f).msts = s.msts := rfl
@[simp] theorem State.modCluster_mem (s : State) (k : Nat) (f : Cluster → Cluster) : (s.modCluster k f).mem = s.mem := rfl
@[simp] theorem State.modCluster_lines (s : State) (k : Nat) (f : Cluster → Cluster) : (s.modCluster k f).lines = s.lines := rfl
@[simp] theorem State.modCluster_counters (s : State) (k : Nat) (f : Cluster → Cluster) : (s.modCluster k f).counters = s.counters := rfl
@[simp] theorem State.modCluster_nextKey (s : State) (k : Nat) (f : Cluster → Cluster) : (s.modCluster k f).nextKey = s.nextKey := rfl
@[simp] theorem State.modCluster_hypKey (s : State) (k : Nat) (f : Cluster → Cluster) : (s.modCluster k f).hypKey = s.hypKey := rfl
@[simp] theorem State.modCluster_hist (s : State) (k : Nat) (f : Cluster → Cluster) : (s.modCluster k f).hist = s.hist := rfl
@[simp] theorem State.modCluster_performed (s : State) (k : Nat) (f : Cluster → Cluster) : (s.modCluster k f).performed = s.performed := rfl
@[simp] theorem State.modCluster_walked (s : State) (k : Nat) (f : Cluster → Cluster) : (s.modCluster k f).walked = s.walked := rfl
@[simp] theorem State.modCluster_cores (s : State) (k : Nat) (f : Cluster → Cluster) : (s.modCluster k f).cores = s.cores := rfl
@[simp] theorem State.modCluster_blocks (s : State) (k : Nat) (f : Cluster → Cluster) : (s.modCluster k f).blocks = s.blocks := rfl
@[simp] theorem State.modCluster_releasing (s : State) (k : Nat) (f : Cluster → Cluster) : (s.modCluster k f).releasing = s.releasing := rfl
@[simp] theorem State.modCluster_vds (s : State) (k : Nat) (f : Cluster → Cluster) : (s.modCluster k f).vds = s.vds := rfl
@[simp] theorem State.modCluster_windows (s : State) (k : Nat) (f : Cluster → Cluster) : (s.modCluster k f).windows = s.windows := rfl
@[simp] theorem State.modCluster_net (s : State) (k : Nat) (f : Cluster → Cluster) : (s.modCluster k f).net = s.net := rfl
@[simp] theorem State.modCluster_verdicts (s : State) (k : Nat) (f : Cluster → Cluster) : (s.modCluster k f).verdicts = s.verdicts := rfl
@[simp] theorem State.modCluster_links (s : State) (k : Nat) (f : Cluster → Cluster) : (s.modCluster k f).links = s.links := rfl
@[simp] theorem State.modCluster_ports (s : State) (k : Nat) (f : Cluster → Cluster) : (s.modCluster k f).ports = s.ports := rfl
@[simp] theorem State.modCluster_pctb (s : State) (k : Nat) (f : Cluster → Cluster) : (s.modCluster k f).pctb = s.pctb := rfl
@[simp] theorem State.modCluster_portCtxs (s : State) (k : Nat) (f : Cluster → Cluster) : (s.modCluster k f).portCtxs = s.portCtxs := rfl
@[simp] theorem State.modCluster_queues (s : State) (k : Nat) (f : Cluster → Cluster) : (s.modCluster k f).queues = s.queues := rfl
@[simp] theorem State.modCluster_portStops (s : State) (k : Nat) (f : Cluster → Cluster) : (s.modCluster k f).portStops = s.portStops := rfl
@[simp] theorem State.modCluster_rsets (s : State) (k : Nat) (f : Cluster → Cluster) : (s.modCluster k f).rsets = s.rsets := rfl
@[simp] theorem State.modCluster_drains (s : State) (k : Nat) (f : Cluster → Cluster) : (s.modCluster k f).drains = s.drains := rfl
@[simp] theorem State.modCluster_rings (s : State) (k : Nat) (f : Cluster → Cluster) : (s.modCluster k f).rings = s.rings := rfl
@[simp] theorem State.modCluster_islands (s : State) (k : Nat) (f : Cluster → Cluster) : (s.modCluster k f).islands = s.islands := rfl
@[simp] theorem State.modCluster_hrpt (s : State) (k : Nat) (f : Cluster → Cluster) : (s.modCluster k f).hrpt = s.hrpt := rfl
@[simp] theorem State.modCluster_modw (s : State) (k : Nat) (f : Cluster → Cluster) : (s.modCluster k f).modw = s.modw := rfl
@[simp] theorem State.modCluster_slotTab (s : State) (k : Nat) (f : Cluster → Cluster) : (s.modCluster k f).slotTab = s.slotTab := rfl
@[simp] theorem State.modCluster_slotLen (s : State) (k : Nat) (f : Cluster → Cluster) : (s.modCluster k f).slotLen = s.slotLen := rfl
@[simp] theorem State.modCluster_slotPeriod (s : State) (k : Nat) (f : Cluster → Cluster) : (s.modCluster k f).slotPeriod = s.slotPeriod := rfl
@[simp] theorem State.modCluster_slotLenNext (s : State) (k : Nat) (f : Cluster → Cluster) : (s.modCluster k f).slotLenNext = s.slotLenNext := rfl
@[simp] theorem State.modCluster_slotPeriodNext (s : State) (k : Nat) (f : Cluster → Cluster) : (s.modCluster k f).slotPeriodNext = s.slotPeriodNext := rfl
@[simp] theorem State.modCluster_slotIx (s : State) (k : Nat) (f : Cluster → Cluster) : (s.modCluster k f).slotIx = s.slotIx := rfl
@[simp] theorem State.modCluster_failedBanks (s : State) (k : Nat) (f : Cluster → Cluster) : (s.modCluster k f).failedBanks = s.failedBanks := rfl
@[simp] theorem State.modCluster_uncorrectable (s : State) (k : Nat) (f : Cluster → Cluster) : (s.modCluster k f).uncorrectable = s.uncorrectable := rfl
@[simp] theorem State.modCluster_corrected (s : State) (k : Nat) (f : Cluster → Cluster) : (s.modCluster k f).corrected = s.corrected := rfl
@[simp] theorem State.modCluster_seq (s : State) (k : Nat) (f : Cluster → Cluster) : (s.modCluster k f).seq = s.seq := rfl
@[simp] theorem State.modCluster_wrote (s : State) (k : Nat) (f : Cluster → Cluster) : (s.modCluster k f).wrote = s.wrote := rfl

@[simp] theorem State.modVd_inputs (s : State) (v : Nat) (f : Vd → Vd) : (s.modVd v f).inputs = s.inputs := rfl
@[simp] theorem State.modVd_focus (s : State) (v : Nat) (f : Vd → Vd) : (s.modVd v f).focus = s.focus := rfl
@[simp] theorem State.modVd_tick (s : State) (v : Nat) (f : Vd → Vd) : (s.modVd v f).tick = s.tick := rfl
@[simp] theorem State.modVd_free (s : State) (v : Nat) (f : Vd → Vd) : (s.modVd v f).free = s.free := rfl
@[simp] theorem State.modVd_msts (s : State) (v : Nat) (f : Vd → Vd) : (s.modVd v f).msts = s.msts := rfl
@[simp] theorem State.modVd_mem (s : State) (v : Nat) (f : Vd → Vd) : (s.modVd v f).mem = s.mem := rfl
@[simp] theorem State.modVd_lines (s : State) (v : Nat) (f : Vd → Vd) : (s.modVd v f).lines = s.lines := rfl
@[simp] theorem State.modVd_counters (s : State) (v : Nat) (f : Vd → Vd) : (s.modVd v f).counters = s.counters := rfl
@[simp] theorem State.modVd_nextKey (s : State) (v : Nat) (f : Vd → Vd) : (s.modVd v f).nextKey = s.nextKey := rfl
@[simp] theorem State.modVd_hypKey (s : State) (v : Nat) (f : Vd → Vd) : (s.modVd v f).hypKey = s.hypKey := rfl
@[simp] theorem State.modVd_hist (s : State) (v : Nat) (f : Vd → Vd) : (s.modVd v f).hist = s.hist := rfl
@[simp] theorem State.modVd_performed (s : State) (v : Nat) (f : Vd → Vd) : (s.modVd v f).performed = s.performed := rfl
@[simp] theorem State.modVd_walked (s : State) (v : Nat) (f : Vd → Vd) : (s.modVd v f).walked = s.walked := rfl
@[simp] theorem State.modVd_cores (s : State) (v : Nat) (f : Vd → Vd) : (s.modVd v f).cores = s.cores := rfl
@[simp] theorem State.modVd_clusters (s : State) (v : Nat) (f : Vd → Vd) : (s.modVd v f).clusters = s.clusters := rfl
@[simp] theorem State.modVd_blocks (s : State) (v : Nat) (f : Vd → Vd) : (s.modVd v f).blocks = s.blocks := rfl
@[simp] theorem State.modVd_releasing (s : State) (v : Nat) (f : Vd → Vd) : (s.modVd v f).releasing = s.releasing := rfl
@[simp] theorem State.modVd_windows (s : State) (v : Nat) (f : Vd → Vd) : (s.modVd v f).windows = s.windows := rfl
@[simp] theorem State.modVd_net (s : State) (v : Nat) (f : Vd → Vd) : (s.modVd v f).net = s.net := rfl
@[simp] theorem State.modVd_verdicts (s : State) (v : Nat) (f : Vd → Vd) : (s.modVd v f).verdicts = s.verdicts := rfl
@[simp] theorem State.modVd_links (s : State) (v : Nat) (f : Vd → Vd) : (s.modVd v f).links = s.links := rfl
@[simp] theorem State.modVd_ports (s : State) (v : Nat) (f : Vd → Vd) : (s.modVd v f).ports = s.ports := rfl
@[simp] theorem State.modVd_pctb (s : State) (v : Nat) (f : Vd → Vd) : (s.modVd v f).pctb = s.pctb := rfl
@[simp] theorem State.modVd_portCtxs (s : State) (v : Nat) (f : Vd → Vd) : (s.modVd v f).portCtxs = s.portCtxs := rfl
@[simp] theorem State.modVd_queues (s : State) (v : Nat) (f : Vd → Vd) : (s.modVd v f).queues = s.queues := rfl
@[simp] theorem State.modVd_portStops (s : State) (v : Nat) (f : Vd → Vd) : (s.modVd v f).portStops = s.portStops := rfl
@[simp] theorem State.modVd_rsets (s : State) (v : Nat) (f : Vd → Vd) : (s.modVd v f).rsets = s.rsets := rfl
@[simp] theorem State.modVd_drains (s : State) (v : Nat) (f : Vd → Vd) : (s.modVd v f).drains = s.drains := rfl
@[simp] theorem State.modVd_rings (s : State) (v : Nat) (f : Vd → Vd) : (s.modVd v f).rings = s.rings := rfl
@[simp] theorem State.modVd_islands (s : State) (v : Nat) (f : Vd → Vd) : (s.modVd v f).islands = s.islands := rfl
@[simp] theorem State.modVd_hrpt (s : State) (v : Nat) (f : Vd → Vd) : (s.modVd v f).hrpt = s.hrpt := rfl
@[simp] theorem State.modVd_modw (s : State) (v : Nat) (f : Vd → Vd) : (s.modVd v f).modw = s.modw := rfl
@[simp] theorem State.modVd_slotTab (s : State) (v : Nat) (f : Vd → Vd) : (s.modVd v f).slotTab = s.slotTab := rfl
@[simp] theorem State.modVd_slotLen (s : State) (v : Nat) (f : Vd → Vd) : (s.modVd v f).slotLen = s.slotLen := rfl
@[simp] theorem State.modVd_slotPeriod (s : State) (v : Nat) (f : Vd → Vd) : (s.modVd v f).slotPeriod = s.slotPeriod := rfl
@[simp] theorem State.modVd_slotLenNext (s : State) (v : Nat) (f : Vd → Vd) : (s.modVd v f).slotLenNext = s.slotLenNext := rfl
@[simp] theorem State.modVd_slotPeriodNext (s : State) (v : Nat) (f : Vd → Vd) : (s.modVd v f).slotPeriodNext = s.slotPeriodNext := rfl
@[simp] theorem State.modVd_slotIx (s : State) (v : Nat) (f : Vd → Vd) : (s.modVd v f).slotIx = s.slotIx := rfl
@[simp] theorem State.modVd_failedBanks (s : State) (v : Nat) (f : Vd → Vd) : (s.modVd v f).failedBanks = s.failedBanks := rfl
@[simp] theorem State.modVd_uncorrectable (s : State) (v : Nat) (f : Vd → Vd) : (s.modVd v f).uncorrectable = s.uncorrectable := rfl
@[simp] theorem State.modVd_corrected (s : State) (v : Nat) (f : Vd → Vd) : (s.modVd v f).corrected = s.corrected := rfl
@[simp] theorem State.modVd_seq (s : State) (v : Nat) (f : Vd → Vd) : (s.modVd v f).seq = s.seq := rfl
@[simp] theorem State.modVd_wrote (s : State) (v : Nat) (f : Vd → Vd) : (s.modVd v f).wrote = s.wrote := rfl

@[simp] theorem State.post_inputs (s : State) (m : Msg) : (s.post m).inputs = s.inputs := rfl
@[simp] theorem State.post_focus (s : State) (m : Msg) : (s.post m).focus = s.focus := rfl
@[simp] theorem State.post_tick (s : State) (m : Msg) : (s.post m).tick = s.tick := rfl
@[simp] theorem State.post_free (s : State) (m : Msg) : (s.post m).free = s.free := rfl
@[simp] theorem State.post_msts (s : State) (m : Msg) : (s.post m).msts = s.msts := rfl
@[simp] theorem State.post_mem (s : State) (m : Msg) : (s.post m).mem = s.mem := rfl
@[simp] theorem State.post_lines (s : State) (m : Msg) : (s.post m).lines = s.lines := rfl
@[simp] theorem State.post_counters (s : State) (m : Msg) : (s.post m).counters = s.counters := rfl
@[simp] theorem State.post_nextKey (s : State) (m : Msg) : (s.post m).nextKey = s.nextKey := rfl
@[simp] theorem State.post_hypKey (s : State) (m : Msg) : (s.post m).hypKey = s.hypKey := rfl
@[simp] theorem State.post_hist (s : State) (m : Msg) : (s.post m).hist = s.hist := rfl
@[simp] theorem State.post_performed (s : State) (m : Msg) : (s.post m).performed = s.performed := rfl
@[simp] theorem State.post_walked (s : State) (m : Msg) : (s.post m).walked = s.walked := rfl
@[simp] theorem State.post_cores (s : State) (m : Msg) : (s.post m).cores = s.cores := rfl
@[simp] theorem State.post_clusters (s : State) (m : Msg) : (s.post m).clusters = s.clusters := rfl
@[simp] theorem State.post_blocks (s : State) (m : Msg) : (s.post m).blocks = s.blocks := rfl
@[simp] theorem State.post_releasing (s : State) (m : Msg) : (s.post m).releasing = s.releasing := rfl
@[simp] theorem State.post_vds (s : State) (m : Msg) : (s.post m).vds = s.vds := rfl
@[simp] theorem State.post_windows (s : State) (m : Msg) : (s.post m).windows = s.windows := rfl
@[simp] theorem State.post_verdicts (s : State) (m : Msg) : (s.post m).verdicts = s.verdicts := rfl
@[simp] theorem State.post_links (s : State) (m : Msg) : (s.post m).links = s.links := rfl
@[simp] theorem State.post_ports (s : State) (m : Msg) : (s.post m).ports = s.ports := rfl
@[simp] theorem State.post_pctb (s : State) (m : Msg) : (s.post m).pctb = s.pctb := rfl
@[simp] theorem State.post_portCtxs (s : State) (m : Msg) : (s.post m).portCtxs = s.portCtxs := rfl
@[simp] theorem State.post_queues (s : State) (m : Msg) : (s.post m).queues = s.queues := rfl
@[simp] theorem State.post_portStops (s : State) (m : Msg) : (s.post m).portStops = s.portStops := rfl
@[simp] theorem State.post_rsets (s : State) (m : Msg) : (s.post m).rsets = s.rsets := rfl
@[simp] theorem State.post_drains (s : State) (m : Msg) : (s.post m).drains = s.drains := rfl
@[simp] theorem State.post_rings (s : State) (m : Msg) : (s.post m).rings = s.rings := rfl
@[simp] theorem State.post_islands (s : State) (m : Msg) : (s.post m).islands = s.islands := rfl
@[simp] theorem State.post_hrpt (s : State) (m : Msg) : (s.post m).hrpt = s.hrpt := rfl
@[simp] theorem State.post_modw (s : State) (m : Msg) : (s.post m).modw = s.modw := rfl
@[simp] theorem State.post_slotTab (s : State) (m : Msg) : (s.post m).slotTab = s.slotTab := rfl
@[simp] theorem State.post_slotLen (s : State) (m : Msg) : (s.post m).slotLen = s.slotLen := rfl
@[simp] theorem State.post_slotPeriod (s : State) (m : Msg) : (s.post m).slotPeriod = s.slotPeriod := rfl
@[simp] theorem State.post_slotLenNext (s : State) (m : Msg) : (s.post m).slotLenNext = s.slotLenNext := rfl
@[simp] theorem State.post_slotPeriodNext (s : State) (m : Msg) : (s.post m).slotPeriodNext = s.slotPeriodNext := rfl
@[simp] theorem State.post_slotIx (s : State) (m : Msg) : (s.post m).slotIx = s.slotIx := rfl
@[simp] theorem State.post_failedBanks (s : State) (m : Msg) : (s.post m).failedBanks = s.failedBanks := rfl
@[simp] theorem State.post_uncorrectable (s : State) (m : Msg) : (s.post m).uncorrectable = s.uncorrectable := rfl
@[simp] theorem State.post_corrected (s : State) (m : Msg) : (s.post m).corrected = s.corrected := rfl
@[simp] theorem State.post_seq (s : State) (m : Msg) : (s.post m).seq = s.seq := rfl
@[simp] theorem State.post_wrote (s : State) (m : Msg) : (s.post m).wrote = s.wrote := rfl

@[simp] theorem State.draw_inputs (s : State) : s.draw.2.inputs = s.inputs := rfl
@[simp] theorem State.draw_focus (s : State) : s.draw.2.focus = s.focus := rfl
@[simp] theorem State.draw_tick (s : State) : s.draw.2.tick = s.tick := rfl
@[simp] theorem State.draw_msts (s : State) : s.draw.2.msts = s.msts := rfl
@[simp] theorem State.draw_mem (s : State) : s.draw.2.mem = s.mem := rfl
@[simp] theorem State.draw_lines (s : State) : s.draw.2.lines = s.lines := rfl
@[simp] theorem State.draw_counters (s : State) : s.draw.2.counters = s.counters := rfl
@[simp] theorem State.draw_nextKey (s : State) : s.draw.2.nextKey = s.nextKey := rfl
@[simp] theorem State.draw_hypKey (s : State) : s.draw.2.hypKey = s.hypKey := rfl
@[simp] theorem State.draw_hist (s : State) : s.draw.2.hist = s.hist := rfl
@[simp] theorem State.draw_performed (s : State) : s.draw.2.performed = s.performed := rfl
@[simp] theorem State.draw_walked (s : State) : s.draw.2.walked = s.walked := rfl
@[simp] theorem State.draw_cores (s : State) : s.draw.2.cores = s.cores := rfl
@[simp] theorem State.draw_clusters (s : State) : s.draw.2.clusters = s.clusters := rfl
@[simp] theorem State.draw_blocks (s : State) : s.draw.2.blocks = s.blocks := rfl
@[simp] theorem State.draw_releasing (s : State) : s.draw.2.releasing = s.releasing := rfl
@[simp] theorem State.draw_vds (s : State) : s.draw.2.vds = s.vds := rfl
@[simp] theorem State.draw_windows (s : State) : s.draw.2.windows = s.windows := rfl
@[simp] theorem State.draw_net (s : State) : s.draw.2.net = s.net := rfl
@[simp] theorem State.draw_verdicts (s : State) : s.draw.2.verdicts = s.verdicts := rfl
@[simp] theorem State.draw_links (s : State) : s.draw.2.links = s.links := rfl
@[simp] theorem State.draw_ports (s : State) : s.draw.2.ports = s.ports := rfl
@[simp] theorem State.draw_pctb (s : State) : s.draw.2.pctb = s.pctb := rfl
@[simp] theorem State.draw_portCtxs (s : State) : s.draw.2.portCtxs = s.portCtxs := rfl
@[simp] theorem State.draw_queues (s : State) : s.draw.2.queues = s.queues := rfl
@[simp] theorem State.draw_portStops (s : State) : s.draw.2.portStops = s.portStops := rfl
@[simp] theorem State.draw_rsets (s : State) : s.draw.2.rsets = s.rsets := rfl
@[simp] theorem State.draw_drains (s : State) : s.draw.2.drains = s.drains := rfl
@[simp] theorem State.draw_rings (s : State) : s.draw.2.rings = s.rings := rfl
@[simp] theorem State.draw_islands (s : State) : s.draw.2.islands = s.islands := rfl
@[simp] theorem State.draw_hrpt (s : State) : s.draw.2.hrpt = s.hrpt := rfl
@[simp] theorem State.draw_modw (s : State) : s.draw.2.modw = s.modw := rfl
@[simp] theorem State.draw_slotTab (s : State) : s.draw.2.slotTab = s.slotTab := rfl
@[simp] theorem State.draw_slotLen (s : State) : s.draw.2.slotLen = s.slotLen := rfl
@[simp] theorem State.draw_slotPeriod (s : State) : s.draw.2.slotPeriod = s.slotPeriod := rfl
@[simp] theorem State.draw_slotLenNext (s : State) : s.draw.2.slotLenNext = s.slotLenNext := rfl
@[simp] theorem State.draw_slotPeriodNext (s : State) : s.draw.2.slotPeriodNext = s.slotPeriodNext := rfl
@[simp] theorem State.draw_slotIx (s : State) : s.draw.2.slotIx = s.slotIx := rfl
@[simp] theorem State.draw_failedBanks (s : State) : s.draw.2.failedBanks = s.failedBanks := rfl
@[simp] theorem State.draw_uncorrectable (s : State) : s.draw.2.uncorrectable = s.uncorrectable := rfl
@[simp] theorem State.draw_corrected (s : State) : s.draw.2.corrected = s.corrected := rfl
@[simp] theorem State.draw_seq (s : State) : s.draw.2.seq = s.seq := rfl
@[simp] theorem State.draw_wrote (s : State) : s.draw.2.wrote = s.wrote := rfl

@[simp] theorem State.pick_inputs (s : State) : s.pick.2.inputs = s.inputs := rfl
@[simp] theorem State.pick_focus (s : State) : s.pick.2.focus = s.focus := rfl
@[simp] theorem State.pick_tick (s : State) : s.pick.2.tick = s.tick := rfl
@[simp] theorem State.pick_msts (s : State) : s.pick.2.msts = s.msts := rfl
@[simp] theorem State.pick_mem (s : State) : s.pick.2.mem = s.mem := rfl
@[simp] theorem State.pick_lines (s : State) : s.pick.2.lines = s.lines := rfl
@[simp] theorem State.pick_counters (s : State) : s.pick.2.counters = s.counters := rfl
@[simp] theorem State.pick_nextKey (s : State) : s.pick.2.nextKey = s.nextKey := rfl
@[simp] theorem State.pick_hypKey (s : State) : s.pick.2.hypKey = s.hypKey := rfl
@[simp] theorem State.pick_hist (s : State) : s.pick.2.hist = s.hist := rfl
@[simp] theorem State.pick_performed (s : State) : s.pick.2.performed = s.performed := rfl
@[simp] theorem State.pick_walked (s : State) : s.pick.2.walked = s.walked := rfl
@[simp] theorem State.pick_cores (s : State) : s.pick.2.cores = s.cores := rfl
@[simp] theorem State.pick_clusters (s : State) : s.pick.2.clusters = s.clusters := rfl
@[simp] theorem State.pick_blocks (s : State) : s.pick.2.blocks = s.blocks := rfl
@[simp] theorem State.pick_releasing (s : State) : s.pick.2.releasing = s.releasing := rfl
@[simp] theorem State.pick_vds (s : State) : s.pick.2.vds = s.vds := rfl
@[simp] theorem State.pick_windows (s : State) : s.pick.2.windows = s.windows := rfl
@[simp] theorem State.pick_net (s : State) : s.pick.2.net = s.net := rfl
@[simp] theorem State.pick_verdicts (s : State) : s.pick.2.verdicts = s.verdicts := rfl
@[simp] theorem State.pick_links (s : State) : s.pick.2.links = s.links := rfl
@[simp] theorem State.pick_ports (s : State) : s.pick.2.ports = s.ports := rfl
@[simp] theorem State.pick_pctb (s : State) : s.pick.2.pctb = s.pctb := rfl
@[simp] theorem State.pick_portCtxs (s : State) : s.pick.2.portCtxs = s.portCtxs := rfl
@[simp] theorem State.pick_queues (s : State) : s.pick.2.queues = s.queues := rfl
@[simp] theorem State.pick_portStops (s : State) : s.pick.2.portStops = s.portStops := rfl
@[simp] theorem State.pick_rsets (s : State) : s.pick.2.rsets = s.rsets := rfl
@[simp] theorem State.pick_drains (s : State) : s.pick.2.drains = s.drains := rfl
@[simp] theorem State.pick_rings (s : State) : s.pick.2.rings = s.rings := rfl
@[simp] theorem State.pick_islands (s : State) : s.pick.2.islands = s.islands := rfl
@[simp] theorem State.pick_hrpt (s : State) : s.pick.2.hrpt = s.hrpt := rfl
@[simp] theorem State.pick_modw (s : State) : s.pick.2.modw = s.modw := rfl
@[simp] theorem State.pick_slotTab (s : State) : s.pick.2.slotTab = s.slotTab := rfl
@[simp] theorem State.pick_slotLen (s : State) : s.pick.2.slotLen = s.slotLen := rfl
@[simp] theorem State.pick_slotPeriod (s : State) : s.pick.2.slotPeriod = s.slotPeriod := rfl
@[simp] theorem State.pick_slotLenNext (s : State) : s.pick.2.slotLenNext = s.slotLenNext := rfl
@[simp] theorem State.pick_slotPeriodNext (s : State) : s.pick.2.slotPeriodNext = s.slotPeriodNext := rfl
@[simp] theorem State.pick_slotIx (s : State) : s.pick.2.slotIx = s.slotIx := rfl
@[simp] theorem State.pick_failedBanks (s : State) : s.pick.2.failedBanks = s.failedBanks := rfl
@[simp] theorem State.pick_uncorrectable (s : State) : s.pick.2.uncorrectable = s.uncorrectable := rfl
@[simp] theorem State.pick_corrected (s : State) : s.pick.2.corrected = s.corrected := rfl
@[simp] theorem State.pick_seq (s : State) : s.pick.2.seq = s.seq := rfl
@[simp] theorem State.pick_wrote (s : State) : s.pick.2.wrote = s.wrote := rfl

/-! ### Cores, contexts, clusters -/

@[simp] theorem State.core_putCore_self (s : State) (c : Nat) (x : Core) : (s.putCore c x).core c = x := by
  simp [State.core, State.putCore]

theorem State.core_putCore_other (s : State) (c d : Nat) (x : Core) (h : d ≠ c) : (s.putCore c x).core d = s.core d := by
  simp [State.core, State.putCore, h]

@[simp] theorem Core.ctx_putCtx_self (x : Core) (i : Fin 4) (y : Ctx) : (x.putCtx i y).ctx i = y := by
  simp [Core.ctx, Core.putCtx]

theorem Core.ctx_putCtx_other (x : Core) (i j : Fin 4) (y : Ctx) (h : j ≠ i) : (x.putCtx i y).ctx j = x.ctx j := by
  have h' : i.val ≠ j.val := fun e => h (Fin.ext e.symm)
  simp [Core.ctx, Core.putCtx, h']

@[simp] theorem Core.putCtx_bank (x : Core) (i : Fin 4) (y : Ctx) : (x.putCtx i y).bank = x.bank := rfl
@[simp] theorem Core.putCtx_priv (x : Core) (i : Fin 4) (y : Ctx) : (x.putCtx i y).priv = x.priv := rfl
@[simp] theorem Core.putCtx_sendq (x : Core) (i : Fin 4) (y : Ctx) : (x.putCtx i y).sendq = x.sendq := rfl

/-! ### The executing context -/

/-- Writing the executing context's registers, as one update of the table of cores. -/
theorem State.setRegs_eq (s : State) (r : Regs) :
    s.setRegs r = s.putCore s.focus.1 (s.me.putCtx s.focus.2 { s.cx with regs := r }) := rfl

@[simp] theorem State.setRegs_inputs (s : State) (r : Regs) : (s.setRegs r).inputs = s.inputs := rfl
@[simp] theorem State.setRegs_focus (s : State) (r : Regs) : (s.setRegs r).focus = s.focus := rfl
@[simp] theorem State.setRegs_tick (s : State) (r : Regs) : (s.setRegs r).tick = s.tick := rfl
@[simp] theorem State.setRegs_free (s : State) (r : Regs) : (s.setRegs r).free = s.free := rfl
@[simp] theorem State.setRegs_msts (s : State) (r : Regs) : (s.setRegs r).msts = s.msts := rfl
@[simp] theorem State.setRegs_mem (s : State) (r : Regs) : (s.setRegs r).mem = s.mem := rfl
@[simp] theorem State.setRegs_lines (s : State) (r : Regs) : (s.setRegs r).lines = s.lines := rfl
@[simp] theorem State.setRegs_counters (s : State) (r : Regs) : (s.setRegs r).counters = s.counters := rfl
@[simp] theorem State.setRegs_nextKey (s : State) (r : Regs) : (s.setRegs r).nextKey = s.nextKey := rfl
@[simp] theorem State.setRegs_hypKey (s : State) (r : Regs) : (s.setRegs r).hypKey = s.hypKey := rfl
@[simp] theorem State.setRegs_hist (s : State) (r : Regs) : (s.setRegs r).hist = s.hist := rfl
@[simp] theorem State.setRegs_performed (s : State) (r : Regs) : (s.setRegs r).performed = s.performed := rfl
@[simp] theorem State.setRegs_walked (s : State) (r : Regs) : (s.setRegs r).walked = s.walked := rfl
@[simp] theorem State.setRegs_clusters (s : State) (r : Regs) : (s.setRegs r).clusters = s.clusters := rfl
@[simp] theorem State.setRegs_blocks (s : State) (r : Regs) : (s.setRegs r).blocks = s.blocks := rfl
@[simp] theorem State.setRegs_releasing (s : State) (r : Regs) : (s.setRegs r).releasing = s.releasing := rfl
@[simp] theorem State.setRegs_vds (s : State) (r : Regs) : (s.setRegs r).vds = s.vds := rfl
@[simp] theorem State.setRegs_windows (s : State) (r : Regs) : (s.setRegs r).windows = s.windows := rfl
@[simp] theorem State.setRegs_net (s : State) (r : Regs) : (s.setRegs r).net = s.net := rfl
@[simp] theorem State.setRegs_verdicts (s : State) (r : Regs) : (s.setRegs r).verdicts = s.verdicts := rfl
@[simp] theorem State.setRegs_links (s : State) (r : Regs) : (s.setRegs r).links = s.links := rfl
@[simp] theorem State.setRegs_ports (s : State) (r : Regs) : (s.setRegs r).ports = s.ports := rfl
@[simp] theorem State.setRegs_pctb (s : State) (r : Regs) : (s.setRegs r).pctb = s.pctb := rfl
@[simp] theorem State.setRegs_portCtxs (s : State) (r : Regs) : (s.setRegs r).portCtxs = s.portCtxs := rfl
@[simp] theorem State.setRegs_queues (s : State) (r : Regs) : (s.setRegs r).queues = s.queues := rfl
@[simp] theorem State.setRegs_portStops (s : State) (r : Regs) : (s.setRegs r).portStops = s.portStops := rfl
@[simp] theorem State.setRegs_rsets (s : State) (r : Regs) : (s.setRegs r).rsets = s.rsets := rfl
@[simp] theorem State.setRegs_drains (s : State) (r : Regs) : (s.setRegs r).drains = s.drains := rfl
@[simp] theorem State.setRegs_rings (s : State) (r : Regs) : (s.setRegs r).rings = s.rings := rfl
@[simp] theorem State.setRegs_islands (s : State) (r : Regs) : (s.setRegs r).islands = s.islands := rfl
@[simp] theorem State.setRegs_hrpt (s : State) (r : Regs) : (s.setRegs r).hrpt = s.hrpt := rfl
@[simp] theorem State.setRegs_modw (s : State) (r : Regs) : (s.setRegs r).modw = s.modw := rfl
@[simp] theorem State.setRegs_slotTab (s : State) (r : Regs) : (s.setRegs r).slotTab = s.slotTab := rfl
@[simp] theorem State.setRegs_slotLen (s : State) (r : Regs) : (s.setRegs r).slotLen = s.slotLen := rfl
@[simp] theorem State.setRegs_slotPeriod (s : State) (r : Regs) : (s.setRegs r).slotPeriod = s.slotPeriod := rfl
@[simp] theorem State.setRegs_slotLenNext (s : State) (r : Regs) : (s.setRegs r).slotLenNext = s.slotLenNext := rfl
@[simp] theorem State.setRegs_slotPeriodNext (s : State) (r : Regs) : (s.setRegs r).slotPeriodNext = s.slotPeriodNext := rfl
@[simp] theorem State.setRegs_slotIx (s : State) (r : Regs) : (s.setRegs r).slotIx = s.slotIx := rfl
@[simp] theorem State.setRegs_failedBanks (s : State) (r : Regs) : (s.setRegs r).failedBanks = s.failedBanks := rfl
@[simp] theorem State.setRegs_uncorrectable (s : State) (r : Regs) : (s.setRegs r).uncorrectable = s.uncorrectable := rfl
@[simp] theorem State.setRegs_corrected (s : State) (r : Regs) : (s.setRegs r).corrected = s.corrected := rfl
@[simp] theorem State.setRegs_seq (s : State) (r : Regs) : (s.setRegs r).seq = s.seq := rfl
@[simp] theorem State.setRegs_wrote (s : State) (r : Regs) : (s.setRegs r).wrote = s.wrote := rfl

@[simp] theorem State.setRegs_me (s : State) (r : Regs) :
    (s.setRegs r).me = s.me.putCtx s.focus.2 { s.cx with regs := r } := by
  simp [State.me, State.setRegs_eq]

@[simp] theorem State.setRegs_cx (s : State) (r : Regs) : (s.setRegs r).cx = { s.cx with regs := r } := by
  simp [State.cx, State.ctx, State.setRegs_eq]

@[simp] theorem State.setRegs_regs (s : State) (r : Regs) : (s.setRegs r).regs = r := by
  simp [State.regs]

theorem State.setRegs_core_other (s : State) (r : Regs) (c : Nat) (h : c ≠ s.focus.1) :
    (s.setRegs r).core c = s.core c := by
  rw [State.setRegs_eq, State.core_putCore_other _ _ _ _ h]

@[simp] theorem State.setRegs_ctl (s : State) (r : Regs) : (s.setRegs r).ctl = s.ctl := rfl
@[simp] theorem State.setRegs_level (s : State) (r : Regs) : (s.setRegs r).level = s.level := by
  simp [State.level]
@[simp] theorem State.setRegs_vd (s : State) (r : Regs) : (s.setRegs r).vd = s.vd := by simp [State.vd]

/-- Only the last of two writes of the registers counts. -/
@[simp] theorem State.setRegs_setRegs (s : State) (r q : Regs) : (s.setRegs r).setRegs q = s.setRegs q := by
  rw [State.setRegs_eq (s.setRegs r), State.setRegs_me, State.setRegs_cx, State.setRegs_eq s q, State.setRegs_eq s r]
  simp [State.putCore, Core.putCtx]

/-! ### Registers (R69, R70) -/

@[simp] theorem Regs.get_zero (r : Regs) : r.get 0 = 0 := rfl

theorem Regs.get_put_self (r : Regs) (x : GReg) (y : Word) (h : x ≠ 0) : (r.put x y).get x = y := by
  simp only [Regs.get, Regs.put, if_neg h, Vector.getElem_set_self]

theorem Regs.get_put_other (r : Regs) (x z : GReg) (y : Word) (h : z ≠ x) : (r.put x y).get z = r.get z := by
  by_cases hx : x = 0
  · simp only [Regs.put, if_pos hx]
  · have h' : x.toNat ≠ z.toNat := fun e => h (BitVec.eq_of_toNat_eq e.symm)
    simp only [Regs.get, Regs.put, if_neg hx, Vector.getElem_set_ne _ _ h']

@[simp] theorem Regs.put_zero (r : Regs) (y : Word) : r.put 0 y = r := rfl
@[simp] theorem Regs.put_pc (r : Regs) (x : GReg) (y : Word) : (r.put x y).pc = r.pc := by
  unfold Regs.put; split <;> rfl
@[simp] theorem Regs.put_v (r : Regs) (x : GReg) (y : Word) : (r.put x y).v = r.v := by
  unfold Regs.put; split <;> rfl
@[simp] theorem Regs.put_k (r : Regs) (x : GReg) (y : Word) : (r.put x y).k = r.k := by
  unfold Regs.put; split <;> rfl
@[simp] theorem Regs.put_cr (r : Regs) (x : GReg) (y : Word) : (r.put x y).cr = r.cr := by
  unfold Regs.put; split <;> rfl

@[simp] theorem Regs.getV_putV_self (r : Regs) (x : VReg) (y : VWord) : (r.putV x y).getV x = y := by
  simp [Regs.getV, Regs.putV]

theorem Regs.getV_putV_other (r : Regs) (x z : VReg) (y : VWord) (h : z ≠ x) : (r.putV x y).getV z = r.getV z := by
  have h' : x.toNat ≠ z.toNat := fun e => h (BitVec.eq_of_toNat_eq e.symm)
  simp only [Regs.getV, Regs.putV, Vector.getElem_set_ne _ _ h']

@[simp] theorem Regs.getK_zero (r : Regs) : r.getK 0 = BitVec.allOnes 64 := rfl

theorem Regs.getK_putK_self (r : Regs) (x : KReg) (y : Word) (h : x ≠ 0) : (r.putK x y).getK x = y := by
  simp only [Regs.getK, Regs.putK, if_neg h, Vector.getElem_set_self]

theorem Regs.getK_putK_other (r : Regs) (x z : KReg) (y : Word) (h : z ≠ x) : (r.putK x y).getK z = r.getK z := by
  by_cases hx : x = 0
  · simp only [Regs.putK, if_pos hx]
  · have h' : x.toNat ≠ z.toNat := fun e => h (BitVec.eq_of_toNat_eq e.symm)
    simp only [Regs.getK, Regs.putK, if_neg hx, Vector.getElem_set_ne _ _ h']

/-! ### Writing a register and moving on -/

/-- A register written and the pc moved on, as one write of the registers. -/
theorem State.setG_advance (s : State) (x : GReg) (y : Word) (n : Nat) :
    (s.setG x y).advance n = s.setRegs { s.regs.put x y with pc := s.pc + w64 n } := by
  simp [State.advance, State.setPc, State.setG, State.pc]

theorem State.advance_eq (s : State) (n : Nat) : s.advance n = s.setRegs { s.regs with pc := s.pc + w64 n } := rfl

theorem State.setPc_eq (s : State) (y : Word) : s.setPc y = s.setRegs { s.regs with pc := y } := rfl

/-- What an instruction that writes one general register comes to. -/
theorem writeG_eq (s : State) (rd : GReg) (x : Word) (len : Nat) :
    writeG s rd x len = .next (s.setRegs { s.regs.put rd x with pc := s.pc + w64 len }) := by
  rw [writeG, State.setG_advance]

end Sys2Proof.Machine
end

