-- ==== Sys2Proof/Safety.lean ====
section
/-! DEFINITION. What a safe run is, in the terms the statements use. -/

set_option Elab.async false

namespace Sys2Proof

/-- A run of k steps from a state stops at no fault and no refusal. -/
def SafeFor (k : Nat) (s : Machine.State) : Prop := ∃ t, core.run k s = .next t

/-- Every step from a state is a next state. -/
def Safe (s : Machine.State) : Prop := ∀ k, SafeFor k s

end Sys2Proof
end

