-- ==== Sys2Proof/Tests/Slice0.lean ====
section
/-! SUPPORT. The model's own tests: terms that `WellFormed` refuses, words of the spec and their instructions, one step
of an instruction on a small state with the spec's own example or a hand calculation, and witnesses that meet the
hypotheses of the obligations. -/

section

open Sys2Proof Sys2Proof.Machine Sys2Proof.Claims

namespace Sys2Proof.Tests

set_option maxRecDepth 20000
set_option Elab.async false

/-! ### Small states -/

/-- The outcome is a next state of which p holds. -/
def nextIs (o : Host.Outcome State Fault Refusal) (p : State → Bool) : Bool :=
  match o with
  | .next t => p t
  | .fault _ => false
  | .refused _ => false

/-- General registers by number. -/
def gs (l : List (GReg × Word)) : Regs := l.foldl (fun r e => r.put e.1 e.2) Regs.reset

/-- A kernel with one code bank and one region bank, ACTIVE, with room in every queue. -/
def bank : Bank := { Bank.reset with
  kst := .active
  hblo := 0x100
  hbhi := 0x1000
  sqlim := 32
  qdep := 0x1010_1010
  kernel := { Kernel.none with cb := 1, rb := 1, banks := 32 } }

/-- Fabric core 0 with a kernel; context 0 in a state, with registers. -/
def coreWith (st : CtxSt) (r : Regs) : Core :=
  let y := (Core.reset.ctx 0)
  { (Core.reset.putCtx 0 { y with regs := r, ckpt := r, st := st }) with bank := bank }

/-- The module with fabric core 0 alone in focus. -/
def one (x : Core) : State := { State.reset with focus := (0, 0), cores := [(0, x)] }

/-- A task on fabric core 0 with registers. -/
def fab (r : Regs) : State := one (coreWith .ready r)

/-- The control core that runs the hypervisor at a level, with registers. -/
def ctl (level : Nat) (r : Regs) : State :=
  let x := coreWith .ready r
  { State.reset with cores := [(controlCore 0, { x with priv := { x.priv with cprv := level } })] }

/-- A state with bytes written. -/
def poke (s : State) (a : Nat) (bs : List Byte) : State := { s with mem := s.mem.putAll a bs }

/-- A state with 64-bit words written upward from an offset of fabric core 0's TCM. -/
def tcm (s : State) (a : Nat) (ws : List Word) : State := poke s (2 ^ 41 + a) (wordsBytes ws)

/-- What holds of a reset core, and of every core that a state lists, holds of every core. -/
theorem all_cores (s : State) (p : Core → Prop) (h : ∀ e ∈ s.cores, p e.2) (hr : p Core.reset) : ∀ c, p (s.core c) := by
  intro c
  have key : ∀ l : Tab Core, (∀ e ∈ l, p e.2) → p (Tab.get l c Core.reset) := by
    intro l hl
    induction l with
    | nil => exact hr
    | cons e l ih =>
      obtain ⟨k, x⟩ := e
      have ih := ih fun e he => hl e (List.mem_cons_of_mem _ he)
      by_cases hk : k = c
      · subst hk
        simpa [Tab.get, Tab.look] using hl (k, x) List.mem_cons_self
      · simpa [Tab.get, Tab.look, Ne.symm hk] using ih
  exact key s.cores h

/-- What holds of every core of a state with fabric core 0 alone. -/
theorem all_cores_of_one (x : Core) (p : Core → Prop) (h0 : p x) (hr : p Core.reset) : ∀ c, p ((one x).core c) :=
  all_cores _ p (by simpa [one] using h0) hr
/-! ### Terms that WellFormed refuses -/

/-- R70: an instruction that writes a predicate register does not name k0. -/
theorem test_illformed_k0 : ([.vcmpeq .i8 0 1 2 0, .vcmplt .f32 0 1 2 0, .vcmple .i8 0 1 2 0, .vcmpltu .i8 0 1 2 0,
    .vcmpeqVx .i8 0 1 2 0, .vcmpltVx .i8 0 1 2 0, .vcmpleVx .i8 0 1 2 0, .vcmpltuVx .i8 0 1 2 0,
    .vldk 0 1] : List Instr).all (fun i => !WellFormed i) = true := by decide

/-- R221, R228: members for integer types alone, on a floating type. -/
theorem test_illformed_integer_members : ([.vshl .f32 1 2 3 0, .vshr .f64 1 2 3 0, .vsra .bf16 1 2 3 0,
    .vmulh .f32 1 2 3 0, .vcmpltu .f32 1 2 3 0, .vminu .f32 1 2 3 0, .vmaxu .f32 1 2 3 0, .vshlVx .f32 1 2 3 0,
    .vshrVx .f32 1 2 3 0, .vsraVx .f32 1 2 3 0, .vmulhVx .f32 1 2 3 0, .vcmpltuVx .f32 1 2 3 0, .vminuVx .f32 1 2 3 0,
    .vmaxuVx .f32 1 2 3 0, .viota .f32 1 0] : List Instr).all (fun i => !WellFormed i) = true := by decide

/-- R229, R237, R239: types that VROWST, VSFN, VGACT, VDEC, VENC, VRNG, VSCL and VPACK do not take. -/
theorem test_illformed_types : ([.vrowst .f64 1 2, .vsfn 0 .i32 1 2 0, .vgact 0 .f64 1 2 3 0, .vdec .i8 1 2 0 0,
    .venc .f64 1 2 0 0, .vrng .i8 1 2 0, .vscl .i32 1 2 3 0, .vpack .i8 1 2 3 0, .vpack .bf16 1 2 3 0] :
    List Instr).all (fun i => !WellFormed i) = true := by decide

/-- R235, R239: a user slot above 2, a quarter that the type does not have, a nibble mode above 3. -/
theorem test_illformed_fields : ([.vstbl 3 1, .vdec .f32 1 2 4 0, .vdec .bf16 1 2 2 0, .venc .f32 1 2 4 0,
    .venc .bf16 1 2 2 0, .vnib 1 2 4 0] : List Instr).all (fun i => !WellFormed i) = true := by decide

/-- R341: ACAS and ABFA take an even register and its successor. -/
theorem test_illformed_pairs :
    ([.acas 1 2 3, .abfa 1 2 31] : List Instr).all (fun i => !WellFormed i) = true := by decide

/-- R66, R67: compact forms whose rd or rs is g0. -/
theorem test_illformed_compact : ([.addiC 0 1, .ldiC 0 1, .slliC 0 1, .srliC 0 1, .sraiC 0 1, .andiC 0 1, .mvC 0 1,
    .addC 0 1, .subC 0 1, .andC 0 1, .orC 0 1, .xorC 0 1, .jrC 0] : List Instr).all (fun i => !WellFormed i) = true := by
  decide

/-! ### Words the spec writes out, by family

Each word stands beside its assembly text in the table or the listing of its chapter. Registers by R95: a0 to a7 are
g5 to g12, t0 to t6 g13 to g19, s0 g20. -/

/-- R59 to R65, R127 to R130: scalar integer, loads and stores (04_assembler.md, 03_encoding.md, 05_scalar.md). -/
theorem test_words_scalar :
    decodeTableWord 32 0x000FC4CD = some (.lih 13 126) ∧ decodeTableWord 32 0x880DC20D = some (.addi 13 13 0x440) ∧
    decodeTableWord 32 0x000DC6CE = some (.ld 14 13 0) ∧ decodeTableWord 32 0x000DC76E = some (.sd 14 13 0) ∧
    decodeTableWord 32 0x0CC5C10D = some (.remu 13 5 6) ∧ decodeTableWord 32 0x000EC40D = some (.lih 13 112) := by
  decide

/-- R135: scalar floating point; R138: control registers. -/
theorem test_words_fp_and_ctl :
    decodeTableWord 32 0x080FCB4F = some (.fcvtfbS 15 15) ∧ decodeTableWord 32 0x01AFCBB0 = some (.fmaS 16 15 13) ∧
    decodeTableWord 32 0x01AFCB50 = some (.fmulS 16 15 13) ∧ decodeTableWord 32 0x01CECC60 = some (.crclr 0 0x00E 14) := by
  decide

/-- R66 to R68: compact forms. -/
theorem test_words_compact :
    decodeTableWord 16 0x8282 = some (.lwC 1 2 2) ∧ decodeTableWord 16 0x5CFC = some (.bnezC 4 0xFC) ∧
    decodeTableWord 16 0x3800 = some .haltC := by decide

/-- R154, R176, R194: TASK, MSG and RING. -/
theorem test_words_task_and_message :
    decodeTableWord 32 0x000DCD20 = some (.haltr 13) ∧ decodeTableWord 32 0x0000CDAD = some (.budgq 13) ∧
    decodeTableWord 32 0x00C5CE0D = some (.send 13 5 6) ∧ decodeTableWord 32 0x00C5CE20 = some (.rply 0 5 6) ∧
    decodeTableWord 32 0x0005CE6D = some (.resend 13 5) ∧ decodeTableWord 32 0x0065CF2D = some (.cwait 13 3 5) := by
  decide

/-- R342, R339: ATOM and SCOPE. -/
theorem test_words_atomics_and_scopes :
    decodeTableWord 32 0x00C5D00D = some (.aadd 13 5 6) ∧ decodeTableWord 32 0x04C5D02D = some (.acas 13 5 6) ∧
    decodeTableWord 32 0x05C5D06D = some (.abfa 13 5 14) ∧ decodeTableWord 32 0x0405D0CD = some (.amxr 13 5 0) ∧
    decodeTableWord 32 0x04C5D000 = some (.aswp 0 5 6) ∧ decodeTableWord 32 0x0005D100 = some (.rels 5) ∧
    decodeTableWord 32 0x0000D120 = some .acqs ∧ decodeTableWord 32 0x0000D140 = some .fence := by decide

/-- R312, R321: GROUP and BAR. -/
theorem test_words_groups :
    decodeTableWord 32 0x0005D20D = some (.gid 13 5) ∧ decodeTableWord 32 0x00C5D22D = some (.gspawn 13 5 6) ∧
    decodeTableWord 32 0x0005D240 = some (.gdone 5) ∧ decodeTableWord 32 0x0005D30D = some (.barrAnd 13 5) ∧
    decodeTableWord 32 0x0005D34D = some (.barrSum 13 5) ∧ decodeTableWord 32 0x000ED3A0 = some (.bargOr 0 14) ∧
    decodeTableWord 32 0x0005D3ED = some (.bargPopc 13 5) := by decide

/-- R217 to R240: the vector majors. -/
theorem test_words_vector :
    decodeTableWord 32 0x0008D408 = some (.vxor .i32 0 0 0 0) ∧ decodeTableWord 32 0x4514D403 = some (.vfma .f32 0 4 5 0) ∧
    decodeTableWord 32 0x2904D539 = some (.vshlVx .i32 3 2 18 0) ∧
    decodeTableWord 32 0x2984D53B = some (.vsraVx .i32 3 2 19 0) ∧ decodeTableWord 32 0x668BD50F = some (.vext .f32 13 6 0) ∧
    decodeTableWord 32 0x7005D650 = some (.vld .f32 5 14 0) ∧ decodeTableWord 32 0xA000D610 = some (.vld .i8 1 20 0) ∧
    decodeTableWord 32 0x1800D720 = some (.vpermb 2 1 8 0) ∧ decodeTableWord 32 0x0014D860 = some (.vrsum .f32 6 0 0) ∧
    decodeTableWord 32 0x3508DA40 = some (.vcvt .i32 4 3 .f32 0) := by decide

/-- R245, R257, R271, R296: TILE, JOB and FACT. -/
theorem test_words_jobs :
    decodeTableWord 32 0x0142DB00 = some (.tmset 2 5) ∧ decodeTableWord 32 0x0148DB2D = some (.mgang 13 0 1 5 0) ∧
    decodeTableWord 32 0x3140DC4D = some (.cpy 13 5 6) ∧ decodeTableWord 32 0x0340DC0E = some (.jwait 14 13) ∧
    decodeTableWord 32 0x3142DD0D = some (.flu 13 2 5 6) ∧ decodeTableWord 32 0x315ADD4D = some (.fqr 13 2 3 5 6) ∧
    decodeTableWord 32 0x3140DDAD = some (.prmov 13 5 6) := by decide

/-- R404 to R412, R430, R394: SEQ, COMM and STCH. -/
theorem test_words_objects :
    decodeTableWord 32 0x3140DE0D = some (.ridl 13 5 6) ∧ decodeTableWord 32 0x3140DE2D = some (.draw 13 5 6) ∧
    decodeTableWord 32 0x3140DE40 = some (.spark 0 5 6) ∧ decodeTableWord 32 0x31C0DE6D = some (.sres 13 7 6) ∧
    decodeTableWord 32 0x3140DF0D = some (.cmnew 13 5 6) ∧ decodeTableWord 32 0x3140DF2D = some (.cmjoin 13 5 6) ∧
    decodeTableWord 32 0x0140DF4D = some (.cmwait 13 5) ∧ decodeTableWord 32 0x3140DF6D = some (.cmbn 13 5 6) ∧
    decodeTableWord 32 0x3140DF8D = some (.cmadv 13 5 6) ∧ decodeTableWord 32 0x3140DFAD = some (.cmsetMember 13 5 6) ∧
    decodeTableWord 32 0x0140DFC0 = some (.cmend 0 5) ∧ decodeTableWord 32 0x0000E00D = some (.stnew 13) ∧
    decodeTableWord 32 0x00C5E02D = some (.splice 13 5 6) ∧ decodeTableWord 32 0x0005E04E = some (.spin 14 5) ∧
    decodeTableWord 32 0x0005E060 = some (.sunpin 0 5) ∧ decodeTableWord 32 0x00E6E08D = some (.sidx 13 6 7) ∧
    decodeTableWord 32 0x0005E0AD = some (.sfork 13 5) ∧ decodeTableWord 32 0x0005E0C0 = some (.sdrop 0 5) := by decide

/-- R370, R455 to R458, R475: MMU, LINK and SYSP. -/
theorem test_words_system :
    decodeTableWord 32 0x00C5E10D = some (.tlbi 13 5 6) ∧ decodeTableWord 32 0x00C5E12D = some (.tlbis 13 5 6) ∧
    decodeTableWord 32 0x00C5E14D = some (.tlbia 13 5 6) ∧ decodeTableWord 32 0x00C5E160 = some (.sidw 0 5 6) ∧
    decodeTableWord 32 0x00C5E18D = some (.atrn 13 5 6) ∧ decodeTableWord 32 0x00C5E20D = some (.rvbeg 13 5 6) ∧
    decodeTableWord 32 0x00C5E22D = some (.rvend 13 5 6) ∧ decodeTableWord 32 0x00C5E24D = some (.rvqry 13 5 6) ∧
    decodeTableWord 32 0x0005E26D = some (.wrel 13 5) ∧ decodeTableWord 32 0x0005E28D = some (.wacq 13 5) ∧
    decodeTableWord 32 0x0005E2AD = some (.lstat 13 5) ∧ decodeTableWord 32 0x0005E30D = some (.hvcall 13 5) ∧
    decodeTableWord 32 0x00C5E320 = some (.slotwEntry 0 5 6) ∧ decodeTableWord 32 0x0005E34D = some (.vdsw 13 5) ∧
    decodeTableWord 32 0x00C5E36D = some (.mext 13 5 6) ∧ decodeTableWord 32 0x0000E380 = some .eret ∧
    decodeTableWord 32 0x0000E3A0 = some .wfi := by decide


/-! ### Witnesses: integers, memory, floating point, control registers

Each theorem gives a state and operands that meet the hypotheses of the part its name says, clause by clause, at the
ends of their ranges. -/

/-- A task with general registers 5 to 9. -/
def five (a b c d e : Word) : State := fab (gs [(5, a), (6, b), (7, c), (8, d), (9, e)])

/-- Each comparison holding and failing; targets within 48 bits and beyond them; odd and even register targets. -/
theorem wit_BranchesAndJumps :
    let s := five 7 7 8 (BitVec.allOnes 64) 0
    s.regs.get 5 = s.regs.get 6 ∧ s.regs.get 5 ≠ s.regs.get 7 ∧ (s.regs.get 8).toInt < (s.regs.get 5).toInt ∧
    (s.regs.get 5).toInt ≤ (s.regs.get 7).toInt ∧ (s.regs.get 5).toNat < (s.regs.get 8).toNat ∧
    (s.regs.get 5).toNat ≤ (s.regs.get 6).toNat ∧ s.regs.get (1 : CReg).full = 0 ∧ s.regs.get (0 : CReg).full ≠ 0 ∧
    (s.regs.get (0 : CReg).full).toInt < 0 ∧ 0 ≤ (s.regs.get (1 : CReg).full).toInt ∧
    ¬2 ^ 48 ≤ (int (s.regs.pc.toInt + 2 * (0x3FF : BitVec 11).toInt)).toNat ∧
    2 ^ 48 ≤ (int (s.regs.pc.toInt + 2 * (0x7FF : BitVec 11).toInt)).toNat ∧
    (int ((s.regs.get 5).toInt + (0 : BitVec 11).toInt)).getLsbD 0 = true ∧
    (int ((s.regs.get 7).toInt + (0 : BitVec 11).toInt)).getLsbD 0 = false := by decide +kernel

theorem wit_RegisterWriteFrame : (1 : GReg) ≠ 0 ∧ (31 : GReg) ≠ 1 ∧ (7 : KReg) ≠ 0 ∧ (15 : VReg) ≠ 0 ∧
    ((0, 1) : Nat × Fin 4) ≠ (five 0 0 0 0 0).focus := by decide +kernel

/-- The last word of the TCM, the first byte and the last word of the scratchpad, the first word behind the code. -/
theorem wit_LoadsReadOwnMemory :
    let s := five 0x3FFF8 0x100000 0x1FFFF8 0x3FFFC 0x2000
    OwnPlace s 0x3FFF8 8 (2 ^ 41 + 0x3FFF8) ∧ OwnPlace s 0x3FFFF 1 (2 ^ 41 + 0x3FFFF) ∧
    OwnPlace s 0x3FFFC 4 (2 ^ 41 + 0x3FFFC) ∧ OwnPlace s 0x100000 2 (2 ^ 41 + 2 ^ 36) ∧
    OwnPlace s 0x1FFFF8 8 (2 ^ 41 + 2 ^ 36 + 0xFFFF8) ∧
    s.interlocked s.focus.1 0x3FFF8 8 false = false ∧ s.interlocked s.focus.1 0x3FFFF 1 false = false ∧
    s.interlocked s.focus.1 0x3FFFC 4 false = false ∧ int ((s.regs.get 5).toInt + (7 : BitVec 11).toInt) = 0x3FFFF ∧
    nat ((s.regs.get (0 : CReg).full).toNat + (0 : BitVec 6).toNat * 4) = 0x3FFFC := by
  unfold OwnPlace
  dsimp only
  constructorm* _ ∧ _ <;> decide +kernel

theorem wit_StoresEnterTheChunk :
    let s := five 0x3FFF8 0x100000 0x1FFFF8 0x3FFFC 0x2000
    OwnPlace s 0x3FFF8 8 (2 ^ 41 + 0x3FFF8) ∧ StoreMay s 0x3FFF8 (2 ^ 41 + 0x3FFF8) 8 ∧
    StoreGoes s (2 ^ 41 + 0x3FFF8) ∧ OwnPlace s 0x2000 8 (2 ^ 41 + 0x2000) ∧
    StoreMay s 0x2000 (2 ^ 41 + 0x2000) 8 ∧ StoreGoes s (2 ^ 41 + 0x2000) ∧
    OwnPlace s 0x100000 1 (2 ^ 41 + 2 ^ 36) ∧ StoreMay s 0x100000 (2 ^ 41 + 2 ^ 36) 1 ∧
    StoreGoes s (2 ^ 41 + 2 ^ 36) ∧ OwnPlace s 0x3FFFC 4 (2 ^ 41 + 0x3FFFC) ∧
    StoreMay s 0x3FFFC (2 ^ 41 + 0x3FFFC) 4 ∧ StoreGoes s (2 ^ 41 + 0x3FFFC) ∧
    int ((s.regs.get 5).toInt + (0 : BitVec 11).toInt) = 0x3FFF8 ∧
    nat ((s.regs.get (0 : CReg).full).toNat + (0 : BitVec 6).toNat * 4) = 0x3FFFC ∧
    nat ((s.regs.get (1 : CReg).full).toNat + (0 : BitVec 6).toNat * 8) = 0x2000 := by
  unfold OwnPlace StoreMay StoreGoes
  dsimp only
  constructorm* _ ∧ _ <;> decide +kernel

/-- Misaligned by one; the ends of both holes; the top of translated memory; the last word of the code region. -/
theorem wit_BadAddressesTrap :
    let s := five 0x2001 0x40000 0x200000 (2 ^ 48) 0x1FF8
    (0x2001 : Word).toNat % 8 ≠ 0 ∧ (0x2001 : Word).toNat % 4 ≠ 0 ∧ (0x2001 : Word).toNat % 2 ≠ 0 ∧
    s.focus.1 < 2 ^ 18 ∧ (0x40000 : Word).toNat % 8 = 0 ∧ (0xFFFF8 : Word).toNat % 8 = 0 ∧
    (2 ^ 18 ≤ (0x40000 : Word).toNat ∧ (0x40000 : Word).toNat < 2 ^ 20) ∧
    (2 ^ 18 ≤ (0xFFFF8 : Word).toNat ∧ (0xFFFF8 : Word).toNat < 2 ^ 20) ∧
    (2 ^ 21 ≤ (0x200000 : Word).toNat ∧ (0x200000 : Word).toNat < 2 ^ 32) ∧
    (2 ^ 21 ≤ (0xFFFFFFF8 : Word).toNat ∧ (0xFFFFFFF8 : Word).toNat < 2 ^ 32) ∧
    2 ^ 48 ≤ (s.regs.get 8).toNat ∧ 2 ^ 48 ≤ (BitVec.allOnes 64 : Word).toNat ∧
    (0x1FF8 : Word).toNat < s.me.bank.kernel.cb * 8192 ∧ (0x1FF8 : Word).toNat < 2 ^ 18 ∧
    int ((s.regs.get 9).toInt + (0 : BitVec 11).toInt) = 0x1FF8 ∧
    nat ((s.regs.get (1 : CReg).full).toNat + (0 : BitVec 6).toNat * 8) = 0x1FF8 := by decide +kernel

/-- A chunk of 64 scratchpad words. -/
def fullChunk : Chunk :=
  { Chunk.empty with cells := (List.range 64).map fun k => (2 ^ 41 + 2 ^ 36 + 8 * k, 1) }

/-- Context 1 beside the task, with a chunk that wrote the TCM word at 0x2000; forced or not. -/
def beside (actf : Word) : State :=
  let x := coreWith .ready (gs [(5, 0x2000)])
  let r : Regs := { Regs.reset with cr := { CtxRegs.reset with actf := actf } }
  let y : Ctx := { Ctx.reset with
    regs := r, st := .ready, chunk := { Chunk.empty with cells := [(2 ^ 41 + 0x2000, 1)] } }
  one (x.putCtx 1 y)

theorem wit_StoresThatWait_full :
    let s := five 0x100200 0 0 0 0
    let t := s.setCx { s.cx with chunk := fullChunk }
    OwnPlace t 0x100200 8 (2 ^ 41 + 2 ^ 36 + 512) ∧ StoreMay t 0x100200 (2 ^ 41 + 2 ^ 36 + 512) 8 ∧
    t.cx.chunk.full (2 ^ 41 + 2 ^ 36 + 512) = true := by
  unfold OwnPlace StoreMay
  dsimp only
  constructorm* _ ∧ _ <;> decide +kernel

/-- The other chunk's task is speculative, then forced. -/
theorem wit_StoresThatWait_conflict :
    (OwnPlace (beside 0) 0x2000 8 (2 ^ 41 + 0x2000) ∧ StoreMay (beside 0) 0x2000 (2 ^ 41 + 0x2000) 8 ∧
      (beside 0).cx.chunk.full (2 ^ 41 + 0x2000) = false ∧ (1 : Fin 4) ≠ (beside 0).focus.2 ∧
      (∀ i : Fin 4, i ≠ 1 → i ≠ (beside 0).focus.2 →
        ((beside 0).ctx (beside 0).focus.1 i).wrote ((2 ^ 41 + 0x2000) / 8) = false) ∧
      ((beside 0).ctx 0 1).wrote ((2 ^ 41 + 0x2000) / 8) = true ∧ (beside 0).cx.forced = false ∧
      (beside 0).cx.ordered = none ∧ ((beside 0).ctx 0 1).forced = false) ∧
    ((beside 2).ctx 0 1).wrote ((2 ^ 41 + 0x2000) / 8) = true ∧ ((beside 2).ctx 0 1).forced = true ∧
    (beside 2).cx.forced = false := by
  unfold OwnPlace StoreMay
  constructorm* _ ∧ _ <;> decide +kernel

theorem wit_LoadAfterStoreReadsTheStoredValue :
    let s := five 0x2000 77 0 0 0
    OwnPlace s 0x2000 8 (2 ^ 41 + 0x2000) ∧ StoreMay s 0x2000 (2 ^ 41 + 0x2000) 8 ∧ StoreGoes s (2 ^ 41 + 0x2000) ∧
    s.cx.forced = false ∧ nextIs (exec (.sd 6 5 0) s) (fun _ => true) = true := by
  unfold OwnPlace StoreMay StoreGoes
  dsimp only
  constructorm* _ ∧ _ <;> decide +kernel

/-! Floating point: 1.0 and −2.0, zeros, infinities, quiet and signalling NaNs, in both formats. -/

/-- Single-precision 1.0, −2.0 and −0 have their values; so do the doubles and bfloat16. -/
theorem wit_values :
    value fmt32 0x3F800000 = some 1 ∧ value fmt32 0xC0000000 = some (-2) ∧ value fmt32 0x80000000 = some 0 ∧
    value fmt64 0x3FF0000000000000 = some 1 ∧ value fmt64 0xC000000000000000 = some (-2) ∧
    value fmt64 0x8000000000000000 = some 0 ∧ value fmtBf 0x3F80 = some 1 ∧ value fmtBf 0 = some 0 := by
  refine ⟨?_, ?_, ?_, ?_, ?_, ?_, ?_, ?_⟩ <;>
    norm_num [value, expo, frac, isNegative, bias, fmt32, fmt64, fmtBf]

/-- The operands of the rounding statements: any of the values above, a divisor that is not zero. -/
theorem wit_FloatingArithmeticIsCorrectlyRounded :
    let s := five 0x3F800000 0xC0000000 0x3FF0000000000000 0xC000000000000000 0x80000000
    low fmt32 (s.regs.get 5) = 0x3F800000 ∧ low fmt32 (s.regs.get 6) = 0xC0000000 ∧
    low fmt64 (s.regs.get 7) = 0x3FF0000000000000 ∧ low fmt64 (s.regs.get 8) = 0xC000000000000000 ∧
    low fmt32 (s.regs.get 9) = 0x80000000 ∧ (-2 : Rat) ≠ 0 ∧ (-2 : Rat) < 0 ∧ (0 : Rat) < 1 := by
  dsimp only
  refine ⟨?_, ?_, ?_, ?_, ?_, ?_, ?_, ?_⟩ <;> decide +kernel

/-- Each kind of operand of the special cases, and each pair the clauses tell apart. -/
theorem wit_FloatingSpecialCases :
    (isNan fmt32 0x7FC00000 = true ∧ isSignalling fmt32 0x7FC00000 = false ∧ isNan fmt32 0x7F800001 = true ∧
      isSignalling fmt32 0x7F800001 = true ∧ isInf fmt32 0x7F800000 = true ∧ isInf fmt32 0xFF800000 = true ∧
      isNan fmt32 0x7F800000 = false ∧ isZero fmt32 0x80000000 = true ∧ isZero fmt32 0 = true ∧
      isNegative fmt32 0xFF800000 = true ∧ isNan fmt32 0 = false ∧ isZero fmt32 0x3F800000 = false ∧
      isInf fmt32 0x3F800000 = false) ∧
    (isNan fmt64 0x7FF8000000000000 = true ∧ isSignalling fmt64 0x7FF0000000000001 = true ∧
      isInf fmt64 0x7FF0000000000000 = true ∧ isInf fmt64 0xFFF0000000000000 = true ∧
      isNan fmt64 0x7FF0000000000000 = false ∧ isZero fmt64 0x8000000000000000 = true ∧
      isZero fmt64 0x3FF0000000000000 = false) ∧
    (isNan fmtBf 0x7FC0 = true ∧ isSignalling fmtBf 0x7F81 = true ∧ isInf fmtBf 0xFF80 = true) ∧
    (value fmt32 0x7F800000).isSome = false ∧ (value fmt32 0x7FC00000).isSome = false ∧
    (value fmt32 0x3F800000).isSome = true ∧ (value fmt64 0xFFF0000000000000).isSome = false := by
  refine ⟨by decide +kernel, by decide +kernel, by decide +kernel, ?_, ?_, ?_, ?_⟩ <;>
    norm_num [value, expo, frac, isNegative, fmt32, fmt64]

/-- An integer beyond the range, a tie, and a value below zero, for the conversions. -/
theorem wit_FloatingConversions :
    value fmt32 0x7F000000 = some (2 ^ 127) ∧ value fmt32 0x3F000000 = some (1 / 2) ∧
    value fmt32 0xFF000000 = some (-(2 ^ 127)) := by
  refine ⟨?_, ?_, ?_⟩ <;> norm_num [value, expo, frac, isNegative, bias, fmt32]

theorem wit_ContextRegistersReadAndWrite :
    (∃ e ∈ contextRegs, e.number < 0x040) ∧ (∃ e ∈ contextRegs, 0x04C < e.number) ∧
    (five 0 0 0 0 0).ctl = false ∧ (ctl 2 Regs.reset).ctl = true := by
  refine ⟨⟨_, List.mem_cons_self, by decide⟩,
    ⟨⟨0x060, 0xFFFF_FFFF_FFFF_FFFF, (·.rngk), fun r x => { r with rngk := x }⟩, ?_, by decide⟩,
    by decide +kernel, by decide +kernel⟩
  simp [contextRegs]

theorem wit_CoreRegisterWritesBelongToTheChunk :
    (0x090, 0x00FF_FFFF_FF03_FFFF, CoreReg.stpl) ∈ coreRegs ∧ fld (five 0 0 0 0 0).view.stst 14 0 = 0 ∧
    (five 0 0 0 0 0).ctl = false ∧ fld (ctl 1 Regs.reset).view.stst 14 0 = 0 ∧ (ctl 1 Regs.reset).ctl = true ∧
    (let s := five 0 0 0 0 0
     fld (s.setMe { s.me with bank := { s.me.bank with stst := 0x4000 } }).view.stst 14 0 ≠ 0) := by
  decide +kernel

theorem wit_ReadOnlyRegistersKeepTheirValue :
    (∃ e ∈ readOnlyRegs, e.1 = 0x000 ∧ e.1 < 0x040) ∧ (∃ e ∈ readOnlyRegs, e.1 = 0x061 ∧ 0x04D < e.1) ∧
    (∃ e ∈ readOnlyRegs, e.1 = 0x049) ∧ (five 0 0 0 0 0).ctl = false := by
  refine ⟨⟨_, List.mem_cons_self, rfl, by decide⟩, ⟨(0x061, (·.view.sfst)), ?_, rfl, by decide⟩,
    ⟨(0x049, (·.regs.cr.grow)), ?_, rfl⟩, by decide +kernel⟩ <;> simp [readOnlyRegs]

/-- The numbers beside each assigned range, on both profiles. -/
theorem wit_UnassignedRegistersTrapIllegal :
    (∀ n ∈ [(0x020 : BitVec 11), 0x03F, 0x04E, 0x05F, 0x062, 0x073, 0x0A3, 0x100, 0x11B, 0x140, 0x7FF],
      assigned (five 0 0 0 0 0).ctl n.toNat = false) ∧
    (∀ n ∈ [(0x040 : BitVec 11), 0x04D, 0x0FF, 0x11C, 0x13F, 0x141], assigned (ctl 0 Regs.reset).ctl n.toNat = false) := by
  decide +kernel

theorem wit_PrivilegedRegistersTrapBelowTheirLevel :
    (∀ n ∈ [(0x101 : BitVec 11), 0x104, 0x10E, 0x140, 0x105, 0x11B],
      0x100 ≤ n.toNat ∧ assigned true n.toNat = true ∧ (ctl 0 Regs.reset).level < privilegeOf n.toNat) ∧
    (∀ n ∈ [(0x105 : BitVec 11), 0x11B, 0x10F], 0x100 ≤ n.toNat ∧ assigned true n.toNat = true ∧
      (ctl 1 Regs.reset).level < privilegeOf n.toNat) ∧
    (ctl 0 Regs.reset).ctl = true ∧ (five 0 0 0 0 0).ctl = false := by decide +kernel

theorem wit_HypervisorRegisterWrites :
    let s := ctl 2 (gs [(5, 0x40), (6, 0x41)])
    s.ctl = true ∧ s.level = 2 ∧ (s.regs.get 5).toNat % 64 = 0 ∧ (s.regs.get 6).toNat % 64 ≠ 0 := by decide +kernel

/-! ### Witnesses: tasks, commits, starts -/

/-- A request of two words from core 1 to core 0, with handler 0x200 and MID 5. -/
def req : Msg where
  w0 := 0x0005_0000_0000_0200
  w1 := 0x0000_0002_3FFC_0000
  payload := [1, 2]
  kind := .task
  mid := 5
  src := 1
  dst := 0
  dmod := 0xFFF
  vd := 0
  entry := some 3
  barred := false
  rect := 0
  rels := []
  abcnt := 0
  eff := []
  order := 0
  hyper := false

/-- A task of that request, speculative or anchored, as it stands after its registers were set by hand. -/
def runs (anch : Bool) (r : Regs) : State :=
  let s := fab r
  s.setCx { s.cx with msg := some req, isRequest := true, anch := anch }

theorem wit_TaskInstructionsReachACommitPoint :
    let s := five 0x100 0x1000 0xFE 0x1002 0x101
    s.ctl = false ∧ (ctl 0 Regs.reset).ctl = true ∧
    (∀ r ∈ [(5 : GReg), 6], (s.regs.get r).toNat % 2 ^ 48 % 2 = 0 ∧
      s.me.bank.hblo.toNat ≤ (s.regs.get r).toNat % 2 ^ 48 ∧ (s.regs.get r).toNat % 2 ^ 48 ≤ s.me.bank.hbhi.toNat) ∧
    (s.regs.get 7).toNat < s.me.bank.hblo.toNat ∧ s.me.bank.hbhi.toNat < (s.regs.get 8).toNat ∧
    (s.regs.get 9).toNat % 2 = 1 := by decide +kernel

theorem wit_AbortAndBudgq :
    let s := runs false { Regs.reset with cr := { CtxRegs.reset with budg := 100 } }
    s.ctl = false ∧ s.cx.msg = some req ∧ s.cx.isRequest = true ∧ s.cx.replied = false ∧
    (five 0 0 0 0 0).cx.msg = none ∧ s.regs.cr.budg ≠ 0 := by decide +kernel

/-- Levels 0, 1 and 2, a failure at either stage. -/
theorem wit_ControlCoreTrapsEnterALevel :
    (ctl 0 Regs.reset).ctl = true ∧ (ctl 0 Regs.reset).level = 0 ∧ (ctl 1 Regs.reset).level = 1 ∧
    (ctl 2 Regs.reset).level = 2 ∧ (ctl 2 Regs.reset).ctl = true ∧ (Trap.at_ .priv 0 0).cause ≠ .integ ∧
    (Trap.at_ .priv 0 0).cause ≠ .uncorr ∧ (Trap.at_ .priv 0 0).stage2 = false ∧
    ({ Trap.at_ .pageR 0 0 with stage2 := true } : Trap).stage2 = true := by decide +kernel

/-- A control core number of 64 is none; TSVC 0 is core 0. -/
theorem wit_TaskTrapsAbortOrSuspend :
    (runs true Regs.reset).ctl = false ∧ (runs true Regs.reset).cx.anch = true ∧
    (runs false Regs.reset).cx.anch = false ∧ (runs false Regs.reset).cx.msg = some req ∧
    (runs false Regs.reset).regs.cr.rfinf.getLsbD 16 = false ∧ (Trap.at_ .trapi 0 1).cause ≠ .integ ∧
    (Trap.at_ .trapi 0 1).cause ≠ .uncorr ∧ coreRef (fld (runs false Regs.reset).me.bank.tsvc 30 0) = some (0, 0) ∧
    coreRef (fld (0x4000_0040 : Word) 30 0) = none ∧ coreRef (fld (0x4000_003F : Word) 30 0) = some (controlCore 63, 0) := by
  decide +kernel

/-- No other context of the module runs, where none of the core does. -/
theorem no_other_runs (x : Core) (h : ∀ j : Fin 4, j ≠ 0 → (x.ctx j).running = false) :
    ∀ d (j : Fin 4), (d, j) ≠ ((0, 0) : Nat × Fin 4) → ((one x).ctx d j).running = false := by
  intro d j hd
  by_cases h0 : d = 0
  · subst h0
    have hj : j ≠ 0 := fun e => hd (by rw [e])
    simpa [State.ctx, State.core, one, Tab.get, Tab.look] using h j hj
  · have : ∀ j : Fin 4, (Core.reset.ctx j).running = false := by decide +kernel
    simpa [State.ctx, State.core, one, Tab.get, Tab.look, h0] using this j

/-- A chunk that stored at 0x2000 and wrote RFH. -/
def oneStore : Chunk :=
  { Chunk.empty with cells := [(2 ^ 41 + 0x2000, 1)], wsig := sigBit (2 ^ 41 + 0x2000), pend := [.reg .rfh 0x100] }

/-- Core 0 whose context 0 waits at a commit with that chunk. -/
def waits (a : After) : Core :=
  let x := coreWith .waiting Regs.reset
  let y : Ctx := x.ctx 0
  x.putCtx 0 { y with wait := .commit a, chunk := oneStore, msg := some req, isRequest := true }

theorem waits_rest (a : After) : ∀ j : Fin 4, j ≠ 0 → ((waits a).ctx j).running = false := by
  intro j hj
  have h : (waits a).ctx j = Core.reset.ctx j := by
    fin_cases j
    · exact absurd rfl hj
    all_goals rfl
  have hr : ∀ j : Fin 4, (Core.reset.ctx j).running = false := by decide +kernel
  rw [h, hr]

/-- What does not depend on what follows the commit. -/
theorem commitsPlainly_of (a : After) (h : (one (waits a)).couchTakes (0, 0) = true) :
    CommitsPlainly (one (waits a)) 0 0 a := by
  have hk : ((one (waits a)).ctx 0 0).chunk = oneStore := rfl
  refine ⟨⟨by decide, h, rfl, ?_, ?_, ?_, ?_⟩, ?_⟩
  · rw [hk]; decide +kernel
  · rw [hk]; decide +kernel
  rotate_left 2
  · rw [hk]; decide +kernel
  · have : ((one (waits a)).core 0).sendq = Core.reset.sendq := rfl
    rw [this]; decide +kernel
  · intro d j _ hd hr
    rw [no_other_runs _ (waits_rest a) d j hd] at hr
    exact absurd hr (by decide)

theorem wit_CommitMakesAChunkLasting :
    CommitsPlainly (one (waits (.next 4))) 0 0 (.next 4) ∧ CommitsPlainly (one (waits .halt)) 0 0 .halt ∧
    CommitsPlainly (one (waits (.haltr 0x100))) 0 0 (.haltr 0x100) ∧
    CommitsPlainly (one (waits (.suspend (Trap.at_ .trapi 0 1) 4 0))) 0 0 (.suspend (Trap.at_ .trapi 0 1) 4 0) ∧
    ((one (waits .halt)).ctx 0 0).msg = some req ∧ ((one (waits .halt)).ctx 0 0).isRequest = true ∧
    ((one (waits .halt)).ctx 0 0).replied = false :=
  ⟨commitsPlainly_of _ (by decide +kernel), commitsPlainly_of _ (by decide +kernel),
    commitsPlainly_of _ (by decide +kernel), commitsPlainly_of _ (by decide +kernel), rfl, rfl, rfl⟩

/-- A context beside it that read the line, speculative or anchored with a count of restarts. -/
def reader (anch : Bool) (n : Nat) : State :=
  let x := waits (.next 4)
  let y : Ctx := x.ctx 0
  let x := x.putCtx 0 { y with chunk := { oneStore with pend := [] } }
  one (x.putCtx 1 { Ctx.reset with
    st := .ready, anch := anch, restarts := n, chunk := { Chunk.empty with rsig := sigBit (2 ^ 41 + 0x2000) } })

theorem wit_CommitRollsBackTheChunksItMeets :
    let s := reader false 0
    s.couchTakes (0, 0) = true ∧ (s.ctx 0 0).wait = .commit (.next 4) ∧ (s.ctx 0 0).chunk.pend = [] ∧
    (∀ e ∈ (s.ctx 0 0).chunk.cells, 2 ^ 41 ≤ e.1) ∧ ((0, 1) : Nat × Fin 4) ≠ (0, 0) ∧
    (s.ctx 0 1).running = true ∧ (s.ctx 0 1).meets (s.ctx 0 0).chunk.wsig = true ∧ (s.ctx 0 1).forced = false ∧
    (s.ctx 0 1).anch = false ∧ ((reader true 2).ctx 0 1).anch = true ∧ ((reader true 2).ctx 0 1).restarts < 3 ∧
    ((reader true 3).ctx 0 1).forced = false ∧ (reader true 3).couchTakes (0, 0) = true ∧
    ¬((reader true 3).ctx 0 1).restarts < 3 := by
  dsimp only
  constructorm* _ ∧ _ <;> decide +kernel

/-- A core with the request waiting and the contexts below i taken. -/
def starts (i : Nat) (m : Msg) : State :=
  let x : Core := { Core.reset with bank := bank, qReq := [m] }
  let y : Ctx := { Ctx.reset with st := .suspended, anch := true }
  { one ((([0, 1, 2] : List (Fin 4)).filter fun j => decide (j.val < i)).foldl (fun x j => x.putCtx j y) x) with
    vds := [(0, { Vd.reset with switchedIn := true })] }

/-- Contexts 0 and 3; no abort counted and four; 2 words and 30. -/
theorem wit_TaskStartSetsTheRegisters :
    (let s := starts 0 req
     (0 < 2 ^ 18 ∧ (s.cluster (0 / 8)).lost = false ∧ (s.cluster (0 / 8)).shared = false ∧
     (s.core 0).bank.kst = .active ∧ (s.vdev (s.core 0).bank.vdid).switchedIn = true ∧ (s.core 0).stopped = false ∧
     (s.core 0).svc = [] ∧ (s.core 0).qSys = [] ∧ (s.core 0).refusals = [] ∧ (s.core 0).qReply = [] ∧
     (s.core 0).qOrd = [] ∧ (s.core 0).qReq = [req]) ∧ req.kind = .task ∧ req.payload.length ≤ 30 ∧
     (s.core 0).bank.kernel.cb + (s.core 0).bank.kernel.rb + 4 ≤ 32 ∧ (s.core 0).bank.kernel.banks = 32 ∧ (s.core 0).bank.kernel.stk = false ∧
     ((s.core 0).ctx 0).st = .free ∧ (∀ j, ((s.core 0).ctx j).st ≠ .retained)) ∧
    (let m := { req with abcnt := 4, payload := List.replicate 30 9 }
     let s := starts 3 m
     m.payload.length ≤ 30 ∧ (s.core 0).qReq = [m] ∧ ((s.core 0).ctx 3).st = .free ∧
     (∀ j, j < 3 → ((s.core 0).ctx j).st ≠ .free) ∧ (∀ j, ((s.core 0).ctx j).st ≠ .retained)) := by
  dsimp only
  constructorm* _ ∧ _ <;> decide +kernel

/-- A core whose context 0 has a state and what it waits for, and a service message. -/
def held (st : CtxSt) (w : Wait) (anch : Bool) (q : List Msg) : State :=
  let x := coreWith st Regs.reset
  let y : Ctx := x.ctx 0
  one { x.putCtx 0 { y with wait := w, anch := anch } with svc := q }

theorem wit_WaitsServicesAndKills :
    ((held .waiting .again true []).ctx 0 0).st = .waiting ∧ ((held .waiting .again true []).ctx 0 0).wait = .again ∧
    ((held .waiting (.ring false 0 0 5) true []).ctx 0 0).wait = .ring false 0 0 5 ∧
    0 ≤ hFilled (((held .waiting (.ring false 0 0 5) true []).bank 0).ring 0) ∧
    (let m := { req with w0 := 0x0000_FFFF_FFFF_FF00, payload := [nat 0] }
     ((held .suspended .none true [m]).core 0).svc = [m] ∧ m.payload = [nat (0 : Fin 4).val] ∧
     ((held .suspended .none true [m]).ctx 0 0).st = .suspended ∧ fld m.w0 47 0 = 0xFFFF_FFFF_FF00 ∧
     ((held .suspended .none true [m]).core 0).saved = false ∧
     ((held .suspended .none true [m]).core 0).saveHalt = none) ∧
    fld (0x0000_FFFF_FFFF_FF01 : Word) 47 0 = 0xFFFF_FFFF_FF01 ∧
    ((held .running .none true []).ctx 0 0).running = true ∧ ((held .running .none true []).ctx 0 0).anch = true ∧
    ((held .running .none true []).bank 0).kst = .active ∧ ((held .running .none false []).ctx 0 0).anch = false ∧
    (let m := { req with kind := .fault, payload := [nat 0] }
     let s := { held .running .none true [] with net := [m] }
     s.net = [m] ∧ m.kind = .fault ∧ m.dst = 0 ∧ (s.bank 0).vdid = m.vd ∧ (s.bank 0).kst = .active ∧
     m.payload = [nat (s.bank 0).kernel.serial]) := by
  dsimp only
  constructorm* _ ∧ _ <;> decide +kernel

/-! ### Witnesses: messages, rings, atomics, scopes -/

/-- The task of `req` with an image address and a header, and a send queue. -/
def sends (a hd : Word) (q : Vector Entry 32) : State :=
  let s := runs false (gs [(5, a), (6, hd)])
  s.setMe { s.me with sendq := q }

def noEntry : Vector Entry 32 := Vector.replicate 32 Entry.free
/-- Entries 0 to n − 1 REFUSED. -/
def refusedTo (n : Nat) : Vector Entry 32 :=
  Vector.ofFn fun i => if i.val < n then { Entry.free with st := .refused } else Entry.free

/-- Each of 16 entries awaits a reply. -/
def slotless : State :=
  sends 0x2000 0 (Vector.ofFn fun i => if i.val < 16 then { Entry.free with st := .await, resv := true } else Entry.free)

/-- Entry 0 of an empty queue and entry 31 of one that is full but for it; images at 0x2000 and at the top of the TCM;
LEN 0 and 30; a request to core 1, an ordered message, a release-tagged request, a control core; no room. -/
theorem wit_SendsTakeTheLowestFreeEntry :
    (let s := sends 0x2000 0x0000_0000_3FFC_0001 noEntry
     QuietTcm s ∧ goodHeader s 0x0000_0000_3FFC_0001 ∧ lenOf (0x0000_0000_3FFC_0001 : Word) < 2 ∧
     hasRoom s true ∧ lowestFree s 0 ∧ (0x0000_0000_3FFC_0001 : Word).toNat / 2 ^ 30 % 4 = 0) ∧
    (let s := sends 0x3FF00 0x0000_001E_3FFC_0001 (refusedTo 31)
     QuietTcm s ∧ goodHeader s 0x0000_001E_3FFC_0001 ∧ hasRoom s true ∧ lowestFree s 31 ∧ 0x3FF00 % 8 = 0 ∧
     0x3FF00 + 256 ≤ 2 ^ 18) ∧
    (let s := sends 0x2000 0x0000_0002_BFFC_0001 noEntry
     goodHeader s 0x0000_0002_BFFC_0001 ∧ s.regs.cr.tstp.toNat ≤ (tcmWord s (0x2000 + 16)).toNat ∧
     (0x0000_0002_BFFC_0001 : Word).toNat / 2 ^ 30 % 4 = 2 ∧ hasRoom s false) ∧
    (let s := sends 0x2000 0x0000_0080_3FFC_0001 noEntry
     goodHeader (s.setRegs { s.regs with cr := { s.regs.cr with scur := 2 ^ 32 } }) 0x0000_0080_3FFC_0001) ∧
    (let s := sends 0x2000 0x0000_0100_3FFC_003F noEntry
     goodHeader s 0x0000_0100_3FFC_003F) ∧
    (let s := sends 0x2000 0x0000_0000_3FFC_0001 (refusedTo 32)
     fld s.me.bank.sqlim 5 0 ≤ entriesUsed s + min 16 (fld s.view.sqfh 12 8) ∧ s.view.sqfh.getLsbD 0 = false) ∧
    (let s := sends 0x2000 0x0000_0000_3FFC_0001 (refusedTo 32)
     let t := s.setMe { s.me with bank := { s.me.bank with sqfh := 1 } }
     t.view.sqfh.getLsbD 0 = true ∧ ∃ e ∈ t.me.sendq.toList, e.st ≠ .free ∧ notMine t e) ∧
    (let s := slotless
     entriesUsed s + min 16 (fld s.view.sqfh 12 8) < fld s.me.bank.sqlim 5 0 ∧
     fld s.me.bank.qdep 12 8 ≤ slotsUsed s) := by
  unfold slotless notMine
  unfold QuietTcm goodHeader hasRoom lowestFree
  dsimp only
  constructorm* _ ∧ _ <;> decide +kernel

theorem wit_SendsTakeTheLowestFreeEntry_reply :
    let s := sends 0x2000 0x0000_001E_0000_0000 noEntry
    s.cx.msg = some req ∧ s.cx.isRequest = true ∧ s.cx.replied = false ∧
    (∀ e ∈ s.me.sendq.toList, ¬(e.isRply = true ∧ e.st = .held ∧ e.ctx = s.focus.2.val)) ∧
    lenOf (0x0000_001E_0000_0000 : Word) ≤ 30 ∧ (0x0000_001E_0000_0000 : Word).getLsbD 39 = false ∧
    req.w1.getLsbD 40 = false ∧ req.w1.toNat / 2 ^ 6 % 2 ^ 12 = 0 ∧ entriesUsed s < fld s.me.bank.sqlim 5 0 := by
  dsimp only
  constructorm* _ ∧ _ <;> decide +kernel

/-- A system message; an odd image; each fault of a header, one bit or count beyond its limit; no scope; no request. -/
theorem wit_BadSendsTrap :
    (sends 0x2000 0 noEntry).ctl = false ∧ (0xC000_0000 : Word).toNat / 2 ^ 30 % 4 = 3 ∧
    (0x2004 : Word).toNat % 8 ≠ 0 ∧ (0x2000 : Word).toNat % 8 = 0 ∧ (0 : Word).toNat / 2 ^ 30 % 4 ≠ 3 ∧
    (0x200_0000_0000 : Word).toNat / 2 ^ 41 ≠ 0 ∧ (0x20_0000_0000 : Word).toNat / 2 ^ 37 % 4 ≠ 0 ∧
    30 < lenOf (0x1F_0000_0000 : Word) ∧ (0x4000_0000 : Word).toNat / 2 ^ 30 % 4 = 1 ∧
    (0x100_0000_0040 : Word).getLsbD 40 = true ∧ (0x100_0000_0040 : Word).toNat / 2 ^ 6 % 2 ^ 12 ≠ 0 ∧
    (0x1_8000_0000 : Word).toNat / 2 ^ 30 % 4 = 2 ∧ lenOf (0x1_8000_0000 : Word) < 2 ∧
    (0x80_0000_0000 : Word).getLsbD 39 = true ∧ (0x80_0000_0000 : Word).toNat / 2 ^ 41 = 0 ∧
    (0x80_0000_0000 : Word).toNat / 2 ^ 37 % 4 = 0 ∧ (0x80_0000_0000 : Word).getLsbD 40 = false ∧
    (sends 0x2000 0 noEntry).regs.cr.scur.getLsbD 32 = false ∧ (five 0 0 0 0 0).cx.msg = none := by
  constructorm* _ ∧ _ <;> decide +kernel

/-- Entry 31 and number 32; a REFUSED entry, one that another context claims, one of another state. -/
theorem wit_ResendAndDropClaimRefusedEntries :
    (sends 31 0 (refusedTo 32)).ctl = false ∧ 31 < (32 : Word).toNat ∧ (31 : Word).toNat = (31 : Fin 32).val ∧
    (sends 31 0 (refusedTo 32)).me.sendq[(31 : Fin 32)].st = .refused ∧
    (sends 31 0 (refusedTo 32)).me.sendq[(31 : Fin 32)].claim = none ∧
    (sends 31 0 (refusedTo 31)).me.sendq[(31 : Fin 32)].st ≠ .refused ∧
    (let q := (refusedTo 32).set (31 : Fin 32) { Entry.free with st := .refused, claim := some 1 }
     (sends 31 0 q).me.sendq[(31 : Fin 32)].claim ≠ none ∧
     (sends 31 0 q).me.sendq[(31 : Fin 32)].claim ≠ some (sends 31 0 q).focus.2.val) := by
  dsimp only
  constructorm* _ ∧ _ <;> decide +kernel

/-- A task whose handle h1 holds a ring word, with a register. -/
def ringed (x a : Word) : State :=
  let s := five a 0 0 0 0
  s.setMe { s.me with bank := { s.me.bank with h := s.me.bank.h.set 1 x } }

/-- A good descriptor, as the statement has it. -/
def goodRing (n : Nat) : Prop :=
  n < 2 ^ 26 ∧ 3 ≤ n / 2 ^ 18 % 16 ∧ n / 2 ^ 18 % 16 ≤ 12 ∧ 1 ≤ n / 2 ^ 22 % 16 ∧ n / 2 ^ 22 % 16 ≤ 10 ∧
  n % 2 ^ 18 % 2 ^ (n / 2 ^ 18 % 16) = 0 ∧ n % 2 ^ 18 + ringN (nat n) * 2 ^ (n / 2 ^ 18 % 16) ≤ 2 ^ 18 ∧
  8192 ≤ n % 2 ^ 18

/-- The least and the largest slot and count, each limit passed by one, an unset handle; rings of two slots: empty,
full, and steps to and beyond what they hold. -/
theorem wit_RingInstructions :
    (five 0 0 0 0 0).ctl = false ∧ (five 0 0 0 0 0).me.bank.kernel.cb * 8192 = 8192 ∧
    goodRing (0x2000 + 3 * 2 ^ 18 + 1 * 2 ^ 22) ∧ goodRing (0x20000 + 12 * 2 ^ 18 + 5 * 2 ^ 22) ∧
    goodRing (0x2000 + 3 * 2 ^ 18 + 10 * 2 ^ 22) ∧
    ¬goodRing (2 ^ 26 + 0x2000 + 3 * 2 ^ 18 + 1 * 2 ^ 22) ∧ ¬goodRing (0x2000 + 2 * 2 ^ 18 + 1 * 2 ^ 22) ∧
    ¬goodRing (0x4000 + 13 * 2 ^ 18 + 1 * 2 ^ 22) ∧ ¬goodRing (0x2000 + 3 * 2 ^ 18) ∧
    ¬goodRing (0x2000 + 3 * 2 ^ 18 + 11 * 2 ^ 22) ∧ ¬goodRing (0x2004 + 3 * 2 ^ 18 + 1 * 2 ^ 22) ∧
    ¬goodRing (0x3F000 + 12 * 2 ^ 18 + 1 * 2 ^ 22) ∧ ¬goodRing (0x1FF8 + 3 * 2 ^ 18 + 1 * 2 ^ 22) ∧
    ((ringed 0 0).view.ring 1).toNat / 2 ^ 22 % 16 = 0 ∧
    (let x : Word := 0x2000 + 3 * 2 ^ 18 + 1 * 2 ^ 22 + 2 * 2 ^ 37
     (ringed x 2).view.ring 1 = x ∧ x.toNat / 2 ^ 22 % 16 ≠ 0 ∧ ringFilled x = 2 ∧ ringN x = 2 ∧
     x.toNat / 2 ^ 26 % 2 ^ 11 < 2 * ringN x ∧ (2 : Word).toNat ≤ ringFilled x ∧ ringFilled x < (3 : Word).toNat ∧
     ringN x - ringFilled x < (1 : Word).toNat ∧ (2 : Word).toNat ≤ ringN x ∧ ringN x < (3 : Word).toNat ∧
     ringN x ≤ 1024) ∧
    (let x : Word := 0x2000 + 3 * 2 ^ 18 + 1 * 2 ^ 22 + 3 * 2 ^ 26 + 3 * 2 ^ 37
     ringFilled x = 0 ∧ x.toNat / 2 ^ 26 % 2 ^ 11 < 2 * ringN x ∧ ringFilled x + (2 : Word).toNat ≤ ringN x ∧
     ringN x ≤ 1024 ∧ (ctl 0 Regs.reset).ctl = true) := by
  unfold goodRing
  dsimp only
  constructorm* _ ∧ _ <;> decide +kernel

/-- A READY entry of core 0 with a request to core 1; a message at a core with room and without; a verdict of each
kind. -/
theorem wit_MessageLifeOnTheModule_depart :
    let e := { Entry.free with st := .ready, hd := 0x0000_0002_3FFC_0001, haddr := 0x200, payload := [1, 2] }
    let s := sends 0 0 (noEntry.set (31 : Fin 32) e)
    (s.core 0).sendq[(31 : Fin 32)].st = .ready ∧ (s.core 0).sendq[(31 : Fin 32)].away = false ∧
    (s.core 0).sendq[(31 : Fin 32)].atomic = none ∧ (s.core 0).saved = false ∧ (s.core 0).saveHalt = none ∧
    netMod s 0 (hdrMod (s.core 0).sendq[(31 : Fin 32)].hd) = 0xFFF ∧
    (∀ f ∈ (s.core 0).sendq.toList, f.st = .ready → (s.core 0).sendq[(31 : Fin 32)].seq ≤ f.seq) := by
  dsimp only
  constructorm* _ ∧ _ <;> decide +kernel

/-- A message on its way, with one of another order behind it, to a core with requests in its queue. -/
def arrives (m : Msg) (q : List Msg) : State :=
  { one { coreWith .free Regs.reset with qReq := q } with net := [{ m with order := 4 }, { m with order := 5 }] }

/-- Request, ordered and system class; handlers at both ends of the bounds; an empty queue and a full one. -/
theorem wit_MessageLifeOnTheModule_arrive :
    (let m := { req with w0 := 0x100, order := 4 }
     let rest := [{ m with order := 5 }]
     let s := arrives m []
     s.net = m :: rest ∧ m.kind = .task ∧ m.cls = .request ∧ m.dst < 2 ^ 18 ∧ m.src < 2 ^ 18 ∧
     m.dmod = 0xFFF ∧ m.barred = false ∧ (∀ r ∈ rest, m.order = 0 ∨ r.order = 0 ∨ m.order ≤ r.order) ∧
     (s.core m.dst).saveHalt = none ∧ m.w1.getLsbD 39 = false ∧ m.rels = [] ∧
     (s.cluster (m.dst / 8)).lost = false ∧ (s.core m.dst).bank.kst = .active ∧
     (s.core m.dst).bank.vdid = m.vd ∧ (s.core m.dst).saved = false ∧ m.w0.toNat % 2 = 0 ∧
     (s.core m.dst).bank.hblo.toNat ≤ m.w0.toNat % 2 ^ 48 ∧ m.w0.toNat % 2 ^ 48 ≤ (s.core m.dst).bank.hbhi.toNat ∧
     m.w0.toNat % 2 ^ 48 < 0xFFFF_FFFF_FF00 ∧
     ((s.core m.dst).queue m.cls).length < fld (s.core m.dst).bank.qdep 28 24 ∧ m.entry = some 3) ∧
    ({ req with w1 := 0x0000_0002_BFFC_0000 } : Msg).cls = .ordered ∧
    ({ req with w1 := 0x0000_0002_FFFC_0000 } : Msg).cls = .system ∧
    ({ req with w0 := 0x1000 } : Msg).w0.toNat % 2 ^ 48 ≤ ((arrives req []).core 0).bank.hbhi.toNat ∧
    fld ((arrives req (List.replicate 16 req)).core 0).bank.qdep 28 24 ≤
      ((arrives req (List.replicate 16 req)).core 0).qReq.length := by
  dsimp only
  constructorm* _ ∧ _ <;> decide +kernel

theorem wit_MessageLifeOnTheModule_verdict :
    let e := { Entry.free with st := .ready, away := true, mid := 5 }
    let v : Verdict := { core := 0, entry := 31, mid := 5, vd := 0, why := none }
    let s := { sends 0 0 (noEntry.set (31 : Fin 32) e) with verdicts := [v] }
    s.verdicts = [v] ∧ v.entry = (31 : Fin 32).val ∧ v.core < 2 ^ 18 ∧ (s.core v.core).saved = false ∧
    (s.core v.core).saveHalt = none ∧ (s.core v.core).bank.vdid = v.vd ∧
    (s.core v.core).sendq[(31 : Fin 32)].gone = false ∧
    (s.core v.core).sendq[(31 : Fin 32)].st = .ready ∧ (s.core v.core).sendq[(31 : Fin 32)].away = true ∧
    (s.core v.core).sendq[(31 : Fin 32)].mid.toNat = v.mid ∧ v.why = none ∧
    ({ v with why := some 3 } : Verdict).why = some 3 := by
  dsimp only
  constructorm* _ ∧ _ <;> decide +kernel

/-- A destination of another module, and one outside the rectangle. -/
theorem wit_ScopeStripTellsTheSource :
    let m := { req with w1 := 0x0000_0082_3FFC_0000, dmod := 1, rect := 0x0101_0101 }
    let s := { five 0 0 0 0 0 with net := [m] }
    s.net = [m] ∧ m.kind = .task ∧ m.w1.getLsbD 39 = true ∧ m.dmod ≠ 0xFFF ∧
    inRect m.rect m.dst = false := by
  dsimp only
  constructorm* _ ∧ _ <;> decide +kernel

/-- Each width, misaligned by one and at both ends of the data part of the TCM; no handler, and handlers at both ends of
the bounds. -/
theorem wit_AtomicsTakeAnEntry :
    let s := five 0x2000 0x3FFF8 0x2001 0x2004 0
    (0, fun a b c => Instr.aadd a b c).1 = 0 ∧ atomics.length = 15 ∧ (s.regs.get 7).toNat % 4 ≠ 0 ∧
    (s.regs.get 8).toNat % 8 ≠ 0 ∧ QuietTcm s ∧ (s.regs.get 5).toNat % 8 = 0 ∧ (s.regs.get 5).toNat + 8 ≤ 2 ^ 18 ∧
    s.me.bank.kernel.cb * 8192 ≤ (s.regs.get 5).toNat ∧ (s.regs.get 6).toNat + 8 ≤ 2 ^ 18 ∧
    (s.regs.get 6).toNat % 8 = 0 ∧ s.regs.cr.arh.toNat % 2 ^ 48 = 0 ∧ s.regs.cr.arh.getLsbD 48 = false ∧
    s.me.bank.hblo.toNat ≤ 0x100 ∧ 0x1000 ≤ s.me.bank.hbhi.toNat ∧ hasRoom s false ∧ hasRoom s true ∧ lowestFree s 0 := by
  unfold QuietTcm hasRoom lowestFree
  dsimp only
  constructorm* _ ∧ _ <;> decide +kernel

theorem wit_AtomicsTakeAnEntry_member : (14, fun a b c => Instr.amxr a b c) ∈ atomics := by simp [atomics]

/-- An operation on the last word of the TCM, with and without a handler; no other context runs. -/
def atomicOn (n : Nat) (h : Word) : Core :=
  let a := 2 ^ 18 - n
  let x : AtomicOp :=
    { op := 9, addr := nat a, n := n, v := 0, w := 7, haddr := h, rel := false, place := 2 ^ 41 + a, home := none }
  { coreWith .free Regs.reset with
    sendq := noEntry.set (31 : Fin 32) { Entry.free with st := .ready, atomic := some x, haddr := h } }

theorem wit_AtomicsReadModifyWrite :
    (let s := one (atomicOn 8 0)
     0 < 2 ^ 18 ∧ s.uncorrectable = [] ∧ s.failedBanks = [] ∧ (s.core 0).sendq[(31 : Fin 32)].st = .ready ∧
     (s.core 0).saved = false ∧ (s.core 0).saveHalt = none ∧ (s.core 0).sendq[(31 : Fin 32)].barred = false ∧
     (s.core 0).sendq[(31 : Fin 32)].gone = false ∧
     (∀ f ∈ (s.core 0).sendq.toList, f.st = .ready → (s.core 0).sendq[(31 : Fin 32)].seq ≤ f.seq) ∧
     (∀ j : Fin 8, (s.bank 0).jobs[j].outstanding = false)) ∧
    (∃ x, ((one (atomicOn 8 0)).core 0).sendq[(31 : Fin 32)].atomic = some x ∧ x.op < 15 ∧ x.n = 8 ∧ x.home = none ∧
      x.rel = false ∧ x.place = 2 ^ 41 + 0 * 2 ^ 18 + x.addr.toNat ∧ x.addr.toNat + 8 ≤ 2 ^ 18 ∧
      x.addr.toNat % x.n = 0 ∧ x.haddr = 0) ∧
    (∃ x, ((one (atomicOn 8 0x100)).core 0).sendq[(31 : Fin 32)].atomic = some x ∧ x.haddr ≠ 0) ∧
    (∀ d (j : Fin 4), d / 8 = 0 / 8 → ((one (atomicOn 8 0)).ctx d j).running = false) := by
  refine ⟨?_, ⟨_, rfl, by decide +kernel⟩, ⟨_, rfl, by decide +kernel⟩, ?_⟩
  · dsimp only
    constructorm* _ ∧ _ <;> decide +kernel
  · intro d j _
    by_cases h : ((d, j) : Nat × Fin 4) = (0, 0)
    · obtain ⟨rfl, rfl⟩ := Prod.mk.inj h
      decide +kernel
    · exact no_other_runs _ (by decide +kernel) d j h

/-- The whole die, one cluster, and each limit passed by one. -/
theorem wit_ScopeInstructions :
    (0x7FFF_0000 : Word).toNat < 2 ^ 32 ∧ (0x7FFF_0000 : Word).toNat / 2 ^ 24 % 256 ≤ 127 ∧
    (0x0101_0101 : Word).toNat % 256 ≤ (0x0101_0101 : Word).toNat / 2 ^ 16 % 256 ∧
    ¬(0x1_0000_0000 : Word).toNat < 2 ^ 32 ∧ ¬(0x1 : Word).toNat % 256 ≤ (0x1 : Word).toNat / 2 ^ 16 % 256 ∧
    ¬(0x100 : Word).toNat / 2 ^ 8 % 256 ≤ (0x100 : Word).toNat / 2 ^ 24 % 256 ∧
    ¬(0x8000_0000 : Word).toNat / 2 ^ 24 % 256 ≤ 127 ∧ (five 0 0 0 0 0).ctl = false ∧ (ctl 0 Regs.reset).ctl = true ∧
    (let p : Performed := { word := 0, ix := 3, rect := none }
     p.covers 0 = true) := by
  dsimp only
  constructorm* _ ∧ _ <;> decide +kernel

/-! ### Witnesses: vectors -/

/-- A task with g5, k1, v1 and v2; k0 is all ones. -/
def vec (a k : Word) (x y : VWord) : State := five a 0 0 0 0 |>.setRegs
  ((((gs [(5, a)]).putK 1 k).putV 1 x).putV 2 y)

/-- Integer and floating types; a mask with no lane, with the last lane alone, with all. -/
theorem wit_IntegerLanes_FloatingLanes_Compares :
    ETy.i8.isInt = true ∧ ETy.i64.isInt = true ∧ ETy.bf16.isInt = false ∧ ETy.f64.isInt = false ∧
    (let u := five 0x3F800000 0xC0000000 0x3FF0000000000000 0 0
     (u.regs.get 5).toNat % 2 ^ ETy.f32.width = 0x3F800000 ∧ (u.regs.get 7).toNat % 2 ^ ETy.f64.width = 0x3FF0000000000000) ∧
    (∀ l < ETy.i64.lanes, ((vec 0 0 0 0).regs.getK 1).getLsbD l = false) ∧
    ((vec 0 0 0 0).regs.getK 0).getLsbD 0 = true ∧
    (7 < ETy.i64.lanes ∧ ((vec 0 0x80 0 0).regs.getK 1).getLsbD 7 = true ∧
      ∀ j < 7, ((vec 0 0x80 0 0).regs.getK 1).getLsbD j = false) ∧
    (63 < ETy.i8.lanes ∧ ((vec 0 (2 ^ 63) 0 0).regs.getK 1).getLsbD 63 = true) := by
  dsimp only
  constructorm* _ ∧ _ <;> decide +kernel

set_option synthInstance.maxSize 2000 in
set_option synthInstance.maxHeartbeats 200000 in
/-- The last 64 bytes of the TCM and of the scratchpad, the first ones behind the code, a stride of 0, indices of −1;
64 elements in an empty chunk; no lane and all lanes. -/
theorem wit_VectorMemory :
    (let s := vec 0x3FFC0 0 0 0
     (s.regs.get 5).toNat % 64 = 0 ∧ (0x3FFC8 : Word).toNat % 64 ≠ 0 ∧
     (∀ l < ETy.i8.lanes, ((s.regs.getK 0).getLsbD l = true) →
      ElementMay s (s.regs.get 5 + nat (l * ETy.i8.bytes)) 1 (2 ^ 41 + 0x3FFC0 + l) false) ∧
     (∀ l < ETy.i64.lanes, ((s.regs.getK 0).getLsbD l = true) →
      ElementMay s (s.regs.get 5 + nat l * s.regs.get 0) 8 (2 ^ 41 + 0x3FFC0) true) ∧
     (∀ l < ETy.i64.lanes, (s.regs.getK 1).getLsbD l = false) ∧
     ElementMay s (s.regs.get 5) 8 (2 ^ 41 + 0x3FFC0) false) ∧
    (let s := vec 0x1FFFC0 0 0 0
     (∀ l < ETy.i64.lanes, ((s.regs.getK 0).getLsbD l = true) →
      ElementMay s (s.regs.get 5 + nat (l * 8)) 8 (2 ^ 41 + 2 ^ 36 + 0xFFFC0 + l * 8) true) ∧
     (s.cx.chunk.words true).length + 64 ≤ 512 ∧ (s.cx.chunk.words false).length + 64 ≤ 64) ∧
    (let s := vec 0x2008 0 (BitVec.allOnes 512) 0
     ∀ l < ETy.i64.lanes, ((s.regs.getK 0).getLsbD l = true) →
      ElementMay s (s.regs.get 5 + int (signed 64 (laneOf .i64 (s.regs.getV 1) l) * (8 : Nat))) 8 (2 ^ 41 + 0x2000)
        true) := by
  unfold ElementMay OwnPlace StoreMay
  dsimp only
  constructorm* _ ∧ _ <;> decide +kernel

/-- No lane; a NaN in an active lane; rows of no element, one element, one too many. -/
theorem wit_VectorReductions :
    ((List.range ETy.f32.lanes).filter fun l => ((vec 0 0 0 0).regs.getK 1).getLsbD l) = [] ∧
    ((List.range ETy.f32.lanes).filter fun l => ((vec 0 0 0 0).regs.getK 0).getLsbD l) ≠ [] ∧
    isNan fmt32 (laneOf .f32 ((vec 0 0 0x7FC00000 0).regs.getV 1) 0) = true ∧
    isNan fmt32 (laneOf .f32 ((vec 0 0 0x3F800000 0).regs.getV 1) 0) = false ∧
    isSignalling fmt32 (laneOf .f32 ((vec 0 0 0x7F800001 0).regs.getV 1) 0) = true ∧
    (let v := (vec 0 0 (2 ^ 64 + 0x3FFFC) 0).regs.getV 1
     v.toNat / 2 ^ 64 % 2 ^ 64 = 1 ∧ nat (v.toNat % 2 ^ 64) = 0x3FFFC) ∧
    ((vec 0 0 0x2000 0).regs.getV 1).toNat / 2 ^ 64 % 2 ^ 64 = 0 ∧
    2 ^ 24 < ((vec 0 0 ((2 ^ 24 + 1) * 2 ^ 64) 0).regs.getV 1).toNat / 2 ^ 64 % 2 ^ 64 ∧
    ElementMay (vec 0 0 (2 ^ 64 + 0x3FFFC) 0) (0x3FFFC + nat (0 * 4)) 4 (2 ^ 41 + 0x3FFFC) false ∧
    (let s := tcm (vec 0 0 (2 ^ 65 + 0x3FFF8) 0) 0x3FFF8 [0x40000000_3F800000]
     ElementMay s (0x3FFF8 + nat (0 * 4)) 4 (2 ^ 41 + 0x3FFF8) false ∧
     ElementMay s (0x3FFF8 + nat (1 * 4)) 4 (2 ^ 41 + 0x3FFFC) false ∧
     ∀ e < 2, (value fmt32 (seenNum s (2 ^ 41 + 0x3FFF8 + e * 4) 4)).isSome = true) := by
  unfold ElementMay OwnPlace StoreMay
  dsimp only
  constructorm* _ ∧ _ <;> decide +kernel

/-- Functions 12 and 13, an empty user slot; records off their alignment, beyond the TCM by header and by segments, and
in it; a control core. -/
theorem wit_SpecialFunctions :
    (12 : BitVec 4).toNat < 13 ∧ 13 ≤ (13 : BitVec 4).toNat ∧ 13 ≤ (15 : BitVec 4).toNat ∧
    (vec 0 0 0 0).view.user.getD 0 none = none ∧ (0x2001 : Word).toNat % 64 ≠ 0 ∧ (0x40000 : Word).toNat % 64 = 0 ∧
    2 ^ 18 < (0x40000 : Word).toNat + 32 ∧ (ctl 0 Regs.reset).ctl = true ∧ (0x3FFC0 : Word).toNat + 32 ≤ 2 ^ 18 ∧
    QuietTcm (vec 0 0 0x3FFC0 0) ∧
    2 ^ 18 < 0x3FFC0 + (16 + 16 * ((tcmWord (tcm (vec 0 0 0x3FFC0 0) 0x3FFC0 [3]) 0x3FFC0).toNat % 64 + 1)) ∧
    0x3FFC0 + (16 + 16 * ((tcmWord (tcm (vec 0 0 0x3FFC0 0) 0x3FFC0 [2]) 0x3FFC0).toNat % 64 + 1)) ≤ 2 ^ 18 ∧
    (0xC2 : Word).toNat / 2 ^ 6 % 4 = 3 := by
  unfold QuietTcm
  constructorm* _ ∧ _ <;> decide +kernel

/-- One context waits for the unit, for one turn or two, and no other context of the cluster. -/
theorem wit_SpecialFunctions_service (n : Nat) :
    let x := coreWith .waiting Regs.reset
    let y : Ctx := x.ctx 0
    let s := one (x.putCtx 0 { y with wait := .sfu 1 0 n })
    (s.ctx 0 0).st = .waiting ∧ (s.ctx 0 0).wait = .sfu 1 0 n ∧
    ∀ d (j : Fin 4), d / 8 = 0 → (d, j) ≠ ((0, 0) : Nat × Fin 4) → (s.ctx d j).st = .waiting →
      ∀ v r m, (s.ctx d j).wait ≠ .sfu v r m := by
  refine ⟨rfl, rfl, fun d j _ h hw => ?_⟩
  have hq := no_other_runs
    ((coreWith .waiting Regs.reset).putCtx 0 { (coreWith .waiting Regs.reset).ctx 0 with wait := .sfu 1 0 n })
    (fun j hj => by fin_cases j; exacts [absurd rfl hj, rfl, rfl, rfl]) d j h
  simp only [Ctx.running, hw] at hq
  exact absurd hq (by decide)

/-- The last quarter of 64 bytes for f32 and the last half for bf16; each mode of ENCM and preset of the table. -/
theorem wit_VectorConversions :
    (∀ c ≤ 127, ∃ b, CodeMeans ⟨0, []⟩ c b ∧ value fmt32 b = some 0) ∧
    (3 : BitVec 4).toNat * ETy.f32.lanes + ETy.f32.lanes ≤ 64 ∧
    (1 : BitVec 4).toNat * ETy.bf16.lanes + ETy.bf16.lanes ≤ 64 ∧
    (ETy.f64, ETy.f32) ∈ [(ETy.i16, ETy.i8), (.i32, .i16), (.i64, .i32), (.f32, .bf16), (.f64, .f32)] ∧
    (∀ m : Fin 4, ({ CtxRegs.reset with encm := nat m.val } : CtxRegs).encm.toNat % 4 = m.val) ∧
    (∀ p ∈ [(0 : Fin 5), 1, 2, 3, 4],
      (let s := vec 0 0 0 0
       s.setMe { s.me with bank := { s.me.bank with dtab := { s.me.bank.dtab with preset := p.val } } }).view.dtab.preset =
        p.val) := by
  refine ⟨fun c _ => ⟨0, ?_, by decide +kernel⟩, by decide +kernel, by decide +kernel, by decide +kernel, by decide +kernel, ?_⟩
  · simp [CodeMeans]
  intro p _
  rfl

/-! ### Witnesses: jobs -/

/-- No context of a state runs where none of its listed cores' does. -/
theorem none_runs (s : State) (h : ∀ e ∈ s.cores, ∀ i : Fin 4, (e.2.ctx i).running = false) (c : Nat) (i : Fin 4) :
    (s.ctx c i).running = false :=
  all_cores s (fun x => ∀ i : Fin 4, (x.ctx i).running = false) h (by decide +kernel) c i

/-- The core's kernel has the whole map (R463), or there is none. -/
abbrev wholeMap (b : Bank) : Prop := b.kst = .absent ∨ (b.kernel.base = 0 ∧ b.kernel.banks = 32)

theorem whole_of (s : State) (k : Nat) (hs : (s.cluster k).shared = false) (hm : ∀ e ∈ s.cores, wholeMap e.2.bank)
    (c : Nat) (hc : c / 8 = k) : Unshared s c :=
  ⟨by rw [hc]; exact hs, all_cores s (fun x => wholeMap x.bank) hm (.inl rfl) c⟩

theorem idle_of (s : State) (k : Nat) (hs : (s.cluster k).shared = false)
    (h : ∀ e ∈ s.cores, ∀ i : Fin 4, (e.2.ctx i).running = false)
    (hm : ∀ e ∈ s.cores, wholeMap e.2.bank := by decide +kernel) : IdleCluster s k :=
  ⟨whole_of s k hs hm, fun c i _ => none_runs s h c i⟩

theorem unforced_of (s : State) (h : ∀ e ∈ s.cores, ∀ i : Fin 4, (e.2.ctx i).forced = false) (k : Nat) : Unforced s k :=
  fun c i _ _ => all_cores s (fun x => ∀ i : Fin 4, (x.ctx i).forced = false) h (by decide +kernel) c i

/-- A tensor map. -/
def tmap (base rows cols et stride : Nat) : BitVec 256 :=
  BitVec.ofNat 256 (base + rows * 2 ^ 64 + cols * 2 ^ 80 + et * 2 ^ 96 + stride * 2 ^ 128)

/-- A task with two maps, two registers, per-context registers, and 1 or all of its job slots taken. -/
def maps (A B : BitVec 256) (x y : Word) (cr : CtxRegs) (taken : Nat) : State :=
  let s := five x y 0 0 0
  let s := s.setRegs { s.regs with cr := cr }
  let jobs : Vector Job 8 := Vector.ofFn fun i =>
    if i.val < taken then { Job.reset with st := .running, kind := 1 } else Job.reset
  s.setMe { s.me with bank := { s.me.bank with tm := (s.me.bank.tm.set 0 A).set 1 B, jobs := jobs } }

/-- The free slot is 0, or 7; mailboxes none, the first word behind the code, the last of the TCM. -/
theorem wit_Submits :
    freeSlotIs (maps 0 0 0 0 CtxRegs.reset 0) 0 ∧ freeSlotIs (maps 0 0 0 0 CtxRegs.reset 7) 7 ∧
    goodMailbox (maps 0 0 0 0 CtxRegs.reset 0) 0 ∧ goodMailbox (maps 0 0 0 0 CtxRegs.reset 0) 0x2000 ∧
    goodMailbox (maps 0 0 0 0 CtxRegs.reset 0) 0x3FFF8 ∧ OnFabric (maps 0 0 0 0 CtxRegs.reset 0) := by
  unfold freeSlotIs goodMailbox inData OnFabric
  dsimp only
  constructorm* _ ∧ _ <;> decide +kernel

/-- Products, alone and paired with the cluster beside, without scales and with; the accumulator's maps. -/
theorem wit_JobInstructionsSubmit_matrix :
    (let A := tmap 0x2000 16 16 0 16
     let B := tmap 0x3FF00 16 16 0 16
     let s := maps A B 0 0 CtxRegs.reset 0
     s.view.tmap 0 = A ∧ s.view.tmap 1 = B ∧ s.regs.cr.fmta.toNat % 4 ≠ 3 ∧ s.regs.cr.fmtb.toNat % 4 ≠ 3 ∧
     s.regs.cr.sclf.toNat % 4 = 0 ∧ tmBase A < 2 ^ 18 ∧ tmBase B < 2 ^ 18 ∧ tmRows A = 16 ∧ 16 ≤ tmCols A ∧
     tmRows B = tmCols A ∧ tmCols B = 16 ∧ tmEt A = 0 ∧ tmEt B = 0 ∧ (s.regs.get 6) ≠ 1 ∧ (s.regs.get 6).toNat ≤ 1) ∧
    (let A := tmap 0x2000 16 128 5 512
     let B := tmap 0x8000 128 8 4 16
     let cr := { CtxRegs.reset with fmta := 2, fmtb := 1, sclf := 1, scla := 0x3FFE0, sclb := 0x2000,
                                    pairc := 2 ^ 16 + 1, fmtc := 0 }
     let s := maps A B 0x3FFF8 1 cr 7
     s.regs.get 6 = 1 ∧ (s.cluster (s.focus.1 / 8)).split = false ∧ s.regs.cr.pairc.getLsbD 16 = true ∧
     adjacent (s.focus.1 / 8) (pairOf s.regs.cr.pairc) = true ∧ s.regs.cr.scla.toNat % 2 ^ 18 % 32 = 0 ∧
     s.regs.cr.sclb.toNat % 2 ^ 18 % 32 = 0 ∧ tmRows B = tmCols A ∧ tmCols B = 8 ∧ tmEt A = 5 ∧ tmEt B = 4 ∧
     s.regs.cr.fmtc.toNat % 4 ≠ 3 ∧ ¬(s.regs.cr.fmtc.toNat % 4 = 2 ∧ s.regs.cr.encm.toNat % 4 = 3) ∧
     tmBase A < 2 ^ 18 ∧ tmRows A = 16 ∧ tmCols A = 128) ∧
    tmCols (tmap 0x2000 16 64 4 128) = 64 ∧ tmEt (tmap 0x2000 16 64 4 128) = 4 ∧
    (0 : Word).toNat ≤ 1 ∧ (4 : Word).toNat ≤ 4 ∧ (0x2000 : Word).toNat % 64 = 0 ∧ (0x3FC00 : Word).toNat + 1024 ≤ 2 ^ 18 := by
  dsimp only
  constructorm* _ ∧ _ <;> decide +kernel

/-- Tiles of 1 and of 128 rows, a record behind them; p registers and entries at their limits. -/
theorem wit_JobInstructionsSubmit_tiles :
    (let A := tmap (2 ^ 20) 128 128 5 512
     let B := tmap (2 ^ 20 + 0x10000) 1 128 5 512
     let s := maps A B 0x3FFF8 0x1FFF00 CtxRegs.reset 0
     let ra := (s.regs.get 6).toNat
     1 ≤ tmRows A ∧ tmRows A ≤ 128 ∧ 2 ^ 20 ≤ tmBase A ∧ tmEt A = 5 ∧ s.regs.cr.fctl &&& ~~~0x731 = 0 ∧ ra % 256 = 0 ∧
     2 ^ 20 ≤ ra ∧ ra + 256 ≤ 2 ^ 21 ∧ tmBase A + tmSpan A ≤ ra ∧ tmRows A = tmCols A ∧ 2 ^ 20 ≤ tmBase B ∧
     tmEt B = 5 ∧ tmBase A + tmSpan A ≤ tmBase B ∧ tmBase B + tmSpan B ≤ ra ∧ tmRows B = 1 ∧ tmCols B = tmCols A) ∧
    (let A := tmap (2 ^ 20 + 256) 1 1 5 8
     let B := tmap (2 ^ 20 + 264) 1 1 5 8
     tmRows A = tmCols A ∧ tmRows B = tmRows A ∧ tmCols B ≤ 128 ∧ 2 ^ 20 + 256 ≤ tmBase A ∧
     tmBase A + tmSpan A ≤ tmBase B) ∧
    (7 : Word).toNat < 8 ∧ (15 : Word).toNat < 16 ∧ 8 ≤ (8 : Word).toNat ∧ (0x3FF80 : Word).toNat % 128 = 0 ∧
    0x3FF80 + 128 ≤ 2 ^ 18 := by
  dsimp only
  constructorm* _ ∧ _ <;> decide +kernel

/-- Descriptors: a local copy of one word, a remote delivery into a ring, a RIDL of each mode, a GSPAWN. -/
theorem wit_JobInstructionsSubmit_descriptors :
    QuietTcm (five 0x3FFE0 0 0 0 0) ∧ (0x3FFE0 : Word).toNat % 32 = 0 ∧ (0x3FFE0 : Word).toNat + 32 ≤ 2 ^ 18 ∧
    (let s := tcm (five 0x3FFE0 0 0 0 0) 0x3FFE0 [0x2000, 0x3000, 8, 0]
     (tcmWord s 0x3FFE0).toNat % 8 = 0 ∧ (tcmWord s 0x3FFE8).toNat % 8 = 0 ∧
     (tcmWord s 0x3FFF0).toNat % 2 ^ 24 % 8 = 0 ∧ 8 ≤ (tcmWord s 0x3FFF0).toNat % 2 ^ 24 ∧
     (tcmWord s 0x3FFF0).toNat / 2 ^ 24 % 2 ^ 8 = 0 ∧ (tcmWord s 0x3FFF0).toNat / 2 ^ 36 = 0 ∧
     (tcmWord s 0x3FFF8).toNat < 2 ^ 48 ∧ (tcmWord s 0x3FFE8).toNat < 2 ^ 63 ∧
     (tcmWord s 0x3FFF0).toNat / 2 ^ 32 % 16 = 0) ∧
    (let w : Word := 0x8000_FFF0_0000_0000
     2 ^ 63 ≤ w.toNat ∧ w.toNat / 2 ^ 48 % 2 ^ 15 = 0 ∧ w.toNat % 8 = 0) ∧
    ((0x02FF_8000 : Word).toNat / 2 ^ 24 % 4 ≠ 3 ∧ 1 ≤ (0x0100_0001 : Word).toNat % 2 ^ 16 ∧
      (0x02FF_8000 : Word).toNat % 2 ^ 16 ≤ 32768) ∧
    ((0x2000 : Nat) % 8 = 0 ∧ 0x2000 + 8 ≤ 2 ^ 18 ∧ (0x0000_0001 : Word).toNat % 2 ^ 16 = 1 ∧
      0x2000 + 8 * (0x0100_0001 / 2 ^ 16 % 2 ^ 8 + 1) ≤ 0x3000) ∧
    (let s := tcm (tcm (five 0x3FFE0 0 0 0 0) 0x3FFE0 [0x2040, 0x0000_0001_0000, 0, 64]) 0x2040
      [0x100, 0x0001_0000_0000, 0, 0xFFF]
     (tcmWord s 0x3FFE0).toNat % 64 = 0 ∧ (tcmWord s 0x3FFE0).toNat + 32 ≤ 2 ^ 18 ∧
     (tcmWord s 0x2058).toNat ≤ 4095 ∧ (tcmWord s 0x2040).toNat % 2 = 0 ∧
     s.view.hblo.toNat ≤ (tcmWord s 0x2040).toNat ∧ (tcmWord s 0x2040).toNat ≤ s.view.hbhi.toNat ∧
     1 ≤ (0x0100_0000 : Word).toNat / 2 ^ 24 ∧
     (0x0100_0000 : Word).toNat % 2 ^ 24 + (0x0100_0000 : Word).toNat / 2 ^ 24 ≤
       (tcmWord s 0x2048).toNat / 2 ^ 16 % 2 ^ 25) := by
  unfold QuietTcm
  dsimp only
  constructorm* _ ∧ _ <;> decide +kernel

/-- A job in slot 7 of a task's core. -/
def withJob (x : Word) (j : Job) : State :=
  let s := five x 0 0 0 0
  s.setMe { s.me with bank := s.me.bank.setJob 7 j }

/-- The register names the job in slot 7 by its generation, and the job is in a state. -/
def named (st : JobSt) : Bool :=
  let s := withJob 0x1F { Job.reset with st := st, gen := 3 }
  decide ((s.me.bank.job 7).st = st) && decide ((s.regs.get 5).toNat < 2 ^ 16) &&
    decide ((s.regs.get 5).toNat / 8 = (s.me.bank.job 7).gen.toNat) && decide ((s.regs.get 5).toNat % 8 = 7)

/-- Maps at the ends of the TCM and of the scratchpad, and one that passes each; jobs of each state named with their
generation; groups with and without a block; DRAW at the ends of the TCM. -/
theorem wit_MapsIdentityAndJobQueries :
    (0x2010 : Word).toNat % 32 ≠ 0 ∧ (five 0 0 0 0 0).ctl = false ∧
    validMap (five 0 0 0 0 0) (tmap 0x2000 1 1 0 8) ∧ validMap (five 0 0 0 0 0) (tmap 0x3FFF8 1 1 5 8) ∧
    validMap (five 0 0 0 0 0) (tmap (2 ^ 20) 1024 256 5 1024) ∧ ¬validMap (five 0 0 0 0 0) (tmap 0x3FFF8 2 1 5 8) ∧
    ¬validMap (five 0 0 0 0 0) (tmap 0x1FF8 1 1 0 8) ∧ ¬validMap (five 0 0 0 0 0) (tmap 0x2000 0 1 0 8) ∧
    named .queued = true ∧ named .running = true ∧ named .parked = true ∧ named .ended = true ∧ named .held = true ∧
    ¬(0x10000 : Word).toNat < 2 ^ 16 ∧ (five 0 0 0 0 0).view.gpos = 0 ∧ 4 < (5 : Word).toNat ∧
    (let s := five 1 0 0 0 0
     (s.setMe { s.me with bank := { s.me.bank with gpos := 1 } }).view.gpos ≠ 0) ∧
    (let x : Word := 0x0001_0003_FFF8
     x.toNat / 2 ^ 18 % 2 ^ 14 ≠ 1 ∧ x.toNat % 2 ^ 18 % 8 = 0) ∧
    (let x : Word := 0x0001_0000_0000 + 0x3FFF8
     x.toNat / 2 ^ 18 % 2 ^ 14 = 0 ∧ 1 ≤ x.toNat / 2 ^ 32 ∧ x.toNat / 2 ^ 32 ≤ 256 ∧
     x.toNat % 2 ^ 18 + 8 * (x.toNat / 2 ^ 32) ≤ 2 ^ 18) ∧
    (let x : Word := 0x0002_0000_0000 + 0x3FFF8
     2 ^ 18 < x.toNat % 2 ^ 18 + 8 * (x.toNat / 2 ^ 32)) := by
  unfold validMap
  dsimp only
  constructorm* _ ∧ _ <;> decide +kernel

/-! Eight cores with a job each. -/

/-- Cluster 0 with a job at the head of every slice queue, in slot 0. -/
def eight (j : Job) : State :=
  let x : Core := { Core.reset with bank := bank.setJob 0 j }
  { State.reset with cores := (List.range 8).map fun c => (c, x) }

/-- Clusters 0 and 1 so, with a job of each. -/
def sixteen (j j' : Job) : State :=
  let x (c : Nat) : Core := { Core.reset with bank := bank.setJob 0 (if c < 8 then j else j') }
  { State.reset with cores := (List.range 16).map fun c => (c, x c) }

def product (paired : Bool) (st : JobSt) : Job :=
  { Job.reset with
    st := st, kind := 0, ops := [if paired then 1 else 0], tmA := tmap 0x2000 16 16 0 16, tmB := tmap 0x3000 16 16 0 16
    cr := { CtxRegs.reset with gangt := 1, pairt := 1, pairc := 2 ^ 16 + 2 ^ 8, mmsk := 0x80_FFFF } }

theorem eight_quiet (j : Job) : ∀ e ∈ (eight j).cores, ∀ i : Fin 4, (e.2.ctx i).running = false := by
  intro e he i
  simp only [eight, List.mem_map] at he
  obtain ⟨c, _, rfl⟩ := he
  have hr : ∀ i : Fin 4, (Core.reset.ctx i).running = false := by decide +kernel
  exact hr i

theorem eight_shared (j : Job) (l : Nat) : ((eight j).cluster l).shared = false := by
  show Cluster.reset.shared = false
  decide +kernel

/-- Heads that agree, one that does not, a core without a job, a pair alone, with its partner, and running. -/
theorem wit_GangsFormAndFail :
    (∀ l, IdleCluster (eight (product false .queued)) l) ∧ ((eight (product false .queued)).cluster 0).split = false ∧
    (∀ i < 8, HeadIs (eight (product false .queued)) (8 * 0 + i) 0 (product false .queued)) ∧
    (product false .queued).kind = 0 ∧ (product false .queued).ops = [0] ∧
    (let odd := { product false .queued with tmA := tmap 0x2000 16 32 0 32 }
     let s := (eight (product false .queued)).setJob 3 0 odd
     HeadIs s 3 0 odd ∧ odd.gangKey ≠ (product false .queued).gangKey) ∧
    (let s := (eight (product false .queued)).setJob 3 0 Job.reset
     HeadIs s 0 0 (product false .queued) ∧ s.sliceHead (8 * 0 + 3) = none ∧
     (product false .queued).cr.gangt.toNat % 2 ^ 32 ≠ 0) ∧
    (∀ i < 8, HeadIs (eight (product true .queued)) (8 * 0 + i) 0 (product true .queued)) ∧
    pairOf (product true .queued).cr.pairc ≠ 0 ∧
    (eight (product true .queued)).sliceHead (8 * pairOf (product true .queued).cr.pairc) = none ∧
    (let j := product true .queued
     let back : Job := { j with cr := { j.cr with pairc := 2 ^ 16 } }
     let s := sixteen j back
     pairOf j.cr.pairc = 1 ∧ pairOf back.cr.pairc = 0 ∧ j.kind = 0 ∧ j.ops = [1] ∧ back.kind = 0 ∧ back.ops = [1] ∧
     back.gangKey = j.gangKey ∧ (s.cluster 1).split = false ∧ (∀ i < 8, HeadIs s (8 * 0 + i) 0 j) ∧
     ∀ i < 8, HeadIs s (8 * 1 + i) 0 back) ∧
    ((eight (product true .queued)).cluster (pairOf (product true .queued).cr.pairc)).split = false ∧
    (product true .queued).cr.pairt.toNat % 2 ^ 32 ≠ 0 ∧ adjacent (pairOf (product true .running).cr.pairc) 0 = true ∧
    (∀ i < 8, HeadIs (eight (product true .running)) (8 * 0 + i) 0 (product true .running)) := by
  refine ⟨fun l => idle_of _ l (eight_shared _ l) (eight_quiet _), ?_⟩
  unfold HeadIs
  dsimp only
  constructorm* _ ∧ _ <;> decide +kernel

/-- A job of a kind at the head of core 7's queue, with a map of the accumulator's shape. -/
def ofKind (kind : Nat) : Job := { product false .queued with kind := kind, tmA := tmap 0x2000 16 128 5 512 }

/-- Running products whose maps hold, and a job of each kind that the accumulator runs. -/
theorem wit_ProductsAndAccumulators :
    IdleCluster (eight (product false .running)) 0 ∧
    (∀ i < 8, HeadIs (eight (product false .running)) (8 * 0 + i) 0 (product false .running)) ∧
    (∀ i < 8, (eight (product false .running)).memberBad { core := 8 * 0 + i, slot := 0, job := product false .running } =
      none) ∧
    HeadIs (eight (ofKind 1)) 7 0 (ofKind 1) ∧ HeadIs (eight (ofKind 2)) 7 0 (ofKind 2) ∧
    HeadIs (eight (ofKind 3)) 7 0 (ofKind 3) ∧
    NoErrors (eight Job.reset) ∧
    (let j := { product false .queued with kind := 2, tmA := tmap 0x3E000 16 128 5 512 }
     tmRows j.tmA = 16 ∧ tmCols j.tmA = 128 ∧ tmEt j.tmA = 5 ∧ tmCols j.tmA * tmSize j.tmA ≤ tmStride j.tmA ∧
     tmBase j.tmA + tmSpan j.tmA ≤ 2 ^ 18 ∧ j.cr.fmtc.toNat % 4 = 0 ∧ j.mbox = 0 ∧ ((eight j).core 7).latchA = []) := by
  refine ⟨idle_of _ _ (by decide +kernel) (eight_quiet _), ?_⟩
  unfold HeadIs NoErrors
  dsimp only
  constructorm* _ ∧ _ <;> decide +kernel

/-- A preset, and a table at the end of the TCM; a mailbox at each end of the data part; the round of MSPLIT. -/
theorem wit_TablesModesAndMailboxes :
    (let j := { Job.reset with st := .queued, kind := 5, ops := [0, 4] }
     IdleCluster (eight j) 0 ∧ NoErrors (eight j) ∧ HeadIs (eight j) 7 0 j ∧ j.ops.getD 1 0 ≠ 0) ∧
    (let j := { Job.reset with st := .queued, kind := 5, ops := [0x3FC00, 0] }
     HeadIs (eight j) 7 0 j ∧ j.ops.getD 1 0 = 0 ∧ (j.ops.getD 0 0).toNat + 1024 ≤ 2 ^ 18) ∧
    (let j := { Job.reset with st := .queued, kind := 1, mbox := 0x3FFF8 }
     HeadIs (eight j) 7 0 j ∧ j.mbox ≠ 0 ∧ j.mbox.toNat % 8 = 0 ∧ ((eight j).bank 7).kernel.cb * 8192 ≤ j.mbox.toNat ∧
     j.mbox.toNat < 2 ^ 18) ∧
    (let j := { Job.reset with st := .queued, kind := 4, ops := [1] }
     (∀ m < 8, HeadIs (eight j) (8 * 0 + m) 0 j) ∧ ((eight j).cluster 0).split = false ∧
     ((eight j).cluster 0).locked = false) := by
  refine ⟨⟨idle_of _ _ (by decide +kernel) (eight_quiet _), ?_⟩, ?_⟩ <;>
    (unfold HeadIs; try unfold NoErrors) <;> dsimp only <;> constructorm* _ ∧ _ <;> decide +kernel

/-! ### Witnesses: factorisations, copies, the riddle -/

/-- Core 0 with a job in slot 0 and a changed bank. -/
def solo (f : Bank → Bank) (j : Job) : State := one { Core.reset with bank := f (bank.setJob 0 j) }

theorem solo_idle (f : Bank → Bank) (j : Job)
    (hf : wholeMap (f (bank.setJob 0 j)) := by exact .inr ⟨rfl, rfl⟩) : IdleCluster (solo f j) 0 := by
  refine idle_of _ _ (by
    show (State.reset.cluster 0).shared = false
    decide +kernel) ?_ ?_
  · intro e he i
    simp only [solo, one, List.mem_singleton] at he
    subst he
    have hr : ∀ i : Fin 4, (Core.reset.ctx i).running = false := by decide +kernel
    exact hr i
  · intro e he
    simp only [solo, one, List.mem_singleton] at he
    subst he
    exact hf

/-- 64-bit words written upward from an offset in the scratchpad of cluster 0. -/
def scratch (s : State) (a : Nat) (ws : List Word) : State := poke s (2 ^ 41 + 2 ^ 36 + (a - 2 ^ 20)) (wordsBytes ws)

/-- A factorisation of two columns with its record at the end of the scratchpad. -/
def factorJob (kind : Nat) (st : JobSt) : Job :=
  { Job.reset with
    st := st, kind := kind, ops := [0x1FFF00], tmA := tmap (2 ^ 20) 2 2 5 8, tmB := tmap (2 ^ 20 + 16) 2 2 5 8
    cr := { CtxRegs.reset with fctl := 0x200 } }

/-- Its state with the record's tag and a next column; the tile holds 4, 0, 6, 3. -/
def factoring (j : Job) (next : Nat) : State :=
  scratch (scratch (solo id j) 0x1FFF00 [nat (j.kind * 2 ^ 16), nat next]) (2 ^ 20)
    [0x0000_0000_4080_0000, 0x4040_0000_40C0_0000]

theorem idle_poke (s : State) (k a : Nat) (bs : List Byte) (h : IdleCluster s k) : IdleCluster (poke s a bs) k := h

theorem factoring_idle (j : Job) (n : Nat) : IdleCluster (factoring j n) 0 := by
  unfold factoring scratch
  exact idle_poke _ _ _ _ (idle_poke _ _ _ _ (solo_idle id j))

/-- What the statement asks of a factorisation, for each kind. -/
theorem wit_FactorisationsStepByColumns_job (kind : Nat) (st : JobSt) (a : Nat)
    (hr : inRange (((factorJob kind st).ops.getD 0 0).toNat) 256 a) :
    ¬inTile (factorJob kind st).tmA a ∧ (10 ≤ kind → ¬inTile (factorJob kind st).tmB a) := by
  have h1 : ((factorJob kind st).ops.getD 0 0).toNat = 0x1FFF00 := by
    show (([0x1FFF00] : List Word).getD 0 0).toNat = 0x1FFF00
    decide +kernel
  have h2 : tmBase (factorJob kind st).tmA + tmSpan (factorJob kind st).tmA ≤ 0x100010 := by
    show tmBase (tmap (2 ^ 20) 2 2 5 8) + tmSpan (tmap (2 ^ 20) 2 2 5 8) ≤ _
    decide +kernel
  have h3 : tmBase (factorJob kind st).tmB + tmSpan (factorJob kind st).tmB ≤ 0x100020 := by
    show tmBase (tmap (2 ^ 20 + 16) 2 2 5 8) + tmSpan (tmap (2 ^ 20 + 16) 2 2 5 8) ≤ _
    decide +kernel
  rw [h1] at hr
  unfold inRange at hr
  unfold inTile
  omega

/-- The two tiles lie apart. -/
theorem wit_FactorisationsStepByColumns_tiles (kind : Nat) (st : JobSt) (a : Nat) (h : inTile (factorJob kind st).tmA a) :
    ¬inTile (factorJob kind st).tmB a := by
  have h2 : tmBase (factorJob kind st).tmA + tmSpan (factorJob kind st).tmA ≤ tmBase (factorJob kind st).tmB := by
    show tmBase (tmap (2 ^ 20) 2 2 5 8) + tmSpan (tmap (2 ^ 20) 2 2 5 8) ≤ tmBase (tmap (2 ^ 20 + 16) 2 2 5 8)
    decide +kernel
  unfold inTile at *
  omega

/-- Heads queued and running of the least and the greatest kind, cancelled, stopped, with a foreign record, at the first
and at the last column; a column with a nonzero element and no NaN. -/
theorem wit_FactorisationsStepByColumns :
    NoErrors (factoring (factorJob 8 .queued) 0) ∧
    HeadIs (factoring (factorJob 8 .queued) 0) 0 0 (factorJob 8 .queued) ∧
    HeadIs (factoring (factorJob 11 .queued) 0) 0 0 (factorJob 11 .queued) ∧
    ScratchTile (factorJob 11 .queued).tmA ∧ ScratchTile (factorJob 11 .queued).tmB ∧
    tmRows (factorJob 11 .queued).tmA = tmCols (factorJob 11 .queued).tmA ∧
    tmRows (factorJob 11 .queued).tmB = tmRows (factorJob 11 .queued).tmA ∧
    (let j := { factorJob 10 .running with tmB := tmap (2 ^ 20 + 16) 1 2 5 8 }
     HeadIs (factoring j 0) 0 0 j ∧ ScratchTile j.tmB ∧ tmCols j.tmA ≤ tmRows j.tmA ∧ tmRows j.tmB = 1 ∧
     tmCols j.tmB = tmCols j.tmA) ∧
    (factoring (factorJob 8 .queued) 0).arrayFree 0 = true ∧ (factorJob 11 .queued).cr.fctl.getLsbD 9 = true ∧
    HeadIs (factoring { factorJob 8 .running with cancel := true } 0) 0 0 { factorJob 8 .running with cancel := true } ∧
    (let s := factoring (factorJob 9 .running) 0
     let t := { s with cores := [(0, { s.core 0 with stopped := true })] }
     HeadIs t 0 0 (factorJob 9 .running) ∧ (t.core 0).stopped = true) ∧
    (let s := scratch (factoring (factorJob 10 .running) 0) 0x1FFF00 [0]
     HeadIs s 0 0 (factorJob 10 .running) ∧ (s.core 0).stopped = false ∧ (factorJob 10 .running).prep = false ∧
     localNum s.mem 0 0x1FFF00 8 ≠ 10 * 2 ^ 16) ∧
    (let s := factoring (factorJob 8 .running) 0
     HeadIs s 0 0 (factorJob 8 .running) ∧ localNum s.mem 0 0x1FFF00 8 = 8 * 2 ^ 16 ∧
     localNum s.mem 0 0x1FFF08 1 = 0 ∧ 0 < tmCols (factorJob 8 .running).tmA ∧
     localNum s.mem 0 (tmElem (factorJob 8 .running).tmA 1 0) 4 % 2 ^ 31 ≠ 0 ∧
     isNan fmt32 (localNum s.mem 0 (tmElem (factorJob 8 .running).tmA 0 0) 4) = false ∧
     isNan fmt32 (localNum s.mem 0 (tmElem (factorJob 8 .running).tmA 1 0) 4) = false) ∧
    (let s := factoring (factorJob 11 .running) 1
     HeadIs s 0 0 (factorJob 11 .running) ∧ localNum s.mem 0 0x1FFF00 8 = 11 * 2 ^ 16 ∧
     localNum s.mem 0 0x1FFF08 1 = 1 ∧ 1 < tmCols (factorJob 11 .running).tmB) := by
  unfold HeadIs NoErrors ScratchTile
  dsimp only
  constructorm* _ ∧ _ <;> decide +kernel

/-- Permutations: the identity, one that repeats an entry; a register's reset, load and store at the end of the TCM. -/
theorem wit_PermutationJobs :
    (let j := { Job.reset with st := .queued, kind := 12, ops := [4], tmA := tmap 0x3FFC0 4 2 5 16 }
     IdleCluster (solo id j) 0 ∧ NoErrors (solo id j) ∧ HeadIs (solo id j) 0 0 j ∧ tmRows j.tmA ≤ 128 ∧
     tmCols j.tmA * tmSize j.tmA ≤ tmStride j.tmA ∧ tmBase j.tmA + tmSpan j.tmA ≤ 2 ^ 18 ∧
     (∀ i < 4, i ∈ (((solo id j).bank 0).p.getD 0 identityPerm).take 4) ∧ (j.ops.getD 0 0).getLsbD 2 = true) ∧
    (let j := { Job.reset with st := .queued, kind := 12, ops := [3], tmA := tmap 0x2000 128 1 0 8 }
     let s := solo (fun b => { b with p := b.p.set 3 (List.replicate 128 0) }) j
     HeadIs s 0 0 j ∧ 1 < tmRows j.tmA ∧ ¬1 ∈ ((s.bank 0).p.getD 3 identityPerm).take 128) ∧
    (let j := { Job.reset with st := .queued, kind := 13, ops := [0x3FF80, 0] }
     let s := solo id j
     HeadIs s 0 0 j ∧ 0x3FF80 + 128 ≤ 2 ^ 18 ∧ (s.bank 0).p.length = 4 ∧
     ((s.bank 0).p.getD 0 identityPerm).length = 128 ∧ ∀ x ∈ (s.bank 0).p.getD 0 identityPerm, x < 256) ∧
    (let j := { Job.reset with st := .queued, kind := 13, ops := [0x2000, 7] }
     HeadIs (solo id j) 0 0 j ∧ (7 : Word).toNat / 8 % 2 = 0 ∧ (7 : Word).toNat / 4 % 2 = 1) ∧
    (let j := { Job.reset with st := .queued, kind := 13, ops := [0, 15] }
     HeadIs (solo id j) 0 0 j ∧ (15 : Word).toNat / 8 % 2 = 1) := by
  refine ⟨⟨solo_idle _ _, ?_⟩, ?_⟩ <;> (unfold HeadIs; try unfold NoErrors) <;> dsimp only <;>
    constructorm* _ ∧ _ <;> decide +kernel

/-- Copies: the last word of a copy, one longer than a segment that has begun, one to a range that ends outside the TCM;
two waiting ones that are cancelled, one that finds a context, and one that finds room in a ring. -/
theorem wit_CopiesMoveSegments :
    (let j := { Job.reset with st := .queued, kind := 6, ops := [0x100, 0x3FFF8, 0x2000, 8, 0] }
     IdleCluster (solo id j) 0 ∧ NoErrors (solo id j) ∧ (solo id j).job 0 0 = j ∧
     (solo id j).nextCopy 0 = some (0, j) ∧ (solo id j).copyTurn 0 = true ∧ 0x3FFF8 + 8 ≤ 2 ^ 18 ∧
     ((solo id j).bank 0).kernel.cb * 8192 ≤ 0x2000) ∧
    (let j := { Job.reset with st := .running, prep := true, kind := 6, ops := [0x100, 0x10000, 0x20000, 0x2000, 0],
                               done := 8 }
     (solo id j).nextCopy 0 = some (0, j) ∧ (solo id j).copyTurn 0 = true ∧ 8 < 0x2000) ∧
    (let j := { Job.reset with st := .queued, kind := 6, ops := [0x100, 0x2000, 0x8000_FFF0_0003_FFF8, 16, 0] }
     let s := { solo id j with clusters := [(0, { Cluster.reset with perm := [(0, 0x8000_0000_FFFF_0000)] })] }
     let dst := 0x8000_FFF0_0003_FFF8
     s.nextCopy 0 = some (0, j) ∧ s.copyTurn 0 = true ∧ 2 ^ 63 ≤ dst ∧ s.localFor 0 (dst / 2 ^ 36 % 2 ^ 12) = true ∧
     dst / 2 ^ 18 % 2 ^ 18 = 0 ∧ (s.cluster 0).lost = false ∧ (s.bank 0).runs (s.bank 0).vdid = true ∧
     (s.core 0).atRest = false ∧ s.permits 0 (s.bank 0).vdid j.header = true ∧ 2 ^ 18 < dst % 2 ^ 18 + 16) ∧
    (let j := { Job.reset with st := .running, kind := 6, cancel := true, ops := [0x100, 0x2000, 0x3000, 8, 0x200] }
     let s := solo (fun b => b.setJob 3 { j with seq := 4 }) j
     (s.bank 0).waitingCopies 6 = [0, 3] ∧
     ∀ m ∈ (s.bank 0).waitingCopies 6, (s.job 0 m).cancel = true ∧ (s.job 0 m).mbox = 0) ∧
    (let j := { Job.reset with st := .running, kind := 7, cancel := true, ops := [0x100, 0x2000, 0x3000, 8, 0x200] }
     ((solo id j).bank 0).waitingCopies 7 = [0] ∧ ((solo id j).job 0 0).cancel = true) ∧
    (let j := { Job.reset with st := .running, kind := 6, ops := [0x100, 0x2000, 0x3000, 8, 0x1000] }
     let s := { solo id j with vds := [(0, { Vd.reset with switchedIn := true })] }
     (s.bank 0).waitingCopies 6 = [0] ∧ s.job 0 0 = j ∧
     (∀ m < 8, m ≠ 0 → (s.job 0 m).outstanding = true → j.seq < (s.job 0 m).seq) ∧ (0x1000 : Nat) % 2 = 0 ∧
     (s.bank 0).hblo.toNat ≤ 0x1000 ∧ 0x1000 ≤ (s.bank 0).hbhi.toNat ∧ (s.cluster 0).lost = false ∧
     (s.core 0).stopped = false ∧ (s.bank 0).kst = .active ∧
     (s.vdev (s.bank 0).vdid).switchedIn = true ∧ ((s.core 0).ctx 0).st = .free) ∧
    (let j := { Job.reset with st := .running, kind := 7, ops := [0x100, 0x3FFF8, 0x8000_FFF0_0000_0000, 8 + 2 ^ 32, 0] }
     let h : Word := 0x20000 + 3 * 2 ^ 18 + 1 * 2 ^ 22 + 3 * 2 ^ 37 + 2 * 2 ^ 26
     let s := { solo (fun b => { b with h := b.h.set 1 h }) j with
       clusters := [(0, { Cluster.reset with perm := [(0, 0x8000_0000_FFFF_0000)] })] }
     (s.bank 0).waitingCopies 7 = [0] ∧ s.localFor 0 0xFFF = true ∧ (s.bank 0).ring 1 = h ∧ s.copyChecks 0 j = some 0 ∧
     hNlg h ≠ 0 ∧ 8 ≤ hSlot h ∧ hFree h ≠ 0 ∧ hTailAddr h + hSlot h ≤ 2 ^ 18) := by
  refine ⟨⟨solo_idle _ _, ?_⟩, ?_⟩ <;> (try unfold NoErrors) <;> dsimp only <;> constructorm* _ ∧ _ <;> decide +kernel

/-- A RIDL of one 8-byte entry at the end of the TCM, one over the scratchpad; DRAW of the last word. -/
theorem wit_RiddleOrdersAndDraws :
    (let j := { Job.reset with st := .queued, kind := 18, ops := [0x100, 0x3FFF8, 0x0100_0001, 0, 0x2000] }
     IdleCluster (solo id j) 0 ∧ NoErrors (solo id j) ∧
     (((solo id j).bank 0).oldest fun j => decide (j.kind = 18)) = some (0, j) ∧ (solo id j).riddleTurn 0 = true ∧
     0x3FFF8 + 1 * 8 ≤ 2 ^ 18 ∧ ((solo id j).bank 0).kernel.cb * 8192 ≤ 0x2000) ∧
    (let j := { Job.reset with st := .queued, kind := 18, ops := [0x100, 0x100000, 0x02FF_8000, 0x0001, 0x1FF800] }
     (((solo id j).bank 0).oldest fun j => decide (j.kind = 18)) = some (0, j) ∧
     2 ^ 20 ≤ 0x100000 ∧ 0x100000 + 32768 * 2 ≤ 2 ^ 21 ∧ 0x1FF800 + 8 * 256 ≤ 2 ^ 21) ∧
    (let y := { Ctx.reset with st := .waiting, wait := .draw 0x0000_0001_0003_FFF8 0 5 }
     let x := { (Core.reset.putCtx 3 y) with bank := bank }
     let s := tcm (one x) 0x3FFF8 [0x0000_0007_3F80_0000]
     NoErrors s ∧ (s.ctx 0 3).st = .waiting ∧ (s.ctx 0 3).wait = .draw 0x0000_0001_0003_FFF8 0 5 ∧
     (0x0000_0001_0003_FFF8 : Word).toNat / 2 ^ 32 % 2 ^ 16 = 1 ∧ 0x3FFF8 + 8 ≤ 2 ^ 18 ∧
     (∀ q : Fin 8, ((s.bank 0).jobs[q]).outstanding = false) ∧
     (value fmt32 (seenNum { s with focus := (0, 3) } (2 ^ 41 + 0x3FFF8) 8 % 2 ^ 32)).isSome = true) := by
  refine ⟨⟨solo_idle _ _, ?_⟩, ?_⟩ <;> (try unfold NoErrors) <;> dsimp only <;> constructorm* _ ∧ _ <;> decide +kernel

/-! ### Witnesses: committees, stitches, the sequence, groups -/

/-- Records and descriptors at the ends of what COMM instructions take, and beyond. -/
theorem wit_CommitteeInstructionsAsk :
    QuietTcm (five 0x3E000 0x2000 0 0 0) ∧ (0x3E008 : Nat) % 8192 ≠ 0 ∧
    (0x3C000 % 8192 = 0 ∧ ¬(32 - (five 0 0 0 0 0).me.bank.kernel.rb) * 8192 ≤ 0x3C000) ∧
    (0x3E000 % 8192 = 0 ∧ (32 - (five 0 0 0 0 0).me.bank.kernel.rb) * 8192 ≤ 0x3E000 ∧ 0x3E000 < 2 ^ 18) ∧
    (1 ≤ (2 ^ 20 : Word).toNat ∧ (2 ^ 20 : Word).toNat ≤ 2 ^ 20) ∧ ¬(0 : Word).toNat ≥ 1 ∧
    ¬(0x10_0001 : Word).toNat ≤ 2 ^ 20 ∧
    (let x : Word := 0x0000_0100_0003_D800
     x.toNat / 2 ^ 18 % 2 ^ 14 = 0 ∧ x.toNat / 2 ^ 41 = 0 ∧ x.toNat % 2 ^ 18 % 8 = 0 ∧ x.toNat / 2 ^ 32 % 2 ^ 9 = 256 ∧
     inData (five 0 0 0 0 0) 0x3D800 2048 ∧ 0x3D800 + 2048 ≤ 0x3E000) ∧
    (let x : Word := 0x0000_0101_0000_2000
     x.toNat / 2 ^ 32 % 2 ^ 9 = 257) ∧
    ((0x2000 : Word).toNat % 32 = 0 ∧ inData (five 0 0 0 0 0) 0x2000 96 ∧ inData (five 0 0 0 0 0) 0x3FFA0 96) ∧
    (let s := tcm (five 0x3E000 0x2000 0 0 0) 0x2000 [0x700, 0x21, 0, 0, 0, 0x3000, 0x4000, 1, 0, 0, 0, 0]
     let w (k : Nat) := tcmWord s (0x2000 + 8 * k)
     (w 0).toNat % 8 = 0 ∧ w 0 &&& ~~~0x707 = 0 ∧ w 1 &&& ~~~0x33 = 0 ∧ w 7 &&& ~~~0xFFFF_FF00_01FF_FFFF = 0 ∧
     w 9 = 0 ∧ w 10 = 0 ∧ w 11 = 0) ∧
    (let s := tcm (five 0x3E000 0x2000 0 0 0) 0x2000 [1, 0x73, 0x3F80_0000, 0x3F80_0000_0000_0007, 0, 0, 0, 0, 0, 0, 0, 0]
     let w (k : Nat) := tcmWord s (0x2000 + 8 * k)
     (w 0).toNat % 8 = 1 ∧ w 0 &&& ~~~0x707 = 0 ∧ w 1 &&& ~~~0x73 = 0 ∧ w 3 &&& ~~~0xFFFF_FFFF_0000_000F = 0 ∧ w 11 = 0) ∧
    (let s := tcm (five 0x3E000 0x2000 0 0 0) 0x2000 [2, 0xFFFF_FFFF_0000_0008]
     let w (k : Nat) := tcmWord s (0x2000 + 8 * k)
     (w 0).toNat % 8 = 2 ∧ w 0 &&& ~~~0x707 = 0 ∧ w 1 &&& ~~~0xFFFF_FFFF_0000_000F = 0 ∧ w 2 = 0 ∧ w 11 = 0) ∧
    ((3 : Word).toNat % 8 = 3 ∧ (3 : Word) &&& ~~~0x707 = 0 ∧ (4 : Word).toNat % 8 > 3) ∧
    (let s := tcm (five 0x3E000 0x2000 0 0 0) 0x2000 [0x4007]
     (tcmWord s 0x2000).toNat % 8 = 7 ∧ (tcmWord s 0x2000).toNat / 2 ^ 8 % 2 ^ 7 = 64 ∧
     tcmWord s 0x2000 &&& ~~~0x7F07 = 0 ∧ inData s 0x2000 (32 + 8 * 64) ∧ 0x2000 + (32 + 8 * 64) ≤ 0x3E000) ∧
    (let x : Word := 0x0003_DF00_0000_0002
     x.toNat / 2 ^ 20 % 2 ^ 12 = 0 ∧ x.toNat / 2 ^ 50 = 0 ∧ (x.toNat / 2 ^ 32 % 2 ^ 18) % 8 = 0 ∧
     inData (five 0x3E000 x 0 0 0) 0x3DF00 256 ∧ 0x3DF00 + 256 ≤ 0x3E000) := by
  unfold QuietTcm inData
  dsimp only
  constructorm* _ ∧ _ <;> decide +kernel

/-- A submission whose one entry has a map, and a load that finds it, is mapped. -/
theorem mapped_one (fm fn v : Nat) (e : Word) (s : State)
    (h : ∃ p, s.load (nat (fm + 4 * (e.toNat / 2 ^ 32 % 2 ^ 24))) 4 = .ok p) : ∃ out u, Mapped fm fn v [e] [] s out u := by
  obtain ⟨⟨f, s'⟩, h⟩ := h
  by_cases hd : isNan fmt32 (e.toNat % 2 ^ 32) = true ∨ fn ≤ e.toNat / 2 ^ 32 % 2 ^ 24
  · exact ⟨[], s, fun _ => ⟨rfl, rfl⟩, fun hn => absurd hd hn⟩
  · by_cases hu : 2 ^ 20 ≤ f ∨ v ≤ f ∨ ∃ k, (k, f) ∈ ([] : List (Nat × Nat)) ∧ ¬below fmt32 k (e.toNat % 2 ^ 32)
    · exact ⟨[], s', fun h => absurd h hd, fun _ => ⟨f, s', h, fun _ => ⟨rfl, rfl⟩, fun hn => absurd hu hn⟩⟩
    · exact ⟨_, s', fun h => absurd h hd, fun _ => ⟨f, s', h, fun h => absurd h hu, fun _ => ⟨rfl, rfl⟩⟩⟩

/-- The answer is one of a completed access. -/
def isOk {α : Type} (a : Ans α) : Bool :=
  match a with
  | .ok _ => true
  | .trap _ => false
  | .wait _ => false
  | .yield => false

theorem ok_of {α : Type} (a : Ans α) (h : isOk a = true) : ∃ x, a = .ok x := by
  cases a with
  | ok x => exact ⟨x, rfl⟩
  | trap t => exact absurd h (by simp [isOk])
  | wait w => exact absurd h (by simp [isOk])
  | yield => exact absurd h (by simp [isOk])

/-- Member 7 alone is LIVE, and its map is loaded, and then its entry. -/
theorem inverses_last (r x live : Nat) (s : State) (hd : ∀ m < 7, live.testBit m = false)
    (h : isOk ((s.load (nat (r + 0x80 + 64 * 7 + 0x28)) 8).bind fun p =>
      p.2.loadWords (nat (p.1 % 2 ^ 48 + 16 * x)) 2) = true) :
    ∃ ws u, Inverses r x live (List.range 8) s ws u := by
  have dead : ∀ m ms s ws u, m < 7 → Inverses r x live ms s ws u → Inverses r x live (m :: ms) s (0 :: 0 :: ws) u := by
    intro m ms s ws u hm hi
    exact ⟨fun _ => ⟨ws, rfl, hi⟩, fun hl => by simp [hd m hm] at hl⟩
  suffices hs : ∃ ws u, Inverses r x live [7] s ws u by
    obtain ⟨ws, u, hw⟩ := hs
    exact ⟨_, u, dead 0 _ _ _ _ (by omega) (dead 1 _ _ _ _ (by omega) (dead 2 _ _ _ _ (by omega)
      (dead 3 _ _ _ _ (by omega) (dead 4 _ _ _ _ (by omega) (dead 5 _ _ _ _ (by omega)
      (dead 6 _ _ _ _ (by omega) hw))))))⟩
  cases h1 : s.load (nat (r + 0x80 + 64 * 7 + 0x28)) 8 with
  | trap t => simp [h1, Ans.bind, isOk] at h
  | wait w => simp [h1, Ans.bind, isOk] at h
  | yield => simp [h1, Ans.bind, isOk] at h
  | ok p =>
    obtain ⟨im, s1⟩ := p
    simp only [h1, Ans.bind] at h
    obtain ⟨⟨e, s2⟩, h2⟩ := ok_of _ h
    by_cases hl : live.testBit 7 = true
    · exact ⟨e ++ [], s2, fun hn => by simp [hl] at hn, fun _ => ⟨im, s1, e, s2, [], h1, h2, rfl, rfl, rfl⟩⟩
    · exact ⟨[0, 0], s, fun _ => ⟨[], rfl, rfl, rfl⟩, fun hn => absurd hn hl⟩

/-- A record whose member 7 is LIVE, with its forward map at the end of the TCM and its inverse map before that. -/
def convened : State :=
  tcm (tcm (five 0x3E000 0x2000 0 0 0) 0x2000 [0x4007, 0, 0, 0, 0x1_3F80_0000]) 0x3E000
    ([nat (0x80 * 2 ^ 24 + 2 + 1000 * 2 ^ 43)] ++ List.replicate 75 0 ++ [0x3FFF8, 0x3FFD0, 2, 0])

/-- Submissions and inverse entries whose loads succeed, with every word of the chunk read. -/
theorem wit_CommitteeInstructionsAsk_maps :
    let u := convened.setCx { convened.cx with chunk := { convened.cx.chunk with rsig := BitVec.allOnes 1024 } }
    (∃ out v, Mapped 0x3FFF8 2 1000 [0x1_3F80_0000] [] u out v) ∧
    (∃ ws v, Inverses 0x3E000 2 ((tcmWord convened 0x3E000).toNat / 2 ^ 24 % 256) (List.range 8) u ws v) ∧
    ((tcmWord convened 0x3E000).toNat / 2 ^ 24).testBit 7 = true ∧
    isNan fmt32 ((0x1_3F80_0000 : Word).toNat % 2 ^ 32) = false ∧ (0x1_3F80_0000 : Word).toNat / 2 ^ 32 % 2 ^ 24 < 2 := by
  refine ⟨mapped_one _ _ _ _ _ (ok_of _ (by decide +kernel)), inverses_last _ _ _ _ (by decide +kernel) (by decide +kernel), ?_⟩
  constructorm* _ ∧ _ <;> decide +kernel

theorem calm_of (s : State) (k : Nat) (hs : (s.cluster k).shared = false)
    (h : ∀ e ∈ s.cores, ∀ i : Fin 4, (e.2.ctx i).chunk = Chunk.empty) (hm : ∀ e ∈ s.cores, wholeMap e.2.bank) :
    CalmCluster s k :=
  ⟨whole_of s k hs hm, fun c i _ _ => all_cores s (fun x => ∀ i : Fin 4, (x.ctx i).chunk = Chunk.empty) h (by decide +kernel) c i⟩

/-- Context 3 of core 0 with a request before the thread, and words of the TCM. -/
def thread (b : Bank) (q : ThreadReq) (a : Nat) (ws : List Word) : State :=
  tcm (one { (Core.reset.putCtx 3 { Ctx.reset with st := .waiting, wait := .thread 5 }) with bank := b, reqs := [q] }) a ws

def ask (comm : Bool) (op : Nat) (a : Word) (ops : List Word) : ThreadReq :=
  { ctx := 3, comm := comm, op := op, a := a, ops := ops, rd := 5, live := true }

theorem thread_calm (b : Bank) (q : ThreadReq) (a : Nat) (ws : List Word)
    (hb : wholeMap b := by first | exact .inr ⟨rfl, rfl⟩ | exact .inl rfl) : CalmCluster (thread b q a ws) 0 := by
  have h0 : CalmCluster (one { (Core.reset.putCtx 3 { Ctx.reset with st := .waiting, wait := .thread 5 }) with
      bank := b, reqs := [q] }) 0 := by
    refine calm_of _ _ ?_ ?_ ?_
    · show (State.reset.cluster 0).shared = false
      decide +kernel
    · intro e he i
      simp only [one, List.mem_singleton] at he
      subst he
      have hr : ∀ i : Fin 4, ((Core.reset.putCtx 3 { Ctx.reset with st := .waiting, wait := .thread 5 }).ctx i).chunk =
          Chunk.empty := by decide +kernel
      exact hr i
    · intro e he
      simp only [one, List.mem_singleton] at he
      subst he
      exact hb
  exact h0

theorem thread_only (b : Bank) (q : ThreadReq) (a : Nat) (ws : List Word) (hl : q.live = true) (hc : q.ctx = 3)
    (hr : q.rd = 5) : OnlyRequest (thread b q a ws) 0 q 3 := by
  refine ⟨rfl, rfl, hl, hc, ?_, ?_⟩
  · show ((Core.reset.putCtx 3 { Ctx.reset with st := .waiting, wait := .thread 5 }).ctx 3).st = .waiting
    decide +kernel
  · rw [hr]
    show ((Core.reset.putCtx 3 { Ctx.reset with st := .waiting, wait := .thread 5 }).ctx 3).wait = .thread 5
    decide +kernel

/-- Records in each state, members 0 and 7, a joined and a vacant member, limits of CMSET, CMBN and CMADV; a held CMWAIT
whose members have all joined, and one whose deadline has come. -/
theorem wit_CommitteeThreadPerformsRequests :
    (let q := ask true 1 0x3E000 [7, 0, 5, 1]
     let s := thread bank q 0x3E000 [nat (0x80 * 2 ^ 24 + 2), 5]
     CalmCluster s 0 ∧ OnlyRequest s 0 q 3 ∧ q.comm = true ∧ q.a.toNat % 8192 = 0 ∧ q.a.toNat < 2 ^ 18 ∧
     (tcmAtCore s 0 0x3E000).toNat % 8 = 2 ∧ ((tcmAtCore s 0 0x3E000).toNat / 2 ^ 24 % 256).testBit 7 = true ∧
     q.ops.getD 2 0 = tcmAtCore s 0 0x3E008 ∧ ((tcmAtCore s 0 0x3E000).toNat / 2 ^ 16 % 256).testBit 7 = false ∧
     (∀ m < 7, ((tcmAtCore s 0 0x3E000).toNat / 2 ^ 24 % 256).testBit m = false)) ∧
    (let q := ask true 1 0x3E000 [0, 0, 5]
     let s := thread bank q 0x3E000 [nat (2 ^ 24 + 2 ^ 16 + 2), 5]
     (tcmAtCore s 0 0x3E000).toNat % 8 = 2 ∧ ((tcmAtCore s 0 0x3E000).toNat / 2 ^ 16 % 256).testBit 0 = true ∧
     q.ops.getD 2 0 = tcmAtCore s 0 0x3E008) ∧
    (let s := thread bank (ask true 0 0x3E000 [1]) 0x3E000 []
     (tcmAtCore s 0 0x3E000).toNat % 8 = 0) ∧
    (let q := ask true 3 0x3E000 [0x100_0003_D800]
     let s := poke (thread bank q 0x3E000 [nat (3 + 0x80 * 2 ^ 16 + 0x80 * 2 ^ 24)])
       (2 ^ 41 + 0x3E000 + 0x400 + 544 * 7) (wordsBytes [2, 0, 0, 0, 0x5_3F80_0000, 0x6_3F80_0000])
     GoodLists s 0 0x3E000 ∧ cmList s 0 0x3E000 7 0 = 2 ∧ (tcmAtCore s 0 0x3E000).toNat % 8 = 3 ∧ (q.ops.getD 0 0).toNat % 2 ^ 18 % 8 = 0 ∧
     (q.ops.getD 0 0).toNat % 2 ^ 18 + 8 * ((q.ops.getD 0 0).toNat / 2 ^ 32 % 2 ^ 9) ≤ 2 ^ 18) ∧
    (let q := ask true 4 0x3E000 [0x0003_DF00_0000_0006]
     let s := thread bank q 0x3E000 [nat (3 + 7 * 2 ^ 43)]
     (tcmAtCore s 0 0x3E000).toNat % 8 = 3 ∧ (tcmAtCore s 0 0x3E000).toNat / 2 ^ 24 % 256 = 0 ∧
     (q.ops.getD 0 0).toNat % 2 ^ 20 < (tcmAtCore s 0 0x3E000).toNat / 2 ^ 43 ∧
     (q.ops.getD 0 0).toNat / 2 ^ 32 % 2 ^ 18 % 8 = 0 ∧ (q.ops.getD 0 0).toNat / 2 ^ 32 % 2 ^ 18 + 256 ≤ 0x3E000 ∧
     ¬(7 : Nat) < (tcmAtCore s 0 0x3E000).toNat / 2 ^ 43) ∧
    (let q := ask true 4 0x3E000 ([0x0003_DF00_0000_0006] ++ List.replicate 14 0 ++ [4, 0])
     let s := poke (thread bank q 0x3E000 [nat (3 + 0x80 * 2 ^ 24 + 7 * 2 ^ 43)])
       (2 ^ 41 + 0x3E000 + 0x80 + 64 * 7) (wordsBytes [0x20, 0, 6, 10])
     (∀ m < 8, ((tcmAtCore s 0 0x3E000).toNat / 2 ^ 24 % 256).testBit m = true → m = 7) ∧
     (q.ops.getD (1 + 2 * 7) 0).toNat % 8 = 4 ∧ AtLimit s 0 0x3E000 7 4 2 ∧ ¬AtLimit s 0 0x3E000 7 3 2 ∧
     4 < (5 : Word).toNat % 8) ∧
    (let q := ask true 5 0x3E000 [0x700, 0x21, 0, 0, 0, 0x3000, 0x4000, 1, 0, 0, 0, 0]
     let s := thread bank q 0x3E000 [1]
     (tcmAtCore s 0 0x3E000).toNat % 8 = 1 ∧ memberOk q.ops = true) ∧
    (let q := ask true 13 0x3E000 [1, 0, 0x3F80_0000, 0x3F80_0000_0000_0007, 0, 0, 0, 0, 0, 0, 0, 0]
     exprOk q.ops = true) ∧
    (let q := ask true 21 0x3E000 [2, 0xFFFF_FFFF_0000_0008]
     1 ≤ (q.ops.getD 1 0).toNat % 16 ∧ (q.ops.getD 1 0).toNat % 16 ≤ 8) ∧
    (let s := thread bank (ask true 29 0x3E000 [3]) 0x3E000 [nat (2 ^ 24 + 8 + 1)]
     (tcmAtCore s 0 0x3E000).toNat % 8 = 1 ∧ (tcmAtCore s 0 0x3E000).toNat / 2 ^ 24 % 256 ≠ 0 ∧
     (tcmAtCore s 0 0x3E000).toNat / 2 ^ 3 % 2 = 1) ∧
    (let q := ask true 2 0x3E000 []
     let s := tcm (one { (Core.reset.putCtx 3 { Ctx.reset with st := .waiting, wait := .thread 5 }) with
       held := [q] }) 0x3E000 [nat (0x81 * 2 ^ 24 + 0x81 * 2 ^ 16 + 2)]
     (s.core 0).reqs = [] ∧ (s.core 0).held = [q] ∧
     ((tcmAtCore s 0 0x3E000).toNat / 2 ^ 24 % 256) &&& ((tcmAtCore s 0 0x3E000).toNat / 2 ^ 16 % 256) =
       (tcmAtCore s 0 0x3E000).toNat / 2 ^ 24 % 256) ∧
    (let q := ask true 2 0x3E000 []
     let s := tcm (one { (Core.reset.putCtx 3 { Ctx.reset with st := .waiting, wait := .thread 5 }) with
       held := [q] }) 0x3E000 [nat (0x81 * 2 ^ 24 + 2 ^ 16 + 2), 0, 0, 1]
     (s.core 0).held = [q] ∧ (tcmAtCore s 0 0x3E000).toNat % 8 = 2 ∧
     ((tcmAtCore s 0 0x3E000).toNat / 2 ^ 24 % 256) &&& ((tcmAtCore s 0 0x3E000).toNat / 2 ^ 16 % 256) ≠
       (tcmAtCore s 0 0x3E000).toNat / 2 ^ 24 % 256 ∧
     (tcmAtCore s 0 0x3E018).toNat % 2 ^ 32 = 1 ∧
     min ((tcmAtCore s 0 0x3E000).toNat / 2 ^ 12 % 16) 2 = 0) ∧
    (let s := tcm State.reset 0x3E000 [nat (0x81 * 2 ^ 24 + 2 ^ 16 + 2 + 2 ^ 12), 0, 0, 1]
     let ctl := (tcmAtCore s 0 0x3E000).toNat
     let count (x : Nat) := (List.range 8).countP fun m => x.testBit m
     let live := ctl / 2 ^ 24 % 256
     ctl % 8 = 2 ∧ (tcmAtCore s 0 0x3E018).toNat % 2 ^ 32 ≠ 0 ∧ min (ctl / 2 ^ 12 % 16) (count live) = 1 ∧
     1 ≤ count (live &&& (ctl / 2 ^ 16 % 256)) ∧ live &&& (ctl / 2 ^ 16 % 256) ≠ live) := by
  refine ⟨⟨thread_calm _ _ _ _, thread_only _ _ _ _ rfl rfl rfl, ?_⟩, ?_⟩ <;> (try unfold GoodLists) <;>
    (try unfold AtLimit) <;> (try dsimp only) <;>
    constructorm* _ ∧ _ <;> decide +kernel

/-- A kernel whose pool fills its region bank: 7 versions, 30 pieces, 4 tensors. -/
def pooled (b : Bank) : Bank := { b with stpl := nat (0x3E000 + 7 * 2 ^ 24 + 30 * 2 ^ 32 + 4 * 2 ^ 48) }

/-- A task with two registers and the pool, and words in the TCM. -/
def stitcher (h x : Word) (a : Nat) (ws : List Word) : State :=
  let s := five h x 0 0 0
  tcm (s.setMe { s.me with bank := pooled s.me.bank }) a ws

/-- No pool; descriptors of no item and of eight; rows at the ends of a version's entries, handles that name none. -/
theorem wit_StitchInstructions :
    QuietTcm (five 0 0x2000 0 0 0) ∧ (five 0 0x2000 0 0 0).view.pool = none ∧
    (stitcher 0 0 0x2000 []).view.pool = some { base := 0x3E000, nv := 7, np := 30, nt := 4 } ∧ (0x2010 : Nat) % 32 ≠ 0 ∧
    (let s := stitcher 0x3_0000 0x2000 0x2000 [0x7C_7C]
     let w (k : Nat) := tcmWord s (0x2000 + 8 * k)
     (w 0).toNat / 2 ^ 16 % 2 ^ 8 = 0 ∧ (w 0).toNat % 256 ≤ 124 ∧ (w 0).toNat / 2 ^ 8 % 256 ≤ 124 ∧
     (w 0).toNat / 2 ^ 24 = 0 ∧ w 1 = 0 ∧ w 2 = 0 ∧ w 3 = 0 ∧ inData s 0x2000 32) ∧
    (let s := stitcher 0x3_0000 0x3FFC0 0x3FFC0 [0x1_0000, 0, 0, 0, nat (1 * 2 ^ 34 + 29 * 4), 0, 0, 0]
     let w (k : Nat) := tcmWord s (0x3FFC0 + 8 * k)
     (w 0).toNat / 2 ^ 16 % 2 ^ 8 = 1 ∧ inData s 0x3FFC0 64 ∧ (w 4).toNat % 4 = 0 ∧ (w 4).toNat / 4 % 2 ^ 12 < 30 ∧
     w 5 = 0 ∧ (w 6).toNat = 0 ∧ w 7 = 0 ∧ (w 4).toNat / 2 ^ 55 = 0 ∧ (w 4).toNat / 2 ^ 34 % 2 ^ 21 = 1) ∧
    (let s := stitcher 0x3_0000 0x2000 0x2000 [0x1_0000, 0, 0, 0, nat (2 ^ 20 * 2 ^ 34 + 1), 0x1000, nat (2 ^ 20 + 8 * 2 ^ 32), 0]
     let w (k : Nat) := tcmWord s (0x2000 + 8 * k)
     (w 4).toNat % 4 = 1 ∧ (w 4).toNat / 2 ^ 34 % 2 ^ 21 ≤ 2 ^ 20 ∧
     (w 4).toNat / 2 ^ 14 % 2 ^ 20 + (w 4).toNat / 2 ^ 34 % 2 ^ 21 ≤ (w 6).toNat % 2 ^ 21 ∧ (w 6).toNat % 2 ^ 21 ≤ 2 ^ 20 ∧
     (w 6).toNat / 2 ^ 32 % 2 ^ 20 = 8 ∧ (w 6).toNat / 2 ^ 52 = 0 ∧ (w 6).toNat / 2 ^ 21 % 2 ^ 11 = 0) ∧
    (let h : Word := nat (3 + 6 * 2 ^ 8 + 9 * 2 ^ 16)
     let s := stitcher h 4 (0x3E000 + 6 * 1024) [nat (3 + 2 ^ 8 + 9 * 2 ^ 16), 0x2_0000, 5, 0, nat (3 * 2 ^ 32),
       nat (29 + 1 * 2 ^ 12 + 2 * 2 ^ 32)]
     let word (k : Nat) := (tcmWord s (0x3E000 + 6 * 1024 + 8 * k)).toNat
     h.toNat / 2 ^ 15 % 2 = 0 ∧ h.toNat < 2 ^ 48 ∧ h.toNat % 2 ^ 8 < 4 ∧ h.toNat / 2 ^ 8 % 2 ^ 7 < 7 ∧
     word 0 = h.toNat % 2 ^ 8 + 2 ^ 8 + h.toNat / 2 ^ 16 * 2 ^ 16 ∧ word 1 < 2 ^ 24 ∧ word 1 / 2 ^ 16 ≤ 124 ∧
     4 < word 2 ∧ ¬(5 : Nat) < word 2 ∧ 1 < word 1 / 2 ^ 16 ∧
     ((List.range 1).map fun e => word (4 + e) / 2 ^ 32 % 2 ^ 21).sum ≤ 4 ∧
     4 < ((List.range 1).map fun e => word (4 + e) / 2 ^ 32 % 2 ^ 21).sum + word 5 / 2 ^ 32 % 2 ^ 21 ∧
     word 5 % 2 ^ 12 < 30 ∧ word 0 ≠ 4 + 2 ^ 8 + 9 * 2 ^ 16) ∧
    ((4 : Word).toNat / 2 ^ 62 = 0 ∧ (0x4000_0000_0000_0004 : Word).toNat / 2 ^ 62 = 1 ∧
     (0x8000_0000_0000_0004 : Word).toNat / 2 ^ 62 = 2 ∧ (0x8000_0000_0000_0004 : Word).toNat / 2 ^ 32 % 2 ^ 30 = 0 ∧
     ¬(nat (4 + 6 * 2 ^ 8)).toNat % 2 ^ 8 < 4) := by
  unfold QuietTcm inData
  dsimp only
  constructorm* _ ∧ _ <;> decide +kernel

/-- Tensor 0 live with version 0, empty, of serial 1, with a number of pins. -/
def tensors (q : ThreadReq) (pins : Nat) : State :=
  poke (thread (pooled bank) q 0x3E000 [nat (0 + 2 ^ 8 + 2 ^ 16), nat pins, 0, 0])
    (2 ^ 41 + 0x3E000 + 1024 * 7 + 32 * 30) (wordsBytes [nat (1 + 2 ^ 16), 1])

/-- An empty pool and one with a tensor of 0, 1, 2 and 65535 pins; handles that name it and that do not. -/
theorem wit_StitchThreadPerformsRequests :
    (let q := ask false 0 0 []
     let s := thread (pooled bank) q 0x3E000 []
     let p : Pool := { base := 0x3E000, nv := 7, np := 30, nt := 4 }
     CalmCluster s 0 ∧ OnlyRequest s 0 q 3 ∧ q.comm = false ∧ (s.bank 0).pool = some p ∧
     (s.tensor 0 p 0).live = false ∧ (s.versionAt 0 p 0).live = false ∧ (s.tensor 0 p 0).ok = true ∧
     (s.tensor 0 p 0).ser ≠ 0xFFFF_FFFF ∧ (∀ k < 128, tcmAtCore s 0 (p.version 0 + 8 * k) = 0)) ∧
    (let s := thread (pooled bank) (ask false 0 0 []) 0x3E000 [0, 5]
     let p : Pool := { base := 0x3E000, nv := 7, np := 30, nt := 4 }
     (s.versionAt 0 p 0).live = false ∧ tcmAtCore s 0 (p.version 0 + 8 * 1) ≠ 0) ∧
    (let s := thread (pooled bank) (ask false 0 0 []) (0x3E000 + 1024 * 7 + 32 * 30) [1, 0, 1, 0, 1, 0, 1, 0]
     let p : Pool := { base := 0x3E000, nv := 7, np := 30, nt := 4 }
     ∀ n < p.nt, (s.tensor 0 p n).live = true) ∧
    (let q := ask false 2 0x1_0000 [0]
     let s := tensors q 65534
     let p : Pool := { base := 0x3E000, nv := 7, np := 30, nt := 4 }
     s.findTensor 0 p q.a = .ok (0, s.tensor 0 p 0, s.versionAt 0 p 0) ∧ (s.versionAt 0 p 0).pins < 65535 ∧
     (s.versionAt 0 p 0).entries = [] ∧ (s.tensor 0 p 1).live = false ∧ (s.versionAt 0 p 1).live = false ∧
     q.ops.getD 0 0 = 0 ∧ (s.tensor 0 p 0).ser ≠ 0xFFFF_FFFF ∧ (s.versionAt 0 p 0).pins ≠ 0 ∧
     (∀ k < 128, tcmAtCore s 0 (p.version 1 + 8 * k) = 0)) ∧
    (let p : Pool := { base := 0x3E000, nv := 7, np := 30, nt := 4 }
     ((tensors (ask false 2 0x1_0000 []) 65535).versionAt 0 p 0).pins = 65535 ∧
     ((tensors (ask false 3 0x1_0000 []) 0).versionAt 0 p 0).pins = 0 ∧
     ((tensors (ask false 3 0x1_0000 []) 2).versionAt 0 p 0).pins = 2 ∧
     ((tensors (ask false 3 0x1_0000 []) 1).versionAt 0 p 0).pins = 1 ∧
     ((tensors (ask false 3 0x1_0000 []) 1).tensor 0 p 0).live = true ∧
     ((tensors (ask false 3 0x1_0000 []) 1).tensor 0 p 0).cur = 0 ∧
     ((tensors (ask false 3 0x1_0000 []) 1).tensor 0 p 0).ok = true ∧
     ((tensors (ask false 3 0x1_0000 []) 2).versionAt 0 p 0).live = true ∧
     ((tensors (ask false 3 0x1_0000 []) 2).versionAt 0 p 0).ser = 1 ∧
     ((tensors (ask false 3 0x1_0000 []) 2).versionAt 0 p 0).ok = true ∧
     (tensors (ask false 1 0x2_0000 []) 0).findTensor 0 p 0x2_0000 = .error (nat (2 ^ 64 - 5)) ∧
     p.nt ≤ (4 : Word).toNat % 2 ^ 8) := by
  refine ⟨⟨thread_calm _ _ _ _, thread_only _ _ _ _ rfl rfl rfl, ?_⟩, ?_⟩ <;> (try dsimp only) <;>
    constructorm* _ ∧ _ <;> decide +kernel

/-- A task with two registers, ring 1 as given, and words in the TCM. -/
def sequencer (y x h : Word) (a : Nat) (ws : List Word) : State :=
  let s := five y x 0 0 0
  tcm (s.setMe { s.me with bank := { s.me.bank with h := s.me.bank.h.set 1 h } }) a ws

/-- SPARK and SRES: bad operands; records of a wrong state, out of a row, before a full ring and a ring with room; an
empty ring, a head of another layer, full rows and the last row vacant. -/
theorem wit_SequenceHandover :
    (let h : Word := 0x4000 + 3 * 2 ^ 18 + 1 * 2 ^ 22
     let s := sequencer 0x2000 0x1_0005 h 0x2000 ([0x0000_0007_0005_0F01, 0, 0, 0, 0x3000] ++ List.replicate 3 0)
     let t := poke s (2 ^ 41 + 0x3000) (wordsBytes ([nat (0x8000 + 5 * 2 ^ 16)] ++ List.replicate 7 0 ++ List.replicate 7 0 ++
       [0x0000_2000_0000_0000]))
     QuietTcm t ∧ t.cx.chunk.cells = [] ∧ (0x1_0005 : Word).toNat < 2 ^ 20 ∧ ¬(0x10_0000 : Word).toNat < 2 ^ 20 ∧
     (0x2020 : Nat) % 64 ≠ 0 ∧ (0x2000 : Nat) % 64 = 0 ∧ t.me.bank.kernel.cb * 8192 ≤ 0x2000 ∧
     ¬t.me.bank.kernel.cb * 8192 ≤ 0x1FC0 ∧ hNlg (t.view.ring 1) ≠ 0 ∧ hNlg (t.view.ring 0) = 0 ∧
     (let w := seenNum t (2 ^ 41 + 0x2000) 8
      w % 8 = 1 ∧ w / 2 ^ 8 % 2 ^ 8 = 15) ∧ seenNum t (2 ^ 41 + 0x2020) 8 % 2 ^ 18 = 0x3000 ∧
     seenNum t (2 ^ 41 + 0x3000 + 0x40 + 4 * 15) 4 % 2 ^ 18 = 0x2000 ∧ hFree (t.view.ring 1) ≠ 0 ∧
     hTailAddr (t.view.ring 1) = 0x4000 ∧ seenNum s (2 ^ 41 + 0x3000 + 0x40 + 4 * 15) 4 % 2 ^ 18 ≠ 0x2000 ∧
     hFree (0x4000 + 3 * 2 ^ 18 + 1 * 2 ^ 22 + 2 * 2 ^ 37) = 0) ∧
    (∀ (j : Fin 4) w, j ≠ (five 0 0 0 0 0).focus.2 → ((five 0 0 0 0 0).ctx 0 j).wrote w = false) ∧
    (let h : Word := 0x4000 + 3 * 2 ^ 18 + 1 * 2 ^ 22 + 1 * 2 ^ 37
     let s := sequencer 0x2000 0x1_0005 h 0x4000 [0x3000]
     let t := poke s (2 ^ 41 + 0x3000) (wordsBytes [0x0000_0007_0005_FF02])
     let u := poke t (2 ^ 41 + 0x2000) (wordsBytes ([nat (5 * 2 ^ 16)] ++ List.replicate 7 0 ++
       List.replicate 7 0x0000_5000_0000_5000 ++ [0x5000]))
     hFilled (u.view.ring 1) ≠ 0 ∧ hFilled (0x4000 + 3 * 2 ^ 18 + 1 * 2 ^ 22) = 0 ∧ hHeadAddr (u.view.ring 1) = 0x4000 ∧
     seenNum u (2 ^ 41 + 0x4000) 8 % 2 ^ 18 = 0x3000 ∧ seenNum u (2 ^ 41 + 0x3000) 8 % 8 = 2 ∧
     seenNum u (2 ^ 41 + 0x3000) 8 / 2 ^ 16 % 2 ^ 16 = 5 ∧ seenNum u (2 ^ 41 + 0x2000) 8 / 2 ^ 16 % 2 ^ 16 = 5 ∧
     seenNum t (2 ^ 41 + 0x2000) 8 / 2 ^ 16 % 2 ^ 16 ≠ 5 ∧
     seenNum u (2 ^ 41 + 0x2000 + 0x40 + 4 * 15) 4 = 0 ∧ (∀ q < 15, seenNum u (2 ^ 41 + 0x2000 + 0x40 + 4 * q) 4 ≠ 0)) := by
  have hw : ∀ j : Fin 4, ((five 0 0 0 0 0).ctx 0 j).chunk = Chunk.empty := by decide +kernel
  refine ⟨?_, ?_, ?_⟩
  · unfold QuietTcm
    dsimp only
    constructorm* _ ∧ _ <;> decide +kernel
  · intro j w _
    unfold Ctx.wrote
    rw [hw j]
    show (_ && false) = false
    simp
  · dsimp only
    constructorm* _ ∧ _ <;> decide +kernel

/-! ### Witnesses: groups, translation, the link -/

/-- An arrival of core 0, and rounds in which it gathers and in which another of core 0 is held behind it. -/
def arrival (rels : Tab Nat) : Arrival := { core := 0, ctx := 3, pl := 1, op := 3, rd := 5, rels := rels }
def lone (held : List Arrival) : Round := { arrivals := [arrival []], held := held }

/-- The block of cluster 0 with a round. -/
def loneBlock (r : Round) : Block :=
  { vd := 0, x0 := 0, y0 := 0, bw := 1, bh := 1, num := 0, lrec := 0, gbat := 0, doneva := 0, count := 1, sid := 0
    round := r }

/-- Core 0 a member of its cluster's group, with a round there, or of a block; and a member that has not arrived. -/
def gathered (r : Round) : State :=
  { one { Core.reset with bank := { bank with gmem := 1 } } with
    clusters := [(0, { Cluster.reset with rounds := [(0, r)] })] }
def inBlock (r : Round) : State :=
  { one { Core.reset with bank := { bank with gmem := 3 } } with blocks := [loneBlock r] }
def lacking (s : State) : State := { s with cores := s.cores ++ [(7, { Core.reset with bank := { bank with gmem := 3 } })] }

/-- Every member has arrived where core 0 alone is one. -/
theorem all_arrived (g : Word) (as : List Arrival) (h : arrival [] ∈ as) (c m : Nat)
    (hm : (((one { Core.reset with bank := { bank with gmem := g } }).core c).gmemOf 0).getLsbD m = true) :
    ∃ a ∈ as, a.core = c := by
  refine ⟨_, h, ?_⟩
  by_contra h0
  have : (one { Core.reset with bank := { bank with gmem := g } }).core c = Core.reset := by
    have : (0 : Nat) ≠ c := h0
    simp [State.core, one, Tab.get, Tab.look, this.symm]
  rw [this] at hm
  have hr : Core.reset.gmemOf 0 = 0 := by decide +kernel
  rw [hr] at hm
  simp at hm

/-- Rounds that pass and that do not, with nothing held and with an arrival held; a block's alike; releases on their way to
the cluster, of its barrier and of the block's. -/
theorem wit_BarriersReleaseTheirRound :
    (∀ h ∈ [[], [arrival []]], let r := lone h
      ((gathered r).cluster 0).rounds = [(0, r)] ∧ (gathered r).blocks = [] ∧ (gathered r).releasing = [] ∧
      (r.arrivals.map (·.core)).Nodup ∧ (r.held.map (·.core)).Nodup ∧ (∀ a ∈ r.arrivals, a.core / 8 = 0) ∧
      r.arrivals ≠ [] ∧ (inBlock r).blocks = [loneBlock r] ∧ ((inBlock r).cluster 0).rounds = [] ∧
      (inBlock r).releasing = [] ∧ 0 ∈ (loneBlock r).clusters ∧ (loneBlock r).clusters.Nodup ∧
      (((lacking (gathered r)).core 7).gmemOf 0).getLsbD 0 = true ∧ (∀ a ∈ r.arrivals, a.core ≠ 7) ∧
      7 ∈ (loneBlock r).cores ∧ (((lacking (inBlock r)).core 7).gmemOf 0).getLsbD 1 = true) ∧
    (∀ c m, ((gathered (lone [])).core c |>.gmemOf 0).getLsbD m = true → ∃ a ∈ (lone []).arrivals, a.core = c) ∧
    (∀ c m, ((inBlock (lone [])).core c |>.gmemOf 0).getLsbD m = true → ∃ a ∈ (lone []).arrivals, a.core = c) ∧
    ∀ rect ∈ [none, some 0],
      let x : Release :=
        { vd := 0, cluster := 0, rect := rect, rels := [[(2 ^ 38, 7)]], parts := [(arrival [(2 ^ 38, 7)], 1)], counts := true }
      let s := { inBlock (lone []) with releasing := [x] }
      s.releasing = [x] ∧ x.cluster = 0 ∧ (x.parts.map (·.1.core)).Nodup ∧ (∀ e ∈ x.parts, e.1.ctx < 4) ∧
      (s.bank 0).vdid = x.vd ∧ inRect 0 0 = true ∧ ∀ y ∈ s.releasing, y.cluster ≠ 1 := by
  refine ⟨?_, fun c m => all_arrived _ _ (List.mem_singleton_self _) c m,
    fun c m => all_arrived _ _ (List.mem_singleton_self _) c m, ?_⟩
  · simp only [List.forall_mem_cons, List.not_mem_nil, false_implies, implies_true, and_true]
    constructorm* _ ∧ _
    all_goals trivial
  · simp only [List.forall_mem_cons, List.not_mem_nil, false_implies, implies_true, and_true]
    constructorm* _ ∧ _
    all_goals trivial

/-- Virtual device 0 with guest frame 0 in die SRAM at 2⁴⁰ and its tables behind it. Space 0 maps the page at 2³² and the
last page of the addresses to guest address 0x20000, readable and writable. -/
def paged (s : State) (f leaf : Word) : State :=
  let s := { s with vds := [(0, { Vd.reset with
    s2base := 0x100_0020_0000, s2len := 1, sidtb := 0x100_0030_0000, switchedIn := true, placing := true
    slots := [(63, 1)] })] }
  let s := poke s 0x100_0020_0000 (wordsBytes [f])
  let s := poke s 0x100_0030_0000 (wordsBytes [0x10001])
  let s := poke (poke s 0x100_0001_0000 (wordsBytes [0x14001])) 0x100_0001_3FF8 (wordsBytes [0x14001])
  let s := poke (poke s 0x100_0001_4200 (wordsBytes [0x18001])) 0x100_0001_7FF8 (wordsBytes [0x18001])
  poke (poke s 0x100_0001_8000 (wordsBytes [leaf])) 0x100_0001_9FF8 (wordsBytes [leaf])

/-- Cluster 0 of virtual device 0 with a kernel on every core whose launch queues lie at 2³². Queue 1 has one batch of
one block on one cluster. -/
def launching : State :=
  let x : Core := { Core.reset with bank := { bank with lqb := 0x1_0000_0000 } }
  let s : State := { State.reset with
    cores := (List.range 8).map fun c => (c, x), clusters := [(0, { Cluster.reset with clown := 0x10_0040 })] }
  let s := paged s 0x100_0000_000F 0x2_0007
  let s := poke s 0x100_0002_0040 (wordsBytes [1, 0, 1, 0x1_0000_0100])
  let s := poke s 0x100_0002_0100 (wordsBytes [0x1_0000_0200, 0x100_0000, 0, 0x1_0000_0300])
  poke s 0x100_0002_0200 (wordsBytes [0x100, 0x1_0041, 7, 0])

/-- GSPAWN before a queue with room, whose parts lie at the ends of the data part, and before a full one. -/
def spawning (put cap : Word) (taken : List Word) : State × Job :=
  let j := { Job.reset with st := .queued, kind := 14, ops := [0x2100, 0x100_0000, 0, 0x3FFE0, 1] }
  (tcm (solo (fun b => { b with lqb := 0x1FC0 }) j) 0x2000 ([put, 0, cap, 0x2FE0] ++ taken), j)

theorem wit_BatchesBlocksAndSlots :
    (IdleCluster (spawning 1 2 []).1 0 ∧ NoErrors (spawning 1 2 []).1 ∧
     (spawning 1 2 []).1.job 0 0 = (spawning 1 2 []).2 ∧ tcmAtCore (spawning 1 2 []).1 0 0x2000 = 1 ∧
     (1 : Word).toNat < 2 ∧ ((spawning 1 2 []).1.bank 0).kernel.cb * 8192 ≤ 0x2000 ∧
     (tcmAtCore (spawning 1 2 []).1 0 0x2018).toNat + 32 * (1 % 2) = 0x3000 ∧ 0x3FFE0 + 32 ≤ 2 ^ 18 ∧
     (tcmAtCore (spawning 2 2 []).1 0 0x2010).toNat ≤
       (tcmAtCore (spawning 2 2 []).1 0 0x2000 - tcmAtCore (spawning 2 2 []).1 0 0x2008).toNat) ∧
    ((launching.vdev 0).placing = true ∧ (launching.vdev 0).switchedIn = true ∧ (launching.vdev 0).slots = [(63, 1)] ∧
     (launching.headBatch 0 1).1 = .block
       { vd := 0, x0 := 0, y0 := 0, bw := 1, bh := 1, num := 0, lrec := 0x1_0000_0200, gbat := 0x1_0000_0300, doneva := 0
         count := 1, sid := 0, round := .idle } 0x100 7 0) ∧
    (let s := { State.reset with vds := [(0, { Vd.reset with switchedIn := true, placing := true })] }
     (s.vdev 0).placing = true ∧ (s.vdev 0).slots = []) ∧
    (let s := { one Core.reset with
       vds := [(0, { Vd.reset with switchedIn := true })], clusters := [(0, { Cluster.reset with clown := 0x10_0040 })] }
     (s.vdev 0).switchedIn = true ∧ (Tab.get s.slotTab ((s.slotIx + 1) % s.slotLenNext) 0).getLsbD 0 = false ∧
     7 / 8 ∈ s.clustersOf 0 ∧ (s.bank 7).vdid = 0 ∧ (s.cluster 0).shared = false) := by
  refine ⟨⟨?_, ?_⟩, ?_⟩
  · exact idle_poke _ _ _ _ (solo_idle _ _)
  · unfold NoErrors
    constructorm* _ ∧ _ <;> decide +kernel
  · dsimp only
    constructorm* _ ∧ _ <;> decide +kernel

/-- Fabric cores, and control cores of each level with a free slot; mailboxes and operands at their limits. -/
theorem wit_TranslationInstructions :
    (five 0 0 0 0 0).ctl = false ∧ OnFabric (five 0 0 0 0 0) ∧ goodMailbox (five 0 0 0 0 0) 0x2000 ∧
    (ctl 0 Regs.reset).ctl = true ∧ (ctl 0 Regs.reset).level = 0 ∧ (ctl 1 Regs.reset).level = 1 ∧
    (ctl 2 Regs.reset).ctl = true ∧ (ctl 2 Regs.reset).level = 2 ∧ freeSlotIs (ctl 2 Regs.reset) 0 ∧
    (0xFFFF_FFFF_FFF8 : Word).toNat % 8 = 0 ∧ (0xFFFF_FFFF_FFF8 : Word).toNat < 2 ^ 48 ∧
    (0xFFFF : Word).toNat < 2 ^ 16 ∧ ¬(0x1_0000 : Word).toNat < 2 ^ 16 ∧ (63 : Word).toNat < 64 ∧ 64 ≤ (64 : Word).toNat ∧
    (0xFF_FFFF_C001 : Word).toNat / 2 % 2 ^ 13 = 0 ∧ (0xFF_FFFF_C001 : Word).toNat < 2 ^ 40 ∧
    (2 : Word).toNat / 2 % 2 ^ 4 ≠ 0 ∧ (2 : Word).getLsbD 0 = false ∧ (0x2001 : Word).toNat / 2 % 2 ^ 4 = 0 ∧
    (0x2001 : Word).toNat / 2 % 2 ^ 13 ≠ 0 ∧ (0xFFFF_FFFF_FFFF_FFE0 : Word).toNat / 2 % 2 ^ 4 = 0 ∧
    2 ^ 40 ≤ (0x100_0000_0001 : Word).toNat ∧ NoErrors (ctl 1 Regs.reset) ∧
    ((ctl 1 Regs.reset).vdev (ctl 1 Regs.reset).vd).sidtb.toNat % 8 = 0 ∧
    (ctl 1 Regs.reset).version ((ctl 1 Regs.reset).hypHome (8 * 0xFFFF)) + 1 < 2 ^ 56 ∧
    (ctl 1 Regs.reset).hyperWord false 0 (8 * 0xFFFF) = .ok 0 ∧ 2 < (3 : Word).toNat := by
  unfold freeSlotIs goodMailbox inData OnFabric NoErrors
  constructorm* _ ∧ _ <;> decide +kernel

/-- A guest word whose frame is in die SRAM. -/
theorem guest_is (s : State) (f x : Word) (ga : Nat) (h1 : SecondStage s 0 ga f) (h2 : f.getLsbD 1 = true)
    (h3 : s.windowOk 0 (f.toNat / 2 ^ 8 % 2 ^ 8) = true) (h4 : 2 ^ 40 ≤ f.toNat / 2 ^ 21 % 2 ^ 20 * 2 ^ 21)
    (h5 : s.lineSt { addr := f.toNat / 2 ^ 21 % 2 ^ 20 * 2 ^ 21 + ga % 2 ^ 21, home := none } = .good)
    (h6 : s.wordAt { addr := f.toNat / 2 ^ 21 % 2 ^ 20 * 2 ^ 21 + ga % 2 ^ 21, home := none } = x)
    (h7 : s.hist.get ((f.toNat / 2 ^ 21 % 2 ^ 20 * 2 ^ 21 + ga % 2 ^ 21) / 8) [] = []) : GuestIs s 0 ga x := by
  refine ⟨f, h1, h2, h3, ?_⟩
  have : ¬f.toNat / 2 ^ 21 % 2 ^ 20 * 2 ^ 21 + ga % 2 ^ 21 < 2 ^ 40 := by omega
  dsimp only
  rw [if_neg this]
  exact ⟨Or.inr h5, h6, h7⟩

/-- The tables of the last page with every entry in place; roots and entries that are not valid; a page and a frame
that lack a permission. -/
theorem wit_AtrnWalksBothStages :
    (let s := paged (five 0xFFFF_FFFF_FFF8 2 0 0 0) 0x100_0000_000F 0x2_0007
     NoErrors s ∧ s.hist = [] ∧ s.ctl = false ∧ s.me.tlb = [] ∧ s.me.bank.vdid = 0 ∧ s.me.bank.sidr = 0 ∧
     s.hyperWord false 0 (s.vdev 0).sidtb.toNat = .ok 0x10001 ∧
     GuestIs s 0 (0x10000 + 8 * 2047) 0x14001 ∧ GuestIs s 0 (0x14000 + 8 * 2047) 0x18001 ∧
     GuestIs s 0 (0x18000 + 8 * 1023) 0x2_0007 ∧ SecondStage s 0 0x2_FFF8 0x100_0000_000F ∧
     (0x100_0000_000F : Word).toNat / 2 ^ 8 % 2 ^ 8 = 0 ∧ (0x2_0007 : Word).getLsbD 2 = true ∧
     (s.vdev 0).s2len.toNat ≤ 0x20_0007 / 2 ^ 21 ∧
     (0x2_0007 : Word).toNat / 2 ^ 5 % 2 ^ 11 = 0) ∧
    (let s := five 0x1_0000_0000 0 0 0 0
     s.hyperWord false 0 (s.vdev 0).sidtb.toNat = .ok 0) ∧
    (let s := paged (five 0x2000_0000_0000 0 0 0 0) 0x100_0000_0003 0x2_0003
     GuestIs s 0 (0x10000 + 8 * (0x2000_0000_0000 / 2 ^ 37)) 0 ∧ GuestIs s 0 (0x14000 + 8 * 65) 0 ∧
     GuestIs s 0 (0x18000 + 8 * 1) 0 ∧ SecondStage s 0 0x2_0000 0x100_0000_0003 ∧ (0x2_0003 : Word).getLsbD 2 = false ∧
     (0x100_0000_0003 : Word).getLsbD 2 = false) := by
  refine ⟨?_, ?_, ?_⟩ <;> dsimp only
  · unfold NoErrors
    refine ⟨?_, ?_, ?_, ?_, ?_, ?_, ?_, guest_is _ 0x100_0000_000F _ _ ?_ ?_ ?_ ?_ ?_ ?_ ?_, guest_is _ 0x100_0000_000F _ _ ?_ ?_ ?_ ?_ ?_ ?_ ?_,
      guest_is _ 0x100_0000_000F _ _ ?_ ?_ ?_ ?_ ?_ ?_ ?_, ?_, ?_, ?_, ?_, ?_⟩ <;> (try unfold SecondStage) <;>
      (try constructorm* _ ∧ _) <;> decide +kernel
  · decide +kernel
  · refine ⟨guest_is _ 0x100_0000_0003 _ _ ?_ ?_ ?_ ?_ ?_ ?_ ?_, guest_is _ 0x100_0000_0003 _ _ ?_ ?_ ?_ ?_ ?_ ?_ ?_,
      guest_is _ 0x100_0000_0003 _ _ ?_ ?_ ?_ ?_ ?_ ?_ ?_, ?_, ?_, ?_⟩ <;> (try unfold SecondStage) <;>
      (try constructorm* _ ∧ _) <;> decide +kernel

/-! ### Witnesses: invalidations, rings, links, ports, the control profile -/

/-- A control core's job in slot 7, and a task of core 0 that has used the page at 2³² of space 0 in its chunk. -/
def invalidating (kind : Nat) (x : Word) : State :=
  let j := { Job.reset with st := .queued, kind := kind, ops := [x, 0] }
  let y := Core.reset.ctx 0
  let user := { (Core.reset.putCtx 0 { y with
      st := .ready, chunk := { Chunk.empty with used := [{ sid := 0, page := 0x1_0000, lg := false }] } }) with
    bank := bank.setJob 7 j }
  one user

theorem wit_InvalidationsRemoveTranslations :
    ((invalidating 15 0x1_0000_0000).job 0 7).kind = 15 ∧ ((invalidating 17 0).job 0 7).kind = 17 ∧
    ((invalidating 15 0x1_0000_0000).job 0 7).st = .queued ∧ ((invalidating 15 0x1_0000_0000).job 0 7).mbox = 0 ∧
    (∀ d (i : Fin 4), ((invalidating 15 0x1_0000_0000).ctx d i).forced = false) ∧
    (∀ e ∈ (invalidating 15 0x1_0000_0000).cores, (∀ q ∈ e.2.sendq.toList, q.atomic = none) ∧
      e.2.bank.save = none ∧ e.2.other.save = none) ∧
    ((invalidating 15 0x1_0000_0000).ctx 0 0).chunk.used ≠ [] ∧ (0x1_0000_0000 : Word).toNat / 2 ^ 16 % 2 ^ 32 = 0x1_0000 := by
  refine ⟨by decide +kernel, by decide +kernel, by decide +kernel, by decide +kernel, ?_, by decide +kernel,
    by decide +kernel, by decide +kernel⟩
  intro d i
  revert i
  exact all_cores_of_one _ (fun x => ∀ i : Fin 4, (x.ctx i).forced = false) (by decide +kernel) (by decide +kernel) d

/-- Rings and windows at the ends of their ranges, with and without a table; a window of the virtual device, one of
another, and none; links 0, 23 and beyond. -/
theorem wit_RevolutionWindowAndStatusInstructions :
    (63 < (64 : Word).toNat ∧ ¬63 < (63 : Word).toNat ∧ (0xFFFF_FFFF_FFFF : Word).toNat < 2 ^ 48 ∧
     2 ^ 48 ≤ (0x1_0000_0000_0000 : Word).toNat) ∧
    (five 0 1 0 0 0).ctl = false ∧ (five 0 1 0 0 0).me.bank.rvtb = 0 ∧ (ctl 0 Regs.reset).ctl = true ∧
    (let s := five 63 1 0 0 0
     let s := s.setMe { s.me with bank := { s.me.bank with rvtb := 0x2000 } }
     s.me.bank.rvtb ≠ 0 ∧ s.ctl = false ∧ (s.regs.get 5).toNat ≤ 63 ∧ (s.regs.get 6).toNat = 1) ∧
    (let w : Window := { key := 200, owner := 0, grants := 1, count := 7 }
     let s := { five 255 0 0 0 0 with windows := [(1, { w with owner := 5, grants := 0 }), (255, w)] }
     (s.regs.get 5).toNat ≤ 255 ∧ Tab.look s.windows 255 = some w ∧ w.owner = s.me.bank.vdid ∧ s.ctl = false ∧
     Tab.look s.windows 1 = some { w with owner := 5, grants := 0 } ∧ (5 : Nat) ≠ s.me.bank.vdid ∧
     Tab.look s.windows 2 = none) ∧
    (let w : Window := { key := 200, owner := 5, grants := 1, count := 7 }
     let s := { ctl 0 (gs [(5, 1)]) with windows := [(1, w)] }
     1 ≤ (s.regs.get 5).toNat ∧ Tab.look s.windows 1 = some w ∧ w.grants.getLsbD s.me.bank.vdid = true ∧ s.ctl = true) ∧
    (28 < (29 : Word).toNat ∧ (23 : Word).toNat < 24) := by
  dsimp only
  constructorm* _ ∧ _ <;> decide +kernel

/-- A link in a state, with a request and another message in its replay buffer. -/
def linked (st : LinkSt) (f : Link → Link) : State :=
  let m := { req with entry := some 3, dmod := 5 }
  { State.reset with
    links := [(23, f { Link.reset with st := st, replay := [(4094, m), (4095, { m with entry := none })] })], hrpt := 7 }

theorem wit_LinksMoveAndCarryFlits :
    (let s := linked .up id
     (s.link 23).st = .up ∧ (s.link 23).recvSeq = 0 ∧ flitMsg [1] ≠ none ∧ flitMsg [0xFFFF] = none ∧
     coreRef (s.hrpt.toNat % 2 ^ 31) = some (7, 0) ∧ (∀ e ∈ (s.link 23).replay, e.1 ≠ 0) ∧
     (2047 + 4096 - (s.link 23).recvSeq) % 4096 < 2048 ∧ ¬(2048 + 4096 - (s.link 23).recvSeq) % 4096 < 2048) ∧
    (let s := linked .degraded id
     (s.link 23).st = .degraded ∧ ∃ m n, (s.link 23).replay = [(4094, m)] ++ (4095, n) :: []) ∧
    (let s := linked .up fun y => { y with nakSeq := 4094, naks := 7 }
     (s.link 23).nakSeq = 4094 ∧ 8 ≤ (s.link 23).naks + 1) ∧
    (let s := linked .up fun y => { y with nakSeq := 4094, naks := 6 }
     (s.link 23).naks + 1 < 8) ∧
    (linked .reset id).link 22 = Link.reset ∧ Link.reset.st = .down ∧ ((linked .reset id).link 23).st = .reset ∧
    ((linked .training fun y => { y with attempt := 2 }).link 23).attempt < 3 ∧
    ((linked .training fun y => { y with attempt := 3 }).link 23).attempt = 3 ∧
    ((linked .training id).link 23).st = .training ∧ ((linked .training id).link 23).fromDown = true ∧
    (let s := { linked .training id with rsets := [(5, 2 ^ 23)] }
     ∀ e ∈ s.rsets, e.2.testBit 23 = true) := by
  refine ⟨?_, ⟨?_, _, _, rfl⟩, ?_⟩ <;> (try dsimp only) <;> (try constructorm* _ ∧ _) <;> decide +kernel

/-- Modules with a route set and without; drains that a flit holds up and that none does. -/
theorem wit_RouteSetsDrain :
    (0xFFE : Nat) < 0xFFF ∧ (0xFFE : Nat) ≠ State.reset.moduleId ∧
    (let d : Drain := { mask := 2 ^ 23, marks := [(23, 2)] }
     let s := { linked .up id with drains := [(5, d)] }
     Tab.look s.drains 5 = some d ∧ (∃ e ∈ d.marks, (s.link e.1).gone < e.2) ∧ Tab.look s.drains 4 = none) ∧
    (let d : Drain := { mask := 2 ^ 23, marks := [(23, 2)] }
     let s := { linked .up (fun y => { y with gone := 2 }) with drains := [(5, d)] }
     Tab.look s.drains 5 = some d ∧ ∀ e ∈ d.marks, e.2 ≤ (s.link e.1).gone) := by
  dsimp only
  constructorm* _ ∧ _ <;> decide +kernel

/-- A core whose context 0 waits at a commit with an empty chunk. -/
def rings (a : After) : Core :=
  let x := coreWith .waiting Regs.reset
  let y : Ctx := x.ctx 0
  let x := x.putCtx 0 { y with wait := .commit a }
  { x with bank := { x.bank with vdid := 63 } }

/-- Core 0 is the last of 30 members of ring 63 of virtual device 63; the others are core 8. -/
def ringOf (begun ended : BitVec 30) (st : RingSt) : Ring :=
  { st := st, cur := 2 ^ 48 - 1, epoch := 0xFFFF, begun := begun, ended := ended
    members := List.replicate 29 (8, 0) ++ [(0, 0)], cause := 0 }

def revolving (a : After) (g : Ring) : State := { one (rings a) with rings := [(63 * 64 + 63, g)] }

theorem revolving_commits (a : After) (g : Ring) (h : (one (rings a)).couchTakes (0, 0) = true) :
    CommitsPlainly (revolving a g) 0 0 a ∧ ((revolving a g).ctx 0 0).chunk = Chunk.empty := by
  have hc : ((revolving a g).ctx 0 0).chunk = Chunk.empty := rfl
  refine ⟨⟨⟨by decide, h, rfl, ?_, ?_, ?_, ?_⟩, ?_⟩, hc⟩
  · rw [hc]; decide
  · rw [hc]; decide
  rotate_left 2
  · rw [hc]; decide
  · have : ((revolving a g).core 0).sendq = Core.reset.sendq := rfl
    rw [this]; decide +kernel
  · intro d j _ hd hr
    have hj : ∀ j : Fin 4, j ≠ 0 → ((rings a).ctx j).running = false := by
      intro j hj
      have h : (rings a).ctx j = Core.reset.ctx j := by
        fin_cases j
        · exact absurd rfl hj
        all_goals rfl
      have hr : ∀ j : Fin 4, (Core.reset.ctx j).running = false := by decide +kernel
      rw [h, hr]
    have : ((one (rings a)).ctx d j).running = false := no_other_runs _ hj d j hd
    have hr : ((one (rings a)).ctx d j).running = true := hr
    rw [this] at hr
    exact absurd hr (by decide)

theorem last_member (begun ended : BitVec 30) (st : RingSt) (k : Nat) :
    (((ringOf begun ended st).members[k]?).map Prod.fst = some 0 ↔ k = 29) := by
  by_cases h : k < 30
  · have : ∀ k < 30, (((List.replicate 29 (8, 0) ++ [(0, 0)] : List (Nat × Nat))[k]?).map Prod.fst = some 0 ↔ k = 29) := by
      decide +kernel
    exact this k h
  · have : (ringOf begun ended st).members[k]? = none := List.getElem?_eq_none (by
      show (List.replicate 29 (8, 0) ++ [(0, 0)] : List (Nat × Nat)).length ≤ k
      simp; omega)
    rw [this]
    constructor
    · intro h; simp at h
    · intro h; omega

/-- RVBEG and RVEND of the greatest revolution and of another, by a member that has not begun, has, and is the last; a
failed member; a ring whose members are back. -/
theorem wit_RevolutionsCloseOrAbort :
    (let g := ringOf 0 0 .opened
     let a : After := .rev false 63 (2 ^ 48 - 1) 5
     CommitsPlainly (revolving a g) 0 0 a ∧ ((revolving a g).ctx 0 0).chunk = Chunk.empty ∧
     (revolving a g).ring (63 * 64 + 63) = g ∧ (∀ m ∈ g.members, (revolving a g).localMod m.2 = true) ∧
     g.members.length ≤ 30 ∧ g.cur < 2 ^ 48 ∧ ((revolving a g).bank 0).vdid = 63 ∧
     (∀ k, ((g.members[k]?).map Prod.fst = some 0 ↔ k = 29)) ∧ g.begun &&& memberBit 29 = 0) ∧
    (let a : After := .rev true 63 (2 ^ 48 - 1) 5
     let g := ringOf (memberBit 29) 0 .opened
     let h := ringOf (BitVec.ofNat 30 (2 ^ 30 - 1)) (BitVec.ofNat 30 (2 ^ 29 - 1)) .opened
     CommitsPlainly (revolving a g) 0 0 a ∧ g.begun &&& memberBit 29 ≠ 0 ∧
     g.ended ||| memberBit 29 ≠ BitVec.ofNat 30 (2 ^ g.members.length - 1) ∧
     h.ended ||| memberBit 29 = BitVec.ofNat 30 (2 ^ h.members.length - 1)) ∧
    (let a : After := .rev true 63 0 5
     CommitsPlainly (revolving a (ringOf 0 0 .opened)) 0 0 a ∧ (0 : Nat) ≠ (ringOf 0 0 .opened).cur) ∧
    (let g := ringOf 0 0 .opened
     let s := { State.reset with rings := [(63 * 64 + 63, g)], cores := [(0, { Core.reset with failed := true })] }
     g.members[29]? = some (0, 0) ∧ (s.core 0).failed = true) ∧
    (let g := ringOf 0 0 .aborted
     let x : Core := { Core.reset with bank := { bank with vdid := 63 } }
     let s := { State.reset with rings := [(63 * 64 + 63, g)], cores := [(0, x), (8, x)] }
     ∀ m ∈ g.members, (s.core m.1).failed = false ∧ (s.cluster (m.1 / 8)).clown.getLsbD 31 = false ∧
       (s.core m.1).bank.vdid = 63 ∧ (s.core m.1).bank.kst = .active) ∧
    (let g := { ringOf 0 1 .opened with members := [(8, 0), (0, 0)] }
     let x := Core.reset
     let y := { x.ctx 3 with st := .waiting, wait := .rev true (63 * 64 + 63) g.cur 5 }
     let s := { State.reset with
       rings := [(63 * 64 + 63, g)], cores := [(0, { x with failed := true }), (8, x.putCtx 3 y)] }
     (s.ctx 8 3).wait = .rev true (63 * 64 + 63) g.cur 5 ∧ g.ended &&& memberBit 0 ≠ 0 ∧ g.members[1]? = some (0, 0) ∧
     (∀ q < 2, (g.members[q]?).map Prod.fst = some 8 ↔ q = 0) ∧ g.members[2]? = none) := by
  refine ⟨⟨(revolving_commits _ _ ?_).1, rfl, ?_, ?_, ?_, ?_, ?_, last_member _ _ _, ?_⟩,
    ⟨(revolving_commits _ _ ?_).1, ?_, ?_, ?_⟩, ⟨(revolving_commits _ _ ?_).1, ?_⟩, ?_, ?_, ?_⟩ <;> (try dsimp only) <;>
    (try constructorm* _ ∧ _) <;> decide +kernel

/-- A context of a queue from its first words. -/
def contextOf (ws : List Word) : List Word := (ws ++ List.replicate 16 0).take 16

/-- Queue 0xFFF of a port whose contexts lie in die SRAM, with the words of its context, over the tables of `paged`. -/
def offered (port : Nat) (ws : List Word) : State :=
  let s := { State.reset with
    pctb := [(port, 0x00FF_F100_0040_0000)], clusters := [(0, { Cluster.reset with clown := 0x10_0040 })] }
  poke (paged s 0x100_0000_000F 0x2_0007) (0x100_0040_0000 + 128 * 0xFFF) (wordsBytes (contextOf ws))

/-- The same once the port has read the context. -/
def ported (port : Nat) (ws : List Word) : State :=
  { offered port ws with portCtxs := [(port * 4096 + 0xFFF, contextOf ws)] }

/-- The place of an access, or that it fails with a cause that raises no alarm and is no machine check. -/
def leads (r : Except Trap Place × State) (p : Place) : Bool := decide (r.1.toOption = some p)
def failsPlainly (r : Except Trap Place × State) : Bool :=
  match r.1 with
  | .error f => decide (f.cause ≠ .integ) && decide (f.cause ≠ .uncorr)
  | .ok _ => false

/-- Contexts that a port has read and has not, valid and not, and one whose doorbell is a word of a page. -/
theorem wit_PortsActForTheirContexts_contexts :
    (ContextInMemory (offered 0 [0x140, 7]) 0 0xFFF (contextOf [0x140, 7]) ∧
     ServedKind (offered 0 [0x140, 7]) 0 0xFFF (contextOf [0x140, 7]) ∧
     portCopy (offered 0 [0x140, 7]) 0 0xFFF = none ∧
     (Tab.get (offered 0 [0x140, 7]).pctb 0 0).toNat / 2 ^ 44 % 2 ^ 12 = 0xFFF) ∧
    (ContextInMemory (offered 2 [0xFC0]) 2 0xFFF (contextOf [0xFC0]) ∧
     ¬ServedKind (offered 2 [0xFC0]) 2 0xFFF (contextOf [0xFC0]) ∧
     ServedKind (offered 2 [0x40]) 2 0xFFF (contextOf [0x40])) ∧
    (ContextInMemory (offered 1 [0x100]) 1 0xFFF (contextOf [0x100]) ∧
     ((contextOf [0x100]).getD 0 0).getLsbD 6 = false) ∧
    (let ws := contextOf [0x140, 0, 0, 0, 0, 0xC, 0x1_0000_FFF8]
     let s := ported 0 [0x140, 0, 0, 0, 0, 0xC, 0x1_0000_FFF8]
     ContextInMemory s 0 0xFFF ws ∧ ServedKind s 0 0xFFF ws ∧ portCopy s 0 0xFFF ≠ none ∧
     s.doorbellAt 0 0xFFF = some 0x100_0002_FFF8 ∧ 0x100_0002_FFF8 % 8 = 0) := by
  unfold ContextInMemory ServedKind portBase portCopy
  dsimp only
  constructorm* _ ∧ _ <;> decide +kernel

/-- Contexts of ports 0 and 2 that run and that are stopped, with a request submitted and without; addresses whose page is
there and is not; a completion; a context that a command has stopped; one that is not valid. -/
theorem wit_PortsActForTheirContexts :
    (offered 0 [0x100]).portValid 0 0xFFF = false ∧
    PortContext (ported 0 [0x140, 7]) 0 0xFFF (contextOf [0x140, 7]) 0x140 ∧
    PortContext (ported 2 [0xC0]) 2 0xFFF (contextOf [0xC0]) 0xC0 ∧
    (0x140 : Word).getLsbD 7 = false ∧ (0xC0 : Word).getLsbD 7 = true ∧
    (ported 0 [0x140, 7, 0, 0, 0, 4]).portSubmitted 0 0xFFF 7 = false ∧
    (let s := ported 0 [0x140, 7, 0, 0, 0, 4]
     let s := s.setQueue 0 0xFFF { tail := 8, head := 7 }
     let u := s.setQueue 0 0xFFF { s.queue 0 0xFFF with head := 7 }
     let d := { s with free := s.free + 1 }
     let k := vdAsker (portAgent 0) 0 0
     let p : Place := { addr := 0x100_0002_0000, home := none }
     PortContext s 0 0xFFF (contextOf [0x140, 7, 0, 0, 0, 4]) 0x140 ∧ s.portSubmitted 0 0xFFF 7 = true ∧
     leads (u.vdFind k .store 0x1_0000_0000) p = true ∧ leads (u.vdFind k .load 0x1_0000_0000) p = true ∧
     leads (d.vdFind k .store 0x1_0000_0000) p = true ∧ leads (d.vdFind k .load 0x1_0000_0000) p = true ∧
     failsPlainly (u.vdFind k .store 0x1_0001_0000) = true ∧ failsPlainly (u.vdFind k .load 0x1_0001_0000) = true ∧
     failsPlainly (d.vdFind k .store 0x1_0001_0000) = true ∧ failsPlainly (d.vdFind k .load 0x1_0001_0000) = true ∧
     coreRef 7 = some (7, 0)) ∧
    (let ws := contextOf [0x140, 7, 0, 0x1_0000_0000, 0, 0xF0, 0, 0, 7, 0x100]
     let s := ported 0 [0x140, 7, 0, 0x1_0000_0000, 0, 0xF0, 0, 0, 7, 0x100]
     let r := s.vdPutWords (vdAsker (portAgent 0) 0 0) (0x1_0000_0000 + nat (8 * 2 * 0xFFF)) [1, 2]
     portBase s 0 0xFFF = 0x100_0040_0000 + 128 * 0xFFF ∧
     PortContext s 0 0xFFF ws 0x140 ∧ 0xFFF < 2 ^ ((ws.getD 5 0).toNat / 2 ^ 4 % 2 ^ 4) ∧ r.1.toOption = some () ∧
     s.moduleId = 0 ∧ (r.2.cluster 0).vds.contains 0 = true) ∧
    (let s := { ported 0 [0x140] with portStops := [(0, 0xFFF)] }
     (0, 0xFFF) ∈ s.portStops ∧ (0, 0xFFF) ∉ (ported 0 [0x140]).portStops) := by
  unfold PortContext portBase portCopy NoErrors
  dsimp only
  constructorm* _ ∧ _ <;> decide +kernel

/-- A frame that the host may read and write, one that it may only read, one in HBM, and none. -/
theorem wit_TheHostReachesGuestFrames :
    (let s := paged State.reset 0x100_0000_000F 0x2_0007
     NoErrors s ∧ SecondStage s 0 0x1F_FFF8 0x100_0000_000F ∧ (0x100_0000_000F : Word).toNat / 2 ^ 8 % 2 ^ 8 = 0 ∧
     (0x100_0000_000F : Word).getLsbD 2 = true ∧ s.lineSt { addr := 0x100_001F_FFF8, home := none } = .good ∧
     (s.stage2 0 0x20_0000).toOption = none) ∧
    (let s := paged State.reset 0x20_0003 0x2_0007
     SecondStage s 0 0 0x20_0003 ∧ (0x20_0003 : Word).getLsbD 2 = false) ∧
    (let s := paged State.reset 0x20_0007 0x2_0007
     let h := s.guestHome 0 0 8
     SecondStage s 0 8 0x20_0007 ∧ s.lineSt { addr := 0x20_0008, home := some h } = .fresh ∧ s.version h + 1 < 2 ^ 56) := by
  unfold SecondStage NoErrors
  dsimp only
  constructorm* _ ∧ _ <;> decide +kernel

/-- Levels 0, 1 and 2; a return that may be made and one that may not; interrupts pending and none; operands of SLOTW at
their limits, and an entry that two virtual devices of one cluster share. -/
theorem wit_HypervisorInstructions :
    (five 0 0 0 0 0).ctl = false ∧ AtLevel (ctl 2 Regs.reset) 2 ∧ AtLevel (ctl 0 Regs.reset) 0 ∧
    (ctl 0 Regs.reset).level < 2 ∧ (ctl 1 Regs.reset).level = (1 : Fin 3).val ∧ AtLevel (ctl 1 Regs.reset) 1 ∧
    (ctl 1 Regs.reset).me.priv.eprv[(1 : Fin 3)].toNat % 4 ≤ 1 ∧
    (let s := ctl 1 Regs.reset
     let t := s.setMe { s.me with priv := { s.me.priv with eprv := s.me.priv.eprv.set 1 2 } }
     t.level = 1 ∧ 1 < t.me.priv.eprv[(1 : Fin 3)].toNat % 4) ∧
    (ctl 1 Regs.reset).me.priv.ipend = 0 ∧
    (let s := ctl 1 Regs.reset
     (s.setMe { s.me with priv := { s.me.priv with ipend := 2 ^ 63 } }).me.priv.ipend ≠ 0) ∧
    (let y := { Ctx.reset with st := .waiting, wait := .wfi }
     let s := { State.reset with cores := [(controlCore 0, Core.reset.putCtx 0 y)] }
     (s.ctx (controlCore 0) 0).st = .waiting ∧ (s.ctx (controlCore 0) 0).wait = .wfi ∧
     (s.core (controlCore 0)).priv.ipend = 0) ∧
    (63 : Word).toNat < 64 ∧ 64 ≤ (64 : Word).toNat ∧ (255 : Word).toNat < 256 ∧ 256 ≤ (256 : Word).toNat ∧
    (ctl 2 Regs.reset).clusters = [] ∧
    (let s := { ctl 2 Regs.reset with clusters := [(0, { Cluster.reset with clown := 0x10_4140 })] }
     ∃ e ∈ s.clusters, e.2.shared = true ∧ (3 : Word).getLsbD (e.2.clown.toNat % 2 ^ 6) = true ∧
       (3 : Word).getLsbD (e.2.clown.toNat / 2 ^ 8 % 2 ^ 6) = true) ∧
    (16000 ≤ (16000 : Word).toNat ∧ (0xFFFF_FFFF : Word).toNat < 2 ^ 32 ∧ (15999 : Word).toNat < 16000 ∧
     2 ^ 32 ≤ (0x1_0000_0000 : Word).toNat ∧ 1 ≤ (1 : Word).toNat ∧ (256 : Word).toNat ≤ 256 ∧ 256 < (257 : Word).toNat) := by
  unfold AtLevel
  dsimp only
  constructorm* _ ∧ _ <;> decide +kernel

/-- Operations 0, 7 and 8; four words that can be read; a report at the end of die SRAM; keys, windows and frames at
their limits. -/
theorem wit_KeyOperations :
    (five 0 0 0 0 0).ctl = false ∧ AtLevel (ctl 1 Regs.reset) 1 ∧ AtLevel (ctl 2 Regs.reset) 2 ∧
    (7 : Word).toNat ≤ 7 ∧ 7 < (8 : Word).toNat ∧ (0x2010 : Word).toNat % 32 ≠ 0 ∧
    (match (ctl 2 Regs.reset).loadWords 0xFFFF_0100_0000_0000 4 with
      | .ok (ws, _) => decide (ws = [0, 0, 0, 0])
      | _ => false) = true ∧
    (let s := ctl 2 Regs.reset
     s.level = 2 ∧ NoErrors s ∧ s.hist = [] ∧ (0x101_FFFF_FE00 : Nat) % 64 = 0 ∧ 2 ^ 40 ≤ 0x101_FFFF_FE00 ∧
     0x101_FFFF_FE00 + 512 ≤ 2 ^ 40 + 2 ^ 33 ∧
     (nat (0xFFFF * 2 ^ 48 + 0x101_FFFF_FE00)).toNat = 0xFFFF * 2 ^ 48 + 0x101_FFFF_FE00) ∧
    ((63 : Word).toNat < 64 ∧ 64 ≤ (64 : Word).toNat ∧ (127 : Word).toNat < 128 ∧ 128 ≤ (128 : Word).toNat) ∧
    ((0x3FFF : Word).toNat < 2 ^ 14 ∧ (0x3FFF : Word).toNat % 2 ^ 8 ≠ 0 ∧ (0x3F00 : Word).toNat % 2 ^ 8 = 0 ∧
     ¬(0x4001 : Word).toNat < 2 ^ 14) ∧
    (let g : Window := { key := 200, owner := 63, grants := 2 ^ 63, count := 9 }
     Tab.look { ctl 2 Regs.reset with windows := [(255, g)] }.windows 255 = some g ∧ g.owner < 64) ∧
    ((0x0007_FFFF_0007_FFFF : Word).toNat / 2 ^ 19 % 2 ^ 13 = 0 ∧ (0x0007_FFFF_0007_FFFF : Word).toNat < 2 ^ 51 ∧
     ¬(0x0008_0000_0000_0000 : Word).toNat < 2 ^ 51 ∧ (ctl 2 Regs.reset).mem.wf = true ∧
     ((ctl 2 Regs.reset).lines.map Prod.fst).Nodup) := by
  unfold AtLevel NoErrors
  dsimp only
  constructorm* _ ∧ _ <;> decide +kernel

/-- Writes to CLOWN that take effect and that do not: a failed cluster, a kernel that would move, two equal virtual
devices, a boundary of 3 and of 29 banks, a slot entry of both; boundaries of 4 and 28. -/
theorem wit_ClusterAssignmentAndInterrupts :
    (2 ^ 15 - 1 : Nat) < 2 ^ 15 ∧
    (let x : Word := 0x1C_4140
     let s := { State.reset with slotTab := [(0, 1)] }
     (s.cluster 32767).clown.getLsbD 31 = false ∧ (s.cluster 32767).clown.getLsbD 6 = false ∧
     (s.cluster 32767).clown.getLsbD 14 = false ∧ x.getLsbD 6 = true ∧ x.getLsbD 14 = true ∧
     x.toNat % 2 ^ 6 ≠ x.toNat / 2 ^ 8 % 2 ^ 6 ∧ x.toNat / 2 ^ 16 % 2 ^ 5 = 28 ∧
     ¬∃ e ∈ s.slotTab, e.2.getLsbD 0 = true ∧ e.2.getLsbD 1 = true) ∧
    (let x : Word := 0x4_0040
     x.toNat / 2 ^ 16 % 2 ^ 5 = 4 ∧ x.getLsbD 6 = true ∧ x.getLsbD 14 = false) ∧
    (let s := { State.reset with clusters := [(3, { Cluster.reset with clown := 0x8000_0000 })] }
     (s.cluster 3).clown.getLsbD 31 = true) ∧
    (let s := { one { Core.reset with bank := bank } with clusters := [(0, { Cluster.reset with clown := 0x10_0040 })] }
     (s.cluster 0).clown.getLsbD 6 = true ∧ (0x10_0041 : Word).toNat % 2 ^ 6 ≠ (s.cluster 0).clown.toNat % 2 ^ 6 ∧
     (s.core 7).bank.kst = .absent ∧ (s.core 0).bank.vdid = 0 ∧ (s.core 0).bank.kst ≠ .absent) ∧
    ((0x3_0000 : Word).toNat / 2 ^ 16 % 2 ^ 5 < 4 ∧ 28 < (0x1D_0000 : Word).toNat / 2 ^ 16 % 2 ^ 5) ∧
    (let x : Word := 0x10_4140
     let s := { State.reset with slotTab := [(0, 3)] }
     ∃ e ∈ s.slotTab, e.2.getLsbD (x.toNat % 2 ^ 6) = true ∧ e.2.getLsbD (x.toNat / 2 ^ 8 % 2 ^ 6) = true) ∧
    isControl (controlCore 0) = true := by
  dsimp only
  constructorm* _ ∧ _ <;> decide +kernel

/-! ### Witnesses: pre-emption, the loader, the module, the step -/

/-- A service message of an operation. -/
def service (op : Nat) : Msg := { req with w0 := nat (0xFFFF_FFFF_FF00 + op) }

/-- Core 0, stopped by core 7, with a SUSPENDED and a RETAINED context and nothing that runs. -/
def halted (saveb : Word) (f : Core → Core) : State :=
  let x := (Core.reset.putCtx 1 { Ctx.reset with st := .suspended, anch := true }).putCtx 3
    { Ctx.reset with st := .retained, succ := 0x100 }
  one (f { x with bank := { bank with saveb := saveb, emrgb := 0x3FFC0 }, stopped := true, stopBy := some (7, 0xFFF) })

/-- SAVEB at both ends of what the core's own TCM can hold; STOP, START and CONTINUE at the head; a save that was
stopped at its first word and within; SAVEB where no memory lies; records to restore that START takes and refuses. -/
theorem wit_SaveAndRestore :
    (∀ k, Unforced (halted 0x2000 id) k) ∧
    (SaveInTcm (halted 0x2000 id) 0 0x2000 ∧ SaveInTcm (halted 0x35D00 id) 0 0x35D00 ∧ RunOut (halted 0x2000 id) 0 ∧
     ((halted 0x2000 id).core 0).stopped = true ∧ ((halted 0x2000 id).core 0).saved = false ∧
     ((halted 0x2000 id).core 0).stopBy = some (7, 0xFFF) ∧ ((halted 0x2000 id).core 0).saveHalt = none ∧
     ((halted 0x2000 id).core 0).bank.kst = .active ∧ ((halted 0x2000 id).ctx 0 3).st = .retained) ∧
    ServiceHead (halted 0 fun x => { x with svc := [service 2, service 3] }) 0 2 (service 2) [service 3] ∧
    ((Core.reset).stopped = false ∧ ServiceHead (one { Core.reset with svc := [service 2] }) 0 2 (service 2) []) ∧
    (let s := halted 0x2000 fun x => { x with svc := [service 4], saveHalt := some (0, 0x2000) }
     SaveInTcm s 0 0x2000 ∧ RunOut s 0 ∧ (s.core 0).saveHalt = some (0, 0x2000) ∧ ServiceHead s 0 4 (service 4) []) ∧
    (let s := halted 0x2000 fun x => { x with saveHalt := some (0xA2F8, 0xC2F8) }
     (s.core 0).saveHalt = some (0xA2F8, 0xC2F8) ∧ 0xA2F8 % 8 = 0) ∧
    (let s := halted 0x4_0000 id
     (s.cluster 0).shared = false ∧ NoErrors s ∧ (s.core 0).bank.saveb = nat 0x4_0000 ∧
     (s.core 0).bank.emrgb = nat 0x3FFC0 ∧ (s.core 0).bank.kernel.cb * 8192 ≤ 0x3FFC0 ∧ 0x3FFC0 + 2048 * (0 % 8) + 64 ≤ 2 ^ 18) ∧
    (let kept : Saved := { ctxs := Core.reset.ctxs, sendq := Core.reset.sendq, qSys := [], qReply := [], qOrd := [],
                           qReq := [], refusals := [], since := 0, asIs := false }
     let s := halted 0x2000 fun x =>
       { x with svc := [service 3], saved := true, bank := { x.bank with save := some kept, tsvc := 7 } }
     SaveInTcm s 0 0x2000 ∧ (s.core 0).saved = true ∧ (s.core 0).bank.save = some kept ∧ ServiceHead s 0 3 (service 3) [] ∧
     coreRef ((s.core 0).bank.tsvc.toNat % 2 ^ 31) = some (7, 0) ∧ tcmAtCore s 0 0x2000 = 0 ∧
     (∀ n < 32, (tcmAtCore s 0 (0x2000 + 8 * (0x8100 / 8 + 32 * n + 1))).toNat / 2 ^ 56 % 8 = 0) ∧
     (∀ n < 8, (tcmAtCore s 0 (0x2000 + 8 * (0xA100 / 8 + 8 * n))).toNat % 2 ^ 8 = 0) ∧
     (∀ i : Fin 4, ∀ k ∈ [0, 256],
      (tcmAtCore s 0 (0x2000 + 8 * (32 + 512 * i.val + k + 171))).toNat / 4 % 8 ≤ 4) ∧
     (let t := tcm s 0x2000 [17, nat (2 ^ 37 + 2 ^ 35)]
      (s.core 0).bank.qdep.toNat % 2 ^ 5 < (tcmAtCore t 0 0x2000).toNat % 2 ^ 5)) ∧
    (let s := one { Core.reset with svc := [service 3] }
     (s.core 0).saved = false ∧ ServiceHead s 0 3 (service 3) []) := by
  refine ⟨unforced_of _ (by decide +kernel), ?_⟩
  unfold SaveInTcm RunOut ServiceHead NoErrors
  dsimp only
  constructorm* _ ∧ _ <;> decide +kernel

/-- A command that control core 0 has written at level 2. -/
def command : LoadCmd := { block := 0xFFFF_0100_0000_1000, core := controlCore 0, sid := 0, level := 2 }

/-- A command block of control core 0 in die SRAM, for virtual device 0, which owns cluster 0; the cluster's cores have a
bank; a descriptor behind it. -/
def loading (b : Bank) (bs ds : List Word) : State :=
  let cc := coreWith .ready Regs.reset
  let x : Core := { Core.reset with bank := b }
  let s : State := { State.reset with
    cores := (List.range 8).map (fun c => (c, x)) ++ [(controlCore 0, { cc with priv := { cc.priv with cprv := 2 } })]
    clusters := [(0, { Cluster.reset with clown := 0x10_0040 })]
    vds := [(0, { Vd.reset with loads := [command] })] }
  poke (poke s 0x100_0000_1000 (wordsBytes bs)) 0x100_0000_2000 (wordsBytes ds)

/-- The state after the block has been read, and a test of what was read. -/
def blockIs (s : State) (p : List Word → State → Bool) : Bool :=
  match s.deviceGetWordsAs (command.asker 0) command.block 8 with
  | (.ok bs, u) => p bs u
  | _ => false

/-- The descriptor read from that state, and the images it names where it has no region bank. -/
def descIs (s : State) (p : List Word → Bool) : Bool :=
  blockIs s fun bs u =>
    match u.deviceGetWordsAs (command.asker 0) (bs.getD 1 0) 144 with
    | (.ok ds, v) => p ds && (decide (descRb ds ≠ 0) || match v.readImage (command.asker 0) (ds.getD 5 0) (descCodeSz ds) with
        | (.ok _, w) => (match w.readImage (command.asker 0) (ds.getD 7 0) (descRb ds * 8192) with
            | (.ok _, _) => true
            | _ => false)
        | _ => false)
    | _ => false

/-- A descriptor with a count of region banks: the least code, handlers at 0 and 0x10. -/
def descriptor (rb : Nat) : List Word :=
  [1, 0, 0x10, 0x1_0000_0001, 0x1_0000_0001, 0xFFFF_0100_0000_3000, nat (2 + rb * 2 ^ 32), 0xFFFF_0100_0000_4000,
    0x0101_0101, 1, 0, 0, 0, 0, 0, 0, 0, 131072]

/-- LOAD, UNLOAD and CLEAR blocks. -/
def block (op kid : Nat) : List Word := [nat op, 0xFFFF_0100_0000_2000, 0, nat kid, 0, 0, 0]

theorem loading_versions (b : Bank) (bs ds : List Word) : ∀ h, (loading b bs ds).version h + 1 < 2 ^ 56 := by
  intro h
  have : (loading b bs ds).version h = 0 := rfl
  rw [this]
  decide

/-- The statement's common premises for a block, with the state after its read. -/
theorem loading_command (s : State) (p : List Word → State → Bool) (h : blockIs s p = true)
    (hv : (s.vdev 0).loads = [command]) (hd : s.drainingOf 0 = false) :
    ∃ bs u, Command s 0 command [] bs u ∧ p bs u = true := by
  unfold blockIs at h
  split at h
  · next bs u hu => exact ⟨bs, u, ⟨hv, hd, hu⟩, h⟩
  · simp at h

/-- Every command with and without a kernel of its identifier; a descriptor of zeros, one that does not fit, and one that
loads on empty cores; bad blocks and a rectangle that is not owned. -/
theorem wit_LoaderCommands :
    (∀ k, Unforced (loading bank (block 1 0) []) k) ∧
    NoErrors (loading bank (block 0 0) []) ∧ isControl (controlCore 0) = true ∧
    (loading bank (block 0 0) []).drainingOf 0 = false ∧
    (∀ d ∈ rectCores 0, ((loading bank (block 0 0) []).cluster (d / 8)).shared = false ∧
      ((loading bank (block 0 0) []).core d).bank.vdid = 0 ∧
      ((loading bank (block 0 0) []).core d).other.kst = .absent) ∧
    (loading bank (block 0 0) []).rectOwned 0 0 = true ∧ (loading bank (block 0 0) []).rectOwned 0 0x0001_0000 = false ∧
    blockIs (loading bank (block 1 0) []) (fun bs _ => decide (bs = block 1 0 ++ [0])) = true ∧
    (((loading bank (block 1 0) []).core 7).bank.kid.toNat % 2 ^ 16 = 0 ∧
      ((loading bank (block 1 0) []).core 7).bank.kst ≠ .absent) ∧
    blockIs (loading { bank with kst := .faulted } (block 2 1) []) (fun bs _ => decide ((bs.getD 3 0).toNat = 1)) = true ∧
    (2 < (3 : Word).toNat ∧ 2 ^ 32 ≤ (0x1_0000_0000 : Word).toNat ∧ 2 ^ 16 ≤ (0x1_0000 : Word).toNat) ∧
    descIs (loading Bank.reset (block 0 1) (descriptor 0)) (fun ds =>
      descOk ds && decide (descCb ds + descRb ds + 4 ≤ 32)) = true ∧
    descIs (loading bank (block 0 1) (descriptor 27)) (fun ds =>
      descOk ds && decide (descCb ds + descRb ds + 4 ≤ 32)) = true ∧
    descIs (loading bank (block 0 1) (descriptor 28)) (fun ds =>
      descOk ds && decide (32 < descCb ds + descRb ds + 4)) = true ∧
    descIs (loading bank (block 0 1) []) (fun ds => !descOk ds) = true ∧
    (∀ d ∈ rectCores 0, ((loading Bank.reset (block 0 1) (descriptor 0)).bank d).kst = .absent) ∧
    (let j := { Job.reset with st := .queued, kind := 6 }
     let s := loading ((bank.setJob 0 j).setJob 7 { j with st := .parked }) (block 1 0) []
     (s.job 7 0).st = .queued ∧ (s.job 7 0).gang = false ∧ (s.job 7 7).st = .parked ∧ (s.bank 7).save = none) := by
  refine ⟨unforced_of _ (by decide +kernel), ?_⟩
  unfold NoErrors
  constructorm* _ ∧ _ <;> decide +kernel

/-- A DRAINING core with a request in its queue and entries of two states. -/
theorem wit_DrainedCoresReachAbsent :
    let q := Core.reset.sendq
    let x := { Core.reset with
      bank := { bank with kst := .draining }, qReq := [{ req with entry := some 31 }]
      sendq := ((q.set 0 { Entry.free with st := .refused }).set 31 { Entry.free with st := .await }).set 9
        { Entry.free with st := .ready } }
    let s := { one x with vds := [(0, { Vd.reset with loads := [command] })] }
    (s.core 0).bank.kst = .draining ∧ (s.core 0).bank.vdid = 0 ∧ (s.core 0).bank.save = none ∧ RunOut s 0 ∧
    s.blocks = [] ∧ (∀ k : Fin 4, (s.ctx 0 k).st = .free) ∧ ((s.core 0).sendq[(0 : Fin 32)]).st = .refused ∧
    ((s.core 0).sendq[(9 : Fin 32)]).st = .ready ∧ (∀ n < 8, (s.job 0 n).st ≠ .parked) ∧
    (s.vdev 0).loads = [command] ∧ isControl command.core = true ∧ s.clustersOf 0 = [] ∧ (s.core 0).other.kst = .absent ∧
    ∀ m ∈ (s.core 0).qReq, m.kind = .task ∧ m.cls = .request ∧ m.src < 2 ^ 32 ∧ m.entry = some 31 := by
  unfold RunOut
  dsimp only
  constructorm* _ ∧ _ <;> decide +kernel

/-- Phases 0, 1, 6 and 7; islands 0, 31, 35 and 36; powers on both sides of the governor's limits. -/
theorem wit_PowerOnIslandsAndGovernor :
    (6 : Nat) < 7 ∧ (1 : Nat) ≤ 6 ∧ (35 : Nat) < 36 ∧ 36 ≤ (36 : Nat) ∧ (31 : Nat) < 32 ∧ 24000 < (24001 : Nat) ∧
    (21999 : Nat) < 22000 ∧ (24001 : Nat) < 2 ^ 32 ∧
    (let s := { State.reset with islands := [(31, { Island.reset with fdiv := 0, eff := 1 })] }
     min 12 (Tab.get s.islands 31 Island.reset).fdiv < (Tab.get s.islands 31 Island.reset).eff) ∧
    (let s := { State.reset with islands := [(35, { Island.reset with fdiv := 15, fdivDue := true })] }
     (Tab.get s.islands 35 Island.reset).fdivDue = true ∧ (Tab.get s.islands 34 Island.reset).fdivDue = false) := by
  decide +kernel

/-- Two and three errors, with a failed bank beside them; a group with an owner and one with none; a first, a second and a
repeated failed bank; keys with and without an owner, tree nodes at the ends of their levels. -/
theorem wit_ErrorsAlarmsAndFailures :
    (let s := eight (product false .running)
     (∀ k, Unforced s k) ∧ (s.cluster (7 / 8)).split = false ∧
     ∀ i < 8, HeadIs s (7 / 8 * 8 + i) 0 (product false .running) ∧ (product false .running).kind = 0 ∧
       (product false .running).st = .running ∧ (product false .running).paired = false) ∧
    (State.reset.failedIn 0 = 0 ∧ (34 : Nat) < 35 ∧ Tab.look State.reset.corrected (0 * 64 + 34) = none ∧
     Tab.look State.reset.corrected (0 * 64 + 35) = none ∧ Nat.testBit (7 + 2 ^ 36) 36 = true ∧ Nat.testBit 7 36 = false) ∧
    (let s := { State.reset with failedBanks := [(0, 35)], clusters := [(0, { Cluster.reset with clown := 0x10_0040 })] }
     (∀ b < 36, Nat.testBit (2 ^ 35) b = true → (0, b) ∈ s.failedBanks) ∧ s.failedIn 0 ≤ 1 ∧ (0, 34) ∉ s.failedBanks ∧
     Tab.look s.corrected (0 * 64 + 34) = none ∧ (s.cluster (0 / 8)).vds = [0] ∧
     1 < ((List.range 36).countP fun b => Nat.testBit 0x8_0000_0003 b && !s.failedBanks.contains (0, b)) ∧
     s.failedIn 0 = 1 ∧ (0, 0) ∉ s.failedBanks) ∧
    ((State.reset.cluster ((2 ^ 18 - 1) / 8)).vds = [] ∧ State.reset.failedIn (2 ^ 18 - 1) = 0 ∧
     2 < ((List.range 36).countP fun b => Nat.testBit 7 b && !State.reset.failedBanks.contains (2 ^ 18 - 1, b))) ∧
    (State.reset.vdev 63).apol.toNat % 4 = 1 ∧
    (let s := { State.reset with vds := [(0, { Vd.reset with apol := 0 }), (1, { Vd.reset with apol := 2 })] }
     (s.vdev 0).apol.toNat % 4 = 0 ∧ (s.vdev 1).apol.toNat % 4 = 2) ∧
    ((2 : Nat) ^ (34 - 3 * 11) = 2 ∧ (1 : Nat) < 2 ^ (34 - 3 * 11) ∧ 2 ^ 31 - 1 < 2 ^ (34 - 3 * 1)) ∧
    (1 : Nat) = State.reset.hypKey ∧ State.reset.keyOwner 2 ≠ none ∧ State.reset.keyOwner 5000 = none ∧
    ((State.reset.counters.find? fun e => decide (e.1 = (1, 11, 1))).map Prod.snd).getD 0 + 1 < 2 ^ 56 := by
  refine ⟨⟨unforced_of _ (by decide +kernel), by decide +kernel, by unfold HeadIs; decide +kernel⟩, ?_⟩
  dsimp only
  constructorm* _ ∧ _ <;> decide +kernel

/-- A task at an address, with bytes of its code at an offset. -/
def fetching (pc : Word) (a : Nat) (bs : List Byte) : State :=
  poke (fab { Regs.reset with pc := pc }) (2 ^ 41 + a) bs

/-- The last two and the last four bytes of the code region, a long instruction that its end cuts, and addresses beyond
it; code that decodes, and a fetch that fails. -/
theorem wit_FetchingAndItsTraps :
    OnFabric (fetching 0x1FFE 0x1FFE [0, 0x38]) ∧ NoErrors (fetching 0x1FFE 0x1FFE [0, 0x38]) ∧
    (fetching 0x1FFE 0x1FFE [0, 0x38]).me.bank.kernel.cb * 8192 = 0x2000 ∧ 0x1FFE + 2 ≤ 0x2000 ∧
    ¬192 ≤ ((fetching 0x1FFE 0x1FFE [0, 0x38]).mem.byte (2 ^ 41 + 0x1FFF)).toNat ∧
    192 ≤ ((fetching 0x1FFC 0x1FFC [0x0D, 0xCE, 0xC5, 0]).mem.byte (2 ^ 41 + 0x1FFD)).toNat ∧
    192 ≤ ((fetching 0x1FFE 0x1FFE [0x0D, 0xCE]).mem.byte (2 ^ 41 + 0x1FFF)).toNat ∧
    (0x2000 : Word).toNat < 2 ^ 32 ∧ 2 ^ 48 ≤ (0xFFFF_FFFF_FFFF_FFFE : Word).toNat ∧
    (match (fetching 0x1FFE 0x1FFE [0, 0x38]).fetch.1 with
      | .bytes bs => decide (bs = [0, 0x38])
      | _ => false) = true ∧
    (match (fetching 0x2000 0 []).fetch.1 with
      | .fault b _ => decide (b = false)
      | _ => false) = true := by
  unfold OnFabric NoErrors
  constructorm* _ ∧ _ <;> decide +kernel

/-- Core 0 in focus with code that decodes, that does not and that cannot be fetched; nothing READY, with a chore and
without; an issue and an event in the schedule; a module that is not READY. -/
theorem wit_StepRunsTheDecodedInstruction :
    (let s := fetching 0x1FFE 0x1FFE [0, 0x38]
     s.msts.ready = true ∧ s.inputs = [] ∧ s.nextReady 0 = some 0 ∧
     (match ((s.dispatch 0 0).fetch).1 with
      | .bytes bs => decide (decode bs = .instr .haltC 2)
      | _ => false) = true) ∧
    (let s := fetching 0x1000 0x1000 [0, 0]
     s.nextReady 0 = some 0 ∧ (match ((s.dispatch 0 0).fetch).1 with
      | .bytes bs => decide (decode bs = .illegal 0 true)
      | _ => false) = true) ∧
    (let s := fetching 0x2000 0 []
     (match ((s.dispatch 0 0).fetch).1 with
      | .fault b _ => !b
      | _ => false) = true) ∧
    ((one Core.reset).nextReady 0 = none ∧ (one Core.reset).agenda 0 = none) ∧
    (let j := { Job.reset with st := .queued, kind := 18, ops := [0x100, 0x3FFF8, 0x0100_0001, 0, 0x2000] }
     (solo id j).nextReady 0 = none ∧ ((solo id j).agenda 0).isSome = true) ∧
    (let s := { State.reset with inputs := [.issue 7, .event (.linkEnable 3), .event (.moduleReset 0)] }
     s.inputs = .issue 7 :: [.event (.linkEnable 3), .event (.moduleReset 0)] ∧ encode (.linkEnable 3) = .event) ∧
    (let s := { State.reset with msts := { ready := false, phase := 3, fail := 3, mchk := false } }
     s.msts.ready = false ∧ s.inputs = []) := by
  dsimp only
  constructorm* _ ∧ _ <;> decide +kernel

/-- Instructions of both lengths and of each table; words of both lengths; reserved majors and halfwords. -/
theorem wit_Encodings :
    (WellFormed (.lw 9 10 8) = true ∧ encode (.lw 9 10 8) ≠ .event) ∧
    (WellFormed (.bnezC 4 0xFC) = true ∧ encode (.bnezC 4 0xFC) ≠ .event) ∧
    (WellFormed (.fmove 1 2 3) = true ∧ encode (.fmove 1 2 3) ≠ .event) ∧
    decode (toBytes 4 0x00C5D00D) = .instr (.aadd 13 5 6) 4 ∧ decode (toBytes 2 0x3800) = .instr .haltC 2 ∧
    ((0xC000 : BitVec 32).toNat / 2 ^ 14 % 4 = 3 ∧ (0xC000 : BitVec 32).toNat / 2 ^ 8 % 2 ^ 6 = 0) ∧
    ((0xFFFF_E4FF : BitVec 32).toNat / 2 ^ 14 % 4 = 3 ∧ 0x24 ≤ (0xFFFF_E4FF : BitVec 32).toNat / 2 ^ 8 % 2 ^ 6) ∧
    ((0x03FF : BitVec 16).toNat / 2 ^ 10 = 0 ∧ 14 ≤ (0x7000 : BitVec 16).toNat / 2 ^ 11 ∧
      (0x7FFF : BitVec 16).toNat / 2 ^ 11 < 16) := by
  constructorm* _ ∧ _ <;> decide +kernel

/-- A step from a state with both invariants. -/
theorem wit_StepKeeps :
    let s := fetching 0x1FFE 0x1FFE [0, 0x38]
    s.mem.wf = true ∧ RegistersInRange s ∧ nextIs (step s) (fun _ => true) = true := by
  unfold RegistersInRange
  dsimp only
  constructorm* _ ∧ _ <;> decide +kernel

/-! ### Witnesses: translated memory -/

/-- Virtual device 0 with two guest frames: frame 0 in die SRAM at 2⁴⁰, with the tables of the last page of the addresses
in it, and frame 1 where f puts it. -/
def far (x : State) (root e1 e2 leaf f : Word) : State :=
  let s := { x with vds := [(0, { Vd.reset with s2base := 0x100_0020_0000, s2len := 2, sidtb := 0x100_0030_0000 })] }
  let s := poke s 0x100_0020_0000 (wordsBytes [0x100_0000_000F, f])
  let s := poke s 0x100_0030_0000 (wordsBytes [root])
  poke (poke (poke s 0x100_0001_3FF8 (wordsBytes [e1])) 0x100_0001_7FF8 (wordsBytes [e2])) 0x100_0001_9FF8
    (wordsBytes [leaf])

/-- A task whose registers name the last word of the addresses and what it stores there. -/
def farTask (root e1 e2 leaf f : Word) : State := far (five 0xFFFF_FFFF_FFF8 77 0 0 0) root e1 e2 leaf f

/-- A word of frame 0, as `GuestIs` says it, in a form that evaluates. -/
def guestAt (s : State) (ga : Nat) (x : Word) : Prop :=
  SecondStage s 0 ga 0x100_0000_000F ∧ s.windowOk 0 0 = true ∧
  s.lineSt { addr := 0x100_0000_0000 + ga % 2 ^ 21, home := none } = .good ∧
  s.wordAt { addr := 0x100_0000_0000 + ga % 2 ^ 21, home := none } = x ∧
  s.hist.get ((0x100_0000_0000 + ga % 2 ^ 21) / 8) [] = []

theorem guestAt_is (s : State) (ga : Nat) (x : Word) (h : guestAt s ga x) : GuestIs s 0 ga x :=
  guest_is s 0x100_0000_000F x ga h.1 (by decide) h.2.1 (by decide) h.2.2.1 h.2.2.2.1 h.2.2.2.2

/-- The last page leads to HBM under the virtual device's key, and to die SRAM; the store has room. -/
theorem wit_TranslatedPages :
    (let s := farTask 0x10001 0x14001 0x18001 0x20_0007 0x60_0007
     let p : Place := { addr := 0x60_FFF8, home := some (s.guestHome 0 0 0x20_FFF8) }
     PageTo s 0xFFFF_FFFF_FFF8 0x20_0007 0x60_0007 p ∧ NoErrors s ∧ s.lineSt p = .fresh ∧
     s.ctl = false ∧ s.cx.chunk.full p.addr = false ∧ (0x20_0007 : Word).getLsbD 1 = true ∧
     (0x60_0007 : Word).getLsbD 1 = true ∧ (0x20_0007 : Word).getLsbD 2 = true ∧ (0x60_0007 : Word).getLsbD 2 = true ∧
     int ((s.regs.get 5).toInt + (0 : BitVec 11).toInt) = 0xFFFF_FFFF_FFF8 ∧
     nat ((s.regs.get (CReg.full 4)).toNat + (0 : BitVec 6).toNat * 8) = s.regs.get (CReg.full 4)) ∧
    (let s := farTask 0x10001 0x14001 0x18001 0x2_0007 0x60_0007
     let p : Place := { addr := 0x100_0002_FFF8, home := none }
     PageTo s 0xFFFF_FFFF_FFF8 0x2_0007 0x100_0000_000F p ∧ NoErrors s ∧ s.lineSt p = .good ∧
     s.cx.chunk.full p.addr = false) := by
  have last (s : State) (h : guestAt s (0x10000 + 8 * 2047) 0x14001 ∧ guestAt s (0x14000 + 8 * 2047) 0x18001) :=
    And.intro (guestAt_is _ _ _ h.1) (guestAt_is _ _ _ h.2)
  unfold guestAt SecondStage at last
  have leaf (s : State) (x : Word) := guestAt_is s (0x18000 + 8 * 1023) x
  unfold guestAt SecondStage at leaf
  unfold PageTo NoErrors Rooted upperEntry leafEntry SecondStage
  dsimp only
  refine ⟨⟨⟨⟨0x10001, 0x14001, 0x18001, ?_, ?_, (last _ ?_).1, ?_, (last _ ?_).2, ?_, leaf _ _ ?_⟩, ?_⟩, ?_⟩,
    ⟨⟨0x10001, 0x14001, 0x18001, ?_, ?_, (last _ ?_).1, ?_, (last _ ?_).2, ?_, leaf _ _ ?_⟩, ?_⟩, ?_⟩ <;>
    (try constructorm* _ ∧ _) <;> decide +kernel

/-- The walk of the last word reads entries e1 to e3 at levels 1 to n under a root. -/
def walks (s : State) (root : Word) (es : List Word) : Prop :=
  Rooted s 0xFFFF_FFFF_FFF8 root ∧ NoErrors s ∧
  ∀ k < es.length, guestAt s (0x10000 + 0x4000 * k + 8 * (if k = 2 then 1023 else 2047)) (es.getD k 0)

/-- Roots, entries of each level and leaves that are not valid and that are malformed; a page beyond the guest; pages and
frames that may not be read and that may not be written. -/
theorem wit_FailedWalksTrap :
    (walks (farTask 0 0 0 0 0) 0 [] ∧ walks (farTask 0x10003 0 0 0 0) 0x10003 [] ∧ ¬upperEntry 0x10003 ∧
     upperEntry 0x10001 ∧ walks (farTask 0x10001 0 0 0 0) 0x10001 [0] ∧
     walks (farTask 0x10001 0x14003 0 0 0) 0x10001 [0x14003] ∧ ¬upperEntry 0x14003 ∧ upperEntry 0x14001 ∧
     walks (farTask 0x10001 0x14001 0 0 0) 0x10001 [0x14001, 0] ∧
     walks (farTask 0x10001 0x14001 0x100_0001_8001 0 0) 0x10001 [0x14001, 0x100_0001_8001] ∧
     ¬upperEntry 0x100_0001_8001 ∧ upperEntry 0x18001) ∧
    (∀ leaf ∈ [0, 0x2_0005, 0x40_0007, 0x2_0003, 0x2_0009, 0x20_0007],
      walks (farTask 0x10001 0x14001 0x18001 leaf 0x60_0007) 0x10001 [0x14001, 0x18001, leaf]) ∧
    ¬leafEntry 0x2_0005 ∧ leafEntry 0x40_0007 ∧ leafEntry 0x2_0003 ∧ leafEntry 0x2_0009 ∧ leafEntry 0x20_0007 ∧
    ((farTask 0 0 0 0 0).vdev 0).s2len.toNat ≤ leafGpa 0x40_0007 0xFFFF_FFFF_FFF8 / 2 ^ 21 ∧
    (0x2_0003 : Word).getLsbD 2 = false ∧ (0x2_0009 : Word).getLsbD 1 = false ∧
    SecondStage (farTask 0 0 0 0 0) 0 (leafGpa 0x2_0003 0xFFFF_FFFF_FFF8) 0x100_0000_000F ∧
    ∀ f ∈ [0x60_0003, 0x60_0001], SecondStage (farTask 0 0 0 0 f) 0 (leafGpa 0x20_0007 0xFFFF_FFFF_FFF8) f := by
  unfold walks guestAt SecondStage Rooted NoErrors upperEntry leafEntry
  simp only [List.forall_mem_cons, List.not_mem_nil, false_implies, implies_true, and_true]
  constructorm* _ ∧ _ <;> decide +kernel

/-- Context 0 waits at a commit with bytes of two words for HBM, under the virtual device's key, and for die SRAM. -/
def outward : Core :=
  let x := coreWith .waiting Regs.reset
  let y : Ctx := x.ctx 0
  let cells : Tab Byte := [(0x60_0000, 7), (0x60_0041, 9), (2 ^ 41 - 1, 3)]
  let homes : Tab Home := [(0x1_8000, State.reset.guestHome 0 0 0), (0x1_8001, State.reset.guestHome 0 0 64)]
  x.putCtx 0 { y with wait := .commit (.next 4), chunk := { Chunk.empty with
    cells := cells, homes := homes, wsig := sigBit 0x60_0000 ||| sigBit 0x60_0041 ||| sigBit (2 ^ 41 - 1) } }

theorem wit_CommitReachesTranslatedMemory :
    let s := one outward
    CommitsAlone s 0 0 (.next 4) ∧ NoErrors s ∧
    let k := (s.ctx 0 0).chunk
    let place (a : Nat) : Place := { addr := a, home := if a < 2 ^ 40 then Tab.look k.homes (a / 64) else none }
    (∀ e ∈ k.cells, e.1 < 2 ^ 41) ∧
    ∀ e ∈ k.cells, e.1 < 2 ^ 40 → ∃ h, Tab.look k.homes (e.1 / 64) = some h ∧
      (s.lineSt (place e.1) = .fresh ∨ s.lineSt (place e.1) = .good) ∧ s.version h + 1 < 2 ^ 56 ∧
      ∀ d ∈ k.cells, ∀ g, Tab.look k.homes (d.1 / 64) = some g → d.1 / 64 ≠ e.1 / 64 →
        (g.key, g.gline) ≠ (h.key, h.gline) := by
  intro s
  have hr : ∀ j : Fin 4, j ≠ 0 → (outward.ctx j).running = false := by decide +kernel
  refine ⟨⟨by decide, by decide +kernel, rfl, by decide +kernel, by decide +kernel, by decide +kernel, ?_⟩, ?_, ?_, ?_⟩
  · intro d j _ hd h
    rw [no_other_runs _ hr d j hd] at h
    exact absurd h (by decide)
  · unfold NoErrors
    decide +kernel
  · decide +kernel
  · have hm : ∀ e ∈ (s.ctx 0 0).chunk.cells, e.1 < 2 ^ 40 → e.1 = 0x60_0000 ∨ e.1 = 0x60_0041 := by decide +kernel
    have hd : ∀ d ∈ (s.ctx 0 0).chunk.cells, d.1 = 0x60_0000 ∨ d.1 = 0x60_0041 ∨ d.1 = 2 ^ 41 - 1 := by decide +kernel
    intro e he h
    have h1 : Tab.look (s.ctx 0 0).chunk.homes (0x60_0000 / 64) = some (State.reset.guestHome 0 0 0) := by decide +kernel
    have h2 : Tab.look (s.ctx 0 0).chunk.homes (0x60_0041 / 64) = some (State.reset.guestHome 0 0 64) := by decide +kernel
    have h3 : Tab.look (s.ctx 0 0).chunk.homes ((2 ^ 41 - 1) / 64) = none := by decide +kernel
    have hk : ((State.reset.guestHome 0 0 0).key, (State.reset.guestHome 0 0 0).gline) ≠
      ((State.reset.guestHome 0 0 64).key, (State.reset.guestHome 0 0 64).gline) := by decide +kernel
    obtain h | h := hm e he h <;> rw [h]
    · refine ⟨_, h1, by decide +kernel, by decide +kernel, fun d m g hg hn => ?_⟩
      obtain e | e | e := hd d m <;> rw [e] at hg hn
      · exact absurd rfl hn
      · rw [h2] at hg
        exact Option.some.inj hg ▸ hk.symm
      · rw [h3] at hg
        exact absurd hg nofun
    · refine ⟨_, h2, by decide +kernel, by decide +kernel, fun d m g hg hn => ?_⟩
      obtain e | e | e := hd d m <;> rw [e] at hg hn
      · rw [h1] at hg
        exact Option.some.inj hg ▸ hk
      · exact absurd rfl hn
      · rw [h3] at hg
        exact absurd hg nofun

/-! ### Witnesses: clauses added beside others -/

/-- One segment from 0 to 1 by a line. -/
def unitTable : UserTable :=
  { n := 1, lin := true, we := 0, x0 := 0, low := 0x3F80_0000, high := 0x4000_0000, segs := [(0, 0x3F80_0000, 0)] }

/-- A table in a slot; arguments below its first seam, from its last on, and in its segment; records with one segment in
order, out of order, and with the greatest width. -/
theorem wit_SpecialFunctions_tables :
    ((vec 0 0 0 0).setMe { (vec 0 0 0 0).me with bank := { bank with user := [none, none, some unitTable] } }).view.user.getD
      ((15 : BitVec 4).toNat - 13) none = some unitTable ∧ PlainWidth unitTable ∧
    UserExact unitTable fmt32 0xBF80_0000 1 ∧ UserExact unitTable fmt32 0x3F80_0000 2 ∧
    UserExact unitTable fmt32 0x3F00_0000 (1 / 2) ∧
    (∀ e ∈ [((0x18_0040 : Word), true), (0x00E8_0080, false)],
      let s := tcm (vec 0 0 0x3FFC0 0) 0x3FFC0 [e.1, 0x4000_0000_BF80_0000, 0x3F80_0000_0000_0000, 0]
      let h := tcmWord s 0x3FFC0
      QuietTcm s ∧ h = e.1 ∧ h.toNat % 64 = 0 ∧ h.toNat / 2 ^ 6 % 4 = (if e.2 then 1 else 2) ∧
      h.toNat / 2 ^ 9 % 2 ^ 7 = 0 ∧ h.toNat / 2 ^ 24 % 2 ^ 8 = 0 ∧
      signed 8 (h.toNat / 2 ^ 16 % 2 ^ 8) = (if e.2 then 24 else -24) ∧ value fmt32 (h.toNat / 2 ^ 32) ≠ none ∧
      (tcmWord s 0x3FFD8).toNat / 2 ^ 32 = 0 ∧ 0x3FFC0 + 32 ≤ 2 ^ 18) := by
  have hv : value fmt32 0xBF80_0000 = some (-1) ∧ value fmt32 0x3F80_0000 = some 1 ∧ value fmt32 0x3F00_0000 = some (1 / 2) ∧
      value fmt32 0 = some 0 ∧ value fmt32 0x4000_0000 = some 2 := by decide +kernel
  refine ⟨by decide +kernel, by unfold PlainWidth; decide, ⟨-1, 0, hv.1, hv.2.2.2.1, .inl ⟨by norm_num, hv.2.1⟩⟩,
    ⟨1, 0, hv.2.1, hv.2.2.2.1, .inr (.inl ⟨by norm_num [unitTable], hv.2.2.2.2⟩)⟩,
    ⟨1 / 2, 0, hv.2.2.1, hv.2.2.2.1, .inr (.inr ⟨by norm_num, 0, by decide, 0, 1, 0, ?_⟩)⟩, ?_⟩
  · refine ⟨by norm_num [unitTable], by norm_num [unitTable], hv.2.2.2.1, hv.2.1, rfl, by norm_num [unitTable]⟩
  · unfold QuietTcm
    simp only [List.forall_mem_cons, List.not_mem_nil, false_implies, implies_true, and_true]
    constructorm* _ ∧ _ <;> decide +kernel

/-- Two contexts of a core wait for the unit, the one for its second turn. -/
theorem wit_SpecialFunctions_pair :
    let x := coreWith .waiting Regs.reset
    let y : Ctx := x.ctx 0
    let x := x.putCtx 0 { y with wait := .sfu 1 0 0 }
    let s := one (x.putCtx 1 { y with wait := .sfu 2 0 1 })
    (s.ctx 0 0).st = .waiting ∧ (s.ctx 0 0).wait = .sfu 1 0 0 ∧
    ∀ d (j : Fin 4), d / 8 = 0 → (d, j) ≠ ((0, 0) : Nat × Fin 4) → (s.ctx d j).st = .waiting →
      ∀ v r n, (s.ctx d j).wait = .sfu v r n → (0 : Nat) = 0 ∧ n ≠ 0 := by
  refine ⟨by decide +kernel, by decide +kernel, fun d j _ hd hs v r n hw => ⟨rfl, ?_⟩⟩
  by_cases h0 : d = 0
  · subst h0
    fin_cases j
    · exact absurd rfl hd
    · injection hw with _ _ h
      omega
    all_goals exact absurd hs (by decide +kernel)
  · have hr : ∀ j : Fin 4, (Core.reset.ctx j).st ≠ .waiting := by decide +kernel
    exact absurd (by simpa [State.ctx, State.core, one, Tab.get, Tab.look, h0] using hs) (hr j)

/-- A core that still owes the status of a job that a JCAN ended, to the last word of the TCM. -/
theorem wit_TablesModesAndMailboxes_owed :
    let j := ofKind 1
    let o : Owed := { slot := 7, mbox := 0x3FFF8, sid := 0, status := 5 }
    let s := { State.reset with cores := [(7, { Core.reset with bank := bank.setJob 0 j, owed := [o] })] }
    IdleCluster s 0 ∧ NoErrors s ∧ HeadIs s (8 * 0 + 7) 0 j ∧ (s.core 7).owed = o :: [] ∧ o.mbox.toNat % 8 = 0 ∧
    (s.bank 7).kernel.cb * 8192 ≤ o.mbox.toNat ∧ o.mbox.toNat < 2 ^ 18 := by
  refine ⟨idle_of _ _ (by decide +kernel) ?_, ?_⟩
  · intro e he i
    rw [List.mem_singleton.mp he]
    have hr : ∀ i : Fin 4, (Core.reset.ctx i).running = false := by decide +kernel
    exact hr i
  · unfold HeadIs NoErrors
    dsimp only
    constructorm* _ ∧ _ <;> decide +kernel

/-- A copy that has begun toward module 5, of the greatest segment, over a link of its route set. -/
theorem wit_CopiesMoveSegments_away :
    let j := { Job.reset with
      st := .running, prep := true, kind := 6, ops := [0x100, 0x10000, 0x8000_0050_0000_2000, 0x1000, 0] }
    let s := { solo (fun b => { b with modid := 1 }) j with
      rsets := [(5, 2 ^ 23)], links := [(23, { Link.reset with st := .up })] }
    s.nextCopy 0 = some (0, j) ∧ s.copyTurn 0 = true ∧ s.localFor 0 (0x8000_0050_0000_2000 / 2 ^ 36 % 2 ^ 12) = false ∧
    ∀ ws : List Word, ws.length ≤ 512 → (s.route (segmentMsg 0 0 j (s.bank 0).vdid ws)).isSome = true := by
  intro j s
  have h1 : s.activeLinks 5 = [23] := by decide +kernel
  have h2 : (s.link 23).carries = true := by decide +kernel
  have h3 : (s.link 23).replay.length = 0 := by decide +kernel
  have h4 : Tab.look s.drains 5 = none := by decide +kernel
  have key (m : Msg) (hd : m.dmod = 5) (hf : m.flits ≤ 512) : (s.route m).isSome = true := by
    unfold State.route
    rw [hd, h4, h1]
    simp [Nat.mod_one, h2, h3, hf]
  refine ⟨by decide +kernel, by decide +kernel, by decide +kernel, fun ws h => key _ ?_ ?_⟩
  · show j.dmod = 5
    decide +kernel
  · unfold Msg.flits segmentMsg deviceMsg
    simp only [List.length_append, List.length_cons, List.length_nil]
    omega

/-- GSPAWN whose queue lies in translated memory without tables; whose descriptor can be read, with a queue that is full,
an entry beyond the data part, a status record beyond it, and all of them within. -/
theorem wit_BatchesBlocksAndSlots_spawns :
    (∀ k, Unforced (spawning 1 2 []).1 k) ∧
    (let s := (spawning 1 2 []).1
     let t := s.modBank 0 fun b => { b with lqb := 0x1_0000_0000 }
     (match (({ t with wrote := [] } : State).deviceGetWords 0 0x1_0000_0040 4).1 with
      | .error _ => true
      | .ok _ => false) = true ∧
     (match (({ s with wrote := [] } : State).deviceGetWords 0 0x2000 4).1 with
      | .error _ => false
      | .ok d => decide (d = [1, 0, 2, 0x2FE0])) = true) := by
  refine ⟨unforced_of _ (by decide +kernel), by decide +kernel⟩

/-- Code whose line holds, in its last byte, a codeword that cannot be corrected. -/
theorem wit_FetchingAndItsTraps_uncorrectable :
    let s := { fetching 0x1FFE 0x1FFE [0, 0x38] with uncorrectable := [codeword (2 ^ 41 + 0x1FC0 + 63)] }
    OnFabric s ∧ s.me.bank.kernel.cb * 8192 ≤ 2 ^ 18 ∧ 0x1FFE + 2 ≤ s.me.bank.kernel.cb * 8192 ∧
    ∃ b < 64, codeword (2 ^ 41 + s.focus.1 * 2 ^ 18 + 0x1FFE / 64 * 64 + b) ∈ s.uncorrectable := by
  intro s
  refine ⟨?_, by decide +kernel, by decide +kernel, 63, by decide, by decide +kernel⟩
  unfold OnFabric
  decide +kernel

/-- A frame with a written line that cannot be corrected; places of virtual device 63 under its own key. -/
theorem wit_KeyOperations_lines :
    (let s := { ctl 2 Regs.reset with lines := [(7, ⟨9, 0, 1, false⟩)], uncorrectable := [codeword (64 * 7)] }
     7 / 2 ^ 15 = 0 ∧ Tab.look s.lines 7 ≠ none ∧ codeword (64 * 7) ∈ s.uncorrectable) ∧
    (let s := ctl 2 Regs.reset
     let h := s.guestHome 63 0 0
     h.owner = 63 ∧ h.key ≠ s.hypKey ∧ ∀ e ∈ s.windows, e.2.key ≠ h.key) := by
  dsimp only
  constructorm* _ ∧ _ <;> decide +kernel

/-- A cluster whose cores have one copy or two, of virtual devices 3 and 5, and others. -/
theorem wit_ClusterAssignmentAndInterrupts_copies :
    (let s := one { Core.reset with bank := { Bank.reset with vdid := 5 }, other := { Bank.reset with vdid := 3 } }
     (s.core 0).bank.vdid = 5 ∧ (s.core 0).other.vdid = 3 ∧ (s.core 1).bank.vdid ≠ 5 ∧ (s.core 1).bank.vdid ≠ 3 ∧
     (s.core 1).other.vdid ≠ 5 ∧ (s.core 1).other.vdid ≠ 3) ∧
    (0x45 : Word).getLsbD 6 ≠ (0x45 : Word).getLsbD 14 ∧ (0x10_4543 : Word).getLsbD 6 = true ∧
    (0x10_4543 : Word).getLsbD 14 = true ∧ (0x10_4543 : Word).toNat % 2 ^ 6 = 3 ∧
    (0x10_4543 : Word).toNat / 2 ^ 8 % 2 ^ 6 = 5 := by
  decide +kernel

/-- A core to be saved where no memory lies, whose store of the record traps. -/
theorem wit_SaveAndRestore_traps :
    let s := halted 0x4_0000 id
    (s.cluster 0).shared = false ∧ RunOut s 0 ∧ Unforced s 0 ∧ (s.core 0).saveHalt = none ∧ (s.core 0).stopped = true ∧
    (s.core 0).saved = false ∧ (s.core 0).stopBy ≠ none ∧ (s.core 0).bank.kst = .active ∧
    (match (State.devicePutWords { s with wrote := [] } 0 (s.core 0).bank.saveb (s.core 0).record).1 with
      | .error _ => true
      | .ok _ => false) = true := by
  refine ⟨by decide +kernel, ?_, unforced_of _ (by decide +kernel) 0, ?_⟩
  · unfold RunOut
    decide +kernel
  · constructorm* _ ∧ _ <;> decide +kernel

/-- A core with jobs that no slice queue holds at its head. -/
theorem wit_LoaderCommands_jobs :
    let j := { Job.reset with st := .queued, kind := 6 }
    let s := loading (bank.setJob 0 j) (block 1 0) []
    (∀ k, Unforced s k) ∧ (s.job 7 0).st = .queued ∧ (s.job 7 0).gang = false ∧ ∀ i, ¬HeadIs s 7 0 i := by
  intro j s
  have h : s.sliceHead 7 = none := by decide +kernel
  refine ⟨unforced_of _ (by decide +kernel), by decide +kernel, by decide +kernel, fun i hi => ?_⟩
  rw [HeadIs, h] at hi
  exact absurd hi nofun

/-- A group of TCM banks that two virtual devices share, parted at bank 16. -/
theorem wit_ErrorsAlarmsAndFailures_shared :
    let s := { State.reset with clusters := [(0, { Cluster.reset with clown := 0x10_4140 })] }
    (s.cluster (7 / 8)).vds = [0, 1] ∧ (s.cluster (7 / 8)).clown.toNat / 2 ^ 16 % 2 ^ 5 = 16 ∧ s.failedIn 7 ≤ 1 ∧
    (7, 31) ∉ s.failedBanks ∧ Tab.look s.corrected (7 * 64 + 31) = none ∧ Tab.look s.corrected (7 * 64 + 35) = none := by
  decide +kernel

/-- No error in a state whose thread has a request. -/
theorem wit_StitchThreadPerformsRequests_errors :
    NoErrors (thread (pooled bank) (ask false 0 0 []) 0x3E000 []) ∧
    NoErrors (thread (pooled bank) (ask true 0 0 []) 0x3E000 []) := by
  unfold NoErrors
  decide +kernel

/-! ### One step of an instruction on a small state

The expected values are the spec's own worked examples where a rule has one, else calculated by hand from the rule. -/

/-- A task with two operands in g5 and g6 and a third register. -/
def two (a b : Word) : State := fab (gs [(5, a), (6, b)])

/-- The instruction leaves a value in g13. -/
def gives (i : Instr) (s : State) (x : Word) : Bool := nextIs (exec i s) fun t => decide (t.regs.get 13 = x)

/-- The instruction takes a trap of a cause and a sub-cause. -/
def traps (i : Instr) (s : State) (c : Cause) (sub : Nat) : Bool :=
  nextIs (exec i s) fun t => decide (t.me.bank.cause.toNat % 2 ^ 16 = c.code + sub * 256)

/-- R126: the spec's values of division by zero and of −2⁶³ by −1. -/
theorem test_division :
    gives (.remu 13 5 6) (two 84 36) 12 = true ∧ gives (.divu 13 5 6) (two 5 0) 0xFFFF_FFFF_FFFF_FFFF = true ∧
    gives (.div 13 5 6) (two 5 0) 0x7FFF_FFFF_FFFF_FFFF = true ∧
    gives (.div 13 5 6) (two (-5) 0) 0x8000_0000_0000_0000 = true ∧
    gives (.div 13 5 6) (two 0x8000_0000_0000_0000 (-1)) 0x7FFF_FFFF_FFFF_FFFF = true ∧
    gives (.rem 13 5 6) (two 0x8000_0000_0000_0000 (-1)) 0 = true ∧ gives (.rem 13 5 6) (two (-7) 0) (-7) = true := by
  decide +kernel

/-- R125: a sum that wraps, a difference below 0, the high half of a signed product, a shift by the amount modulo 64. -/
theorem test_arithmetic_wraps :
    gives (.add 13 5 6) (two 0xFFFF_FFFF_FFFF_FFFF 1) 0 = true ∧ gives (.sub 13 5 6) (two 3 5) (-2) = true ∧
    gives (.mulh 13 5 6) (two (-1) 2) (-1) = true ∧ gives (.mulhu 13 5 6) (two (-1) 2) 1 = true ∧
    gives (.sll 13 5 6) (two 1 65) 2 = true ∧ gives (.sra 13 5 6) (two (-8) 1) (-4) = true ∧
    gives (.slt 13 5 6) (two (-1) 0) 1 = true ∧ gives (.sltu 13 5 6) (two (-1) 0) 0 = true := by
  decide +kernel

/-- R69: a result for g0 is discarded, and the pc goes on. -/
theorem test_g0_discards :
    nextIs (exec (.add 0 5 6) (two 1 2)) (fun t => decide (t.regs.get 0 = 0) && decide (t.regs.pc = 4)) = true := by
  decide +kernel

/-- R127, R129: the spec's example: x = 0x0003_EC40 is made of imm19 126 and −960. -/
theorem test_lih_and_addi :
    gives (.lih 13 126) (two 0 0) 0x0003_F000 = true ∧ gives (.addi 13 5 (-960)) (two 0x0003_F000 0) 0x0003_EC40 = true := by
  decide +kernel

/-- R132, R133: a taken branch backward by the spec's −6 halfwords, one that is not taken, and a link that is written. -/
theorem test_branches :
    (let s := fab { gs [(9, 7), (10, 7)] with pc := 0x100 }
     nextIs (exec (.beq 9 10 0x7FA) s) (fun t => decide (t.regs.pc = 0xF4)) = true ∧
     nextIs (exec (.bne 9 10 0x7FA) s) (fun t => decide (t.regs.pc = 0x104)) = true) ∧
    nextIs (exec (.jal 1 0x7FFF4) (fab { Regs.reset with pc := 0x34 }))
      (fun t => decide (t.regs.pc = 0x1C) && decide (t.regs.get 1 = 0x38)) = true := by
  dsimp only
  constructorm* _ ∧ _ <;> decide +kernel

/-- R113, R117 to R119, R130, R131: a signed byte of memory, a store that the chunk holds and the committed memory does not, a load that
is not aligned, a store to the code region. -/
theorem test_loads_and_stores :
    gives (.lb 13 5 0) (poke (two 0x2000 0) (2 ^ 41 + 0x2000) [0xFF]) (-1) = true ∧
    nextIs (exec (.sd 6 5 8) (two 0x2000 0x1122)) (fun t => decide (seenNum t (2 ^ 41 + 0x2008) 8 = 0x1122) &&
      decide (t.mem.byte (2 ^ 41 + 0x2008) = 0)) = true ∧
    traps (.lw 13 5 0) (two 0x2002 0) .misalign 0 = true ∧ traps (.sd 6 5 0) (two 0x1FF8 0) .perm 0 = true := by
  decide +kernel

/-- R137: the spec's classes of −0 and of two NaNs. -/
theorem test_fclass :
    gives (.fclassS 13 5) (two 0x8000_0000 0) 0x101 = true ∧ gives (.fclassS 13 5) (two 0x7FC0_0000 0) 0x010 = true ∧
    gives (.fclassS 13 5) (two 0xFF80_0001 0) 0x120 = true := by decide +kernel

/-- R137: the spec's tie to even of FCVTBF.S, with NX. -/
theorem test_fcvtbf : nextIs (exec (.fcvtbfS 13 5) (two 0x3F80_8000 0)) (fun t =>
    decide (t.regs.get 13 = 0x3F80) && decide (t.regs.cr.fflg = 1)) = true := by decide +kernel

/-- R36 to R38, R135, R136: 1 + 2⁻²⁴ ties to 1 with NX, 1 / 0 is infinity with DZ, 0 × ∞ the canonical NaN with NV, √4 = 2, and FMA
rounds once: 3 × (1/3) − 1 in binary32. -/
theorem test_float :
    nextIs (exec (.faddS 13 5 6) (two 0x3F80_0000 0x3380_0000)) (fun t =>
      decide (t.regs.get 13 = 0x3F80_0000) && decide (t.regs.cr.fflg = 1)) = true ∧
    nextIs (exec (.fdivS 13 5 6) (two 0x3F80_0000 0)) (fun t =>
      decide (t.regs.get 13 = 0x7F80_0000) && decide (t.regs.cr.fflg = 8)) = true ∧
    nextIs (exec (.fmulS 13 5 6) (two 0 0x7F80_0000)) (fun t =>
      decide (t.regs.get 13 = 0x7FC0_0000) && decide (t.regs.cr.fflg = 16)) = true ∧
    gives (.fsqrtD 13 5) (two 0x4010_0000_0000_0000 0) 0x4000_0000_0000_0000 = true ∧
    nextIs (exec (.fmaS 13 5 6) (fab (gs [(5, 0x4040_0000), (6, 0x3EAA_AAAB), (13, 0xBF80_0000)]))) (fun t =>
      decide (t.regs.get 13 = 0x3300_0000)) = true := by decide +kernel

/-- R138: CRCLR clears the flags set in its operand and gives the old ones. -/
theorem test_crclr :
    nextIs (exec (.crclr 13 0x00E 6) (let s := two 0 0x11; s.setRegs { s.regs with cr := { s.regs.cr with fflg := 0x1F } }))
      (fun t => decide (t.regs.get 13 = 0x1F) && decide (t.regs.cr.fflg = 0x0E)) = true := by decide +kernel

/-- R79: an instruction of the control profile is ILLEGAL on a fabric core. -/
theorem test_control_only : traps .eret (two 0 0) .illegal 0 = true := by decide +kernel

/-- R195, R196: the spec's ring h3 of eight slots with HEAD 6 and TAIL 10. -/
theorem test_rings :
    (let h : Word := 0x00DB_C000 + 6 * 2 ^ 26 + 10 * 2 ^ 37
     let s (n : Word) : State := let u := two n 0; u.setMe { u.me with bank := { u.me.bank with h := u.me.bank.h.set 3 h } }
     gives (.hqry 13 3) (s 0) (h + 4 * 2 ^ 48) = true ∧ traps (.padv 3 5) (s 5) .ring 3 = true ∧
     nextIs (exec (.cadv 3 5) (s 4)) (fun t => decide (hFilled (t.view.ring 3) = 0) && decide (hHead (t.view.ring 3) = 10)) =
       true) ∧
    (let u := two 0x00DB_C000 0
     nextIs (exec (.hset 3 5) u) (fun t => decide (hCount (t.view.ring 3) = 8) && decide (hSlot (t.view.ring 3) = 64)) =
       true) := by
  dsimp only
  constructorm* _ ∧ _ <;> decide +kernel

/-- A vector of bytes, lane 0 first. -/
def bytes (l : List Nat) : VWord := BitVec.ofNat 512 ((l.zipIdx.map fun (b, i) => b * 256 ^ i).sum)

/-- A task with v1 and v2. -/
def vecs (a b : VWord) : State := fab ((Regs.reset.putV 1 a).putV 2 b)

/-- The instruction leaves a value in the low bits of v3. -/
def low3 (i : Instr) (s : State) (n x : Nat) : Bool :=
  nextIs (exec i s) fun t => decide ((t.regs.getV 3).toNat % 2 ^ n = x)

/-- R228: the spec's example of VPERMB: bytes 3, 0 (forced), 1 and 63 of vs2. -/
theorem test_vpermb :
    low3 (.vpermb 3 1 2 0) (vecs (bytes ((List.range 64).map (· + 100))) (bytes [0x03, 0x80, 0x41, 0x3F])) 32
      (103 + 0 * 256 + 101 * 256 ^ 2 + 163 * 256 ^ 3) = true := by decide +kernel

/-- R239: the spec's examples of VDEC with preset 1 and of VNIB. -/
theorem test_vdec_vnib :
    low3 (.vdec .f32 3 1 0 0) (vecs (bytes [0x38]) 0) 32 0x3F80_0000 = true ∧
    low3 (.vnib 3 1 2 0) (vecs (bytes [0x9C]) 0) 16 (0xFC + 0xF9 * 256) = true ∧
    low3 (.vnib 3 1 0 0) (vecs (bytes [0x9C]) 0) 16 (0x0C + 0x09 * 256) = true := by
  decide +kernel

/-- R241: the spec's lanes 0 and 1 of VRNG for K = 0 and c = 0. -/
theorem test_vrng :
    low3 (.vrng .i32 3 1 0) (vecs 0 0) 64 (0xF5B9_C4EF * 2 ^ 32) = true := by decide +kernel

/-- R218, R221: lanes under a mask; lanes that wrap on their own. -/
theorem test_vadd :
    low3 (.vadd .i8 3 1 2 0) (vecs (bytes [0xFF, 1, 2]) (bytes [2, 3, 4])) 24 0x06_04_01 = true ∧
    (let s := fab (((Regs.reset.putV 1 (bytes [1, 1, 1])).putV 2 (bytes [2, 2, 2])).putK 1 5)
     low3 (.vadd .i8 3 1 2 1) s 24 0x03_00_03) = true := by
  dsimp only
  constructorm* _ ∧ _ <;> decide +kernel

/-- R54, R229: a sum of four lanes of i32 over the tree. -/
theorem test_vsum :
    low3 (.vrsum .i32 3 1 0) (vecs (bytes [1, 0, 0, 0, 2, 0, 0, 0, 3, 0, 0, 0, 0xFF, 0xFF, 0xFF, 0xFF]) 0) 64 5 = true := by
  decide +kernel

/-- R240: a wide lane saturates, a half ties to even. -/
theorem test_vcvt :
    low3 (.vcvt .i32 3 1 .i8 0) (vecs (BitVec.ofNat 512 (300 + 2 ^ 32 * 0xFFFF_FF00)) 0) 16 0x80_7F = true ∧
    low3 (.vcvt .f32 3 1 .i32 0) (vecs (BitVec.ofNat 512 (0x4020_0000 + 2 ^ 32 * 0x4060_0000)) 0) 64 (2 + 2 ^ 32 * 4) = true := by
  decide +kernel

/-- R232, R233: the spec's values of exp2 at 0.5, 3.5 and −0.5, and of log2 at 8. -/
theorem test_special_functions :
    (let s (x : Nat) : State := ctl 2 (Regs.reset.putV 1 (BitVec.ofNat 512 x))
     low3 (.vsfn 0 .f32 3 1 0) (s 0x3F00_0000) 32 0x3FB5_04F3 = true ∧
     low3 (.vsfn 0 .f32 3 1 0) (s 0x4060_0000) 32 0x4135_04F3 = true ∧
     low3 (.vsfn 0 .f32 3 1 0) (s 0xBF00_0000) 32 0x3F35_04F3 = true ∧
     low3 (.vsfn 2 .f32 3 1 0) (s 0x4100_0000) 32 0x4040_0000 = true) := by
  dsimp only
  constructorm* _ ∧ _ <;> decide +kernel

/-- R413, R415: the spec's list of five entries, drawn with c = 0 and c = 1. -/
theorem test_draw :
    (let list : List Word := [0x0000_0007_4020_0000, 0x0000_0003_4020_0000, 0x0000_000C_4020_0000, 0x0000_0028_4020_0000,
       0x0000_0009_FF80_0000]
     let s (c : Word) : State := tcm (one { (Core.reset.putCtx 0 { Ctx.reset with
       st := .waiting, wait := .draw 0x0000_0005_0000_2000 c 13 }) with bank := bank }) 0x2000 list
     let drawn (c x : Word) : Bool := nextIs (exec (.riddleDraw 0 0) (s c)) fun t => decide ((t.ctx 0 0).regs.get 13 = x)
     drawn 0 0x0000_0001_0000_0003 = true ∧ drawn 1 0x0000_0003_0000_0028 = true) := by
  dsimp only
  constructorm* _ ∧ _ <;> decide +kernel

/-- Chapter 22's round: CMBN with CAP 4 returns 3 and writes the spec's three entries. -/
theorem test_committee :
    (let member : List Word := [1, 0, 0, 0, 0, 0, 0, 0]
     let q := ask true 3 0x3E000 [0x0000_0004_0000_2000]
     let s := thread bank q 0x3E000 ([nat (3 + 8 + 2 ^ 8 + 2 * 2 ^ 12 + 3 * 2 ^ 16 + 3 * 2 ^ 24 + 100 * 2 ^ 43), 0, 0, 0,
       0x3F80_0000_3F80_0000, 0, 0, 0, 0x3F00_0000_0000_0000, 0x3F00_0000_0000_0001] ++ List.replicate 6 0 ++ member ++ member)
     let s := poke s (2 ^ 41 + 0x3E400) (wordsBytes [0x4020_0000_0000_0002, 0x3F80_0000, 0, 0, 0x0000_000A_4000_0000,
       0x0000_000B_3F80_0000])
     let s := poke s (2 ^ 41 + 0x3E400 + 544) (wordsBytes [0x3F80_0000_0000_0002, 0, 0, 0, 0x0000_000A_3F00_0000,
       0x0000_000C_0000_0000])
     nextIs (exec (.committeeRequest 0) s) fun t => decide ((t.ctx 0 3).regs.get 5 = 3) &&
       decide (tcmAtCore t 0 0x2000 = 0x0000_000A_BF00_0000) && decide (tcmAtCore t 0 0x2008 = 0x0000_000B_BFE0_0000) &&
       decide (tcmAtCore t 0 0x2010 = 0x0000_000C_BFE0_0000)) = true := by
  dsimp only
  decide +kernel

/-- R362, R367: the spec's walk of 0x7F12_3456_789A: the guest address, the host address and the guest line. -/
theorem test_atrn_example :
    (let s := five 0x7F12_3456_789A 1 0 0 0
     let s := { s with vds := [(0, { Vd.reset with s2base := 0x100_0010_0000, s2len := 0x1_0000, sidtb := 0x100_0000_0000 })] }
     let s := poke s 0x100_0000_0000 (wordsBytes [0x4000_0001])
     -- guest frame 0x200 holds the tables, frame 0x91A2 the page
     let s := poke s (0x100_0010_0000 + 8 * 0x200) (wordsBytes [0x100_0020_000F])
     let s := poke s (0x100_0010_0000 + 0x4_8D10) (wordsBytes [0x0000_0003_4600_0007])
     let s := poke s (0x100_0020_0000 + 0x1FC0) (wordsBytes [0x0000_0000_4000_4001])
     let s := poke s (0x100_0020_0000 + 0x6468) (wordsBytes [0x0000_0000_4000_8001])
     let s := poke s (0x100_0020_0000 + 0x82B0) (wordsBytes [0x0000_0012_3450_0007])
     gives (.atrn 13 5 6) s (nat (1 + 3 * 2 ^ 8 + 0x12_3450_789A * 2 ^ 16)) &&
       (match (s.find 0 .store 0x7F12_3456_7898).1 with
        | .ok f => decide (f.place.addr = 0x3_4610_7898) &&
            decide ((f.place.home.map (·.gline)) = some 0x48D1_41E2)
        | .error _ => false)) = true := by
  dsimp only
  decide +kernel

/-- R471: the hash of the measurement chain: SHA-256 of the three bytes "abc" (FIPS 180-4's own example). -/
theorem test_sha256 : sha256 [0x61, 0x62, 0x63] =
    [0xba, 0x78, 0x16, 0xbf, 0x8f, 0x01, 0xcf, 0xea, 0x41, 0x41, 0x40, 0xde, 0x5d, 0xae, 0x22, 0x23,
     0xb0, 0x03, 0x61, 0xa3, 0x96, 0x17, 0x7a, 0x9c, 0xb4, 0x10, 0xff, 0x61, 0xf2, 0x00, 0x15, 0xad] := by
  decide +kernel

end Sys2Proof.Tests

end
end

section
/-! PROOF. What every step keeps (R10, R460, R461, R476): one lemma for each operation of the model, in the order of the
model's files, that a state reached from `s₀` keeps the invariants of `s₀`. Most operations write parts that no
invariant speaks of, which `Keeps.frame` says once; the control profile's registers are written by the entry to and
the return from a level, CRW of HRPT and MODW, SLOTW, a slot boundary and a boot alone. -/

set_option Elab.async false

namespace Sys2Proof.Machine

open Sys2Proof.Claims

/-! ### What a write keeps -/

/-- The second state has each invariant of a step that the first one has: the canonical form of memory, and the control
profile's registers in their ranges. -/
structure Keeps (s t : State) : Prop where
  memory : s.mem.wf = true → t.mem.wf = true
  ranges : RegistersInRange s → RegistersInRange t

/-- The same of an answer, where it is a next state. -/
def Out.Keeps (s : State) (o : Out) : Prop := ∀ t, o = .next t → Machine.Keeps s t

/-- A property of the value of an answer, where it has one. -/
def Ans.All {α : Type} (p : α → Prop) (x : Ans α) : Prop := ∀ a, x = .ok a → p a

section

variable {α β : Type} {s₀ s t : State}

theorem Keeps.refl : Keeps s s := ⟨id, id⟩

theorem Keeps.trans (h : Keeps s₀ s) (k : Keeps s t) : Keeps s₀ t := ⟨k.memory ∘ h.memory, k.ranges ∘ h.ranges⟩

/-- A write of parts that no invariant speaks of. -/
theorem Keeps.frame
    {inputs focus tick free msts lines counters nextKey hypKey hist performed walked clusters blocks releasing vds
    windows net verdicts links ports pctb portCtxs queues portStops rsets drains rings islands slotTab slotIx
    failedBanks uncorrectable corrected seq wrote}
    (h : Keeps s₀ s) :
    Keeps s₀
      ⟨inputs, focus, tick, free, msts, s.mem, lines, counters, nextKey, hypKey, hist, performed, walked, s.cores,
      clusters, blocks, releasing, vds, windows, net, verdicts, links, ports, pctb, portCtxs, queues, portStops,
      rsets, drains, rings, islands, s.hrpt, s.modw, slotTab, s.slotLen, s.slotPeriod, s.slotLenNext,
      s.slotPeriodNext, slotIx, failedBanks, uncorrectable, corrected, seq, wrote⟩ :=
  ⟨h.memory, h.ranges⟩

/-- A write of memory that keeps its canonical form, and of parts that no invariant speaks of. -/
theorem Keeps.putMem
    {inputs focus tick free msts lines counters nextKey hypKey hist performed walked clusters blocks releasing vds
    windows net verdicts links ports pctb portCtxs queues portStops rsets drains rings islands slotTab slotIx
    failedBanks uncorrectable corrected seq wrote}
    {mem : Memory} (h : Keeps s₀ s) (hm : s.mem.wf = true → mem.wf = true) :
    Keeps s₀
      ⟨inputs, focus, tick, free, msts, mem, lines, counters, nextKey, hypKey, hist, performed, walked, s.cores,
      clusters, blocks, releasing, vds, windows, net, verdicts, links, ports, pctb, portCtxs, queues, portStops,
      rsets, drains, rings, islands, s.hrpt, s.modw, slotTab, s.slotLen, s.slotPeriod, s.slotLenNext,
      s.slotPeriodNext, slotIx, failedBanks, uncorrectable, corrected, seq, wrote⟩ :=
  ⟨hm ∘ h.memory, h.ranges⟩

/-- A fold of writes that each keep the canonical form of memory keeps it. -/
theorem Memory.wf_foldl {f : Memory → α → Memory} (hf : ∀ m x, Memory.wf m = true → Memory.wf (f m x) = true)
    (l : List α) (m : Memory) (h : m.wf = true) : Memory.wf (l.foldl f m) = true := by
  induction l generalizing m with
  | nil => exact h
  | cons x l ih => exact ih _ (hf m x h)

/-- Each entry of a table after a write is an entry before it or the one written. -/
theorem Tab.mem_put {k : Nat} {x : α} {e : Nat × α} : ∀ {t : Tab α}, e ∈ Tab.put t k x → e ∈ t ∨ e = (k, x)
  | [], h => Or.inr (List.mem_singleton.mp h)
  | (a, b) :: t, h => by
    unfold Tab.put at h
    split at h
    · exact (List.mem_cons.mp h).symm
    · split at h
      · exact (List.mem_cons.mp h).elim Or.inr fun h => Or.inl (List.mem_cons_of_mem _ h)
      · rcases List.mem_cons.mp h with rfl | h
        · exact Or.inl List.mem_cons_self
        · exact (Tab.mem_put h).imp_left (List.mem_cons_of_mem _)

/-- What is listed for a key is an entry of the table. -/
theorem Tab.mem_of_look {k : Nat} {x : α} : ∀ {t : Tab α}, Tab.look t k = some x → (k, x) ∈ t
  | (a, b) :: t, h => by
    unfold Tab.look at h
    split at h
    · rename_i e
      rw [e, ← Option.some.inj h]
      exact List.mem_cons_self
    · exact List.mem_cons_of_mem _ (Tab.mem_of_look h)

/-- At READY the registers are in their ranges. -/
theorem registersInRange_reset : RegistersInRange State.reset := by
  refine ⟨fun e he => ?_, by decide⟩
  rw [List.mem_singleton.mp he]
  exact Nat.le_refl 2

/-- A core's level is at most 2 where the registers are in their ranges; one that is not listed is at level 2. -/
theorem level_le_of_inRange (h : RegistersInRange s) (c : Nat) : (s.core c).priv.cprv ≤ 2 := by
  unfold State.core Tab.get
  cases e : Tab.look s.cores c with
  | none => exact Nat.le_refl 2
  | some x => exact h.1 _ (Tab.mem_of_look e)

/-- A core written with a level of at most 2, or of at most the core's own level. -/
theorem Keeps.putCoreLevel (h : Keeps s₀ s) (c : Nat) (x : Core)
    (hx : (∀ d, (s.core d).priv.cprv ≤ 2) → x.priv.cprv ≤ 2) : Keeps s₀ (s.putCore c x) where
  memory := h.memory
  ranges h0 := by
    have hr := h.ranges h0
    refine ⟨fun e he => ?_, hr.2⟩
    rcases Tab.mem_put he with he | rfl
    · exact hr.1 e he
    · exact hx (level_le_of_inRange hr)

/-- A core written with its level as it was. -/
theorem Keeps.putCore {c : Nat} {x : Core} (h : Keeps s₀ s)
    (hx : x.priv.cprv = (s.core c).priv.cprv := by rfl) : Keeps s₀ (s.putCore c x) :=
  h.putCoreLevel c x fun hl => hx ▸ hl c

theorem Keeps.modCore {c : Nat} {f : Core → Core} (h : Keeps s₀ s)
    (hf : ∀ x, (f x).priv.cprv = x.priv.cprv := by intro x; rfl) : Keeps s₀ (s.modCore c f) :=
  h.putCore (hf _)

/-- Of a choice, each side by itself. -/
theorem Keeps.ite {p : Prop} [Decidable p] (hs : Keeps s₀ s) (ht : Keeps s₀ t) : Keeps s₀ (if p then s else t) := by
  split <;> assumption

/-- Of a fold, each step by itself. -/
theorem Keeps.foldl {f : State → α → State} {l : List α} (h : Keeps s₀ s)
    (hf : ∀ {s} (x : α), Keeps s₀ s → Keeps s₀ (f s x)) : Keeps s₀ (l.foldl f s) := by
  induction l generalizing s with
  | nil => exact h
  | cons x l ih => exact ih (hf x h)

/-- Of a fold that also counts, each step by itself. -/
theorem Keeps.foldlPair {f : β × State → α → β × State} {l : List α} {b : β} (h : Keeps s₀ s)
    (hf : ∀ (p : β × State) (x : α), Keeps s₀ p.2 → Keeps s₀ (f p x).2) : Keeps s₀ (l.foldl f (b, s)).2 := by
  suffices ∀ p : β × State, Keeps s₀ p.2 → Keeps s₀ (l.foldl f p).2 from this (b, s) h
  induction l with
  | nil => exact fun _ h => h
  | cons x l ih => exact fun p h => ih _ (hf p x h)

theorem Keeps.foldrPair {f : α → β × State → β × State} {l : List α} {b : β} (h : Keeps s₀ s)
    (hf : ∀ (x : α) (p : β × State), Keeps s₀ p.2 → Keeps s₀ (f x p).2) : Keeps s₀ (l.foldr f (b, s)).2 := by
  induction l with
  | nil => exact h
  | cons x l ih => exact hf x _ ih

/-- The state of a pair that is known by name. -/
theorem Keeps.of_eq {p : α × State} {a : α} (h : Keeps s₀ p.2) (e : p = (a, t)) : Keeps s₀ t := by
  subst e; exact h

theorem Out.Keeps.next (h : Machine.Keeps s₀ s) : Out.Keeps s₀ (.next s) := by
  rintro _ ⟨⟩; exact h

theorem Out.Keeps.ite {p : Prop} [Decidable p] {o q : Out} (ho : Out.Keeps s₀ o) (hq : Out.Keeps s₀ q) :
    Out.Keeps s₀ (if p then o else q) := by
  split <;> assumption

theorem Ans.All.ok {p : α → Prop} {a : α} (h : p a) : (Ans.ok a).All p := by
  rintro _ ⟨⟩; exact h
theorem Ans.All.trap {p : α → Prop} {t : Trap} : (Ans.trap t : Ans α).All p := nofun
theorem Ans.All.wait {p : α → Prop} {w : Wait} : (Ans.wait w : Ans α).All p := nofun
theorem Ans.All.yield {p : α → Prop} : (Ans.yield : Ans α).All p := nofun

theorem Ans.All.bind {p : α → Prop} {q : β → Prop} {x : Ans α} {f : α → Ans β} (hx : x.All p)
    (hf : ∀ a, p a → (f a).All q) : (x.bind f).All q := by
  cases x with
  | ok a => exact hf a (hx a rfl)
  | trap _ => exact Ans.All.trap
  | wait _ => exact Ans.All.wait
  | yield => exact Ans.All.yield

/-- A bind of a value in which no state stands. -/
theorem Ans.All.bindAny {q : β → Prop} {x : Ans α} {f : α → Ans β} (hf : ∀ a, (f a).All q) : (x.bind f).All q :=
  Ans.All.bind (p := fun _ => True) (fun _ _ => trivial) fun a _ => hf a

theorem Ans.All.ite {c : Prop} [Decidable c] {p : α → Prop} {x y : Ans α} (hx : x.All p) (hy : y.All p) :
    (if c then x else y).All p := by
  split <;> assumption

/-- A property of the value of a request, where it has one. -/
def OkAll {ε α : Type} (p : α → Prop) (x : Except ε α) : Prop := ∀ a, x = .ok a → p a

theorem OkAll.ok {ε : Type} {p : α → Prop} {a : α} (h : p a) : OkAll p (.ok a : Except ε α) := by
  rintro _ ⟨⟩; exact h

theorem OkAll.okPair {ε : Type} {a : α} (h : Keeps s₀ s) :
    OkAll (Keeps s₀ ·.2) (.ok (a, s) : Except ε (α × State)) :=
  .ok h

theorem OkAll.error {ε : Type} {p : α → Prop} {e : ε} : OkAll p (.error e : Except ε α) := nofun

theorem OkAll.ite {ε : Type} {c : Prop} [Decidable c] {p : α → Prop} {x y : Except ε α} (hx : OkAll p x)
    (hy : OkAll p y) : OkAll p (if c then x else y) := by
  split <;> assumption

/-- A write of every listed core that keeps its level. -/
theorem Keeps.mapCores {walked : List TlbEntry} {f : Nat × Core → Nat × Core} (h : Keeps s₀ s)
    (hf : ∀ e, (f e).2.priv.cprv = e.2.priv.cprv := by intro x; rfl) :
    Keeps s₀ { s with walked := walked, cores := s.cores.map f } where
  memory := h.memory
  ranges h0 := by
    obtain ⟨hl, hr⟩ := h.ranges h0
    refine ⟨fun e he => ?_, hr⟩
    obtain ⟨d, hd, rfl⟩ := List.mem_map.mp he
    exact (hf d).trans_le (hl d hd)

/-! ### The level of a core after its own operations -/

@[simp] theorem Core.discardChunk_priv (x : Core) (i : Fin 4) : (x.discardChunk i).priv = x.priv := rfl

@[simp] theorem Core.setQueue_priv (x : Core) (k : MClass) (q : List Msg) : (x.setQueue k q).priv = x.priv := by
  cases k <;> rfl

@[simp] theorem Core.requeue_priv (x : Core) (r : CtxRegs) (m : Msg) : (x.requeue r m).priv = x.priv := by
  unfold Core.requeue
  split
  · rfl
  · exact Core.setQueue_priv ..

@[simp] theorem Core.setEntry_priv (x : Core) (n : Nat) (e : Entry) : (x.setEntry n e).priv = x.priv := by
  unfold Core.setEntry
  split <;> rfl

@[simp] theorem Core.readyEntry_priv (x : Core) (n : Nat) : (x.readyEntry n).priv = x.priv := by
  simp only [Core.readyEntry, Core.setEntry_priv]
  split <;> rfl

@[simp] theorem Core.dropEntry_priv (x : Core) (n : Nat) : (x.dropEntry n).priv = x.priv := Core.setEntry_priv ..

@[simp] theorem Core.serve_priv (x : Core) (v : Nat) : (x.serve v).priv = x.priv := by
  unfold Core.serve Core.swapped
  split
  · rfl
  · split <;> rfl

@[simp] theorem State.serveBoth_priv (s : State) (x : Core) (a b : Nat) : (s.serveBoth x a b).priv = x.priv := by
  simp only [State.serveBoth, Core.swapped, apply_ite Core.priv, Core.serve_priv, ite_self]

@[simp] theorem Core.comeTo_priv (x y : Core) : (x.comeTo y).priv = y.priv := by
  unfold Core.comeTo
  split <;> rfl

@[simp] theorem Core.takePick_priv (x : Core) (p : Pick) : (x.takePick p).priv = x.priv := by
  cases p with
  | refusal _ => rfl
  | message cls ix m => exact Core.setQueue_priv ..

@[simp] theorem Core.countStart_priv (x : Core) (r : Bool) : (x.countStart r).priv = x.priv := rfl

@[simp] theorem Core.modCopy_priv (x : Core) (v : Nat) (f : Bank → Bank) : (x.modCopy v f).priv = x.priv := by
  unfold Core.modCopy
  split
  · rfl
  · split <;> rfl

@[simp] theorem Core.refuse_priv (x : Core) (control : Bool) (n why : Nat) :
    (x.refuse control n why).priv = x.priv := by
  simp only [Core.refuse]
  split
  · exact Core.dropEntry_priv ..
  · split <;> simp

@[simp] theorem State.restored_priv (s : State) (c : Nat) (v : Saved) (ws : List Word) (es : List Entry) :
    (s.restored c v ws es).priv = (s.core c).priv := rfl


/-! ### Registers and contexts, reports, the alarm, a chunk rolled back, a trap taken -/

theorem Keeps.putCtx {c i y} (h : Keeps s₀ s) : Keeps s₀ (s.putCtx c i y) := h.modCore
theorem Keeps.modCtx {c i f} (h : Keeps s₀ s) : Keeps s₀ (s.modCtx c i f) := h.putCtx
theorem Keeps.modBank {c f} (h : Keeps s₀ s) : Keeps s₀ (s.modBank c f) := h.modCore
theorem Keeps.modCluster {k f} (h : Keeps s₀ s) : Keeps s₀ (s.modCluster k f) := h.frame
theorem Keeps.modVd {v f} (h : Keeps s₀ s) : Keeps s₀ (s.modVd v f) := h.frame
theorem Keeps.setCx {y} (h : Keeps s₀ s) : Keeps s₀ (s.setCx y) := h.putCtx
theorem Keeps.modCx {f} (h : Keeps s₀ s) : Keeps s₀ (s.modCx f) := h.setCx

theorem Keeps.setMe {x : Core} (h : Keeps s₀ s) (hx : x.priv.cprv = s.me.priv.cprv := by rfl) :
    Keeps s₀ (s.setMe x) :=
  h.putCore hx

theorem Keeps.modMe {f : Core → Core} (h : Keeps s₀ s)
    (hf : ∀ x, (f x).priv.cprv = x.priv.cprv := by intro x; rfl) : Keeps s₀ (s.modMe f) :=
  h.putCore (hf _)

theorem Keeps.setRegs {r} (h : Keeps s₀ s) : Keeps s₀ (s.setRegs r) := h.modCx
theorem Keeps.setG {x y} (h : Keeps s₀ s) : Keeps s₀ (s.setG x y) := h.setRegs
theorem Keeps.setV {x y} (h : Keeps s₀ s) : Keeps s₀ (s.setV x y) := h.setRegs
theorem Keeps.setK {x y} (h : Keeps s₀ s) : Keeps s₀ (s.setK x y) := h.setRegs
theorem Keeps.setPc {y} (h : Keeps s₀ s) : Keeps s₀ (s.setPc y) := h.setRegs
theorem Keeps.advance {n} (h : Keeps s₀ s) : Keeps s₀ (s.advance n) := h.setPc
theorem Keeps.setCr {y} (h : Keeps s₀ s) : Keeps s₀ (s.setCr y) := h.setRegs
theorem Keeps.orFlags {fl} (h : Keeps s₀ s) : Keeps s₀ (s.orFlags fl) := h.setCr
theorem Keeps.draw (h : Keeps s₀ s) : Keeps s₀ s.draw.2 := h.frame
theorem Keeps.pick (h : Keeps s₀ s) : Keeps s₀ s.pick.2 := h.frame

theorem Keeps.orFree {x} (h : Keeps s₀ s) : Keeps s₀ (s.orFree x).2 := by
  unfold State.orFree
  split
  · exact h
  · exact h.draw

theorem Keeps.setCounter {k n} (h : Keeps s₀ s) : Keeps s₀ (s.setCounter k n) := h.frame
theorem Keeps.post {m} (h : Keeps s₀ s) : Keeps s₀ (s.post m) := h.frame

theorem Keeps.sendReport {src vd target payload} (h : Keeps s₀ s) :
    Keeps s₀ (s.sendReport src vd target payload) := by
  unfold State.sendReport
  split
  · exact h
  · exact h.post

theorem Keeps.deviceReport {core target cause sub faddr mid more} (h : Keeps s₀ s) :
    Keeps s₀ (s.deviceReport core target cause sub faddr mid more) :=
  h.sendReport

theorem Keeps.moduleReport {vd target payload} (h : Keeps s₀ s) : Keeps s₀ (s.moduleReport vd target payload) :=
  h.frame.sendReport

theorem Keeps.quenchVd {v} (h : Keeps s₀ s) : Keeps s₀ (s.quenchVd v) := h.modVd.frame
theorem Keeps.quenchAll (h : Keeps s₀ s) : Keeps s₀ s.quenchAll := h.foldl fun _ h1 => h1.quenchVd

theorem Keeps.alarm {source v host} (h : Keeps s₀ s) : Keeps s₀ (s.alarm source v host) := by
  unfold State.alarm
  dsimp only
  split
  · refine .quenchAll ?_
    split
    · exact h.moduleReport.modCore.ite h.moduleReport
    · exact h.moduleReport
  · split
    · split
      · exact h.moduleReport.modCore.ite h.moduleReport
      · exact h.moduleReport
    · refine .quenchVd ?_
      split
      · exact h.moduleReport.modCore.ite h.moduleReport
      · exact h.moduleReport
    · refine .quenchAll ?_
      split
      · exact h.moduleReport.modCore.ite h.moduleReport
      · exact h.moduleReport

theorem Keeps.errorReport {cls mem addr owner more} (h : Keeps s₀ s) :
    Keeps s₀ (s.errorReport cls mem addr owner more) :=
  h.moduleReport

theorem Keeps.stopCore {c sender} (h : Keeps s₀ s) : Keeps s₀ (s.stopCore c sender) :=
  h.modCore (fun _ => by split <;> rfl)

theorem Keeps.renewCodeword {a} (h : Keeps s₀ s) : Keeps s₀ (s.renewCodeword a) := h.frame

theorem Keeps.machineCheck {v a} (h : Keeps s₀ s) : Keeps s₀ (s.machineCheck v a) :=
  (h.foldl fun _ h1 => h1.stopCore).modVd.frame.errorReport

theorem Keeps.checkAll {vs a} (h : Keeps s₀ s) : Keeps s₀ (s.checkAll vs a) := by
  unfold State.checkAll
  split
  · exact (h.errorReport.putMem (Memory.wf_foldl (fun m b => m.wf_put b 0) _ _)).renewCodeword
  · exact h.foldl fun _ h => h.machineCheck

theorem Keeps.checkOwners {a} (h : Keeps s₀ s) : Keeps s₀ (s.checkOwners a) := h.checkAll

theorem Keeps.supersede {p sharers} (h : Keeps s₀ s) : Keeps s₀ (s.supersede p sharers) :=
  h.frame.foldl fun _ h1 => h1.modCore

theorem Keeps.pokeCells {cells} (h : Keeps s₀ s) : Keeps s₀ (s.pokeCells cells) := h.putMem (Memory.wf_fold cells _)

theorem Keeps.commitLine {sharers line home cells} (h : Keeps s₀ s) :
    Keeps s₀ (s.commitLine sharers line home cells) := by
  unfold State.commitLine
  dsimp only
  split
  · split
    · exact h.checkOwners
    · exact (h.foldl fun _ h2 => h2.supersede).pokeCells
  · exact h.ite (h.frame.checkOwners.ite
      (h.frame.alarm.ite (h.alarm.ite
      ((h.pokeCells.renewCodeword.frame.ite h).foldl fun _ h1 => h1.supersede).pokeCells.frame.setCounter)))

theorem Keeps.commitCells {sharers homes cells} (h : Keeps s₀ s) : Keeps s₀ (s.commitCells sharers homes cells) := by
  unfold State.commitCells
  dsimp only
  refine h.foldl fun _ h1 => ?_
  split
  · exact h1.pokeCells
  · exact h1.pokeCells
  · exact h1.commitLine
  · exact h1.commitLine

theorem Keeps.performNow {w} (h : Keeps s₀ s) : Keeps s₀ (s.performNow w) := h.frame
theorem Keeps.abortTask {c i} (h : Keeps s₀ s) : Keeps s₀ (s.abortTask c i) := h.putCore (by split <;> simp)
theorem Keeps.restartChunk {c i} (h : Keeps s₀ s) : Keeps s₀ (s.restartChunk c i) := h.putCore
theorem Keeps.rollBack {c i} (h : Keeps s₀ s) : Keeps s₀ (s.rollBack c i) := h.restartChunk.ite h.abortTask

theorem Keeps.couchAborts {k w self} (h : Keeps s₀ s) : Keeps s₀ (s.couchAborts k w self) :=
  h.foldl fun _ h1 => h1.rollBack.ite h1

theorem Keeps.hartMeets {k w} (h : Keeps s₀ s) : Keeps s₀ (s.hartMeets k w) := h.couchAborts.frame

theorem Keeps.hartEvent {f : State → Out} (h : Keeps s₀ s) (hf : ∀ {t}, Keeps s₀ t → Out.Keeps s₀ (f t)) :
    Out.Keeps s₀ (hartEvent s f) := by
  unfold Machine.hartEvent
  split
  · rename_i t e
    exact .ite (.next h) (.next (hf h.frame t e).frame)
  · nofun
  · nofun

theorem Keeps.hartWrite {k home a bs} (h : Keeps s₀ s) : Keeps s₀ (s.hartWrite k home a bs) := h.hartMeets.commitCells
theorem Keeps.trapAlarm {t} (h : Keeps s₀ s) : Keeps s₀ (s.trapAlarm t) := h.alarm.ite h
theorem Keeps.trapCheck {t} (h : Keeps s₀ s) : Keeps s₀ (s.trapCheck t) := h.checkOwners.ite h
theorem Keeps.deviceFails {t} (h : Keeps s₀ s) : Keeps s₀ (s.deviceFails t) := h.trapAlarm.trapCheck

theorem Keeps.record {c i t anch fpc} (h : Keeps s₀ s) : Keeps s₀ (s.record c i t anch fpc) := by
  unfold State.record
  dsimp only
  exact h.orFree.orFree.modBank

theorem Keeps.reportTrap {c t} (h : Keeps s₀ s) : Keeps s₀ (s.reportTrap c t) := h.sendReport

/-- Entry to a level that there is. -/
theorem Keeps.enterLevel {l epc} (h : Keeps s₀ s) (hl : l ≤ 2) : Keeps s₀ (s.enterLevel l epc) :=
  (h.putCoreLevel s.focus.1 _ fun _ => hl).setPc

theorem State.trapLevel_le (s : State) (t : Trap) (hvcall : Bool) : s.trapLevel t hvcall ≤ 2 := by
  unfold State.trapLevel
  split <;> omega

theorem Keeps.takeControlTrap {t fpc epc hvcall} (h : Keeps s₀ s) : Keeps s₀ (s.takeControlTrap t fpc epc hvcall) :=
  (h.trapAlarm.record.enterLevel (State.trapLevel_le ..)).trapCheck

theorem Keeps.takeTrap {t fpc} (h : Keeps s₀ s) : Keeps s₀ (s.takeTrap t fpc) :=
  h.takeControlTrap.ite (h.trapAlarm.modCx.ite h.trapAlarm.record.abortTask.reportTrap.trapCheck)

/-- A return that is allowed leads to no higher level. -/
theorem Keeps.returnLevel (h : Keeps s₀ s) (hr : s.mayReturn = true) : Keeps s₀ s.returnLevel :=
  (h.putCoreLevel s.focus.1 _ fun hl => (of_decide_eq_true hr).trans (hl s.focus.1)).setPc

theorem Keeps.setWait {w} (h : Keeps s₀ s) : Keeps s₀ (s.setWait w) := h.modCx
theorem Keeps.settle (h : Keeps s₀ s) : Keeps s₀ s.settle := h.setWait.ite h

theorem Keeps.conclude {r : Ans State} (h : Keeps s₀ s) (hr : r.All (Keeps s₀)) : Out.Keeps s₀ (conclude s r) := by
  cases r with
  | ok t => exact .next (hr t rfl).settle
  | trap t => exact .next h.takeTrap
  | wait w => exact .next h.setWait
  | yield => exact .next h.rollBack

theorem Keeps.writeG {rd x len} (h : Keeps s₀ s) : Out.Keeps s₀ (writeG s rd x len) := .next h.setG.advance
theorem Keeps.trapOut {t} (h : Keeps s₀ s) : Out.Keeps s₀ (trapOut s t) := .next h.takeTrap

theorem Keeps.fabricOnly {enc k} (h : Keeps s₀ s) (hk : Out.Keeps s₀ k) : Out.Keeps s₀ (fabricOnly s enc k) :=
  .ite h.trapOut hk

theorem Keeps.controlOnly {enc least k} (h : Keeps s₀ s) (hk : Out.Keeps s₀ k) :
    Out.Keeps s₀ (controlOnly s enc least k) :=
  .ite h.trapOut (.ite h.trapOut hk)

/-! ### Translation, loads and stores, the reports of memory -/

theorem Keeps.loadFrom {c least p} (h : Keeps s₀ s) : Keeps s₀ (s.loadFrom c least p).2 := by
  unfold State.loadFrom
  dsimp only
  split
  · exact h
  · exact h
  · split
    · exact h
    · dsimp only
      exact h.pick.modCore
  · split
    · exact h
    · dsimp only
      exact h.pick.modCore

theorem Keeps.loadWord {c p} (h : Keeps s₀ s) : Keeps s₀ (s.loadWord c p).2 := h.loadFrom

theorem Keeps.tableWord {c v lv gpa} (h : Keeps s₀ s) : Keeps s₀ (s.tableWord c v lv gpa).2 := by
  unfold State.tableWord
  dsimp only
  split
  · exact h
  · split
    · exact h
    · split
      · exact h
      · split
        · exact h
        · exact h.loadFrom

theorem Keeps.walkFrom {c v a r n} (h : Keeps s₀ s) : Keeps s₀ (s.walkFrom c v a r n).2 := by
  induction n generalizing s r with
  | zero => exact h
  | succ n ih =>
    unfold State.walkFrom
    dsimp only
    split
    · rename_i e
      exact h.tableWord.of_eq e
    · rename_i e
      have ht := h.tableWord.of_eq e
      split
      · exact ht
      · split
        · exact ht
        · split
          · exact ih ht
          · exact ht

theorem Keeps.walk {c v sid va} (h : Keeps s₀ s) : Keeps s₀ (s.walk c v sid va).2 := by
  unfold State.walk
  dsimp only
  split
  · exact h
  · split
    · exact h
    · split
      · exact h
      · split
        · rename_i e
          exact h.walkFrom.of_eq e
        · rename_i e1
          split
          · exact h.walkFrom.of_eq e1
          · exact h.walkFrom.of_eq e1

theorem Keeps.cacheWalk {c f} (h : Keeps s₀ s) : Keeps s₀ (s.cacheWalk c f) := h.ite (h.modCore.ite h.modCore.frame)

theorem Keeps.xlate {q va} (h : Keeps s₀ s) : Keeps s₀ (s.xlate q va).2 := by
  unfold State.xlate
  dsimp only
  split
  · split
    · exact h.walk.cacheWalk
    · exact h.walk
  · split
    · split
      · exact h.walk
      · split
        · exact h.walk.pick
        · exact h.walk.pick.cacheWalk
    · split
      · exact h.walk
      · split
        · exact h.walk.pick
        · exact h.walk.pick

theorem Keeps.findAs {q k va} (h : Keeps s₀ s) : Keeps s₀ (s.findAs q k va).2 := by
  unfold State.findAs
  split
  · exact h
  · exact h
  · split
    · rename_i e
      exact h.xlate.of_eq e
    · rename_i e1
      exact h.xlate.of_eq e1

theorem Keeps.find {c k va} (h : Keeps s₀ s) : Keeps s₀ (s.find c k va).2 := h.findAs
theorem Keeps.noteUse {translated lg va} (h : Keeps s₀ s) : Keeps s₀ (s.noteUse translated lg va) := h.ite h.modCx

theorem Keeps.readPlace {f n} (h : Keeps s₀ s) : Keeps s₀ (s.readPlace f n).2 := by
  unfold State.readPlace
  dsimp only
  split
  · split
    · exact h.loadWord
    · dsimp only
      exact h.loadWord.modCx
  · split
    · exact h
    · dsimp only
      exact h.modCx

theorem Keeps.load {va n} (h : Keeps s₀ s) : (s.load va n).All fun a => Keeps s₀ a.2 := by
  unfold State.load
  refine .ite .trap ?_
  split
  · exact .trap
  · rename_i e
    split
    · exact .trap
    · exact .ite .wait (.ok (h.find.of_eq e).noteUse.readPlace)

theorem Keeps.hyperWrite {a x} (h : Keeps s₀ s) : Keeps s₀ (s.hyperWrite a x) := by
  unfold State.hyperWrite
  split
  · exact h
  · exact h.commitCells

theorem Keeps.tableFails {f} (h : Keeps s₀ s) : Keeps s₀ (s.tableFails f) := h.deviceFails

theorem Keeps.portRead {port q} (h : Keeps s₀ s) : Keeps s₀ (s.portRead port q) := by
  unfold State.portRead
  dsimp only
  split
  · exact h.frame.tableFails
  · exact h.frame.ite h.frame

theorem Keeps.portLook {port q} (h : Keeps s₀ s) : Keeps s₀ (s.portLook port q) := by
  unfold State.portLook
  split
  · exact h.ite (h.portRead.ite h.frame)
  · exact h.tableFails

theorem Keeps.portsSee {a} (h : Keeps s₀ s) : Keeps s₀ (s.portsSee a) := h.foldl fun _ h1 => h1.portLook.ite h1

theorem Keeps.writePctb {port x} (h : Keeps s₀ s) : Keeps s₀ (s.writePctb port x) :=
  h.frame.foldl fun _ h1 => h1.portLook

theorem Keeps.storeConflict {w j} (h : Keeps s₀ s) : (s.storeConflict w j).All (Keeps s₀) :=
  .ite (.ok h) (.ite (.ite (.ok h) .wait) (.ite (.ok h.rollBack) .yield))

theorem Keeps.storeConflicts {w} (h : Keeps s₀ s) : (s.storeConflicts w).All (Keeps s₀) :=
  .bind h.storeConflict fun _ h1 => .bind h1.storeConflict fun _ h2 => .bind h2.storeConflict fun _ h3 =>
    h3.storeConflict

theorem Keeps.writePlace {p bs} (h : Keeps s₀ s) : (s.writePlace p bs).All (Keeps s₀) :=
  .ite (.ok h.commitCells.portsSee) (.ite .wait (.bind (.ite h.storeConflicts (.ok h)) fun _ h1 => .ok h1.modCx))

theorem Keeps.storeFind {va n} (h : Keeps s₀ s) : (s.storeFind va n).All fun a => Keeps s₀ a.2 := by
  unfold State.storeFind
  refine .ite .trap ?_
  split
  · exact .trap
  · rename_i e
    split
    · exact .trap
    · exact .ite .wait (.ok (h.find.of_eq e).noteUse)

theorem Keeps.store {va n x} (h : Keeps s₀ s) : (s.store va n x).All (Keeps s₀) :=
  .bind h.storeFind fun _ h1 => h1.writePlace

theorem Keeps.loadWords {va n} (h : Keeps s₀ s) : (s.loadWords va n).All fun a => Keeps s₀ a.2 := by
  induction n generalizing s va with
  | zero => exact .ok h
  | succ n ih => exact .bind h.load fun _ h => .bind (ih h) fun _ h => .ok h

theorem Keeps.fetchHalf {va} (h : Keeps s₀ s) : Keeps s₀ (s.fetchHalf va).2 := by
  unfold State.fetchHalf
  dsimp only
  split
  · rename_i e
    exact h.find.of_eq e
  · rename_i e
    split
    · exact h.find.of_eq e
    · exact (h.find.of_eq e).noteUse

theorem Keeps.fetch (h : Keeps s₀ s) : Keeps s₀ s.fetch.2 := by
  unfold State.fetch
  split
  · rename_i e
    exact h.fetchHalf.of_eq e
  · rename_i e
    split
    · exact h.fetchHalf.of_eq e
    · split
      · rename_i e1
        exact (h.fetchHalf.of_eq e).fetchHalf.of_eq e1
      · rename_i e1
        exact (h.fetchHalf.of_eq e).fetchHalf.of_eq e1

/-! ### Jumps, and what a context leaves to its chunk -/

theorem Keeps.transfer {t link} (h : Keeps s₀ s) : Out.Keeps s₀ (s.transfer t link) := by
  unfold State.transfer
  dsimp only
  refine .ite h.trapOut (.next (.setPc ?_))
  split
  · exact h.setG
  · exact h

theorem Keeps.addPend {p} (h : Keeps s₀ s) : Keeps s₀ (s.addPend p) := h.modMe.ite h.modCx
theorem Keeps.touch {i write} (h : Keeps s₀ s) : Keeps s₀ (s.touch i write) := h.ite h.modCx

/-! ### The flags of floating point -/

theorem Keeps.flag {fl} (h : Keeps s₀ s) : Keeps s₀ (s.flag fl) := h.orFlags

/-! ### Majors 0x01 to 0x0A: integer operations, loads and stores, branches and jumps -/

theorem Keeps.execAdd {rd rs1 rs2} (h : Keeps s₀ s) : Out.Keeps s₀ (execAdd rd rs1 rs2 s) := h.writeG
theorem Keeps.execSub {rd rs1 rs2} (h : Keeps s₀ s) : Out.Keeps s₀ (execSub rd rs1 rs2 s) := h.writeG
theorem Keeps.execAnd {rd rs1 rs2} (h : Keeps s₀ s) : Out.Keeps s₀ (execAnd rd rs1 rs2 s) := h.writeG
theorem Keeps.execOr {rd rs1 rs2} (h : Keeps s₀ s) : Out.Keeps s₀ (execOr rd rs1 rs2 s) := h.writeG
theorem Keeps.execXor {rd rs1 rs2} (h : Keeps s₀ s) : Out.Keeps s₀ (execXor rd rs1 rs2 s) := h.writeG
theorem Keeps.execAndn {rd rs1 rs2} (h : Keeps s₀ s) : Out.Keeps s₀ (execAndn rd rs1 rs2 s) := h.writeG
theorem Keeps.execOrn {rd rs1 rs2} (h : Keeps s₀ s) : Out.Keeps s₀ (execOrn rd rs1 rs2 s) := h.writeG
theorem Keeps.execSll {rd rs1 rs2} (h : Keeps s₀ s) : Out.Keeps s₀ (execSll rd rs1 rs2 s) := h.writeG
theorem Keeps.execSrl {rd rs1 rs2} (h : Keeps s₀ s) : Out.Keeps s₀ (execSrl rd rs1 rs2 s) := h.writeG
theorem Keeps.execSra {rd rs1 rs2} (h : Keeps s₀ s) : Out.Keeps s₀ (execSra rd rs1 rs2 s) := h.writeG
theorem Keeps.execRol {rd rs1 rs2} (h : Keeps s₀ s) : Out.Keeps s₀ (execRol rd rs1 rs2 s) := h.writeG
theorem Keeps.execRor {rd rs1 rs2} (h : Keeps s₀ s) : Out.Keeps s₀ (execRor rd rs1 rs2 s) := h.writeG
theorem Keeps.execSlt {rd rs1 rs2} (h : Keeps s₀ s) : Out.Keeps s₀ (execSlt rd rs1 rs2 s) := h.writeG
theorem Keeps.execSltu {rd rs1 rs2} (h : Keeps s₀ s) : Out.Keeps s₀ (execSltu rd rs1 rs2 s) := h.writeG
theorem Keeps.execMin {rd rs1 rs2} (h : Keeps s₀ s) : Out.Keeps s₀ (execMin rd rs1 rs2 s) := h.writeG
theorem Keeps.execMax {rd rs1 rs2} (h : Keeps s₀ s) : Out.Keeps s₀ (execMax rd rs1 rs2 s) := h.writeG
theorem Keeps.execMinu {rd rs1 rs2} (h : Keeps s₀ s) : Out.Keeps s₀ (execMinu rd rs1 rs2 s) := h.writeG
theorem Keeps.execMaxu {rd rs1 rs2} (h : Keeps s₀ s) : Out.Keeps s₀ (execMaxu rd rs1 rs2 s) := h.writeG
theorem Keeps.execMul {rd rs1 rs2} (h : Keeps s₀ s) : Out.Keeps s₀ (execMul rd rs1 rs2 s) := h.writeG
theorem Keeps.execMulh {rd rs1 rs2} (h : Keeps s₀ s) : Out.Keeps s₀ (execMulh rd rs1 rs2 s) := h.writeG
theorem Keeps.execMulhu {rd rs1 rs2} (h : Keeps s₀ s) : Out.Keeps s₀ (execMulhu rd rs1 rs2 s) := h.writeG
theorem Keeps.execDiv {rd rs1 rs2} (h : Keeps s₀ s) : Out.Keeps s₀ (execDiv rd rs1 rs2 s) := h.writeG
theorem Keeps.execDivu {rd rs1 rs2} (h : Keeps s₀ s) : Out.Keeps s₀ (execDivu rd rs1 rs2 s) := h.writeG
theorem Keeps.execRem {rd rs1 rs2} (h : Keeps s₀ s) : Out.Keeps s₀ (execRem rd rs1 rs2 s) := h.writeG
theorem Keeps.execRemu {rd rs1 rs2} (h : Keeps s₀ s) : Out.Keeps s₀ (execRemu rd rs1 rs2 s) := h.writeG
theorem Keeps.execAddw {rd rs1 rs2} (h : Keeps s₀ s) : Out.Keeps s₀ (execAddw rd rs1 rs2 s) := h.writeG
theorem Keeps.execSubw {rd rs1 rs2} (h : Keeps s₀ s) : Out.Keeps s₀ (execSubw rd rs1 rs2 s) := h.writeG
theorem Keeps.execSllw {rd rs1 rs2} (h : Keeps s₀ s) : Out.Keeps s₀ (execSllw rd rs1 rs2 s) := h.writeG
theorem Keeps.execSrlw {rd rs1 rs2} (h : Keeps s₀ s) : Out.Keeps s₀ (execSrlw rd rs1 rs2 s) := h.writeG
theorem Keeps.execSraw {rd rs1 rs2} (h : Keeps s₀ s) : Out.Keeps s₀ (execSraw rd rs1 rs2 s) := h.writeG
theorem Keeps.execMulw {rd rs1 rs2} (h : Keeps s₀ s) : Out.Keeps s₀ (execMulw rd rs1 rs2 s) := h.writeG
theorem Keeps.execClz {rd rs1} (h : Keeps s₀ s) : Out.Keeps s₀ (execClz rd rs1 s) := h.writeG
theorem Keeps.execCtz {rd rs1} (h : Keeps s₀ s) : Out.Keeps s₀ (execCtz rd rs1 s) := h.writeG
theorem Keeps.execPopc {rd rs1} (h : Keeps s₀ s) : Out.Keeps s₀ (execPopc rd rs1 s) := h.writeG
theorem Keeps.execBswp {rd rs1} (h : Keeps s₀ s) : Out.Keeps s₀ (execBswp rd rs1 s) := h.writeG
theorem Keeps.execSextb {rd rs1} (h : Keeps s₀ s) : Out.Keeps s₀ (execSextb rd rs1 s) := h.writeG
theorem Keeps.execSexth {rd rs1} (h : Keeps s₀ s) : Out.Keeps s₀ (execSexth rd rs1 s) := h.writeG
theorem Keeps.execSextw {rd rs1} (h : Keeps s₀ s) : Out.Keeps s₀ (execSextw rd rs1 s) := h.writeG
theorem Keeps.execZextb {rd rs1} (h : Keeps s₀ s) : Out.Keeps s₀ (execZextb rd rs1 s) := h.writeG
theorem Keeps.execZexth {rd rs1} (h : Keeps s₀ s) : Out.Keeps s₀ (execZexth rd rs1 s) := h.writeG
theorem Keeps.execZextw {rd rs1} (h : Keeps s₀ s) : Out.Keeps s₀ (execZextw rd rs1 s) := h.writeG
theorem Keeps.execAddi {rd rs1 imm} (h : Keeps s₀ s) : Out.Keeps s₀ (execAddi rd rs1 imm s) := h.writeG
theorem Keeps.execAndi {rd rs1 imm} (h : Keeps s₀ s) : Out.Keeps s₀ (execAndi rd rs1 imm s) := h.writeG
theorem Keeps.execOri {rd rs1 imm} (h : Keeps s₀ s) : Out.Keeps s₀ (execOri rd rs1 imm s) := h.writeG
theorem Keeps.execXori {rd rs1 imm} (h : Keeps s₀ s) : Out.Keeps s₀ (execXori rd rs1 imm s) := h.writeG
theorem Keeps.execSlti {rd rs1 imm} (h : Keeps s₀ s) : Out.Keeps s₀ (execSlti rd rs1 imm s) := h.writeG
theorem Keeps.execSltiu {rd rs1 imm} (h : Keeps s₀ s) : Out.Keeps s₀ (execSltiu rd rs1 imm s) := h.writeG
theorem Keeps.execAddiw {rd rs1 imm} (h : Keeps s₀ s) : Out.Keeps s₀ (execAddiw rd rs1 imm s) := h.writeG
theorem Keeps.execSlli {rd rs1 sh} (h : Keeps s₀ s) : Out.Keeps s₀ (execSlli rd rs1 sh s) := h.writeG
theorem Keeps.execSrli {rd rs1 sh} (h : Keeps s₀ s) : Out.Keeps s₀ (execSrli rd rs1 sh s) := h.writeG
theorem Keeps.execSrai {rd rs1 sh} (h : Keeps s₀ s) : Out.Keeps s₀ (execSrai rd rs1 sh s) := h.writeG
theorem Keeps.execRoli {rd rs1 sh} (h : Keeps s₀ s) : Out.Keeps s₀ (execRoli rd rs1 sh s) := h.writeG
theorem Keeps.execSlliw {rd rs1 sh} (h : Keeps s₀ s) : Out.Keeps s₀ (execSlliw rd rs1 sh s) := h.writeG
theorem Keeps.execSrliw {rd rs1 sh} (h : Keeps s₀ s) : Out.Keeps s₀ (execSrliw rd rs1 sh s) := h.writeG
theorem Keeps.execSraiw {rd rs1 sh} (h : Keeps s₀ s) : Out.Keeps s₀ (execSraiw rd rs1 sh s) := h.writeG
theorem Keeps.execLih {rd imm} (h : Keeps s₀ s) : Out.Keeps s₀ (execLih rd imm s) := h.writeG
theorem Keeps.execAddpc {rd imm} (h : Keeps s₀ s) : Out.Keeps s₀ (execAddpc rd imm s) := h.writeG

theorem Keeps.loadOp {rd va n ext len} (h : Keeps s₀ s) : Out.Keeps s₀ (loadOp s rd va n ext len) :=
  h.conclude (.bind h.load fun _ h1 => .ok h1.setG.advance)

theorem Keeps.storeOp {va n x len} (h : Keeps s₀ s) : Out.Keeps s₀ (storeOp s va n x len) :=
  h.conclude (.bind h.store fun _ h1 => .ok h1.advance)

theorem Keeps.execLb {rd rs1 imm} (h : Keeps s₀ s) : Out.Keeps s₀ (execLb rd rs1 imm s) := h.loadOp
theorem Keeps.execLbu {rd rs1 imm} (h : Keeps s₀ s) : Out.Keeps s₀ (execLbu rd rs1 imm s) := h.loadOp
theorem Keeps.execLh {rd rs1 imm} (h : Keeps s₀ s) : Out.Keeps s₀ (execLh rd rs1 imm s) := h.loadOp
theorem Keeps.execLhu {rd rs1 imm} (h : Keeps s₀ s) : Out.Keeps s₀ (execLhu rd rs1 imm s) := h.loadOp
theorem Keeps.execLw {rd rs1 imm} (h : Keeps s₀ s) : Out.Keeps s₀ (execLw rd rs1 imm s) := h.loadOp
theorem Keeps.execLwu {rd rs1 imm} (h : Keeps s₀ s) : Out.Keeps s₀ (execLwu rd rs1 imm s) := h.loadOp
theorem Keeps.execLd {rd rs1 imm} (h : Keeps s₀ s) : Out.Keeps s₀ (execLd rd rs1 imm s) := h.loadOp
theorem Keeps.execSb {rs2 rs1 imm} (h : Keeps s₀ s) : Out.Keeps s₀ (execSb rs2 rs1 imm s) := h.storeOp
theorem Keeps.execSh {rs2 rs1 imm} (h : Keeps s₀ s) : Out.Keeps s₀ (execSh rs2 rs1 imm s) := h.storeOp
theorem Keeps.execSw {rs2 rs1 imm} (h : Keeps s₀ s) : Out.Keeps s₀ (execSw rs2 rs1 imm s) := h.storeOp
theorem Keeps.execSd {rs2 rs1 imm} (h : Keeps s₀ s) : Out.Keeps s₀ (execSd rs2 rs1 imm s) := h.storeOp

theorem Keeps.branchOp {taken t len} (h : Keeps s₀ s) : Out.Keeps s₀ (branchOp s taken t len) :=
  .ite h.transfer (.next h.advance)

theorem Keeps.execBeq {rs1 rs2 imm} (h : Keeps s₀ s) : Out.Keeps s₀ (execBeq rs1 rs2 imm s) := h.branchOp
theorem Keeps.execBne {rs1 rs2 imm} (h : Keeps s₀ s) : Out.Keeps s₀ (execBne rs1 rs2 imm s) := h.branchOp
theorem Keeps.execBlt {rs1 rs2 imm} (h : Keeps s₀ s) : Out.Keeps s₀ (execBlt rs1 rs2 imm s) := h.branchOp
theorem Keeps.execBge {rs1 rs2 imm} (h : Keeps s₀ s) : Out.Keeps s₀ (execBge rs1 rs2 imm s) := h.branchOp
theorem Keeps.execBltu {rs1 rs2 imm} (h : Keeps s₀ s) : Out.Keeps s₀ (execBltu rs1 rs2 imm s) := h.branchOp
theorem Keeps.execBgeu {rs1 rs2 imm} (h : Keeps s₀ s) : Out.Keeps s₀ (execBgeu rs1 rs2 imm s) := h.branchOp
theorem Keeps.execJal {rd imm} (h : Keeps s₀ s) : Out.Keeps s₀ (execJal rd imm s) := h.transfer
theorem Keeps.execJalr {rd rs1 imm} (h : Keeps s₀ s) : Out.Keeps s₀ (execJalr rd rs1 imm s) := .ite h.trapOut h.transfer

/-! ### The send queue and the end of a task -/

theorem Keeps.sendRelease {c m} (h : Keeps s₀ s) : Keeps s₀ (s.sendRelease c m) := h.modCore.post

theorem Keeps.consume {c i} (h : Keeps s₀ s) : Keeps s₀ (s.consume c i) := by
  unfold State.consume
  dsimp only
  split
  · exact h.sendRelease.ite h
  · exact h

theorem Keeps.freeCtx {c i} (h : Keeps s₀ s) : Keeps s₀ (s.freeCtx c i) := h.putCtx
theorem Keeps.endTask {c i} (h : Keeps s₀ s) : Keeps s₀ (s.endTask c i) := h.consume.freeCtx

/-! ### Major 0x0D: the task -/

theorem Keeps.haltOp {enc} (h : Keeps s₀ s) : Out.Keeps s₀ (haltOp s enc) := h.fabricOnly (.next h.setWait)
theorem Keeps.commitOp {enc len} (h : Keeps s₀ s) : Out.Keeps s₀ (commitOp s enc len) := h.fabricOnly (.next h.setWait)
theorem Keeps.execHalt (h : Keeps s₀ s) : Out.Keeps s₀ (execHalt s) := h.haltOp

theorem Keeps.execHaltr {rs1} (h : Keeps s₀ s) : Out.Keeps s₀ (execHaltr rs1 s) :=
  h.fabricOnly (.ite (.next h.setWait) h.trapOut)

theorem Keeps.execCommit (h : Keeps s₀ s) : Out.Keeps s₀ (execCommit s) := h.commitOp
theorem Keeps.execAbort (h : Keeps s₀ s) : Out.Keeps s₀ (execAbort s) := h.fabricOnly (.next h.modMe.endTask)
theorem Keeps.execTrapi {rs1} (h : Keeps s₀ s) : Out.Keeps s₀ (execTrapi rs1 s) := h.fabricOnly (.next h.setWait)
theorem Keeps.execBudgq {rd} (h : Keeps s₀ s) : Out.Keeps s₀ (execBudgq rd s) := h.fabricOnly h.frame.modCx.writeG

/-! ### Majors 0x0E and 0x0F: sending and rings -/

theorem Keeps.takeEntry {n e} (h : Keeps s₀ s) : Keeps s₀ (s.takeEntry n e) := h.setMe (by split <;> simp)

theorem Keeps.enter {kind request rd e} (h : Keeps s₀ s) : (s.enter kind request rd e).All (Keeps s₀) := by
  unfold State.enter
  split
  · exact .ok h.takeEntry.setG.advance
  · exact .ite (.ok h.setG.advance) (.ite .wait .trap)

theorem Keeps.sendOp {kind rd rs1 rs2} (h : Keeps s₀ s) : Out.Keeps s₀ (sendOp s kind rd rs1 rs2) :=
  h.conclude (.bindAny fun _ => .bindAny fun _ => .bindAny fun _ => .bindAny fun _ => .bind h.load fun _ h1 =>
    .bind h1.loadWords fun _ h2 => .bindAny fun _ => h2.enter)

theorem Keeps.execSend {rd rs1 rs2} (h : Keeps s₀ s) : Out.Keeps s₀ (execSend rd rs1 rs2 s) := h.sendOp
theorem Keeps.execRply {rd rs1 rs2} (h : Keeps s₀ s) : Out.Keeps s₀ (execRply rd rs1 rs2 s) := h.sendOp
theorem Keeps.execSendq {rd rs1 rs2} (h : Keeps s₀ s) : Out.Keeps s₀ (execSendq rd rs1 rs2 s) := h.sendOp

theorem Keeps.claimOp {rd rs1 drop} (h : Keeps s₀ s) : Out.Keeps s₀ (claimOp s rd rs1 drop) :=
  h.conclude (.ite (.ok h.setG.advance)
    (.ite (.ok (h.setMe (by split <;> simp)).setG.advance) (.ok (h.modMe (fun _ => by simp)).addPend.setG.advance)))

theorem Keeps.execResend {rd rs1} (h : Keeps s₀ s) : Out.Keeps s₀ (execResend rd rs1 s) := h.claimOp
theorem Keeps.execDropr {rd rs1} (h : Keeps s₀ s) : Out.Keeps s₀ (execDropr rd rs1 s) := h.claimOp

theorem Keeps.execHset {h' rs1} (h : Keeps s₀ s) : Out.Keeps s₀ (execHset h' rs1 s) :=
  h.conclude (.ite .trap (.ok h.touch.addPend.advance))

theorem Keeps.ringWaitOp {produce rd h' rs1} (h : Keeps s₀ s) : Out.Keeps s₀ (ringWaitOp s produce rd h' rs1) :=
  h.conclude (.bindAny fun _ => .ite .trap .wait)

theorem Keeps.execCwait {rd h' rs1} (h : Keeps s₀ s) : Out.Keeps s₀ (execCwait rd h' rs1 s) := h.touch.ringWaitOp
theorem Keeps.execPwait {rd h' rs1} (h : Keeps s₀ s) : Out.Keeps s₀ (execPwait rd h' rs1 s) := h.touch.ringWaitOp

theorem Keeps.ringMoveOp {produce h' rs1} (h : Keeps s₀ s) : Out.Keeps s₀ (ringMoveOp s produce h' rs1) :=
  h.conclude (.bindAny fun _ => .ite .trap (.ok h.touch.addPend.advance))

theorem Keeps.execCadv {h' rs1} (h : Keeps s₀ s) : Out.Keeps s₀ (execCadv h' rs1 s) := h.touch.ringMoveOp
theorem Keeps.execPadv {h' rs1} (h : Keeps s₀ s) : Out.Keeps s₀ (execPadv h' rs1 s) := h.touch.ringMoveOp

theorem Keeps.ringQueryOp {rd h'} (h : Keeps s₀ s) : Out.Keeps s₀ (ringQueryOp s rd h') :=
  h.conclude (.bindAny fun _ => .ok h.setG.advance)

theorem Keeps.execHqry {rd h'} (h : Keeps s₀ s) : Out.Keeps s₀ (execHqry rd h' s) := h.touch.ringQueryOp

/-! ### What the control registers of the module do when they are written -/

theorem Keeps.assignCore {w c} (h : Keeps s₀ s) : Keeps s₀ (s.assignCore w c) := by
  unfold State.assignCore
  exact h.modCore (fun _ => by split <;> simp)

theorem Keeps.writeClown {k x} (h : Keeps s₀ s) : Keeps s₀ (s.writeClown k x) :=
  h.ite (h.modCluster.foldl fun _ h1 => h1.assignCore)

theorem Keeps.clearIpend {c x} (h : Keeps s₀ s) : Keeps s₀ (s.clearIpend c x) := h.modCore
theorem Keeps.raiseIpend {c x} (h : Keeps s₀ s) : Keeps s₀ (s.raiseIpend c x) := h.modCore
theorem Keeps.modLink {l f} (h : Keeps s₀ s) : Keeps s₀ (s.modLink l f) := h.frame
theorem Keeps.linkReport {l cause} (h : Keeps s₀ s) : Keeps s₀ (s.linkReport l cause) := h.moduleReport
theorem Keeps.drain {m mask} (h : Keeps s₀ s) : Keeps s₀ (s.drain m mask) := h.frame
theorem Keeps.drainLink {l} (h : Keeps s₀ s) : Keeps s₀ (s.drainLink l) := h.foldl fun _ h1 => h1.drain.ite h1
theorem Keeps.linkReportFree {l} (h : Keeps s₀ s) : Keeps s₀ (s.linkReportFree l) := h.frame.linkReport

theorem Keeps.loseMsg {m} (h : Keeps s₀ s) : Keeps s₀ (s.loseMsg m) := by
  unfold State.loseMsg
  dsimp only
  split
  · exact h.ite h.frame
  · exact h

theorem Keeps.linkDown {l cause} (h : Keeps s₀ s) : Keeps s₀ (s.linkDown l cause) :=
  h.ite (h.modLink.foldl fun _ h1 => h1.loseMsg).drainLink.linkReport

theorem Keeps.enableLink {l} (h : Keeps s₀ s) : Keeps s₀ (s.enableLink l) := h.modLink.linkReport.ite h
theorem Keeps.disableLink {l} (h : Keeps s₀ s) : Keeps s₀ (s.disableLink l) := h.linkDown

theorem Keeps.resetLink {l cause} (h : Keeps s₀ s) : Keeps s₀ (s.resetLink l cause) := by
  unfold State.resetLink
  split
  · exact h.modLink.linkReport
  · exact h.modLink.linkReport
  · exact h
  · exact h
  · exact h

theorem Keeps.writeLctl {l x} (h : Keeps s₀ s) : Keeps s₀ (s.writeLctl l x) :=
  h.ite ((h.modLink.enableLink.ite h.modLink.disableLink).resetLink.ite
    (h.modLink.enableLink.ite h.modLink.disableLink))

theorem Keeps.writeRset {m mask} (h : Keeps s₀ s) : Keeps s₀ (s.writeRset m mask) := h.ite h.drain

theorem Keeps.putPortWord {port q off x} (h : Keeps s₀ s) : Keeps s₀ (s.putPortWord port q off x) := by
  unfold State.putPortWord
  dsimp only
  split
  · exact h.hyperWrite.frame
  · exact h.hyperWrite

theorem Keeps.setStopped {port q b} (h : Keeps s₀ s) : Keeps s₀ (s.setStopped port q b) := by
  unfold State.setStopped
  split
  · exact h.putPortWord
  · exact h.tableFails

theorem Keeps.setQueue {port q x} (h : Keeps s₀ s) : Keeps s₀ (s.setQueue port q x) := h.frame
theorem Keeps.portResume {port q} (h : Keeps s₀ s) : Keeps s₀ (s.portResume port q) := h.ite h.setQueue.setStopped.frame
theorem Keeps.portStop {port q} (h : Keeps s₀ s) : Keeps s₀ (s.portStop port q) := h.ite (h.ite h.frame)

theorem Keeps.writePqcmd {x} (h : Keeps s₀ s) : Keeps s₀ (s.writePqcmd x) := by
  unfold State.writePqcmd
  dsimp only
  split
  · exact h
  · split
    · exact h.portResume
    · exact h.portStop
    · exact h

theorem Keeps.modIsland {i f} (h : Keeps s₀ s) : Keeps s₀ (s.modIsland i f) := h.frame
theorem Keeps.writeIctl {i x} (h : Keeps s₀ s) : Keeps s₀ (s.writeIctl i x) := h.ite h.modIsland

/-! ### Major 0x11: scopes -/

theorem Keeps.acquire {c} (h : Keeps s₀ s) : Keeps s₀ (s.acquire c) := h.modCore
theorem Keeps.perform {rect stores} (h : Keeps s₀ s) : Keeps s₀ (s.perform rect stores) := h.frame

theorem Keeps.execRels {rs1} (h : Keeps s₀ s) : Out.Keeps s₀ (execRels rs1 s) :=
  h.conclude (.ite .trap (.ite (.ok h.setCr.modCx.advance) (.ok h.setCr.addPend.advance)))

theorem Keeps.execAcqs (h : Keeps s₀ s) : Out.Keeps s₀ (execAcqs s) := .next h.acquire.advance

theorem Keeps.execFence (h : Keeps s₀ s) : Out.Keeps s₀ (execFence s) :=
  .ite (.next h.perform.advance) (.next h.setWait)

/-! ### Job slots -/

theorem Keeps.setJob {c n j} (h : Keeps s₀ s) : Keeps s₀ (s.setJob c n j) := h.modBank

theorem Keeps.submit {rd kind mbox tmA tmB ops} (h : Keeps s₀ s) :
    (s.submit rd kind mbox tmA tmB ops).All (Keeps s₀) := by
  unfold State.submit
  dsimp only
  split
  · exact .wait
  · exact .ite (.ok h.modMe.setG.frame.advance) (.ok h.modMe.setG.setWait)

theorem Keeps.deviceFindAs {q k va} (h : Keeps s₀ s) : Keeps s₀ (s.deviceFindAs q k va).2 := by
  unfold State.deviceFindAs
  split
  · rename_i e
    exact (h.findAs.of_eq e).deviceFails
  · rename_i e
    split
    · exact (h.findAs.of_eq e).deviceFails
    · exact h.findAs.of_eq e

theorem Keeps.devicePut {c p bs} (h : Keeps s₀ s) : Keeps s₀ (s.devicePut c p bs) := by
  unfold State.devicePut
  dsimp only
  split
  · exact (h.ite h.hartMeets).commitCells
  · exact (h.ite h.hartMeets).commitCells
  · exact (h.ite h.hartMeets).commitCells.performNow
  · exact (h.ite h.hartMeets).commitCells.performNow

theorem Keeps.devicePutWordAs {q va x} (h : Keeps s₀ s) : Keeps s₀ (s.devicePutWordAs q va x).2 := by
  unfold State.devicePutWordAs
  split
  · rename_i e
    exact h.deviceFindAs.of_eq e
  · rename_i e
    exact (h.deviceFindAs.of_eq e).devicePut

theorem Keeps.devicePutWordsAs {q va xs} (h : Keeps s₀ s) : Keeps s₀ (s.devicePutWordsAs q va xs).2 := by
  induction xs generalizing s va with
  | nil => exact h
  | cons x xs ih =>
    unfold State.devicePutWordsAs
    split
    · rename_i e
      exact h.devicePutWordAs.of_eq e
    · rename_i e
      exact ih (h.devicePutWordAs.of_eq e)

theorem Keeps.deviceGetAs {q va} (h : Keeps s₀ s) : Keeps s₀ (s.deviceGetAs q va).2 := by
  unfold State.deviceGetAs
  split
  · rename_i e
    exact h.deviceFindAs.of_eq e
  · rename_i e
    exact h.deviceFindAs.of_eq e

theorem Keeps.deviceGetWordsAs {q va n} (h : Keeps s₀ s) : Keeps s₀ (s.deviceGetWordsAs q va n).2 := by
  induction n generalizing s va with
  | zero => exact h
  | succ n ih =>
    unfold State.deviceGetWordsAs
    split
    · rename_i e
      exact h.deviceGetAs.of_eq e
    · rename_i e
      have hr := ih (va := va + 8) (h.deviceGetAs.of_eq e)
      split <;> rename_i e' <;> exact hr.of_eq e'

theorem Keeps.deviceFind {c k va} (h : Keeps s₀ s) : Keeps s₀ (s.deviceFind c k va).2 := h.deviceFindAs
theorem Keeps.devicePutWord {c va x} (h : Keeps s₀ s) : Keeps s₀ (s.devicePutWord c va x).2 := h.devicePutWordAs
theorem Keeps.devicePutWords {c va ws} (h : Keeps s₀ s) : Keeps s₀ (s.devicePutWords c va ws).2 := h.devicePutWordsAs
theorem Keeps.deviceGet {c va} (h : Keeps s₀ s) : Keeps s₀ (s.deviceGet c va).2 := h.deviceGetAs
theorem Keeps.deviceGetWords {c va n} (h : Keeps s₀ s) : Keeps s₀ (s.deviceGetWords c va n).2 := h.deviceGetWordsAs

theorem Keeps.vdFind {q k va} (h : Keeps s₀ s) : Keeps s₀ (s.vdFind q k va).2 := by
  unfold State.vdFind
  split
  · exact h
  · split
    · exact h
    · exact h.deviceFindAs

theorem Keeps.vdGet {q va} (h : Keeps s₀ s) : Keeps s₀ (s.vdGet q va).2 := by
  unfold State.vdGet
  split
  · rename_i e
    exact h.vdFind.of_eq e
  · rename_i e
    exact h.vdFind.of_eq e

theorem Keeps.vdGetWords {q va n} (h : Keeps s₀ s) : Keeps s₀ (s.vdGetWords q va n).2 := by
  induction n generalizing s va with
  | zero => exact h
  | succ n ih =>
    unfold State.vdGetWords
    split
    · rename_i e
      exact h.vdGet.of_eq e
    · rename_i e
      have hr := ih (va := va + 8) (h.vdGet.of_eq e)
      split <;> rename_i e' <;> exact hr.of_eq e'

theorem Keeps.vdStore {p x} (h : Keeps s₀ s) : Keeps s₀ (s.vdStore p x) := h.commitCells.performNow

theorem Keeps.vdPut {q va x} (h : Keeps s₀ s) : Keeps s₀ (s.vdPut q va x).2 := by
  unfold State.vdPut
  split
  · rename_i e
    exact h.vdFind.of_eq e
  · rename_i e
    exact (h.vdFind.of_eq e).vdStore

theorem Keeps.vdPutWords {q va xs} (h : Keeps s₀ s) : Keeps s₀ (s.vdPutWords q va xs).2 := by
  induction xs generalizing s va with
  | nil => exact h
  | cons x xs ih =>
    unfold State.vdPutWords
    split
    · rename_i e
      exact h.vdPut.of_eq e
    · rename_i e
      exact ih (h.vdPut.of_eq e)

theorem Keeps.keepStatus {c n status dcode dlen} (h : Keeps s₀ s) : Keeps s₀ (s.keepStatus c n status dcode dlen) :=
  h.modBank

theorem Keeps.endJob {c n status dcode dlen} (h : Keeps s₀ s) : Keeps s₀ (s.endJob c n status dcode dlen) :=
  h.keepStatus.ite h.keepStatus.devicePutWordAs

theorem Keeps.endOwing {c n dlen} (h : Keeps s₀ s) : Keeps s₀ (s.endOwing c n dlen) :=
  h.keepStatus.ite h.keepStatus.modCore

theorem Keeps.payOwed {c n} (h : Keeps s₀ s) : Keeps s₀ (s.payOwed c n) := by
  unfold State.payOwed
  dsimp only
  split
  · exact h
  · exact h.modCore.devicePutWordAs

theorem Keeps.faultJob {c n dcode} (h : Keeps s₀ s) : Keeps s₀ (s.faultJob c n dcode) := h.endJob
theorem Keeps.unreserve {c n} (h : Keeps s₀ s) : Keeps s₀ (s.unreserve c n) := h.ite (h.post.ite h.modCore)
theorem Keeps.hartCells {k cells} (h : Keeps s₀ s) : Keeps s₀ (s.hartCells k cells) := h.hartMeets.pokeCells
theorem Keeps.jobError {c n e} (h : Keeps s₀ s) : Keeps s₀ (s.jobError c n e) := h.faultJob.checkOwners.ite h.faultJob

/-! ### Majors 0x12 and 0x13: groups and barriers -/

theorem Keeps.execGid {rd rs1} (h : Keeps s₀ s) : Out.Keeps s₀ (execGid rd rs1 s) :=
  h.fabricOnly (.ite h.trapOut (.ite h.writeG h.writeG))

theorem Keeps.execGspawn {rd rs1 rs2} (h : Keeps s₀ s) : Out.Keeps s₀ (execGspawn rd rs1 rs2 s) :=
  h.fabricOnly (h.conclude
    (.bindAny fun _ => .bind h.loadWords fun _ h1 => .bind h1.loadWords fun _ h2 => .bindAny fun _ =>
    .bindAny fun _ => h2.submit))

theorem Keeps.execGdone {rs1} (h : Keeps s₀ s) : Out.Keeps s₀ (execGdone rs1 s) :=
  h.fabricOnly (h.conclude (.bindAny fun _ => .ok h.addPend.advance))

theorem Keeps.barOp {func rd rs1} (h : Keeps s₀ s) : Out.Keeps s₀ (barOp s func rd rs1) :=
  h.fabricOnly (.next h.setWait)

theorem Keeps.execBarrAnd {rd rs1} (h : Keeps s₀ s) : Out.Keeps s₀ (execBarrAnd rd rs1 s) := h.barOp
theorem Keeps.execBarrOr {rd rs1} (h : Keeps s₀ s) : Out.Keeps s₀ (execBarrOr rd rs1 s) := h.barOp
theorem Keeps.execBarrSum {rd rs1} (h : Keeps s₀ s) : Out.Keeps s₀ (execBarrSum rd rs1 s) := h.barOp
theorem Keeps.execBarrPopc {rd rs1} (h : Keeps s₀ s) : Out.Keeps s₀ (execBarrPopc rd rs1 s) := h.barOp
theorem Keeps.execBargAnd {rd rs1} (h : Keeps s₀ s) : Out.Keeps s₀ (execBargAnd rd rs1 s) := h.barOp
theorem Keeps.execBargOr {rd rs1} (h : Keeps s₀ s) : Out.Keeps s₀ (execBargOr rd rs1 s) := h.barOp
theorem Keeps.execBargSum {rd rs1} (h : Keeps s₀ s) : Out.Keeps s₀ (execBargSum rd rs1 s) := h.barOp
theorem Keeps.execBargPopc {rd rs1} (h : Keeps s₀ s) : Out.Keeps s₀ (execBargPopc rd rs1 s) := h.barOp

/-! ### Majors 0x1B and 0x1C: tensor maps, matrix jobs and copies at issue -/

theorem Keeps.execTmset {tmA gs1} (h : Keeps s₀ s) : Out.Keeps s₀ (execTmset tmA gs1 s) :=
  h.fabricOnly (h.conclude
    (.bindAny fun _ => .bind h.loadWords fun _ h1 => .bindAny fun _ => .ok h1.touch.addPend.advance))

theorem Keeps.useMap {t} (h : Keeps s₀ s) : (s.useMap t).All fun a => Keeps s₀ a.2 := .ite .trap (.ok h.touch)

theorem Keeps.execMgang {rd tmA tmB gs1 gs2} (h : Keeps s₀ s) : Out.Keeps s₀ (execMgang rd tmA tmB gs1 gs2 s) :=
  h.fabricOnly (h.conclude
    (.bindAny fun _ => .bindAny fun _ => .bind h.useMap fun _ h1 => .bind h1.useMap fun _ h2 => .bindAny fun _ =>
    .bindAny fun _ => .bindAny fun _ => .bindAny fun _ => .bindAny fun _ => h2.submit))

theorem Keeps.execMzero {rd gs1} (h : Keeps s₀ s) : Out.Keeps s₀ (execMzero rd gs1 s) :=
  h.fabricOnly (h.conclude (.bindAny fun _ => .bindAny fun _ => h.submit))

theorem Keeps.execMsta {rd tmA gs1} (h : Keeps s₀ s) : Out.Keeps s₀ (execMsta rd tmA gs1 s) :=
  h.fabricOnly (h.conclude
    (.bindAny fun _ => .bindAny fun _ => .bind h.useMap fun _ h1 => .bindAny fun _ => .bindAny fun _ => h1.submit))

theorem Keeps.execMlda {rd tmA gs1} (h : Keeps s₀ s) : Out.Keeps s₀ (execMlda rd tmA gs1 s) :=
  h.fabricOnly (h.conclude
    (.bindAny fun _ => .bind h.useMap fun _ h1 => .bindAny fun _ => .bindAny fun _ => h1.submit))

theorem Keeps.execMsplit {rd gs1 gs2} (h : Keeps s₀ s) : Out.Keeps s₀ (execMsplit rd gs1 gs2 s) :=
  h.fabricOnly (h.conclude (.bindAny fun _ => .bindAny fun _ => .bindAny fun _ => h.submit))

theorem Keeps.execDtld {rd gs1 gs2} (h : Keeps s₀ s) : Out.Keeps s₀ (execDtld rd gs1 gs2 s) :=
  h.fabricOnly (h.conclude (.bindAny fun _ => .bindAny fun _ => h.submit))

theorem Keeps.giveStatus {j rd} (h : Keeps s₀ s) : Keeps s₀ (s.giveStatus j rd) := h.setG.setCr.ite h.setG

theorem Keeps.jwaitGo {x rd} (h : Keeps s₀ s) : Keeps s₀ (s.jwaitGo x rd) := by
  unfold State.jwaitGo
  dsimp only
  split
  · exact h.modCx.setG.advance
  · exact h.setWait
  · exact h.modCx.setJob.takeTrap.ite h.modCx.giveStatus.advance

theorem Keeps.execJwait {rd gs1} (h : Keeps s₀ s) : Out.Keeps s₀ (execJwait rd gs1 s) :=
  .ite (.next h.jwaitGo) (.next h.setWait)

theorem Keeps.execJpoll {rd gs1} (h : Keeps s₀ s) : Out.Keeps s₀ (execJpoll rd gs1 s) := by
  unfold Machine.execJpoll
  dsimp only
  split
  · exact h.writeG
  · exact h.writeG
  · exact .next h.giveStatus.advance

theorem Keeps.setPerm {c r perm} (h : Keeps s₀ s) : Keeps s₀ (s.setPerm c r perm) := h.modBank
theorem Keeps.cancelCopy {c n} (h : Keeps s₀ s) : Keeps s₀ (s.cancelCopy c n) := h.setJob.ite h.setJob.post

theorem Keeps.drawIf {p : Bool} (h : Keeps s₀ s) : Keeps s₀ (if p then s.draw else (0, s)).2 := by
  split
  · exact h.draw
  · exact h

theorem Keeps.cancelWith {finish : State → Nat → State} {c n gen runs} (h : Keeps s₀ s)
    (hf : ∀ {t} (x : Nat), Keeps s₀ t → Keeps s₀ (finish t x)) :
    Keeps s₀ (s.cancelWith finish c n gen runs) := by
  unfold State.cancelWith
  dsimp only
  split
  · exact h
  · split
    · split
      · exact h.setJob.ite h
      · exact hf 0 (h.drawIf.setJob.modBank.ite h.drawIf.setJob)
    · exact hf _ (h.setPerm.ite h).unreserve
    · exact h.cancelCopy.ite (h.setJob.ite h)
    · exact h
    · exact h
    · exact h

theorem Keeps.cancelJob {c n gen} (h : Keeps s₀ s) : Keeps s₀ (s.cancelJob c n gen) :=
  h.cancelWith (fun _ h1 => h1.endOwing)

theorem Keeps.cancelNow {c n gen runs} (h : Keeps s₀ s) : Keeps s₀ (s.cancelNow c n gen runs) :=
  h.cancelWith (fun _ h1 => h1.endJob)

theorem Keeps.execJcan {rd gs1} (h : Keeps s₀ s) : Out.Keeps s₀ (execJcan rd gs1 s) := by
  unfold Machine.execJcan
  dsimp only
  refine h.conclude ?_
  split
  · exact .ok h.setG.advance
  · exact .ok h.setG.advance
  · exact .ok (h.setG.cancelNow.ite h.setG.addPend).advance

theorem Keeps.copyOp {ring rd gs1 gs2} (h : Keeps s₀ s) : Out.Keeps s₀ (copyOp s ring rd gs1 gs2) :=
  h.conclude (.bindAny fun _ => .bind h.loadWords fun _ h1 => .bindAny fun _ => .bindAny fun _ => h1.submit)

theorem Keeps.execCpy {rd gs1 gs2} (h : Keeps s₀ s) : Out.Keeps s₀ (execCpy rd gs1 gs2 s) := h.copyOp
theorem Keeps.execCpyr {rd gs1 gs2} (h : Keeps s₀ s) : Out.Keeps s₀ (execCpyr rd gs1 gs2 s) := h.copyOp

/-! ### The life of a task -/

theorem Keeps.asCtx {c i} {f : State → State} (h : Keeps s₀ s) (hf : ∀ {t}, Keeps s₀ t → Keeps s₀ (f t)) :
    Keeps s₀ (s.asCtx c i f) :=
  (hf h.frame).frame

theorem Keeps.blurScratch {c i} (h : Keeps s₀ s) : Keeps s₀ (s.blurScratch c i) := by
  unfold State.blurScratch
  dsimp only
  split
  · exact h.pick
  · exact h.pick.putMem (Memory.wf_filter _ _)

theorem Keeps.seat {c i a st} (h : Keeps s₀ s) : Keeps s₀ (s.seat c i a st) := h.putCtx.pokeCells
theorem Keeps.activate {c i a st} (h : Keeps s₀ s) : Keeps s₀ (s.activate c i a st) := (h.ite h.blurScratch).seat

theorem Keeps.dropPick {c p} (h : Keeps s₀ s) : Keeps s₀ (s.dropPick c p) := by
  unfold State.dropPick
  dsimp only
  split
  · exact (h.modCore.modCore (fun _ => by split <;> simp)).deviceReport
  · exact (h.modCore (fun _ => by simp)).deviceReport

theorem Keeps.execTaskStart {core} (h : Keeps s₀ s) : Out.Keeps s₀ (execTaskStart core s) := by
  unfold Machine.execTaskStart
  dsimp only
  refine .ite ?_ (.ite (.next h) ?_)
  · split
    · exact .next h
    · exact .next (h.putCore (by simp))
  · split
    · exact .next h
    · split
      · exact .next h
      · exact .ite (.next h.dropPick) (.next (h.putCore (by simp)).activate)

theorem Keeps.startControl {c} (h : Keeps s₀ s) : Keeps s₀ (s.startControl c) := h.frame.putCtx
theorem Keeps.complete {c i rd x ckpt} (h : Keeps s₀ s) : Keeps s₀ (s.complete c i rd x ckpt) := h.modCtx

theorem Keeps.execContextWake {core ctx} (h : Keeps s₀ s) : Out.Keeps s₀ (execContextWake core ctx s) := by
  unfold Machine.execContextWake
  dsimp only
  split
  · exact .next h
  · refine .ite (.next h.startControl) (.ite (.next h) ?_)
    split
    · exact .next h.modCtx
    · exact .next h.complete
    · split
      · exact .next h.complete
      · exact .next h
    · split
      · exact .next h
      · exact .next (h.asCtx (fun h1 => h1.jwaitGo.modCx.ite h1.jwaitGo))
      · exact .next (h.asCtx (fun h1 => h1.jwaitGo.modCx.ite h1.jwaitGo))
    · split
      · exact .next h.perform.complete
      · split
        · exact .next h.perform.frame.complete
        · exact .next h.perform.complete
    · exact .next h
    · exact .next h
    · exact .next h
    · exact .next h
    · exact .next h
    · exact .next h
    · exact .next h
    · exact .next h

theorem Keeps.deadWords {c va n} (h : Keeps s₀ s) : Keeps s₀ (s.deadWords c va n).2 := by
  induction n generalizing s va with
  | zero => exact h
  | succ n ih =>
    unfold State.deadWords
    split
    · rename_i e
      exact h.deviceFind.of_eq e
    · rename_i e
      have hg := (h.deviceFind.of_eq e).deviceGet (c := c) (va := va)
      split
      · rename_i e
        exact hg.of_eq e
      · rename_i e
        have hr := ih (va := va + 8) (hg.of_eq e)
        split <;> rename_i e' <;> exact hr.of_eq e'

theorem Keeps.deadHeader {c va} (h : Keeps s₀ s) : Keeps s₀ (s.deadHeader c va).2 := by
  unfold State.deadHeader
  split
  · exact h
  · exact h.deadWords

theorem Keeps.deadMove {c m report} (h : Keeps s₀ s) : Keeps s₀ (s.deadMove c m report).2 := by
  unfold State.deadMove
  dsimp only
  split
  · rename_i e
    exact h.deadHeader.of_eq e
  · rename_i e
    split
    · exact (h.deadHeader.of_eq e).devicePutWord
    · split
      · exact (h.deadHeader.of_eq e).devicePutWord.devicePutWord
      · split
        · rename_i e1
          exact ((h.deadHeader.of_eq e).devicePutWord.devicePutWords.of_eq e1).devicePutWord
        · rename_i e1
          split
          · rename_i e2
            exact (((h.deadHeader.of_eq e).devicePutWord.devicePutWords.of_eq e1).devicePutWord.of_eq
              e2).devicePutWord
          · rename_i e2
            exact ((h.deadHeader.of_eq e).devicePutWord.devicePutWords.of_eq e1).devicePutWord.of_eq e2

theorem Keeps.faultKernel {c} (h : Keeps s₀ s) : Keeps s₀ (s.faultKernel c) :=
  h.ite (h.modBank.foldl fun _ h1 => h1.post)

theorem Keeps.orphan {c i} (h : Keeps s₀ s) : Keeps s₀ (s.orphan c i) := by
  unfold State.orphan
  dsimp only
  split
  · exact h.modCluster.frame
  · exact h.modCore
  · exact h

theorem Keeps.execBudgetExpiry {core ctx} (h : Keeps s₀ s) : Out.Keeps s₀ (execBudgetExpiry core ctx s) := by
  unfold Machine.execBudgetExpiry
  dsimp only
  split
  · exact .next h
  · exact .ite (.next h)
      (h.hartEvent (fun h1 =>
      .ite (.next h1.orphan.modCore.record.endTask.faultKernel.reportTrap)
      (.next h1.orphan.modCore.putCtx.deadMove.record.endTask.reportTrap)))

theorem Keeps.execFaultNotice {core vd} (h : Keeps s₀ s) : Out.Keeps s₀ (execFaultNotice core vd s) := by
  unfold Machine.execFaultNotice
  dsimp only
  split
  · exact .next h
  · exact .next h.frame.modCore

theorem Keeps.takeSvc {c op m} (h : Keeps s₀ s) (e : s.takeSvc c op = some (m, t)) : Keeps s₀ t := by
  unfold State.takeSvc at e
  split at e
  · split at e
    · cases e; exact h.modCore
    · cases e
  · cases e

theorem Keeps.spoilSave {c} (h : Keeps s₀ s) : Keeps s₀ (s.spoilSave c) := h.modCore

theorem Keeps.execResume {core} (h : Keeps s₀ s) : Out.Keeps s₀ (execResume core s) := by
  unfold Machine.execResume
  dsimp only
  split
  · exact .next h
  · rename_i e
    refine .ite (.next (h.takeSvc e)) ?_
    split
    · exact .ite (.next (h.takeSvc e).modCtx.spoilSave) (.next (h.takeSvc e))
    · exact .ite (.next (h.takeSvc e).setJob.spoilSave) (.next (h.takeSvc e))
    · exact .next (h.takeSvc e)

theorem Keeps.execKill {core} (h : Keeps s₀ s) : Out.Keeps s₀ (execKill core s) := by
  unfold Machine.execKill
  dsimp only
  split
  · exact .next h
  · rename_i e
    refine .ite (.next (h.takeSvc e)) ?_
    split
    · exact .ite (.next (h.takeSvc e).modCore.endTask.spoilSave) (.next (h.takeSvc e))
    · exact .ite (h.hartEvent (fun h1 => .next h1.modCore.unreserve.endJob.spoilSave)) (.next (h.takeSvc e))
    · exact .next (h.takeSvc e)

/-! ### What groups do beside their instructions: rounds, blocks, the placer and the launch mapper -/

theorem Keeps.putBlock {b} (h : Keeps s₀ s) : Keeps s₀ (s.putBlock b) := h.frame

theorem Keeps.setArr {c v block waits} (h : Keeps s₀ s) : Keeps s₀ (s.setArr c v block waits) := by
  unfold State.setArr
  exact h.modCore (fun _ => by simp)

theorem Keeps.arrive {c i block op pl rd} (h : Keeps s₀ s) : Keeps s₀ (s.arrive c i block op pl rd) := by
  unfold State.arrive
  dsimp only
  split
  · split
    · exact h.setArr
    · exact h.setArr.putBlock
  · exact h.setArr.modCluster

theorem Keeps.startRelease {v clusters rect as} (h : Keeps s₀ s) : Keeps s₀ (s.startRelease v clusters rect as) :=
  h.frame

theorem Keeps.testCluster {k v} (h : Keeps s₀ s) : Keeps s₀ (s.testCluster k v) :=
  h.modCluster.foldl fun _ h1 => h1.startRelease

theorem Keeps.testBlock {b} (h : Keeps s₀ s) : Keeps s₀ (s.testBlock b) := h.putBlock.foldl fun _ h1 => h1.startRelease

theorem Keeps.testRounds {k} (h : Keeps s₀ s) : Keeps s₀ (s.testRounds k) :=
  (h.foldl fun _ h1 => h1.testCluster).foldl fun _ h1 => h1.testBlock

theorem Keeps.releaseOne {x a result} (h : Keeps s₀ s) : Keeps s₀ (s.releaseOne x a result) := by
  unfold State.releaseOne
  dsimp only
  split
  · exact (h.modCore (fun _ => by simp)).setArr
  · exact (h.modCore (fun _ => by simp)).setArr.complete

theorem Keeps.release {x} (h : Keeps s₀ s) : Keeps s₀ (s.release x) := by
  unfold State.release
  dsimp only
  refine ((h.foldl fun _ h1 => ?_).foldl fun _ h1 => h1.acquire.ite h1).foldl fun _ h1 => h1.releaseOne
  split
  · exact h1.perform
  · exact h1

theorem Keeps.execBarrierRelease {cluster block} (h : Keeps s₀ s) :
    Out.Keeps s₀ (execBarrierRelease cluster block s) := by
  unfold Machine.execBarrierRelease
  dsimp only
  split
  · exact .next h.frame.release
  · exact .next h

theorem Keeps.vdWord {q va} (h : Keeps s₀ s) : Keeps s₀ (s.vdWord q va).2 := by
  unfold State.vdWord
  split
  · rename_i e
    exact h.vdGet.of_eq e
  · rename_i e
    exact h.vdGet.of_eq e

theorem Keeps.vdAdd {q va x} (h : Keeps s₀ s) : Keeps s₀ (s.vdAdd q va x) := by
  unfold State.vdAdd
  dsimp only
  exact h.vdWord.vdPut

theorem Keeps.countBlock {b abend} (h : Keeps s₀ s) : Keeps s₀ (s.countBlock b abend) := by
  unfold State.countBlock
  dsimp only
  exact (h.vdAdd.ite h).vdWord.vdPut.ite
    ((h.vdAdd.ite h).vdWord.vdPut.vdPut.ite (h.vdAdd.ite h).vdWord.vdPut.vdPut.vdAdd)

theorem Keeps.completeBlock {b abend} (h : Keeps s₀ s) : Keeps s₀ (s.completeBlock b abend) :=
  ((h.testBlock.frame.foldl fun _ h1 => h1.modCore (fun _ => by simp)).foldl fun _ h1 =>
    h1.perform).countBlock.modVd.foldl fun _ h1 => h1.testRounds

theorem Keeps.checkBlock {v k abend} (h : Keeps s₀ s) : Keeps s₀ (s.checkBlock v k abend) := by
  unfold State.checkBlock
  split
  · exact h
  · exact h.completeBlock.ite h

theorem Keeps.enqueue {c j} (h : Keeps s₀ s) : Keeps s₀ (s.enqueue c j).2 := by
  unfold State.enqueue
  dsimp only
  split
  · rename_i e
    exact h.deviceGetWords.of_eq e
  · rename_i e
    split
    · exact h.deviceGetWords.of_eq e
    · split
      · rename_i e1
        exact (h.deviceGetWords.of_eq e).devicePutWords.of_eq e1
      · rename_i e1
        split
        · rename_i e2
          exact ((h.deviceGetWords.of_eq e).devicePutWords.of_eq e1).devicePutWords.of_eq e2
        · rename_i e2
          split
          · rename_i e3
            exact (((h.deviceGetWords.of_eq e).devicePutWords.of_eq e1).devicePutWords.of_eq e2).devicePutWord.of_eq
              e3
          · rename_i e3
            exact (((h.deviceGetWords.of_eq e).devicePutWords.of_eq e1).devicePutWords.of_eq e2).devicePutWord.of_eq
              e3

theorem Keeps.execGspawnEnqueue {core slot} (h : Keeps s₀ s) : Out.Keeps s₀ (execGspawnEnqueue core slot s) := by
  unfold Machine.execGspawnEnqueue
  dsimp only
  refine .ite (.next h) (h.hartEvent (fun h1 => ?_))
  split
  · rename_i e
    exact .next (h1.enqueue.of_eq e).faultJob
  · rename_i e
    exact .next (h1.enqueue.of_eq e).endJob
  · rename_i e
    exact .next (h1.enqueue.of_eq e).faultJob

theorem Keeps.placeBlock {b entry args} (h : Keeps s₀ s) : Keeps s₀ (s.placeBlock b entry args) :=
  ((h.frame.foldl fun _ h1 => h1.modCore (fun _ => by simp)).foldl fun _ h1 => h1.testRounds).foldl fun _ h1 =>
    h1.post

theorem Keeps.nextBlock {v sid e d kb} (h : Keeps s₀ s) : Keeps s₀ (s.nextBlock v sid e d kb).2 := by
  unfold State.nextBlock
  dsimp only
  split
  · rename_i e1
    exact h.vdGetWords.of_eq e1
  · rename_i e1
    split
    · exact h.vdGetWords.of_eq e1
    · split
      · exact (h.vdGetWords.of_eq e1).vdWord
      · exact (h.vdGetWords.of_eq e1).vdWord

theorem Keeps.headBatch {v q} (h : Keeps s₀ s) : Keeps s₀ (s.headBatch v q).2 := by
  unfold State.headBatch
  dsimp only
  split
  · exact h
  · split
    · rename_i e
      exact h.vdGetWords.of_eq e
    · rename_i e
      split
      · exact h.vdGetWords.of_eq e
      · split
        · rename_i e1
          exact (h.vdGetWords.of_eq e).vdGetWords.of_eq e1
        · rename_i e1
          split
          · exact (h.vdGetWords.of_eq e).vdGetWords.of_eq e1
          · exact ((h.vdGetWords.of_eq e).vdGetWords.of_eq e1).nextBlock

theorem Keeps.raiseTake {v q} (h : Keeps s₀ s) : Keeps s₀ (s.raiseTake v q) := by
  unfold State.raiseTake
  split
  · exact h
  · exact h.vdAdd

theorem Keeps.serveSlots {v xs} (h : Keeps s₀ s) : Keeps s₀ (s.serveSlots v xs).2 := by
  induction xs generalizing s with
  | nil => exact h
  | cons x xs ih =>
    unfold State.serveSlots
    split
    · rename_i e
      exact ih (h.headBatch.of_eq e)
    · rename_i e
      exact h.headBatch.of_eq e

theorem Keeps.serve {v} (h : Keeps s₀ s) : Keeps s₀ (s.serve v) := by
  unfold State.serve
  dsimp only
  split
  · exact h
  · split
    · rename_i e
      exact (h.serveSlots.of_eq e).modVd
    · rename_i e
      have ht := h.serveSlots.of_eq e
      split
      · exact ht.modVd
      · exact ht.modVd.raiseTake.deviceReport
      · exact .ite (.raiseTake (.ite ht.modVd.placeBlock.vdPut.vdPut ht.modVd.placeBlock.vdPut))
          (.ite ht.modVd.placeBlock.vdPut.vdPut ht.modVd.placeBlock.vdPut)

theorem Keeps.execBlockPlace {vd} (h : Keeps s₀ s) : Out.Keeps s₀ (execBlockPlace vd s) := .next h.serve

theorem Keeps.serveAll {v n} (h : Keeps s₀ s) : Keeps s₀ (s.serveAll v n) := by
  induction n generalizing s with
  | zero => exact h
  | succ n ih => exact .ite (ih h.serve) h

theorem Keeps.hasWork {a b q} (h : Keeps s₀ s) : Keeps s₀ (s.hasWork a b q).2 := by
  unfold State.hasWork
  dsimp only
  exact h.vdWord.vdWord

theorem Keeps.queuesWithWork {v} (h : Keeps s₀ s) : Keeps s₀ (s.queuesWithWork v).2 := by
  unfold State.queuesWithWork
  split
  · exact h
  · exact h.foldrPair fun _ _ h => h.hasWork

theorem Keeps.mapLaunch {place v} (h : Keeps s₀ s) : Keeps s₀ (s.mapLaunch place v) := by
  unfold State.mapLaunch
  dsimp only
  exact h.queuesWithWork.modVd

/-! ### Pre-emption: STOP, the save record, START and CONTINUE -/

theorem Keeps.placeEntry {c old e} (h : Keeps s₀ s) : Keeps s₀ (s.placeEntry c old e).2 := by
  unfold State.placeEntry
  split
  · exact h
  · split
    · exact h
    · split
      · exact h
      · split
        · rename_i e1
          exact h.find.of_eq e1
        · rename_i e1
          exact h.find.of_eq e1

theorem Keeps.entriesOf {c ws xs} (h : Keeps s₀ s) : Keeps s₀ (s.entriesOf c ws xs).2 := by
  induction xs generalizing s with
  | nil => exact h
  | cons x xs ih =>
    unfold State.entriesOf
    split
    · rename_i e
      exact h.placeEntry.of_eq e
    · rename_i e
      have hr := ih (h.placeEntry.of_eq e)
      dsimp only
      split <;> rename_i e' <;> exact hr.of_eq e'

theorem Keeps.unstop {c} (h : Keeps s₀ s) : Keeps s₀ (s.unstop c) := h.modCore

theorem Keeps.startSaved {c} (h : Keeps s₀ s) : Keeps s₀ (s.startSaved c) := by
  unfold State.startSaved
  dsimp only
  split
  · exact h.unstop
  · split
    · exact h.modCore.unstop
    · split
      · rename_i e
        exact (h.deviceGetWords.of_eq e).deviceReport
      · rename_i e
        split
        · exact (h.deviceGetWords.of_eq e).deviceReport
        · split
          · rename_i e1
            exact ((h.deviceGetWords.of_eq e).entriesOf.of_eq e1).deviceReport
          · rename_i e1
            exact ((h.deviceGetWords.of_eq e).entriesOf.of_eq e1).putCore.unstop

theorem Keeps.swapCopy {c} (h : Keeps s₀ s) : Keeps s₀ (s.swapCopy c) := h.modCore

theorem Keeps.startCore {v c} (h : Keeps s₀ s) : Keeps s₀ (s.startCore v c) :=
  (h.startSaved.ite h).ite ((h.swapCopy.startSaved.ite (h.ite h.stopCore)).ite h)

theorem Keeps.putRecord {c base off xs} (h : Keeps s₀ s) : Keeps s₀ (s.putRecord c base off xs).2 := by
  induction xs generalizing s off with
  | nil => exact h
  | cons x xs ih =>
    unfold State.putRecord
    split
    · rename_i e
      exact h.devicePutWord.of_eq e
    · rename_i e
      exact ih (h.devicePutWord.of_eq e)

theorem Keeps.saveDone {c} (h : Keeps s₀ s) : Keeps s₀ (s.saveDone c) := by
  unfold State.saveDone
  dsimp only
  split
  · exact h
  · exact h.draw.post

theorem Keeps.finishSave {c kept} (h : Keeps s₀ s) : Keeps s₀ (s.finishSave c kept) :=
  (h.saveDone.putCore.startSaved.ite h.saveDone.putCore).ite
    (h.saveDone.putCore.swapCopy.startSaved.ite h.saveDone.putCore)

theorem Keeps.saveFrom {c off} (h : Keeps s₀ s) : Keeps s₀ (s.saveFrom c off) := by
  unfold State.saveFrom
  dsimp only
  split
  · rename_i e
    exact (h.putRecord.of_eq e).finishSave
  · rename_i e
    exact (h.putRecord.of_eq e).devicePutWords.modCore.deviceReport

theorem Keeps.execSaveRecordWrite {core} (h : Keeps s₀ s) : Out.Keeps s₀ (execSaveRecordWrite core s) :=
  .ite (.next h) (h.hartEvent (fun h1 => .ite (.next h1.finishSave) (.next h1.saveFrom)))

theorem Keeps.execStop {core} (h : Keeps s₀ s) : Out.Keeps s₀ (execStop core s) := by
  unfold Machine.execStop
  split
  · exact .next h
  · rename_i e
    exact .next (h.takeSvc e).stopCore

theorem Keeps.execStart {core} (h : Keeps s₀ s) : Out.Keeps s₀ (execStart core s) := by
  unfold Machine.execStart
  dsimp only
  split
  · exact .next h
  · rename_i e
    exact .ite (.next (h.takeSvc e).startSaved) (.next (h.takeSvc e))

theorem Keeps.execContinueSave {core} (h : Keeps s₀ s) : Out.Keeps s₀ (execContinueSave core s) := by
  unfold Machine.execContinueSave
  refine .ite (.next h) (h.hartEvent (fun h1 => ?_))
  split
  · exact .next h1
  · rename_i e
    split
    · exact .next (h1.takeSvc e)
    · exact .next (h1.takeSvc e).modCore.saveFrom

theorem Keeps.modPriv {q : Priv} (h : Keeps s₀ s) (hq : q.cprv = s.me.priv.cprv := by rfl) :
    Keeps s₀ (s.modMe fun y => { y with priv := q }) :=
  h.putCore hq

theorem toNat_and_lt (x : Word) {m : Word} {b : Nat} (hm : m.toNat < b) : (x &&& m).toNat < b :=
  BitVec.toNat_and x m ▸ Nat.and_le_right.trans_lt hm

/-! ### Major 0x0C: control registers -/

/-- A write of HRPT or MODW keeps its reserved bits at zero, by the register's mask. -/
theorem Keeps.privWrite {n x} (h : Keeps s₀ s) : Keeps s₀ (s.privWrite n (x &&& crMask n)) := by
  unfold State.privWrite
  dsimp only
  split
  · exact h.modPriv
  · exact h.modPriv
  · exact h.modPriv
  · exact h.clearIpend
  · exact h.modPriv
  · exact h.modVd
  · exact h.modVd
  · exact h.modVd
  · exact h.modVd
  · refine ⟨h.memory, fun h1 => ?_⟩
    obtain ⟨hl, hlen, hlen', hnext, hnext', hper, hpern, _, hmodw⟩ := h.ranges h1
    exact ⟨hl, hlen, hlen', hnext, hnext', hper, hpern, toNat_and_lt x (by decide), hmodw⟩
  · exact h.modPriv
  · exact h.writeClown
  · exact h.modCluster
  · exact h.modVd
  · exact h.modPriv
  · exact h.writeIctl
  · exact h.modVd
  · exact h.modPriv
  · exact h.ite h.writePctb
  · exact h.writePqcmd
  · exact h.modPriv
  · exact h.writeRset
  · exact h.modPriv
  · exact h.writeLctl
  · refine ⟨h.memory, fun h1 => ?_⟩
    obtain ⟨hl, hlen, hlen', hnext, hnext', hper, hpern, hhrpt, _⟩ := h.ranges h1
    exact ⟨hl, hlen, hlen', hnext, hnext', hper, hpern, hhrpt, toNat_and_lt x (by decide)⟩
  · exact h.modVd
  · exact h

theorem Keeps.crWrite {n x} (h : Keeps s₀ s) : Keeps s₀ (s.crWrite n x) := by
  unfold State.crWrite
  dsimp only
  split
  · exact h.ite h.addPend
  · exact h.privWrite.ite h.setCr

theorem Keeps.advanceCycOf {c} (h : Keeps s₀ s) : Keeps s₀ (s.advanceCycOf c) := h.modIsland
theorem Keeps.advanceCyc (h : Keeps s₀ s) : Keeps s₀ s.advanceCyc := h.advanceCycOf

theorem Keeps.crOp {rd cr enc f} (h : Keeps s₀ s) : Out.Keeps s₀ (crOp s rd cr enc f) := by
  unfold Machine.crOp
  dsimp only
  split
  · exact h.trapOut
  · exact .ite (h.advanceCyc.ite h).trapOut
      ((h.advanceCyc.ite h).conclude (.ok (h.advanceCyc.ite h).crWrite.setG.advance))

theorem Keeps.execCrr {rd cr} (h : Keeps s₀ s) : Out.Keeps s₀ (execCrr rd cr s) := by
  unfold Machine.execCrr
  dsimp only
  split
  · exact h.trapOut
  · exact (h.advanceCyc.ite h).writeG

theorem Keeps.execCrw {rd cr rs1} (h : Keeps s₀ s) : Out.Keeps s₀ (execCrw rd cr rs1 s) := h.crOp
theorem Keeps.execCrset {rd cr rs1} (h : Keeps s₀ s) : Out.Keeps s₀ (execCrset rd cr rs1 s) := h.crOp
theorem Keeps.execCrclr {rd cr rs1} (h : Keeps s₀ s) : Out.Keeps s₀ (execCrclr rd cr rs1 s) := h.crOp

/-! ### Majors 0x14 to 0x18: vectors -/

theorem Keeps.writeV {vd r} (h : Keeps s₀ s) : Out.Keeps s₀ (writeV s vd r) := .next h.setV.flag.advance
theorem Keeps.arithOp {func et vd vs2 b k} (h : Keeps s₀ s) : Out.Keeps s₀ (arithOp s func et vd vs2 b k) := h.writeV

theorem Keeps.cmpOp {func et kd vs2 b k} (h : Keeps s₀ s) : Out.Keeps s₀ (cmpOp s func et kd vs2 b k) :=
  .next h.setK.flag.advance

theorem Keeps.selOp {et vd vs2 b k} (h : Keeps s₀ s) : Out.Keeps s₀ (selOp s et vd vs2 b k) := h.writeV
theorem Keeps.execVadd {et vd vs2 vs1 k} (h : Keeps s₀ s) : Out.Keeps s₀ (execVadd et vd vs2 vs1 k s) := h.arithOp
theorem Keeps.execVsub {et vd vs2 vs1 k} (h : Keeps s₀ s) : Out.Keeps s₀ (execVsub et vd vs2 vs1 k s) := h.arithOp
theorem Keeps.execVmul {et vd vs2 vs1 k} (h : Keeps s₀ s) : Out.Keeps s₀ (execVmul et vd vs2 vs1 k s) := h.arithOp
theorem Keeps.execVfma {et vd vs2 vs1 k} (h : Keeps s₀ s) : Out.Keeps s₀ (execVfma et vd vs2 vs1 k s) := h.arithOp
theorem Keeps.execVmin {et vd vs2 vs1 k} (h : Keeps s₀ s) : Out.Keeps s₀ (execVmin et vd vs2 vs1 k s) := h.arithOp
theorem Keeps.execVmax {et vd vs2 vs1 k} (h : Keeps s₀ s) : Out.Keeps s₀ (execVmax et vd vs2 vs1 k s) := h.arithOp
theorem Keeps.execVand {et vd vs2 vs1 k} (h : Keeps s₀ s) : Out.Keeps s₀ (execVand et vd vs2 vs1 k s) := h.arithOp
theorem Keeps.execVor {et vd vs2 vs1 k} (h : Keeps s₀ s) : Out.Keeps s₀ (execVor et vd vs2 vs1 k s) := h.arithOp
theorem Keeps.execVxor {et vd vs2 vs1 k} (h : Keeps s₀ s) : Out.Keeps s₀ (execVxor et vd vs2 vs1 k s) := h.arithOp
theorem Keeps.execVshl {et vd vs2 vs1 k} (h : Keeps s₀ s) : Out.Keeps s₀ (execVshl et vd vs2 vs1 k s) := h.arithOp
theorem Keeps.execVshr {et vd vs2 vs1 k} (h : Keeps s₀ s) : Out.Keeps s₀ (execVshr et vd vs2 vs1 k s) := h.arithOp
theorem Keeps.execVsra {et vd vs2 vs1 k} (h : Keeps s₀ s) : Out.Keeps s₀ (execVsra et vd vs2 vs1 k s) := h.arithOp
theorem Keeps.execVdiv {et vd vs2 vs1 k} (h : Keeps s₀ s) : Out.Keeps s₀ (execVdiv et vd vs2 vs1 k s) := h.arithOp
theorem Keeps.execVmulh {et vd vs2 vs1 k} (h : Keeps s₀ s) : Out.Keeps s₀ (execVmulh et vd vs2 vs1 k s) := h.arithOp
theorem Keeps.execVminu {et vd vs2 vs1 k} (h : Keeps s₀ s) : Out.Keeps s₀ (execVminu et vd vs2 vs1 k s) := h.arithOp
theorem Keeps.execVmaxu {et vd vs2 vs1 k} (h : Keeps s₀ s) : Out.Keeps s₀ (execVmaxu et vd vs2 vs1 k s) := h.arithOp
theorem Keeps.execVabs {et vd vs2 k} (h : Keeps s₀ s) : Out.Keeps s₀ (execVabs et vd vs2 k s) := h.arithOp
theorem Keeps.execVneg {et vd vs2 k} (h : Keeps s₀ s) : Out.Keeps s₀ (execVneg et vd vs2 k s) := h.arithOp
theorem Keeps.execVcmpeq {et kd vs2 vs1 k} (h : Keeps s₀ s) : Out.Keeps s₀ (execVcmpeq et kd vs2 vs1 k s) := h.cmpOp
theorem Keeps.execVcmplt {et kd vs2 vs1 k} (h : Keeps s₀ s) : Out.Keeps s₀ (execVcmplt et kd vs2 vs1 k s) := h.cmpOp
theorem Keeps.execVcmple {et kd vs2 vs1 k} (h : Keeps s₀ s) : Out.Keeps s₀ (execVcmple et kd vs2 vs1 k s) := h.cmpOp
theorem Keeps.execVcmpltu {et kd vs2 vs1 k} (h : Keeps s₀ s) : Out.Keeps s₀ (execVcmpltu et kd vs2 vs1 k s) := h.cmpOp
theorem Keeps.execVsel {et vd vs2 vs1 k} (h : Keeps s₀ s) : Out.Keeps s₀ (execVsel et vd vs2 vs1 k s) := h.selOp
theorem Keeps.execVaddVx {et vd vs2 gs k} (h : Keeps s₀ s) : Out.Keeps s₀ (execVaddVx et vd vs2 gs k s) := h.arithOp
theorem Keeps.execVsubVx {et vd vs2 gs k} (h : Keeps s₀ s) : Out.Keeps s₀ (execVsubVx et vd vs2 gs k s) := h.arithOp
theorem Keeps.execVmulVx {et vd vs2 gs k} (h : Keeps s₀ s) : Out.Keeps s₀ (execVmulVx et vd vs2 gs k s) := h.arithOp
theorem Keeps.execVfmaVx {et vd vs2 gs k} (h : Keeps s₀ s) : Out.Keeps s₀ (execVfmaVx et vd vs2 gs k s) := h.arithOp
theorem Keeps.execVminVx {et vd vs2 gs k} (h : Keeps s₀ s) : Out.Keeps s₀ (execVminVx et vd vs2 gs k s) := h.arithOp
theorem Keeps.execVmaxVx {et vd vs2 gs k} (h : Keeps s₀ s) : Out.Keeps s₀ (execVmaxVx et vd vs2 gs k s) := h.arithOp
theorem Keeps.execVandVx {et vd vs2 gs k} (h : Keeps s₀ s) : Out.Keeps s₀ (execVandVx et vd vs2 gs k s) := h.arithOp
theorem Keeps.execVorVx {et vd vs2 gs k} (h : Keeps s₀ s) : Out.Keeps s₀ (execVorVx et vd vs2 gs k s) := h.arithOp
theorem Keeps.execVxorVx {et vd vs2 gs k} (h : Keeps s₀ s) : Out.Keeps s₀ (execVxorVx et vd vs2 gs k s) := h.arithOp
theorem Keeps.execVshlVx {et vd vs2 gs k} (h : Keeps s₀ s) : Out.Keeps s₀ (execVshlVx et vd vs2 gs k s) := h.arithOp
theorem Keeps.execVshrVx {et vd vs2 gs k} (h : Keeps s₀ s) : Out.Keeps s₀ (execVshrVx et vd vs2 gs k s) := h.arithOp
theorem Keeps.execVsraVx {et vd vs2 gs k} (h : Keeps s₀ s) : Out.Keeps s₀ (execVsraVx et vd vs2 gs k s) := h.arithOp
theorem Keeps.execVdivVx {et vd vs2 gs k} (h : Keeps s₀ s) : Out.Keeps s₀ (execVdivVx et vd vs2 gs k s) := h.arithOp
theorem Keeps.execVmulhVx {et vd vs2 gs k} (h : Keeps s₀ s) : Out.Keeps s₀ (execVmulhVx et vd vs2 gs k s) := h.arithOp
theorem Keeps.execVminuVx {et vd vs2 gs k} (h : Keeps s₀ s) : Out.Keeps s₀ (execVminuVx et vd vs2 gs k s) := h.arithOp
theorem Keeps.execVmaxuVx {et vd vs2 gs k} (h : Keeps s₀ s) : Out.Keeps s₀ (execVmaxuVx et vd vs2 gs k s) := h.arithOp
theorem Keeps.execVcmpeqVx {et kd vs2 gs k} (h : Keeps s₀ s) : Out.Keeps s₀ (execVcmpeqVx et kd vs2 gs k s) := h.cmpOp
theorem Keeps.execVcmpltVx {et kd vs2 gs k} (h : Keeps s₀ s) : Out.Keeps s₀ (execVcmpltVx et kd vs2 gs k s) := h.cmpOp
theorem Keeps.execVcmpleVx {et kd vs2 gs k} (h : Keeps s₀ s) : Out.Keeps s₀ (execVcmpleVx et kd vs2 gs k s) := h.cmpOp
theorem Keeps.execVcmpltuVx {et kd vs2 gs k} (h : Keeps s₀ s) : Out.Keeps s₀ (execVcmpltuVx et kd vs2 gs k s) := h.cmpOp
theorem Keeps.execVselVx {et vd vs2 gs k} (h : Keeps s₀ s) : Out.Keeps s₀ (execVselVx et vd vs2 gs k s) := h.selOp

theorem Keeps.execVext {et gd vs2 k} (h : Keeps s₀ s) : Out.Keeps s₀ (execVext et gd vs2 k s) := by
  unfold Machine.execVext
  dsimp only
  split
  · exact h.writeG
  · exact h.writeG

theorem Keeps.loadElems {n es} (h : Keeps s₀ s) : (s.loadElems n es).All fun a => Keeps s₀ a.2 := by
  induction es generalizing s with
  | nil => exact .ok h
  | cons x es ih => exact .bind h.load fun _ h => .bind (ih h) fun _ h => .ok h

theorem Keeps.vloadOp {et vd k addr} (h : Keeps s₀ s) : Out.Keeps s₀ (vloadOp s et vd k addr) :=
  h.conclude (.bind h.loadElems fun _ h1 => .ok h1.setV.advance)

theorem Keeps.findElems {n x es} (h : Keeps s₀ s) : (s.findElems n x es).All fun a => Keeps s₀ a.2 := by
  induction es generalizing s with
  | nil => exact .ok h
  | cons e es ih => exact .bind h.storeFind fun _ h => .bind (ih h) fun _ h => .ok h

theorem Keeps.writeElems {es} (h : Keeps s₀ s) : (s.writeElems es).All (Keeps s₀) := by
  induction es generalizing s with
  | nil => exact .ok h
  | cons x es ih => exact .bind h.writePlace fun _ h => ih h

theorem Keeps.vstoreOp {n x es} (h : Keeps s₀ s) : Out.Keeps s₀ (vstoreOp s n x es) :=
  h.conclude (.bind h.findElems fun _ h1 => .ite .wait (.bind h1.writeElems fun _ h2 => .ok h2.advance))

theorem Keeps.execVld {et vd gs1 k} (h : Keeps s₀ s) : Out.Keeps s₀ (execVld et vd gs1 k s) := .ite h.trapOut h.vloadOp
theorem Keeps.execVst {et vd gs1 k} (h : Keeps s₀ s) : Out.Keeps s₀ (execVst et vd gs1 k s) := .ite h.trapOut h.vstoreOp
theorem Keeps.execVlds {et vd gs1 gs2 k} (h : Keeps s₀ s) : Out.Keeps s₀ (execVlds et vd gs1 gs2 k s) := h.vloadOp
theorem Keeps.execVsts {et vd gs1 gs2 k} (h : Keeps s₀ s) : Out.Keeps s₀ (execVsts et vd gs1 gs2 k s) := h.vstoreOp
theorem Keeps.execVgath {et vd gs1 vi k} (h : Keeps s₀ s) : Out.Keeps s₀ (execVgath et vd gs1 vi k s) := h.vloadOp
theorem Keeps.execVscat {et vd gs1 vi k} (h : Keeps s₀ s) : Out.Keeps s₀ (execVscat et vd gs1 vi k s) := h.vstoreOp

theorem Keeps.execVldb {et vd gs1 k} (h : Keeps s₀ s) : Out.Keeps s₀ (execVldb et vd gs1 k s) := by
  unfold Machine.execVldb
  dsimp only
  split
  · exact .next h.advance
  · exact h.conclude (.bind h.load fun _ h1 => .ok h1.setV.advance)

theorem Keeps.execVldk {kd gs1} (h : Keeps s₀ s) : Out.Keeps s₀ (execVldk kd gs1 s) :=
  h.conclude (.bind h.load fun _ h1 => .ok h1.setK.advance)

theorem Keeps.execVstk {kd gs1} (h : Keeps s₀ s) : Out.Keeps s₀ (execVstk kd gs1 s) := h.vstoreOp
theorem Keeps.permOp {et vd k f} (h : Keeps s₀ s) : Out.Keeps s₀ (permOp s et vd k f) := h.writeV
theorem Keeps.execVpermb {vd vs2 vs1 k} (h : Keeps s₀ s) : Out.Keeps s₀ (execVpermb vd vs2 vs1 k s) := h.permOp
theorem Keeps.execVbcst {et vd vs2 k} (h : Keeps s₀ s) : Out.Keeps s₀ (execVbcst et vd vs2 k s) := h.permOp
theorem Keeps.execViota {et vd k} (h : Keeps s₀ s) : Out.Keeps s₀ (execViota et vd k s) := h.writeV
theorem Keeps.execVcompr {et vd vs2 k} (h : Keeps s₀ s) : Out.Keeps s₀ (execVcompr et vd vs2 k s) := h.writeV
theorem Keeps.execVexpnd {et vd vs2 k} (h : Keeps s₀ s) : Out.Keeps s₀ (execVexpnd et vd vs2 k s) := h.permOp
theorem Keeps.execVslide {et vd vs2 vs1 k} (h : Keeps s₀ s) : Out.Keeps s₀ (execVslide et vd vs2 vs1 k s) := h.permOp
theorem Keeps.execVins {et vd vs2 vs1} (h : Keeps s₀ s) : Out.Keeps s₀ (execVins et vd vs2 vs1 s) := h.writeV
theorem Keeps.execVzip {et vd vs2 vs1 k} (h : Keeps s₀ s) : Out.Keeps s₀ (execVzip et vd vs2 vs1 k s) := h.permOp
theorem Keeps.execVunzip {et vd vs2 vs1 k} (h : Keeps s₀ s) : Out.Keeps s₀ (execVunzip et vd vs2 vs1 k s) := h.permOp

theorem Keeps.execVrsum {et vd vs2 k} (h : Keeps s₀ s) : Out.Keeps s₀ (execVrsum et vd vs2 k s) :=
  .ite h.writeV h.writeV

theorem Keeps.extremeOp {isMax et vd vs2 k} (h : Keeps s₀ s) : Out.Keeps s₀ (extremeOp s isMax et vd vs2 k) :=
  .ite h.writeV h.writeV

theorem Keeps.execVrmax {et vd vs2 k} (h : Keeps s₀ s) : Out.Keeps s₀ (execVrmax et vd vs2 k s) := h.extremeOp
theorem Keeps.execVrmin {et vd vs2 k} (h : Keeps s₀ s) : Out.Keeps s₀ (execVrmin et vd vs2 k s) := h.extremeOp

theorem Keeps.execVrarg {et vd vs2 k} (h : Keeps s₀ s) : Out.Keeps s₀ (execVrarg et vd vs2 k s) := by
  unfold Machine.execVrarg
  dsimp only
  split
  · exact h.writeV
  · refine .ite h.writeV ?_
    split
    · exact h.writeV
    · exact h.writeV

theorem Keeps.execVrpopc {et vd vs2 k} (h : Keeps s₀ s) : Out.Keeps s₀ (execVrpopc et vd vs2 k s) := h.writeV

theorem Keeps.execVrowst {et vd vs2} (h : Keeps s₀ s) : Out.Keeps s₀ (execVrowst et vd vs2 s) :=
  .ite (.next h.setV.flag.advance) (h.conclude (.bind h.loadElems fun _ h1 => .ok h1.setV.flag.advance))

/-! ### Major 0x19: special functions -/

theorem Keeps.sfuOp {fn et vd vs2 k up} (h : Keeps s₀ s) : Out.Keeps s₀ (sfuOp s fn et vd vs2 k up) :=
  .ite (.next (h.touch.ite h).setV.advance) (.next (h.touch.ite h).setWait)

theorem Keeps.execVsfn {fn et vd vs2 k} (h : Keeps s₀ s) : Out.Keeps s₀ (execVsfn fn et vd vs2 k s) := h.sfuOp
theorem Keeps.execVgact {fn et vd vs2 vs1 k} (h : Keeps s₀ s) : Out.Keeps s₀ (execVgact fn et vd vs2 vs1 k s) := h.sfuOp

theorem Keeps.execVstbl {t vs2} (h : Keeps s₀ s) : Out.Keeps s₀ (execVstbl t vs2 s) :=
  h.conclude (.bindAny fun _ => .bindAny fun _ => .bind h.load fun _ _ => .bindAny fun _ =>
    .bind h.loadWords fun _ h1 => .ok (h1.touch.addPend.ite h1.touch.addPend).advance)

/-! ### Major 0x1A: conversions -/

theorem Keeps.execVcvt {et vd vs2 dt k} (h : Keeps s₀ s) : Out.Keeps s₀ (execVcvt et vd vs2 dt k s) := h.writeV
theorem Keeps.execVpack {et vd vs2 vs1 k} (h : Keeps s₀ s) : Out.Keeps s₀ (execVpack et vd vs2 vs1 k s) := h.writeV
theorem Keeps.execVdec {et vd vs2 q k} (h : Keeps s₀ s) : Out.Keeps s₀ (execVdec et vd vs2 q k s) := h.writeV

theorem Keeps.execVenc {et vd vs2 q k} (h : Keeps s₀ s) : Out.Keeps s₀ (execVenc et vd vs2 q k s) :=
  .ite h.trapOut h.writeV

theorem Keeps.execVnib {vd vs2 m k} (h : Keeps s₀ s) : Out.Keeps s₀ (execVnib vd vs2 m k s) := h.writeV
theorem Keeps.execVscl {et vd vs2 vs1 k} (h : Keeps s₀ s) : Out.Keeps s₀ (execVscl et vd vs2 vs1 k s) := h.writeV
theorem Keeps.execVrng {et vd vs2 k} (h : Keeps s₀ s) : Out.Keeps s₀ (execVrng et vd vs2 k s) := h.writeV

/-! ### Major 0x10: atomics -/

theorem Keeps.tellQueue {a new port q} (h : Keeps s₀ s) : Keeps s₀ (s.tellQueue a new port q) :=
  h.portRead.setQueue.ite h

theorem Keeps.tellPorts {a new} (h : Keeps s₀ s) : Keeps s₀ (s.tellPorts a new) :=
  h.portsSee.foldl fun _ h1 => h1.tellQueue

theorem Keeps.performAtomic {sharers a} (h : Keeps s₀ s) : OkAll (Keeps s₀ ·.2) (s.performAtomic sharers a) := by
  unfold State.performAtomic
  dsimp only
  split
  · exact .error
  · split
    · exact .okPair h.hartWrite
    · exact .okPair h.hartWrite
    · exact .okPair h.commitCells.performNow.tellPorts
    · exact .okPair h.commitCells.performNow.tellPorts

theorem Keeps.atomicIssue {op rd rs1 rs2} (h : Keeps s₀ s) : Out.Keeps s₀ (atomicIssue s op rd rs1 rs2) := by
  unfold Machine.atomicIssue
  refine h.conclude (.ite .trap ?_)
  split
  · exact .trap
  · rename_i e
    have hf := h.find.of_eq e
    dsimp only
    split
    · split
      · exact .trap
      · rename_i e'
        exact .ok (hf.noteUse.performAtomic _ e').setG.advance
    · exact .ite .trap hf.noteUse.enter

theorem Keeps.execAadd {rd rs1 rs2} (h : Keeps s₀ s) : Out.Keeps s₀ (execAadd rd rs1 rs2 s) := h.atomicIssue
theorem Keeps.execAand {rd rs1 rs2} (h : Keeps s₀ s) : Out.Keeps s₀ (execAand rd rs1 rs2 s) := h.atomicIssue
theorem Keeps.execAor {rd rs1 rs2} (h : Keeps s₀ s) : Out.Keeps s₀ (execAor rd rs1 rs2 s) := h.atomicIssue
theorem Keeps.execAxor {rd rs1 rs2} (h : Keeps s₀ s) : Out.Keeps s₀ (execAxor rd rs1 rs2 s) := h.atomicIssue
theorem Keeps.execAmax {rd rs1 rs2} (h : Keeps s₀ s) : Out.Keeps s₀ (execAmax rd rs1 rs2 s) := h.atomicIssue
theorem Keeps.execAmin {rd rs1 rs2} (h : Keeps s₀ s) : Out.Keeps s₀ (execAmin rd rs1 rs2 s) := h.atomicIssue
theorem Keeps.execAmaxu {rd rs1 rs2} (h : Keeps s₀ s) : Out.Keeps s₀ (execAmaxu rd rs1 rs2 s) := h.atomicIssue
theorem Keeps.execAminu {rd rs1 rs2} (h : Keeps s₀ s) : Out.Keeps s₀ (execAminu rd rs1 rs2 s) := h.atomicIssue
theorem Keeps.execAswp {rd rs1 rs2} (h : Keeps s₀ s) : Out.Keeps s₀ (execAswp rd rs1 rs2 s) := h.atomicIssue
theorem Keeps.execAcas {rd rs1 rs2} (h : Keeps s₀ s) : Out.Keeps s₀ (execAcas rd rs1 rs2 s) := h.atomicIssue
theorem Keeps.execAincw {rd rs1 rs2} (h : Keeps s₀ s) : Out.Keeps s₀ (execAincw rd rs1 rs2 s) := h.atomicIssue
theorem Keeps.execAbfa {rd rs1 rs2} (h : Keeps s₀ s) : Out.Keeps s₀ (execAbfa rd rs1 rs2 s) := h.atomicIssue
theorem Keeps.execAfadd {rd rs1 rs2} (h : Keeps s₀ s) : Out.Keeps s₀ (execAfadd rd rs1 rs2 s) := h.atomicIssue
theorem Keeps.execAfmax {rd rs1 rs2} (h : Keeps s₀ s) : Out.Keeps s₀ (execAfmax rd rs1 rs2 s) := h.atomicIssue
theorem Keeps.execAmxr {rd rs1 rs2} (h : Keeps s₀ s) : Out.Keeps s₀ (execAmxr rd rs1 rs2 s) := h.atomicIssue

/-! ### Revolutions -/

theorem Keeps.putRing {key g} (h : Keeps s₀ s) : Keeps s₀ (s.putRing key g) := h.frame

theorem Keeps.readMembers {c v r} (h : Keeps s₀ s) : Keeps s₀ (s.readMembers c v r).2 := by
  unfold State.readMembers
  dsimp only
  split
  · rename_i e
    exact h.deviceGetWordsAs.of_eq e
  · rename_i e
    exact h.deviceGetWordsAs.of_eq e

theorem Keeps.ringMembers {c v r g} (h : Keeps s₀ s) : Keeps s₀ (s.ringMembers c v r g).2 := by
  unfold State.ringMembers
  split
  · exact h.readMembers
  · exact h

theorem Keeps.answerRing {key g x} (h : Keeps s₀ s) : Keeps s₀ (s.answerRing key g x) := h.mapCores

theorem Keeps.ringNotices {key g tag word} (h : Keeps s₀ s) : Keeps s₀ (s.ringNotices key g tag word) :=
  h.foldl fun _ h1 => h1.post

theorem Keeps.ringMoved {key old new} (h : Keeps s₀ s) : Keeps s₀ (s.ringMoved key old new) := by
  unfold State.ringMoved
  dsimp only
  split
  · exact h.putRing.answerRing
  · exact h.putRing.answerRing.ringNotices
  · exact h.putRing.ringNotices
  · exact h.putRing

theorem Keeps.ringChange {key new} (h : Keeps s₀ s) : Keeps s₀ (s.ringChange key new) :=
  h.ite (h.ringMoved.foldl fun _ h1 => h1.post)

theorem Keeps.ringRequest {key ms fin n i} (h : Keeps s₀ s) : Keeps s₀ (s.ringRequest key ms fin n i).2 := by
  unfold State.ringRequest
  dsimp only
  split
  · exact h.ringChange
  · exact h.ringChange

theorem Keeps.revGo {c i fin r n rd} (h : Keeps s₀ s) : Keeps s₀ (s.revGo c i fin r n rd) := by
  unfold State.revGo
  dsimp only
  split
  · exact h.ringMembers.modCtx
  · split
    · exact h.ringMembers.modCtx.post
    · split
      · exact h.ringMembers.modCtx
      · split
        · rename_i e
          exact (h.ringMembers.modCtx.ringRequest.of_eq e).modCtx
        · rename_i e
          exact h.ringMembers.modCtx.ringRequest.of_eq e

/-! ### The commit of a chunk -/

theorem Keeps.readyEntry {c n} (h : Keeps s₀ s) : Keeps s₀ (s.readyEntry c n) := by
  unfold State.readyEntry
  exact h.modCore (fun _ => by simp)

theorem Keeps.applyPend {c i p} (h : Keeps s₀ s) : Keeps s₀ (s.applyPend c i p) := by
  unfold State.applyPend
  split
  · exact h.cancelJob
  · exact h
  · exact h
  · exact h.modCtx
  · exact h.modBank
  · exact h.modBank
  · exact h.modBank
  · exact h.modBank
  · exact h.modBank

theorem Keeps.sendAct {c i k a} (h : Keeps s₀ s) : Keeps s₀ (s.sendAct c i k a) := by
  unfold State.sendAct
  dsimp only
  split
  · exact ((h.modCore (fun _ => by simp)).modCtx.ite (h.modCore (fun _ => by simp))).readyEntry
  · exact h.ite (h.modCore (fun _ => by simp))
  · exact (h.modCore (fun _ => by simp)).ite h

theorem Keeps.releaseEntries {c i k} (h : Keeps s₀ s) : Keeps s₀ (s.releaseEntries c i k) :=
  h.foldl fun _ h1 => h1.sendAct

theorem Keeps.raiseDomain {k y} (h : Keeps s₀ s) : Keeps s₀ (s.raiseDomain k y) := by
  unfold State.raiseDomain
  dsimp only
  split
  · exact h
  · exact h.modCluster

theorem Keeps.commitChunk {c i} (h : Keeps s₀ s) : Keeps s₀ (s.commitChunk c i) := by
  unfold State.commitChunk
  dsimp only
  refine Keeps.modCtx (Keeps.releaseEntries (Keeps.foldl ?_ fun _ h => h.applyPend))
  exact h.couchAborts.commitCells.raiseDomain.modCtx

theorem Keeps.goOn {c i len} (h : Keeps s₀ s) : Keeps s₀ (s.goOn c i len) := h.modCtx
theorem Keeps.waitOn {c i w} (h : Keeps s₀ s) : Keeps s₀ (s.waitOn c i w) := h.modCtx

theorem Keeps.suspend {c i t resumeAt fpc} (h : Keeps s₀ s) : Keeps s₀ (s.suspend c i t resumeAt fpc) :=
  h.record.modCtx.reportTrap.trapCheck

theorem Keeps.retain {c i succ} (h : Keeps s₀ s) : Keeps s₀ (s.retain c i succ) := by
  unfold State.retain
  exact h.consume.modCore

theorem Keeps.queueJob {c slot} (h : Keeps s₀ s) : Keeps s₀ (s.queueJob c slot) := h.setJob.frame
theorem Keeps.askThread {c q} (h : Keeps s₀ s) : Keeps s₀ (s.askThread c q) := h.modCore (fun _ => by split <;> rfl)

theorem Keeps.afterCommit {c i a} (h : Keeps s₀ s) : Keeps s₀ (s.afterCommit c i a) := by
  unfold State.afterCommit
  dsimp only
  split
  · exact h.goOn
  · exact h.goOn
  · exact h.endTask
  · exact h.retain
  · exact h.suspend
  · exact h.waitOn.arrive.ite h.suspend
  · exact h.waitOn
  · exact h.asCtx (fun h1 => h1.jwaitGo.modCx.ite h1.jwaitGo)
  · exact h.queueJob.goOn
  · exact h.waitOn.askThread
  · exact h.waitOn.askThread
  · exact h.revGo

theorem Keeps.commitAnd {c i a} (h : Keeps s₀ s) : Keeps s₀ (s.commitAnd c i a) :=
  (h.commitChunk.afterCommit.checkBlock.ite h.commitChunk.afterCommit).testRounds.ite
    (h.commitChunk.afterCommit.checkBlock.ite h.commitChunk.afterCommit)

theorem Keeps.execChunkCommit {core ctx} (h : Keeps s₀ s) : Out.Keeps s₀ (execChunkCommit core ctx s) := by
  unfold Machine.execChunkCommit
  split
  · exact .next h
  · refine .ite (.next h) ?_
    split
    · exact .next h.commitAnd
    · exact .next h

/-! ### The networks -/

theorem Keeps.sendLink {l m} (h : Keeps s₀ s) : Keeps s₀ (s.sendLink l m) := h.modLink

theorem Keeps.execEntryDepart {core entry} (h : Keeps s₀ s) : Out.Keeps s₀ (execEntryDepart core entry s) :=
  .ite (.next h) (.ite (.next h) (.next (h.modCore (fun _ => by simp)).post))

theorem Keeps.execScopeStrip {ix} (h : Keeps s₀ s) : Out.Keeps s₀ (execScopeStrip ix s) := by
  unfold Machine.execScopeStrip
  dsimp only
  split
  · exact .next h
  · exact .ite (.next h) (.next h.frame.post)

theorem Keeps.tell {m why} (h : Keeps s₀ s) : Keeps s₀ (s.tell m why) := by
  unfold State.tell
  dsimp only
  split
  · exact h
  · exact h.frame.ite h.post

theorem Keeps.releasedBy {m} (h : Keeps s₀ s) : Keeps s₀ (s.releasedBy m) := h.ite h.perform

theorem Keeps.enqueueMsg {m} (h : Keeps s₀ s) : Keeps s₀ (s.enqueueMsg m) :=
  (h.releasedBy.modCore (fun _ => by simp)).raiseIpend.ite (h.releasedBy.modCore (fun _ => by simp))

theorem Keeps.deliver {m f} (h : Keeps s₀ s) : Keeps s₀ (s.deliver m f) := by
  unfold State.deliver
  dsimp only
  split
  · exact h.post
  · exact h.tell
  · exact h.tell
  · refine .deviceReport (.tell ?_)
    split
    · exact h.draw
    · exact h
  · exact h.releasedBy.modCore.tell
  · exact (h.modCore (fun _ => by simp)).tell
  · exact (h.modCore (fun _ => by simp)).tell.deviceReport
  · exact (h.modCore (fun _ => by simp)).enqueueMsg.tell
  · exact h.enqueueMsg.tell

theorem Keeps.execEntryAccepted {ix} (h : Keeps s₀ s) : Out.Keeps s₀ (execEntryAccepted ix s) := by
  unfold Machine.execEntryAccepted
  dsimp only
  split
  · exact .next h
  · exact .ite (.next h)
      (.ite (.next h.frame)
      (.ite (.next (h.frame.modCore (fun _ => by simp))) (.next (h.frame.modCore (fun _ => by simp)))))

theorem Keeps.execEntryRefused {ix} (h : Keeps s₀ s) : Out.Keeps s₀ (execEntryRefused ix s) := by
  unfold Machine.execEntryRefused
  dsimp only
  split
  · exact .next h
  · split
    · exact .next h
    · exact .ite (.next h.frame) (.next (h.frame.modCore (fun _ => by simp)))

theorem Keeps.atomicDone {c n e a r} (h : Keeps s₀ s) : Keeps s₀ (s.atomicDone c n e a r) := by
  unfold State.atomicDone
  dsimp only
  split
  · split
    · exact h.modCore (fun _ => by simp)
    · exact (h.modCore (fun _ => by simp)).deviceReport
  · split
    · exact (h.modCore (fun _ => by split <;> simp)).post
    · exact (h.modCore (fun _ => by split <;> simp)).post

/-! ### The copy unit -/

theorem Keeps.faultCopy {c n dcode} (h : Keeps s₀ s) : Keeps s₀ (s.faultCopy c n dcode) := h.unreserve.endJob

theorem Keeps.copyTrap {c n t} (h : Keeps s₀ s) : Keeps s₀ (s.copyTrap c n t) := by
  unfold State.copyTrap
  dsimp only
  split
  · exact h.setJob.deviceReport
  · exact h.setJob.deviceReport
  · exact h.faultCopy

theorem Keeps.reserve {c n j} (h : Keeps s₀ s) (e : s.reserve c n j = some t) : Keeps s₀ t := by
  unfold State.reserve at e
  dsimp only at e
  split at e
  · cases e
  · split at e
    · cases e
    · cases e; exact h.blurScratch.putCtx

theorem Keeps.startDelivery {c n j} (h : Keeps s₀ s) : Keeps s₀ (s.startDelivery c n j) := by
  unfold State.startDelivery
  dsimp only
  split
  · exact h
  · exact h.modCore.seat

theorem Keeps.prepare {c n j} (h : Keeps s₀ s) : Keeps s₀ (s.prepare c n j) := by
  unfold State.prepare
  dsimp only
  split
  · exact h.setJob
  · exact h.faultCopy
  · split
    · split
      · rename_i e
        exact (h.reserve e).setJob
      · exact h.setJob
    · exact h.setJob

theorem Keeps.storePlaces {q va n} (h : Keeps s₀ s) : Keeps s₀ (s.storePlaces q va n).2 := by
  induction n generalizing s va with
  | zero => exact h
  | succ n ih =>
    unfold State.storePlaces
    split
    · rename_i e
      exact (h.findAs.of_eq e).deviceFails
    · rename_i e
      have hf := h.findAs.of_eq e
      split
      · exact hf.deviceFails
      · have hr := ih (va := va + 8) hf
        split <;> rename_i e' <;> exact hr.of_eq e'

theorem Keeps.writePlaces {c ps ws} (h : Keeps s₀ s) : Keeps s₀ (s.writePlaces c ps ws) :=
  (h.ite h.hartMeets).commitCells

theorem Keeps.segmentDone {c n bytes} (h : Keeps s₀ s) : Keeps s₀ (s.segmentDone c n bytes) :=
  (h.setJob.startDelivery.ite h.setJob).endJob.ite (h.setJob.unreserve.endJob.ite h.setJob)

theorem Keeps.segmentOut {c n j ws} (h : Keeps s₀ s) : Keeps s₀ (s.segmentOut c n j ws) := by
  unfold State.segmentOut
  dsimp only
  split
  · exact h.sendLink.setJob
  · exact h

theorem Keeps.segmentSize {j} (h : Keeps s₀ s) : Keeps s₀ (s.segmentSize j).2 := by
  unfold State.segmentSize
  dsimp only
  split
  · exact h
  · exact h.pick

theorem Keeps.seenBy {d v} (h : Keeps s₀ s) : Keeps s₀ (s.seenBy d v) := h.modCore (fun _ => by split <;> rfl)

theorem Keeps.fillSlot {d h' next cells} (h : Keeps s₀ s) : Keeps s₀ (s.fillSlot d h' next cells) :=
  h.hartMeets.pokeCells.modBank

theorem Keeps.writeSegment {c n j ws} (h : Keeps s₀ s) : Keeps s₀ (s.writeSegment c n j ws) := by
  unfold State.writeSegment
  dsimp only
  split
  · split
    · rename_i e
      exact (h.storePlaces.of_eq e).copyTrap
    · rename_i e
      exact (h.storePlaces.of_eq e).writePlaces.segmentDone
  · split
    · exact h.segmentOut
    · split
      · split
        · exact h.faultCopy.checkOwners
        · exact h.hartCells.segmentDone
      · split
        · exact h.faultCopy
        · exact h.setJob
        · split
          · exact h.faultCopy.checkOwners
          · exact h.fillSlot.segmentDone

theorem Keeps.unitGet {q kick va} (h : Keeps s₀ s) : Keeps s₀ (s.unitGet q kick va).2 := by
  unfold State.unitGet
  dsimp only
  split
  · rename_i e
    exact h.deviceFindAs.of_eq e
  · rename_i e
    exact (h.deviceFindAs.of_eq e).loadFrom

theorem Keeps.unitGetWords {q kick va n} (h : Keeps s₀ s) : Keeps s₀ (s.unitGetWords q kick va n).2 := by
  induction n generalizing s va with
  | zero => exact h
  | succ n ih =>
    unfold State.unitGetWords
    split
    · rename_i e
      exact h.unitGet.of_eq e
    · rename_i e
      have hr := ih (va := va + 8) (h.unitGet.of_eq e)
      split <;> rename_i e' <;> exact hr.of_eq e'

theorem Keeps.runSegment {c n j} (h : Keeps s₀ s) : Keeps s₀ (s.runSegment c n j) := by
  unfold State.runSegment
  dsimp only
  split
  · exact h.unreserve.endJob
  · split
    · exact h
    · split
      · rename_i e
        exact (h.segmentSize.unitGetWords.of_eq e).copyTrap
      · rename_i e
        exact (h.segmentSize.unitGetWords.of_eq e).writeSegment

theorem Keeps.begin_ {c n j} (h : Keeps s₀ s) : Keeps s₀ (s.begin_ c n j) := h.prepare.runSegment.ite h.prepare

theorem Keeps.execCopySegment {core} (h : Keeps s₀ s) : Out.Keeps s₀ (execCopySegment core s) := by
  unfold Machine.execCopySegment
  dsimp only
  refine .ite (.next h) ?_
  split
  · exact .next h
  · refine h.hartEvent (fun h1 => ?_)
    split
    · exact .next (h1.ite h1.modCluster).begin_
    · exact .next (h1.ite h1.modCluster).runSegment
    · exact .next (h1.ite h1.modCluster)
    · exact .next (h1.ite h1.modCluster)
    · exact .next (h1.ite h1.modCluster)
    · exact .next (h1.ite h1.modCluster)

theorem Keeps.retryOne {c n} (h : Keeps s₀ s) : Keeps s₀ (s.retryOne c n) := h.unreserve.endJob.ite (h.begin_.ite h)
theorem Keeps.retry {core kind} (h : Keeps s₀ s) : Keeps s₀ (s.retry core kind) := h.foldl fun _ h1 => h1.retryOne

theorem Keeps.execContextReserveRetry {core} (h : Keeps s₀ s) : Out.Keeps s₀ (execContextReserveRetry core s) :=
  h.hartEvent (fun h1 => .next h1.retry)

theorem Keeps.execRingDeliveryRetry {core} (h : Keeps s₀ s) : Out.Keeps s₀ (execRingDeliveryRetry core s) :=
  h.hartEvent (fun h1 => .next h1.retry)

/-! ### Major 0x1E and the cluster's shared units -/

theorem Keeps.tcmLoad {a n} (h : Keeps s₀ s) : (s.tcmLoad a n).All fun a => Keeps s₀ a.2 := h.load
theorem Keeps.moveRing {h' x} (h : Keeps s₀ s) : Keeps s₀ (s.moveRing h' x) := h.touch.touch.addPend

theorem Keeps.execSpark {rd gs1 gs2} (h : Keeps s₀ s) : Out.Keeps s₀ (execSpark rd gs1 gs2 s) :=
  h.fabricOnly (h.conclude
    (.bindAny fun _ => .bind h.tcmLoad fun _ h1 => .bind h1.tcmLoad fun _ h2 =>
    .ite (.ok h2.setG.advance)
    (.bind h2.tcmLoad fun _ h3 =>
    .ite (.ok h3.setG.advance)
    (.ite (.ok h3.touch.setG.advance)
    (.bind h3.touch.tcmLoad fun _ h4 => .bind h4.store fun _ h5 => .bind h5.store fun _ h6 =>
    .bind h6.store fun _ h7 => .bind h7.store fun _ h8 => .ok h8.moveRing.setG.advance)))))

theorem Keeps.vacantRow {b r n} (h : Keeps s₀ s) : (s.vacantRow b r n).All fun a => Keeps s₀ a.2 := by
  induction n generalizing s r with
  | zero => exact .ok h
  | succ n ih => exact .bind h.tcmLoad fun _ h => .ite (.ok h) (ih h)

theorem Keeps.execSres {rd gs1 gs2} (h : Keeps s₀ s) : Out.Keeps s₀ (execSres rd gs1 gs2 s) := by
  unfold Machine.execSres
  dsimp only
  refine h.fabricOnly (h.conclude
    (.bindAny fun _ => .ite (.ok h.touch.setG.advance)
    (.bind h.touch.tcmLoad fun _ h1 =>
    .ite (.ok h1.setG.advance)
    (.bind h1.tcmLoad fun _ h2 =>
    .ite (.ok h2.setG.advance)
    (.bind h2.tcmLoad fun _ h3 => .ite (.ok h3.setG.advance) (.bind h3.vacantRow fun _ h4 => ?_))))))
  split
  · exact .ok h4.setG.advance
  · exact .bind h4.store fun _ h5 => .bind h5.store fun _ h6 => .bind h6.store fun _ h7 =>
      .ok h7.moveRing.setG.advance

theorem Keeps.execRidl {rd gs1 gs2} (h : Keeps s₀ s) : Out.Keeps s₀ (execRidl rd gs1 gs2 s) :=
  h.fabricOnly (h.conclude
    (.bindAny fun _ => .bind h.loadWords fun _ h1 => .bindAny fun _ => .bindAny fun _ => h1.submit))

theorem Keeps.execRidlRun {core} (h : Keeps s₀ s) : Out.Keeps s₀ (execRidlRun core s) := by
  unfold Machine.execRidlRun
  dsimp only
  refine h.hartEvent (fun h1 => ?_)
  split
  · exact .next h1
  · refine .ite (.next h1) ?_
    split
    · exact .next h1.modCluster.jobError
    · refine .ite (.next h1.modCluster.faultJob) ?_
      split
      · exact .next h1.modCluster.jobError
      · exact .next h1.modCluster.hartCells.endJob

theorem Keeps.execDraw {rd gs1 gs2} (h : Keeps s₀ s) : Out.Keeps s₀ (execDraw rd gs1 gs2 s) :=
  h.fabricOnly (h.conclude (.bindAny fun _ => .bindAny fun _ => .bindAny fun _ => .bindAny fun _ => .wait))

theorem Keeps.drawList {a i n} (h : Keeps s₀ s) : (s.drawList a i n).All fun a => Keeps s₀ a.2 := by
  induction n generalizing s i with
  | zero => exact .ok h
  | succ n ih => exact .bind h.load fun _ h => .bind (ih h) fun _ h => .ok h

theorem Keeps.drawGo {d c rd} (h : Keeps s₀ s) : Keeps s₀ (s.drawGo d c rd) := by
  unfold State.drawGo
  split
  · rename_i e
    have ht := h.drawList _ e
    exact ht.modCx.setG.advance
  · exact h.modCx.takeTrap
  · exact h
  · exact h

theorem Keeps.execRiddleDraw {core ctx} (h : Keeps s₀ s) : Out.Keeps s₀ (execRiddleDraw core ctx s) := by
  unfold Machine.execRiddleDraw
  dsimp only
  split
  · exact .next h
  · split
    · exact .next (h.asCtx (fun h1 => h1.drawGo))
    · exact .next h

theorem Keeps.execSfuService {cluster} (h : Keeps s₀ s) : Out.Keeps s₀ (execSfuService cluster s) := by
  unfold Machine.execSfuService
  dsimp only
  split
  · exact .next h
  · split
    · exact .next h.modCluster.modCtx
    · exact .next h.modCluster.modCtx
    · exact .next h.modCluster

/-! ### Major 0x20: the stitch pool -/

theorem Keeps.noteWrite {k w} (h : Keeps s₀ s) : Keeps s₀ (s.noteWrite k w) := h.frame
theorem Keeps.poolPut {c a x} (h : Keeps s₀ s) : Keeps s₀ (s.poolPut c a x) := h.pokeCells.noteWrite
theorem Keeps.poolClear {c a n} (h : Keeps s₀ s) : Keeps s₀ (s.poolClear c a n) := h.foldl fun _ h1 => h1.poolPut
theorem Keeps.countLive {c hi lo up} (h : Keeps s₀ s) : Keeps s₀ (s.countLive c hi lo up) := h.modBank

theorem Keeps.freeNotice {c n base} (h : Keeps s₀ s) : Keeps s₀ (s.freeNotice c n base) :=
  h.modBank.ite h.pokeCells.noteWrite.modBank

theorem Keeps.lowerRef {c p n} (h : Keeps s₀ s) : Keeps s₀ (s.lowerRef c p n) := by
  unfold State.lowerRef
  dsimp only
  split
  · exact h.poolClear.countLive.freeNotice
  · exact h.poolPut

theorem Keeps.raiseRef {c p n} (h : Keeps s₀ s) : Keeps s₀ (s.raiseRef c p n) := h.poolPut

theorem Keeps.freeVersion {c p v} (h : Keeps s₀ s) : Keeps s₀ (s.freeVersion c p v) :=
  h.poolClear.countLive.foldl fun _ h1 => h1.lowerRef

theorem Keeps.makeVersion {c p t v ser es} (h : Keeps s₀ s) : Keeps s₀ (s.makeVersion c p t v ser es) :=
  ((h.poolPut.poolPut.poolPut.foldl fun _ h1 => h1.poolPut).foldl fun _ h1 => h1.raiseRef).countLive

theorem Keeps.putTensor {c p t r} (h : Keeps s₀ s) : Keeps s₀ (s.putTensor c p t r) := h.poolPut.poolPut

theorem Keeps.newTensor {c p es} (h : Keeps s₀ s) : OkAll (Keeps s₀ ·.2) (s.newTensor c p es) := by
  unfold State.newTensor
  dsimp only
  split
  · exact .error
  · refine .ite .error (.ite .error ?_)
    split
    · exact .error
    · exact .ok h.makeVersion.putTensor.countLive

theorem Keeps.makePieces {c p is es} (h : Keeps s₀ s) : Keeps s₀ (s.makePieces c p is es) := by
  induction is generalizing s es with
  | nil => exact h
  | cons i is ih =>
    cases es with
    | nil => exact h
    | cons e es =>
      unfold State.makePieces
      exact ih (h.ite h.poolPut.poolPut.countLive)

theorem Keeps.leaveVersion {c p v pins} (h : Keeps s₀ s) : Keeps s₀ (s.leaveVersion c p v pins) := h.freeVersion.ite h

theorem Keeps.splice {c p h' ws} (h : Keeps s₀ s) : OkAll (Keeps s₀ ·.2) (s.splice c p h' ws) := by
  unfold State.splice
  dsimp only
  split
  · exact .error
  · refine .ite .error (.ite .error (.ite .error (.ite .error ?_)))
    split
    · exact .error
    · exact .ite .error (.ite .error (.ite .error (.ok h.makePieces.makeVersion.putTensor.leaveVersion)))

theorem Keeps.spin {c p h'} (h : Keeps s₀ s) : OkAll (Keeps s₀ ·.2) (s.spin c p h') := by
  unfold State.spin
  dsimp only
  split
  · exact .error
  · exact .ite .error (.ok h.poolPut)

theorem Keeps.sunpin {c p w} (h : Keeps s₀ s) : OkAll (Keeps s₀ ·.2) (s.sunpin c p w) :=
  .ite .error (.ite .error (.ite .error (.ite .error (.ite .error (.okPair (h.poolPut.freeVersion.ite h.poolPut))))))

theorem Keeps.sfork {c p h'} (h : Keeps s₀ s) : OkAll (Keeps s₀ ·.2) (s.sfork c p h') := by
  unfold State.sfork
  split
  · exact .error
  · exact .ite .error (.ite .error h.newTensor)

theorem Keeps.sdrop {c p h'} (h : Keeps s₀ s) : OkAll (Keeps s₀ ·.2) (s.sdrop c p h') := by
  unfold State.sdrop
  dsimp only
  split
  · exact .error
  · exact .ite .error (.ok h.putTensor.countLive.leaveVersion)

theorem Keeps.stchRequest {c q} (h : Keeps s₀ s) : OkAll (Keeps s₀ ·.2) (s.stchRequest c q) := by
  unfold State.stchRequest
  split
  · exact .error
  · split
    · exact h.newTensor
    · exact h.splice
    · exact h.spin
    · exact h.sunpin
    · exact h.sfork
    · exact h.sdrop

theorem Keeps.answer {c q x} (h : Keeps s₀ s) : Keeps s₀ (s.answer c q x) := by
  unfold State.answer
  split
  · exact h.complete.ite h
  · exact h

theorem Keeps.threadCommits {k} (h : Keeps s₀ s) : Keeps s₀ (s.threadCommits k) := h.couchAborts

theorem Keeps.stchOp {enc op rd a desc} (h : Keeps s₀ s) (hd : desc.All fun a => Keeps s₀ a.2) :
    Out.Keeps s₀ (stchOp s enc op rd a desc) :=
  h.fabricOnly (h.conclude (.bindAny fun _ => .bind hd fun _ h => .ok h.setWait))

theorem Keeps.execStnew {rd} (h : Keeps s₀ s) : Out.Keeps s₀ (execStnew rd s) := h.stchOp (.ok h)

theorem Keeps.spliceDesc {a} (h : Keeps s₀ s) : (s.spliceDesc a).All fun a => Keeps s₀ a.2 :=
  .bindAny fun _ => .bindAny fun _ => .bind h.loadWords fun _ h1 => .bindAny fun _ => .bindAny fun _ =>
    .bind h1.loadWords fun _ h2 => .bindAny fun _ => .ok h2

theorem Keeps.execSplice {rd rs1 rs2} (h : Keeps s₀ s) : Out.Keeps s₀ (execSplice rd rs1 rs2 s) := h.stchOp h.spliceDesc
theorem Keeps.execSpin {rd rs1} (h : Keeps s₀ s) : Out.Keeps s₀ (execSpin rd rs1 s) := h.stchOp (.ok h)
theorem Keeps.execSunpin {rd rs1} (h : Keeps s₀ s) : Out.Keeps s₀ (execSunpin rd rs1 s) := h.stchOp (.ok h)
theorem Keeps.execSfork {rd rs1} (h : Keeps s₀ s) : Out.Keeps s₀ (execSfork rd rs1 s) := h.stchOp (.ok h)
theorem Keeps.execSdrop {rd rs1} (h : Keeps s₀ s) : Out.Keeps s₀ (execSdrop rd rs1 s) := h.stchOp (.ok h)

theorem Keeps.findRow {a i e start n} (h : Keeps s₀ s) : (s.findRow a i e start n).All fun a => Keeps s₀ a.2 := by
  induction n generalizing s e start with
  | zero => exact .ok h
  | succ n ih => exact .bind h.tcmLoad fun _ h => .ite (.ok h) (ih h)

theorem Keeps.execSidx {rd rs1 rs2} (h : Keeps s₀ s) : Out.Keeps s₀ (execSidx rd rs1 rs2 s) := by
  unfold Machine.execSidx
  dsimp only
  refine h.fabricOnly (h.conclude (.bindAny fun _ => ?_))
  split
  · exact .trap
  · refine .bindAny fun _ => .bind h.tcmLoad fun _ h1 => .bindAny fun _ => .bind h1.tcmLoad fun _ h2 =>
      .bindAny fun _ => .bind h2.tcmLoad fun _ h3 => .bind h3.tcmLoad fun _ h4 => .bindAny fun _ =>
      .bindAny fun _ => .bind h4.findRow fun _ h5 => ?_
    split
    · exact .trap
    · split
      · exact .bind h5.tcmLoad fun _ h6 => .bind h6.tcmLoad fun _ h7 => .ok h7.setG.advance
      · exact .ok h5.setG.advance
      · exact .ok h5.setG.advance

/-! ### Major 0x1F: committees -/

theorem Keeps.threadCycle {c done left now} (h : Keeps s₀ s) : Keeps s₀ (s.threadCycle c done left now) :=
  h.hartCells.modCore.foldl fun _ h1 => h1.answer

theorem Keeps.waitChecks {c} (h : Keeps s₀ s) : Keeps s₀ (s.waitChecks c) := h.foldl fun _ h1 => h1.checkOwners

theorem Keeps.threadEvent {c} {f : State → Word → State} (h : Keeps s₀ s)
    (hf : ∀ {t} (w : Word), Keeps s₀ t → Keeps s₀ (f t w)) :
    Out.Keeps s₀ (threadEvent s c f) := by
  unfold Machine.threadEvent
  refine h.advanceCycOf.hartEvent fun h => .next ?_
  exact (h.threadCycle.ite (hf _ h)).waitChecks

theorem Keeps.requestRots {core q rest bad now} (h : Keeps s₀ s) : Keeps s₀ (s.requestRots core q rest bad now) :=
  h.frame.threadCycle.checkOwners

theorem Keeps.execStitchRequest {core} (h : Keeps s₀ s) : Out.Keeps s₀ (execStitchRequest core s) := by
  unfold Machine.execStitchRequest
  split
  · exact .next h
  · refine .ite (.next h) (h.threadEvent (fun _ h1 => ?_))
    split
    · exact h1.requestRots
    · split
      · exact h1.threadCycle
      · rename_i e
        exact (h1.stchRequest _ e).threadCommits.threadCycle

theorem Keeps.execCommitteeRequest {core} (h : Keeps s₀ s) : Out.Keeps s₀ (execCommitteeRequest core s) := by
  unfold Machine.execCommitteeRequest
  refine h.threadEvent (fun _ h1 => ?_)
  split
  · exact h1.threadCycle
  · split
    · exact h1.threadCycle
    · split
      · exact h1.requestRots
      · exact h1.threadCycle

theorem Keeps.execQuorumDeadline {core} (h : Keeps s₀ s) : Out.Keeps s₀ (execQuorumDeadline core s) :=
  h.threadEvent (fun _ h1 => h1.threadCycle)

theorem Keeps.ownerPerforms {c n e a} (h : Keeps s₀ s) : Keeps s₀ (s.ownerPerforms c n e a) := by
  unfold State.ownerPerforms
  dsimp only
  split
  · rename_i e
    exact Keeps.atomicDone ((h.perform.ite h).performAtomic _ e)
  · exact (h.perform.ite h).atomicDone.deviceFails

theorem Keeps.execAtomicPerform {core entry} (h : Keeps s₀ s) : Out.Keeps s₀ (execAtomicPerform core entry s) := by
  unfold Machine.execAtomicPerform
  dsimp only
  split
  · exact .next h
  · refine .ite (.next h) (.ite (.next (h.modCore (fun _ => by simp))) ?_)
    split
    · exact h.hartEvent (fun h1 => .next h1.ownerPerforms)
    · exact .ite (h.hartEvent (fun h1 => .next h1.ownerPerforms))
        (h.threadEvent (fun _ h1 => h1.ownerPerforms.threadCycle))

theorem Keeps.commOp {fn3 op gs2 gs1 rd} {prep : Nat → Ans (List Word × State)} (h : Keeps s₀ s)
    (hp : ∀ x, (prep x).All fun a => Keeps s₀ a.2) :
    Out.Keeps s₀ (commOp s fn3 op gs2 gs1 rd prep) :=
  h.fabricOnly (h.conclude (.bindAny fun _ => .bindAny fun _ => .bind (hp _) fun _ h => .ok h.setWait))

theorem Keeps.execCmnew {rd gs1 gs2} (h : Keeps s₀ s) : Out.Keeps s₀ (execCmnew rd gs1 gs2 s) :=
  h.commOp (fun _ => .bindAny fun _ => .ok h)

theorem Keeps.mapEntries {fm fn v es out} (h : Keeps s₀ s) :
    (s.mapEntries fm fn v es out).All fun a => Keeps s₀ a.2 := by
  induction es generalizing s out with
  | nil => exact .ok h
  | cons e es ih => exact .ite (ih h) (.bind h.load fun _ h => .ite (ih h) (.ite (ih h) (ih h)))

theorem Keeps.execCmjoin {rd gs1 gs2} (h : Keeps s₀ s) : Out.Keeps s₀ (execCmjoin rd gs1 gs2 s) := by
  unfold Machine.execCmjoin
  refine h.commOp fun _ => ?_
  exact .bindAny fun _ => .bindAny fun _ => .bind h.load fun _ h => .bindAny fun _ => .bindAny fun _ =>
    .bind h.loadWords fun _ h => .bind h.tcmLoad fun _ h => .bind h.tcmLoad fun _ h => .bind h.tcmLoad fun _ h =>
    .bind h.mapEntries fun _ h => .ok h

theorem Keeps.execCmwait {rd gs1} (h : Keeps s₀ s) : Out.Keeps s₀ (execCmwait rd gs1 s) := h.commOp (fun _ => .ok h)

theorem Keeps.execCmbn {rd gs1 gs2} (h : Keeps s₀ s) : Out.Keeps s₀ (execCmbn rd gs1 gs2 s) := by
  unfold Machine.execCmbn
  refine h.commOp fun _ => ?_
  exact .bindAny fun _ => .ok h

theorem Keeps.inverseEntries {r live x m n} (h : Keeps s₀ s) :
    (s.inverseEntries r live x m n).All fun a => Keeps s₀ a.2 := by
  induction n generalizing s m with
  | zero => exact .ok h
  | succ n ih =>
    exact .ite (.bind (ih h) fun _ h => .ok h)
      (.bind h.tcmLoad fun _ h => .bind h.loadWords fun _ h => .bind (ih h) fun _ h => .ok h)

theorem Keeps.execCmadv {rd gs1 gs2} (h : Keeps s₀ s) : Out.Keeps s₀ (execCmadv rd gs1 gs2 s) := by
  unfold Machine.execCmadv
  refine h.commOp fun _ => ?_
  exact .bindAny fun _ => .bind h.tcmLoad fun _ h => .bind h.inverseEntries fun _ h => .ok h

theorem Keeps.cmsetOp {sel rd gs1 gs2} (h : Keeps s₀ s) : Out.Keeps s₀ (cmsetOp s sel rd gs1 gs2) := by
  unfold Machine.cmsetOp
  refine h.commOp fun _ => ?_
  exact .bindAny fun _ => .bindAny fun _ => .bind h.loadWords fun _ h => .bindAny fun _ => .ok h

theorem Keeps.execCmsetMember {rd gs1 gs2} (h : Keeps s₀ s) : Out.Keeps s₀ (execCmsetMember rd gs1 gs2 s) := h.cmsetOp
theorem Keeps.execCmsetExpr {rd gs1 gs2} (h : Keeps s₀ s) : Out.Keeps s₀ (execCmsetExpr rd gs1 gs2 s) := h.cmsetOp
theorem Keeps.execCmsetQuorum {rd gs1 gs2} (h : Keeps s₀ s) : Out.Keeps s₀ (execCmsetQuorum rd gs1 gs2 s) := h.cmsetOp
theorem Keeps.execCmsetOpen {rd gs1 gs2} (h : Keeps s₀ s) : Out.Keeps s₀ (execCmsetOpen rd gs1 gs2 s) := h.cmsetOp
theorem Keeps.execCmend {rd gs1} (h : Keeps s₀ s) : Out.Keeps s₀ (execCmend rd gs1 s) := h.commOp (fun _ => .ok h)

/-! ### Major 0x21: invalidations and translation -/

theorem Keeps.mmuOnly {fabric least k} (h : Keeps s₀ s) (hk : Out.Keeps s₀ k) :
    Out.Keeps s₀ (mmuOnly s fabric least k) :=
  .ite (.ite h.trapOut hk) (.ite hk h.trapOut)

theorem Keeps.invalidationOp {kind rd rs1 rs2 ok v} (h : Keeps s₀ s) :
    Out.Keeps s₀ (invalidationOp s kind rd rs1 rs2 ok v) :=
  h.conclude (.bindAny fun _ => .bindAny fun _ => h.submit)

theorem Keeps.execTlbi {rd rs1 rs2} (h : Keeps s₀ s) : Out.Keeps s₀ (execTlbi rd rs1 rs2 s) :=
  h.mmuOnly h.invalidationOp

theorem Keeps.execTlbis {rd rs1 rs2} (h : Keeps s₀ s) : Out.Keeps s₀ (execTlbis rd rs1 rs2 s) :=
  h.mmuOnly h.invalidationOp

theorem Keeps.execTlbia {rd rs1 rs2} (h : Keeps s₀ s) : Out.Keeps s₀ (execTlbia rd rs1 rs2 s) :=
  h.mmuOnly h.invalidationOp

theorem Keeps.dropTlbs {j} (h : Keeps s₀ s) : Keeps s₀ (s.dropTlbs j) := by
  unfold State.dropTlbs
  exact h.mapCores.modVd

theorem Keeps.rollBackUsers {j} (h : Keeps s₀ s) : Keeps s₀ (s.rollBackUsers j) :=
  h.foldl fun _ h1 => h1.rollBack.ite h1

theorem Keeps.execInvalidationJob {core slot} (h : Keeps s₀ s) : Out.Keeps s₀ (execInvalidationJob core slot s) :=
  h.hartEvent (fun h1 => .ite (.next h1) (.ite (.next h1) (.next h1.perform.dropTlbs.rollBackUsers.endJob)))

theorem Keeps.execTranslationEvict {core ix} (h : Keeps s₀ s) : Out.Keeps s₀ (execTranslationEvict core ix s) :=
  .next h.modCore

theorem Keeps.execSidw {rd rs1 rs2} (h : Keeps s₀ s) : Out.Keeps s₀ (execSidw rd rs1 rs2 s) := by
  unfold Machine.execSidw
  dsimp only
  refine h.mmuOnly (.ite h.trapOut ?_)
  split
  · exact h.trapOut
  · exact h.hyperWrite.writeG

theorem Keeps.atrn {va k} (h : Keeps s₀ s) : Keeps s₀ (s.atrn va k).2 := by
  unfold State.atrn
  dsimp only
  split
  · exact h.draw
  · split
    · rename_i e
      exact (h.xlate.of_eq e).deviceFails.draw
    · rename_i e1
      split
      · exact (h.xlate.of_eq e1).noteUse
      · split
        · exact (h.xlate.of_eq e1).noteUse
        · exact (h.xlate.of_eq e1).noteUse.draw

theorem Keeps.execAtrn {rd rs1 rs2} (h : Keeps s₀ s) : Out.Keeps s₀ (execAtrn rd rs1 rs2 s) := by
  unfold Machine.execAtrn
  dsimp only
  split
  · exact h.atrn.writeG
  · exact h.atrn.writeG
  · exact h.atrn.writeG
  · exact h.trapOut

/-! ### The link: arrivals, flits, members, windows, ports -/

theorem Keeps.arriveVerdict {m} (h : Keeps s₀ s) : Keeps s₀ (s.arriveVerdict m) := h.frame

theorem Keeps.arriveRequest {m} (h : Keeps s₀ s) : Keeps s₀ (s.arriveRequest m) := by
  unfold State.arriveRequest
  dsimp only
  split
  · exact h.ringMembers.post
  · split
    · exact h.ringMembers.post
    · split
      · rename_i e
        exact (h.ringMembers.ringRequest.of_eq e).post
      · rename_i e
        exact h.ringMembers.ringRequest.of_eq e

theorem Keeps.arriveAnswer {m} (h : Keeps s₀ s) : Keeps s₀ (s.arriveAnswer m) := by
  unfold State.arriveAnswer
  dsimp only
  split
  · exact h
  · split
    · exact h.modCtx.ite h
    · exact h

theorem Keeps.arriveRing {m} (h : Keeps s₀ s) : Keeps s₀ (s.arriveRing m) := by
  unfold State.arriveRing
  dsimp only
  split
  · exact h.arriveRequest
  · exact h.arriveRequest
  · exact h.arriveAnswer
  · exact h.ringMoved

theorem Keeps.arriveCopyEnd {m} (h : Keeps s₀ s) : Keeps s₀ (s.arriveCopyEnd m) :=
  ((h.setJob.unreserve.endJob.ite h.setJob).ite h.endJob).ite h

theorem Keeps.endInbound {m status dcode dlen} (h : Keeps s₀ s) : Keeps s₀ (s.endInbound m status dcode dlen) := h.post

theorem Keeps.dropReserved {m} (h : Keeps s₀ s) : Keeps s₀ (s.dropReserved m) := by
  unfold State.dropReserved
  exact h.modCore

theorem Keeps.recalled {m} (h : Keeps s₀ s) : Keeps s₀ (s.recalled m) := by
  unfold State.recalled
  dsimp only
  split
  · exact h.frame.dropReserved.endInbound
  · exact h.frame.dropReserved

theorem Keeps.inboundFault {m j code} (h : Keeps s₀ s) : Keeps s₀ (s.inboundFault m j code) := h.dropReserved.endInbound

theorem Keeps.inboundWrite {m j n ws} (h : Keeps s₀ s) : Keeps s₀ (s.inboundWrite m j n ws) := by
  unfold State.inboundWrite
  dsimp only
  split
  · exact h.inboundFault.checkOwners
  · exact h.hartCells.endInbound.ite (h.hartCells.ite h.hartCells.startDelivery).endInbound

theorem Keeps.inboundTake {m j n ws u} (h : Keeps s₀ s) (hu : Keeps s₀ u) :
    Keeps s₀ ((s.inboundTake m j n ws).getD u) := by
  unfold State.inboundTake
  dsimp only
  split
  · split
    · cases e : s.reserve m.src n j with
      | none => exact hu
      | some t => exact (h.reserve e).inboundWrite
    · exact h.inboundWrite
  · split
    · exact h.inboundFault
    · exact hu
    · split
      · exact h.inboundFault.checkOwners
      · exact h.fillSlot.endInbound

theorem Keeps.arriveCopy {ix m} (h : Keeps s₀ s) : Out.Keeps s₀ (arriveCopy ix m s) := by
  refine h.hartEvent fun h => ?_
  dsimp only
  split
  · exact .next h.frame.recalled
  · split
    · exact .next h
    · exact .next h.frame.inboundFault
    · exact .ite (.next h) (.next (h.frame.inboundTake h))

theorem Keeps.execMessageArrival {ix} (h : Keeps s₀ s) : Out.Keeps s₀ (execMessageArrival ix s) := by
  unfold Machine.execMessageArrival
  dsimp only
  split
  · exact .next h
  · refine .ite (.next h) (.ite ?_ ?_)
    · split
      · exact .next h.frame.sendLink
      · exact .next h
    · split
      · exact .next h.frame.arriveVerdict
      · exact .next h.frame.arriveRing
      · exact h.hartEvent (fun h1 => .next h1.frame.arriveCopyEnd)
      · refine .ite h.arriveCopy ?_
        split
        · exact .next h
        · exact .next h.frame.deliver

theorem Keeps.execFlitReceive {link seq crcOk words} (h : Keeps s₀ s) :
    Out.Keeps s₀ (execFlitReceive link seq crcOk words s) := by
  unfold Machine.execFlitReceive
  dsimp only
  refine .ite (.next h) (.ite (.next h.modLink) (.ite (.next h) ?_))
  split
  · exact .next h.modLink
  · exact .next h.modLink.post

theorem Keeps.execAckReceive {link seq} (h : Keeps s₀ s) : Out.Keeps s₀ (execAckReceive link seq s) :=
  .ite (.next h) (.next h.modLink)

theorem Keeps.execNakReceive {link seq} (h : Keeps s₀ s) : Out.Keeps s₀ (execNakReceive link seq s) :=
  .ite (.next h) (.next (h.modLink.resetLink.ite h.modLink))

theorem Keeps.execLtoExpiry {link} (h : Keeps s₀ s) : Out.Keeps s₀ (execLtoExpiry link s) :=
  .ite (.next h) (.next h.resetLink)

theorem Keeps.execTrainingComplete {link lanes peer} (h : Keeps s₀ s) :
    Out.Keeps s₀ (execTrainingComplete link lanes peer s) :=
  .ite (.next h) (.next (h.modLink.drainLink.ite h.modLink).linkReportFree)

theorem Keeps.execTrainingAttemptFail {link} (h : Keeps s₀ s) : Out.Keeps s₀ (execTrainingAttemptFail link s) :=
  .ite (.next h) (.ite (.next h.modLink) (.next h.linkDown))

theorem Keeps.execElectricalResetComplete {link} (h : Keeps s₀ s) :
    Out.Keeps s₀ (execElectricalResetComplete link s) :=
  .ite (.next h) (.next h.modLink.linkReportFree)

theorem Keeps.execLinkEnable {link} (h : Keeps s₀ s) : Out.Keeps s₀ (execLinkEnable link s) :=
  .next (h.ite h.enableLink)

theorem Keeps.execLinkDisable {link} (h : Keeps s₀ s) : Out.Keeps s₀ (execLinkDisable link s) := .next h.disableLink
theorem Keeps.execLinkReset {link} (h : Keeps s₀ s) : Out.Keeps s₀ (execLinkReset link s) := .next h.resetLink

theorem Keeps.execRsetWrite {module mask} (h : Keeps s₀ s) : Out.Keeps s₀ (execRsetWrite module mask s) :=
  .next h.writeRset

theorem Keeps.execRouteDrainComplete {module} (h : Keeps s₀ s) : Out.Keeps s₀ (execRouteDrainComplete module s) := by
  unfold Machine.execRouteDrainComplete
  dsimp only
  split
  · exact .next h
  · exact .ite (.next h) (.next h.frame)

theorem Keeps.execMemberLost {ring member why} (h : Keeps s₀ s) :
    Out.Keeps s₀ (execMemberLost ring member why s) := by
  unfold Machine.execMemberLost
  dsimp only
  split
  · exact .next h
  · exact .ite (.next h) (.next h.ringChange)

theorem Keeps.execRevolutionReady {ring} (h : Keeps s₀ s) : Out.Keeps s₀ (execRevolutionReady ring s) :=
  .ite (.next h) (.next h.ringChange)

theorem Keeps.revOp {fin rd rs1 rs2} (h : Keeps s₀ s) : Out.Keeps s₀ (revOp s fin rd rs1 rs2) :=
  h.conclude (.bindAny fun _ => .ite (.ok h.setG.advance) (.bindAny fun _ => .wait))

theorem Keeps.execRvbeg {rd rs1 rs2} (h : Keeps s₀ s) : Out.Keeps s₀ (execRvbeg rd rs1 rs2 s) := h.revOp
theorem Keeps.execRvend {rd rs1 rs2} (h : Keeps s₀ s) : Out.Keeps s₀ (execRvend rd rs1 rs2 s) := h.revOp
theorem Keeps.execRvqry {rd rs1 rs2} (h : Keeps s₀ s) : Out.Keeps s₀ (execRvqry rd rs1 rs2 s) := .ite h.trapOut h.writeG

theorem Keeps.raiseRelease {w} (h : Keeps s₀ s) : Keeps s₀ (s.raiseRelease w) := by
  unfold State.raiseRelease
  split
  · exact h.frame
  · exact h

theorem Keeps.execWrel {rd rs1} (h : Keeps s₀ s) : Out.Keeps s₀ (execWrel rd rs1 s) :=
  h.conclude (.bindAny fun _ => .ite (.ok h.perform.raiseRelease.setG.advance) .wait)

theorem Keeps.execWacq {rd rs1} (h : Keeps s₀ s) : Out.Keeps s₀ (execWacq rd rs1 s) :=
  h.conclude (.bindAny fun _ => .ok h.modMe.setG.advance)

theorem Keeps.lstat {l} (h : Keeps s₀ s) : Keeps s₀ (s.lstat l).2 := by
  unfold State.lstat
  dsimp only
  split
  · split
    · exact h.draw
    · exact h.draw
    · exact h
    · exact h
    · exact h
  · split
    · exact h.draw
    · exact h

theorem Keeps.execLstat {rd rs1} (h : Keeps s₀ s) : Out.Keeps s₀ (execLstat rd rs1 s) := by
  unfold Machine.execLstat
  dsimp only
  exact .ite h.trapOut h.lstat.writeG

theorem Keeps.execPortLinkChange {port up lanes} (h : Keeps s₀ s) :
    Out.Keeps s₀ (execPortLinkChange port up lanes s) :=
  .ite (.next h) (.next h.frame)

theorem Keeps.portFail {port q ix t} (h : Keeps s₀ s) : Keeps s₀ (s.portFail port q ix t) := by
  unfold State.portFail
  dsimp only
  exact h.setStopped.putPortWord.orFree.draw.moduleReport

theorem Keeps.portAccess {port q ix va o} (h : Keeps s₀ s) : Keeps s₀ (s.portAccess port q ix va o) := by
  unfold State.portAccess
  split
  · exact h
  · split
    · rename_i e
      exact (h.vdFind.of_eq e).portFail
    · rename_i e
      split
      · exact (h.vdFind.of_eq e).vdStore
      · exact h.vdFind.of_eq e

theorem Keeps.execPortRequest {port q ix va store} (h : Keeps s₀ s) :
    Out.Keeps s₀ (execPortRequest port q ix va store s) :=
  .ite (.next h) (.next h.setQueue.portAccess)

theorem Keeps.execNetworkInbound {port q va op} (h : Keeps s₀ s) : Out.Keeps s₀ (execNetworkInbound port q va op s) :=
  .ite (.next h) (.next h.frame.portAccess)

theorem Keeps.portNotice {port q ix} (h : Keeps s₀ s) : Keeps s₀ (s.portNotice port q ix) := by
  unfold State.portNotice
  dsimp only
  split
  · exact h
  · exact h.ite h.draw.post

theorem Keeps.execPortCompletion {port q ix entry} (h : Keeps s₀ s) :
    Out.Keeps s₀ (execPortCompletion port q ix entry s) := by
  unfold Machine.execPortCompletion
  dsimp only
  refine .ite (.next h) ?_
  split
  · rename_i e
    exact .next (h.vdPutWords.of_eq e).portFail
  · rename_i e
    exact .next (h.vdPutWords.of_eq e).portNotice

theorem Keeps.execPqcmdResume {port q} (h : Keeps s₀ s) : Out.Keeps s₀ (execPqcmdResume port q s) := .next h.portResume
theorem Keeps.execPqcmdStop {port q} (h : Keeps s₀ s) : Out.Keeps s₀ (execPqcmdStop port q s) := .next h.portStop

theorem Keeps.execPortStopped {port q} (h : Keeps s₀ s) : Out.Keeps s₀ (execPortStopped port q s) :=
  .ite (.next h) (.next h.setStopped.frame)

theorem Keeps.execHostAccess {vd gpa store} (h : Keeps s₀ s) : Out.Keeps s₀ (execHostAccess vd gpa store s) := by
  unfold Machine.execHostAccess
  dsimp only
  refine .ite (.next h) ?_
  split
  · exact .next h.tableFails
  · refine .ite (.next h) ?_
    split
    · exact .next (h.vdStore.ite h)
    · split
      · exact .next (h.deviceFails.ite h)
      · exact .next h

/-! ### Major 0x23: the hypervisor's instructions -/

theorem Keeps.execHvcall {rd rs1} (h : Keeps s₀ s) : Out.Keeps s₀ (execHvcall rd rs1 s) :=
  h.controlOnly (.ite h.trapOut (.next h.takeControlTrap))

theorem Keeps.execEret (h : Keeps s₀ s) : Out.Keeps s₀ (execEret s) := by
  refine h.controlOnly ?_
  split
  · rename_i hr
    exact .next (h.returnLevel hr)
  · exact h.trapOut

theorem Keeps.execWfi (h : Keeps s₀ s) : Out.Keeps s₀ (execWfi s) :=
  h.controlOnly (.ite (.next h.advance) (.next h.setWait))

theorem Keeps.execWfiWake {core} (h : Keeps s₀ s) : Out.Keeps s₀ (execWfiWake core s) := by
  unfold Machine.execWfiWake
  dsimp only
  split
  · exact .ite (.next h) (.next h.complete)
  · exact .next h

theorem Keeps.execVdsw {rd rs1} (h : Keeps s₀ s) : Out.Keeps s₀ (execVdsw rd rs1 s) :=
  h.controlOnly (.ite h.trapOut h.modMe.writeG)

theorem Keeps.execSlotwEntry {rd rs1 rs2} (h : Keeps s₀ s) : Out.Keeps s₀ (execSlotwEntry rd rs1 rs2 s) :=
  h.controlOnly (.ite h.trapOut h.frame.writeG)

theorem Keeps.setSlotPeriodNext {d} (h : Keeps s₀ s) (hd : 16000 ≤ d) :
    Keeps s₀ { s with slotPeriodNext := d } where
  memory := h.memory
  ranges h1 := by
    obtain ⟨hl, hlen, hlen', hnext, hnext', hper, _, hr⟩ := h.ranges h1
    exact ⟨hl, hlen, hlen', hnext, hnext', hper, hd, hr⟩

theorem Keeps.execSlotwPeriod {rd rs1 rs2} (h : Keeps s₀ s) : Out.Keeps s₀ (execSlotwPeriod rd rs1 rs2 s) := by
  refine h.controlOnly ?_
  dsimp only
  split
  · exact h.trapOut
  · exact (h.setSlotPeriodNext (by omega)).writeG

theorem Keeps.setSlotLenNext {d} (h : Keeps s₀ s) (hd : 1 ≤ d) (hd' : d ≤ 256) :
    Keeps s₀ { s with slotLenNext := d } where
  memory := h.memory
  ranges h1 := by
    obtain ⟨hl, hlen, hlen', _, _, hr⟩ := h.ranges h1
    exact ⟨hl, hlen, hlen', hd, hd', hr⟩

theorem Keeps.execSlotwLen {rd rs1 rs2} (h : Keeps s₀ s) : Out.Keeps s₀ (execSlotwLen rd rs1 rs2 s) := by
  refine h.controlOnly ?_
  dsimp only
  split
  · exact h.trapOut
  · exact (h.setSlotLenNext (by omega) (by omega)).writeG

theorem Keeps.keyop {rd rs1 rs2 least ok go} (h : Keeps s₀ s) (hg : go.All (Keeps s₀)) :
    Out.Keeps s₀ (keyop s rd rs1 rs2 least ok go) :=
  h.controlOnly (h.conclude (.bindAny fun _ => .bind hg fun _ h => .ok h.setG.advance))

theorem Keeps.execMext {rd rs1 rs2} (h : Keeps s₀ s) : Out.Keeps s₀ (execMext rd rs1 rs2 s) :=
  h.keyop (.bindAny fun _ => .bind h.loadWords fun _ h1 => .ok h1.modVd)

theorem Keeps.storeWords {va xs} (h : Keeps s₀ s) : (s.storeWords va xs).All (Keeps s₀) := by
  induction xs generalizing s va with
  | nil => exact .ok h
  | cons x xs ih => exact .bind h.store fun _ h => ih h

theorem Keeps.execAttest {rd rs1 rs2} (h : Keeps s₀ s) : Out.Keeps s₀ (execAttest rd rs1 rs2 s) :=
  h.keyop (.bindAny fun _ => .bind h.loadWords fun _ h1 => h1.frame.storeWords)

theorem Keeps.freshKey (h : Keeps s₀ s) : Keeps s₀ s.freshKey.2 := h.frame

theorem Keeps.execVdkey {rd rs1 rs2} (h : Keeps s₀ s) : Out.Keeps s₀ (execVdkey rd rs1 rs2 s) :=
  h.keyop (.ok h.frame.modVd)

theorem Keeps.execWnew {rd rs1 rs2} (h : Keeps s₀ s) : Out.Keeps s₀ (execWnew rd rs1 rs2 s) :=
  h.keyop (.ok h.frame.frame.frame)

theorem Keeps.execWgrant {rd rs1 rs2} (h : Keeps s₀ s) : Out.Keeps s₀ (execWgrant rd rs1 rs2 s) := h.keyop (.ok h.frame)

theorem Keeps.execWrevoke {rd rs1 rs2} (h : Keeps s₀ s) : Out.Keeps s₀ (execWrevoke rd rs1 rs2 s) :=
  h.keyop (.ite (.ok h) (.ok h.frame))

theorem Keeps.execQuench {rd rs1 rs2} (h : Keeps s₀ s) : Out.Keeps s₀ (execQuench rd rs1 rs2 s) :=
  h.keyop (.ok (h.quenchAll.ite h.quenchVd))

theorem Memory.wf_moveCells {m : Memory} (a b : Nat) (h : m.wf = true) : Memory.wf (moveCells m a b) = true :=
  Memory.wf_foldl (fun (m : Memory) (c : Nat × Byte) => m.wf_put _ c.2) _ _ (Memory.wf_filter _ _ h)

theorem Keeps.moveFrame {a b} (h : Keeps s₀ s) : Keeps s₀ (s.moveFrame a b) :=
  h.ite (h.putMem (Memory.wf_moveCells a b)).perform

theorem Keeps.execFmove {rd rs1 rs2} (h : Keeps s₀ s) : Out.Keeps s₀ (execFmove rd rs1 rs2 s) := by
  unfold Machine.execFmove
  dsimp only
  refine h.keyop ?_
  split
  · exact .trap
  · exact .ok h.moveFrame

/-! ### The cluster loader -/

theorem Keeps.onCopy {c v} {f : State → State} (h : Keeps s₀ s) (hf : ∀ {t}, Keeps s₀ t → Keeps s₀ (f t)) :
    Keeps s₀ (s.onCopy c v f) :=
  (hf h).ite (hf h.swapCopy).swapCopy

theorem Keeps.endCommand {v st} (h : Keeps s₀ s) : Keeps s₀ (s.endCommand v st) := by
  unfold State.endCommand
  dsimp only
  split
  · exact h
  · split
    · rename_i e
      exact h.modVd.deviceFindAs.of_eq e
    · rename_i e
      exact (h.modVd.deviceFindAs.of_eq e).devicePut

theorem Keeps.readImage {q va n} (h : Keeps s₀ s) : Keeps s₀ (s.readImage q va n).2 := by
  unfold State.readImage
  dsimp only
  split
  · exact h
  · split
    · rename_i e
      exact h.deviceGetWordsAs.of_eq e
    · rename_i e
      exact h.deviceGetWordsAs.of_eq e

theorem Keeps.zeroScratch {c} (h : Keeps s₀ s) : Keeps s₀ (s.zeroScratch c) := by
  unfold State.zeroScratch
  dsimp only
  split
  · exact h
  · exact h.putMem (Memory.wf_filter _ _)

theorem Keeps.loadCore {v ds rect sid code regions c} (h : Keeps s₀ s) :
    Keeps s₀ (s.loadCore v ds rect sid code regions c) :=
  h.onCopy (fun h1 => h1.modBank.zeroScratch.pokeCells.pokeCells)

theorem Keeps.loadKernel {v q bs} (h : Keeps s₀ s) : Keeps s₀ (s.loadKernel v q bs).2 := by
  unfold State.loadKernel
  dsimp only
  split
  · rename_i e
    exact h.deviceGetWordsAs.of_eq e
  · rename_i e
    split
    · exact h.deviceGetWordsAs.of_eq e
    · split
      · exact h.deviceGetWordsAs.of_eq e
      · split
        · exact h.deviceGetWordsAs.of_eq e
        · split
          · rename_i e1
            exact (h.deviceGetWordsAs.of_eq e).readImage.of_eq e1
          · rename_i e1
            split
            · rename_i e2
              exact ((h.deviceGetWordsAs.of_eq e).readImage.of_eq e1).readImage.of_eq e2
            · rename_i e2
              exact ((((h.deviceGetWordsAs.of_eq e).readImage.of_eq e1).readImage.of_eq e2).foldl fun _ h1 =>
                h1.loadCore).frame

theorem Keeps.command {v op r q} (h : Keeps s₀ s) (e : s.command v op = some (r, q, t)) : Keeps s₀ t := by
  unfold State.command at e
  split at e
  · cases e
  · split at e
    · cases e
    · dsimp only at e
      split at e <;> rename_i e' <;> split at e <;> cases e <;> exact h.deviceGetWordsAs.of_eq e'

theorem Keeps.runCommand {v op f} (h : Keeps s₀ s)
    (hf : ∀ {t} (bs : List Word) (q : Asker), Keeps s₀ t → Keeps s₀ (f t bs q)) :
    Out.Keeps s₀ (s.runCommand v op f) := by
  unfold State.runCommand
  split
  · exact .next h
  · rename_i e
    exact .next (h.command e).endCommand
  · rename_i e
    have ht := h.command e
    exact .ite (.next ht.endCommand) (.ite (.next ht.endCommand) (.next (hf _ _ ht)))

theorem Keeps.execLoad {vd} (h : Keeps s₀ s) : Out.Keeps s₀ (execLoad vd s) := by
  unfold Machine.execLoad
  dsimp only
  exact h.runCommand (fun _ _ h1 => h1.loadKernel.endCommand)

theorem Keeps.consumeSaved {c k} (h : Keeps s₀ s) : Keeps s₀ (s.consumeSaved c k) := by
  unfold State.consumeSaved
  refine h.foldl fun _ h1 => ?_
  split
  · exact h1.sendRelease.ite h1
  · exact h1

theorem Keeps.dropParked {c} (h : Keeps s₀ s) : Keeps s₀ (s.dropParked c) := by
  unfold State.dropParked
  split
  · exact h.consumeSaved.modBank
  · refine h.foldl fun _ h1 => ?_
    split
    · exact h1.modCore.endTask
    · exact h1.freeCtx
    · exact h1

theorem Keeps.cancelJobs {c} (h : Keeps s₀ s) : Keeps s₀ (s.cancelJobs c) := by
  unfold State.cancelJobs
  dsimp only
  refine h.foldl fun _ h1 => ?_
  split
  · exact h1.ite h1.cancelNow
  · exact h1.ite h1.cancelNow
  · exact h1
  · exact h1
  · exact h1
  · exact h1

theorem Keeps.drainCore {v c} (h : Keeps s₀ s) : Keeps s₀ (s.drainCore v c) := by
  unfold State.drainCore
  refine h.onCopy fun h => ?_
  dsimp only
  exact .ite h.modBank.cancelJobs h.modBank.cancelJobs.dropParked

theorem Keeps.execUnload {vd} (h : Keeps s₀ s) : Out.Keeps s₀ (execUnload vd s) := by
  unfold Machine.execUnload
  refine h.hartEvent (fun h1 => h1.runCommand (fun _ _ h2 => ?_))
  split
  · exact h2.endCommand
  · exact h2.foldl fun _ h3 => h3.drainCore

theorem Keeps.execClear {vd} (h : Keeps s₀ s) : Out.Keeps s₀ (execClear vd s) := by
  unfold Machine.execClear
  dsimp only
  refine h.runCommand (fun _ _ h1 => ?_)
  split
  · exact h1.endCommand
  · exact (h1.foldl fun _ h2 => h2.modCore (fun _ => by simp)).endCommand

theorem Keeps.refuseAll {q} (h : Keeps s₀ s) : Keeps s₀ (s.refuseAll q) := h.foldl fun _ h1 => h1.tell.ite h1

theorem Keeps.dispose {c away} (h : Keeps s₀ s) : Keeps s₀ (s.dispose c away) := by
  unfold State.dispose
  split
  · exact h.refuseAll.modBank
  · exact h.ite h.refuseAll.modCore

theorem Keeps.dropRound {k v} (h : Keeps s₀ s) : Keeps s₀ (s.dropRound k v) :=
  h.modCluster.frame.foldl fun _ h1 => h1.setArr

theorem Keeps.reachAbsent {v c} (h : Keeps s₀ s) : Keeps s₀ (s.reachAbsent v c) :=
  (h.onCopy (fun h1 => (h1.cancelJobs.ite
    h1.cancelJobs.dropParked).dispose.modBank)).checkBlock.testRounds.dropRound.ite
    (h.onCopy (fun h1 => (h1.cancelJobs.ite h1.cancelJobs.dropParked).dispose.modBank)).checkBlock.testRounds

theorem Keeps.execKernelDrained {core} (h : Keeps s₀ s) : Out.Keeps s₀ (execKernelDrained core s) := by
  unfold Machine.execKernelDrained
  dsimp only
  split
  · exact .next h
  · exact h.hartEvent (fun h1 => .ite (.next h1.reachAbsent) (.next h1.reachAbsent.endCommand))

/-! ### Matrix jobs as they run -/

theorem Keeps.endHeads {hs status dcode} (h : Keeps s₀ s) : Keeps s₀ (s.endHeads hs status dcode) :=
  h.foldl fun _ h1 => h1.endJob

theorem Keeps.runHeads {hs} (h : Keeps s₀ s) : Keeps s₀ (s.runHeads hs) := h.foldl fun _ h1 => h1.setJob
theorem Keeps.clearAcc {cores} (h : Keeps s₀ s) : Keeps s₀ (s.clearAcc cores) := h.foldl fun _ h1 => h1.modCore

theorem Keeps.splitRound {k hs} (h : Keeps s₀ s) : Keeps s₀ (s.splitRound k hs) :=
  h.endHeads.ite (h.endHeads.ite h.clearAcc.modCluster.endHeads)

theorem Keeps.pairRound {k hs} (h : Keeps s₀ s) : Keeps s₀ (s.pairRound k hs) := by
  unfold State.pairRound
  split
  · exact h
  · split
    · exact h
    · exact h.runHeads.ite h.endHeads

theorem Keeps.formed {k hs} (h : Keeps s₀ s) : Keeps s₀ (s.formed k hs) :=
  h.ite (h.endHeads.ite (h.splitRound.ite (h.pairRound.ite h.runHeads)))

theorem Keeps.execGangRound {cluster half} (h : Keeps s₀ s) : Out.Keeps s₀ (execGangRound cluster half s) := by
  unfold Machine.execGangRound
  split
  · exact .next h
  · exact h.hartEvent (fun h1 => .next h1.formed)

theorem Keeps.execGangTimeout {cluster half member} (h : Keeps s₀ s) :
    Out.Keeps s₀ (execGangTimeout cluster half member s) := by
  unfold Machine.execGangTimeout
  dsimp only
  split
  · exact .next h
  · exact .ite (.next h) (h.hartEvent (fun h1 => .next h1.endHeads))

theorem Keeps.execPairWaitTimeout {cluster} (h : Keeps s₀ s) : Out.Keeps s₀ (execPairWaitTimeout cluster s) := by
  unfold Machine.execPairWaitTimeout
  dsimp only
  split
  · exact .next h
  · exact .ite (h.hartEvent (fun h1 => .next h1.endHeads)) (.next h)

theorem Keeps.losePartner {k} (h : Keeps s₀ s) : Keeps s₀ (s.losePartner k) := h.foldl fun _ h1 => h1.endHeads

theorem Keeps.execPartnerLost {cluster} (h : Keeps s₀ s) : Out.Keeps s₀ (execPartnerLost cluster s) :=
  h.hartEvent (fun h1 => .next h1.losePartner)

theorem Keeps.endProduct {hs} (h : Keeps s₀ s) : Keeps s₀ (s.endProduct hs) := by
  unfold State.endProduct
  dsimp only
  split
  · exact h.endHeads.checkOwners.ite h.endHeads
  · exact (h.foldl fun _ h1 => h1.modCore).endHeads

theorem Keeps.sliceFails {c} (h : Keeps s₀ s) : Keeps s₀ (s.sliceFails c) := by
  unfold State.sliceFails
  split
  · exact h.endHeads.ite h
  · exact h

theorem Keeps.execJobEnd {core slot} (h : Keeps s₀ s) : Out.Keeps s₀ (execJobEnd core slot s) :=
  .ite (h.hartEvent (fun h1 => .next h1.payOwed)) (.ite (h.hartEvent (fun h1 => .next h1.endProduct)) (.next h))

theorem Keeps.runMsta {c n j} (h : Keeps s₀ s) : Keeps s₀ (s.runMsta c n j) := by
  unfold State.runMsta
  dsimp only
  split
  · exact h.jobError
  · exact h.hartCells.endJob

theorem Keeps.runMlda {c n j} (h : Keeps s₀ s) : Keeps s₀ (s.runMlda c n j) := by
  unfold State.runMlda
  dsimp only
  split
  · exact h.jobError
  · exact h.modCore.endJob

theorem Keeps.execAccumulatorJobRun {core} (h : Keeps s₀ s) : Out.Keeps s₀ (execAccumulatorJobRun core s) := by
  unfold Machine.execAccumulatorJobRun
  split
  · exact .next h
  · refine .ite (.next h) (h.hartEvent (fun h1 => ?_))
    split
    · exact .next h1.clearAcc.endJob
    · exact .next h1.runMsta
    · exact .next h1.runMlda
    · exact .next h1

theorem Keeps.execDecodeTableLoad {core} (h : Keeps s₀ s) : Out.Keeps s₀ (execDecodeTableLoad core s) := by
  unfold Machine.execDecodeTableLoad
  dsimp only
  split
  · exact .next h
  · refine .ite (.next h) (h.hartEvent (fun h1 => .ite (.next h1.modBank.endJob) ?_))
    split
    · exact .next h1.jobError
    · exact .next h1.modBank.endJob

/-- The registers' ranges go by the cores and the control profile's registers alone. -/
theorem Keeps.failedBoot {m : Memory} {msts} {r : State} (h : Keeps s₀ s) (hm : s.mem.wf = true → m.wf = true)
    (hr : RegistersInRange r) : Keeps s₀ { r with cores := [], mem := m, msts := msts } :=
  ⟨fun h1 => hm (h.memory h1), fun _ => ⟨fun _ he => absurd he List.not_mem_nil, hr.2⟩⟩

/-! ### The module's own events -/

theorem Keeps.boot {f} (h : Keeps s₀ s) : Keeps s₀ (s.boot f) := by
  unfold State.boot
  split
  · refine h.failedBoot ?_ registersInRange_reset
    intro hm
    split
    · exact hm
    · rfl
  · exact ⟨fun _ => rfl, fun _ => registersInRange_reset⟩

theorem Keeps.execPowerApplied {failPhase} (h : Keeps s₀ s) : Out.Keeps s₀ (execPowerApplied failPhase s) :=
  .next h.boot

theorem Keeps.execModuleReset {failPhase} (h : Keeps s₀ s) : Out.Keeps s₀ (execModuleReset failPhase s) := .next h.boot
theorem Keeps.execMstsWrite {value} (h : Keeps s₀ s) : Out.Keeps s₀ (execMstsWrite value s) := .next (h.frame.ite h)
theorem Keeps.lastPlacements {v} (h : Keeps s₀ s) : Keeps s₀ (s.lastPlacements v) := h.mapLaunch.serveAll
theorem Keeps.switchOut {v} (h : Keeps s₀ s) : Keeps s₀ (s.switchOut v) := h.modVd.foldl fun _ h1 => h1.stopCore
theorem Keeps.switchIn {v} (h : Keeps s₀ s) : Keeps s₀ (s.switchIn v) := h.modVd.foldl fun _ h1 => h1.startCore

theorem Keeps.takeSlotNext (h : Keeps s₀ s) :
    Keeps s₀ { s with slotLen := s.slotLenNext, slotPeriod := s.slotPeriodNext } where
  memory := h.memory
  ranges h1 := by
    obtain ⟨hl, _, _, hnext, hnext', _, hpern, hr⟩ := h.ranges h1
    exact ⟨hl, hnext, hnext', hnext, hnext', hpern, hpern, hr⟩

theorem Keeps.slotBoundary (h : Keeps s₀ s) : Keeps s₀ s.slotBoundary :=
  (((((h.takeSlotNext.frame.foldl fun _ h => h.lastPlacements).foldl fun _ h => h.switchOut).foldl
    fun _ h => h.mapLaunch.switchIn).foldl fun _ h => h.mapLaunch).foldl fun _ h => h.raiseIpend)

theorem Keeps.execSlotBoundary (h : Keeps s₀ s) : Out.Keeps s₀ (execSlotBoundary s) := .next h.slotBoundary

theorem Keeps.execClownWrite {cluster value} (h : Keeps s₀ s) : Out.Keeps s₀ (execClownWrite cluster value s) :=
  .next (h.writeClown.ite h)

theorem Keeps.execIpendClear {core value} (h : Keeps s₀ s) : Out.Keeps s₀ (execIpendClear core value s) :=
  .next (h.clearIpend.ite h)

theorem Keeps.execIctlWrite {island value} (h : Keeps s₀ s) : Out.Keeps s₀ (execIctlWrite island value s) :=
  .next h.writeIctl

theorem Keeps.execFdivChange {island} (h : Keeps s₀ s) : Out.Keeps s₀ (execFdivChange island s) :=
  .next (h.modIsland.ite h)

theorem Keeps.sharePower {watts} (h : Keeps s₀ s) : Keeps s₀ (s.sharePower watts) := by
  unfold State.sharePower
  dsimp only
  refine (h.foldlPair fun p _ h => ?_).modIsland
  dsimp only
  exact h.pick.modIsland

theorem Keeps.execGovernorWindow {watts quietMs} (h : Keeps s₀ s) :
    Out.Keeps s₀ (execGovernorWindow watts quietMs s) :=
  .next (h.sharePower.foldl fun _ h1 => h1.modIsland)

theorem Keeps.execRampWindow {island} (h : Keeps s₀ s) : Out.Keeps s₀ (execRampWindow island s) :=
  .ite (.next h) (.next h.frame.modIsland)

theorem Keeps.failBank {g b} (h : Keeps s₀ s) : Keeps s₀ (s.failBank g b) :=
  h.ite (h.frame.errorReport.checkAll.ite h.frame.errorReport)

theorem Keeps.execBankSelfTestFail {group bank} (h : Keeps s₀ s) : Out.Keeps s₀ (execBankSelfTestFail group bank s) :=
  .next (h.failBank.ite h)

theorem Keeps.correctedError {g o b} (h : Keeps s₀ s) : Keeps s₀ (s.correctedError g o b) :=
  (h.frame.frame.errorReport.ite h.frame.frame).failBank.ite (h.frame.frame.errorReport.ite h.frame.frame)

theorem Keeps.execScrub {group offset errors} (h : Keeps s₀ s) : Out.Keeps s₀ (execScrub group offset errors s) :=
  .ite (.next h) (.ite (.next (h.foldl fun _ h1 => h1.correctedError)) (.next (h.frame.ite h.frame.checkOwners)))

theorem Keeps.execCoreFailure {core} (h : Keeps s₀ s) : Out.Keeps s₀ (execCoreFailure core s) :=
  .ite (.next h) (h.hartEvent (fun h1 => .next h1.sliceFails.modCore.modCluster.losePartner))

theorem Keeps.execTamperSensor (h : Keeps s₀ s) : Out.Keeps s₀ (execTamperSensor s) := .next h.alarm

theorem Keeps.execMeasurementCheckFail {vd} (h : Keeps s₀ s) : Out.Keeps s₀ (execMeasurementCheckFail vd s) :=
  .next (h.alarm.ite h)

theorem Keeps.execCounterNodeWriteBack {key level node} (h : Keeps s₀ s) :
    Out.Keeps s₀ (execCounterNodeWriteBack key level node s) :=
  .ite (.next h) (.ite (.next h) (.ite (.next h.alarm) (.next h.setCounter)))

/-! ### An instruction that never comes to be -/

theorem Keeps.dispatch {c i} (h : Keeps s₀ s) : Keeps s₀ (s.dispatch c i) := h.frame.modCore

theorem Keeps.execFetchFault {second} (h : Keeps s₀ s) : Out.Keeps s₀ (execFetchFault second s) := by
  unfold Machine.execFetchFault
  split
  · rename_i e
    exact .ite (h.fetch.of_eq e).trapOut (.next (h.fetch.of_eq e))
  · exact .next h

theorem Keeps.execIllegalEncoding {word compact} (h : Keeps s₀ s) :
    Out.Keeps s₀ (execIllegalEncoding word compact s) :=
  h.trapOut

/-! ### The compact forms -/

theorem Keeps.execAddiC {rd imm} (h : Keeps s₀ s) : Out.Keeps s₀ (execAddiC rd imm s) := h.writeG
theorem Keeps.execLdiC {rd imm} (h : Keeps s₀ s) : Out.Keeps s₀ (execLdiC rd imm s) := h.writeG
theorem Keeps.execSlliC {rd sh} (h : Keeps s₀ s) : Out.Keeps s₀ (execSlliC rd sh s) := h.writeG
theorem Keeps.execSrliC {rd sh} (h : Keeps s₀ s) : Out.Keeps s₀ (execSrliC rd sh s) := h.writeG
theorem Keeps.execSraiC {rd sh} (h : Keeps s₀ s) : Out.Keeps s₀ (execSraiC rd sh s) := h.writeG
theorem Keeps.execAndiC {rd imm} (h : Keeps s₀ s) : Out.Keeps s₀ (execAndiC rd imm s) := h.writeG
theorem Keeps.execMvC {rd rs} (h : Keeps s₀ s) : Out.Keeps s₀ (execMvC rd rs s) := h.writeG
theorem Keeps.execAddC {rd rs} (h : Keeps s₀ s) : Out.Keeps s₀ (execAddC rd rs s) := h.writeG
theorem Keeps.execSubC {rd rs} (h : Keeps s₀ s) : Out.Keeps s₀ (execSubC rd rs s) := h.writeG
theorem Keeps.execAndC {rd rs} (h : Keeps s₀ s) : Out.Keeps s₀ (execAndC rd rs s) := h.writeG
theorem Keeps.execOrC {rd rs} (h : Keeps s₀ s) : Out.Keeps s₀ (execOrC rd rs s) := h.writeG
theorem Keeps.execXorC {rd rs} (h : Keeps s₀ s) : Out.Keeps s₀ (execXorC rd rs s) := h.writeG
theorem Keeps.execJrC {rs} (h : Keeps s₀ s) : Out.Keeps s₀ (execJrC rs s) := .ite h.trapOut h.transfer
theorem Keeps.execHaltC (h : Keeps s₀ s) : Out.Keeps s₀ (execHaltC s) := h.haltOp
theorem Keeps.execCommitC (h : Keeps s₀ s) : Out.Keeps s₀ (execCommitC s) := h.commitOp
theorem Keeps.execJC {off} (h : Keeps s₀ s) : Out.Keeps s₀ (execJC off s) := h.transfer
theorem Keeps.execJalC {off} (h : Keeps s₀ s) : Out.Keeps s₀ (execJalC off s) := h.transfer
theorem Keeps.execBeqzC {rs off} (h : Keeps s₀ s) : Out.Keeps s₀ (execBeqzC rs off s) := h.branchOp
theorem Keeps.execBnezC {rs off} (h : Keeps s₀ s) : Out.Keeps s₀ (execBnezC rs off s) := h.branchOp
theorem Keeps.execBltzC {rs off} (h : Keeps s₀ s) : Out.Keeps s₀ (execBltzC rs off s) := h.branchOp
theorem Keeps.execBgezC {rs off} (h : Keeps s₀ s) : Out.Keeps s₀ (execBgezC rs off s) := h.branchOp
theorem Keeps.execLwC {rd rs1 off} (h : Keeps s₀ s) : Out.Keeps s₀ (execLwC rd rs1 off s) := h.loadOp
theorem Keeps.execLdC {rd rs1 off} (h : Keeps s₀ s) : Out.Keeps s₀ (execLdC rd rs1 off s) := h.loadOp
theorem Keeps.execSwC {rd rs1 off} (h : Keeps s₀ s) : Out.Keeps s₀ (execSwC rd rs1 off s) := h.storeOp
theorem Keeps.execSdC {rd rs1 off} (h : Keeps s₀ s) : Out.Keeps s₀ (execSdC rd rs1 off s) := h.storeOp

/-! ### Major 0x1D: factorisations and permutations -/

theorem Keeps.factOp {kind rd tmA tmB gs1 gs2 enc} (h : Keeps s₀ s) :
    Out.Keeps s₀ (factOp s kind rd tmA tmB gs1 gs2 enc) := by
  refine h.fabricOnly (h.conclude (.bindAny fun _ => .bind h.useMap fun _ h => ?_))
  refine .bind (p := fun a => Keeps s₀ a.2) ?_ fun _ h =>
    .bindAny fun _ => .bindAny fun _ => .bindAny fun _ => .bindAny fun _ => h.submit
  cases tmB with
  | none => exact .ok h
  | some _ => exact h.useMap

theorem Keeps.execFlu {rd tmA gs1 gs2} (h : Keeps s₀ s) : Out.Keeps s₀ (execFlu rd tmA gs1 gs2 s) := h.factOp
theorem Keeps.execFchol {rd tmA gs1 gs2} (h : Keeps s₀ s) : Out.Keeps s₀ (execFchol rd tmA gs1 gs2 s) := h.factOp
theorem Keeps.execFqr {rd tmA tmB gs1 gs2} (h : Keeps s₀ s) : Out.Keeps s₀ (execFqr rd tmA tmB gs1 gs2 s) := h.factOp
theorem Keeps.execFtrs {rd tmA tmB gs1 gs2} (h : Keeps s₀ s) : Out.Keeps s₀ (execFtrs rd tmA tmB gs1 gs2 s) := h.factOp

theorem Keeps.execPrapl {rd tmA gs1 gs2} (h : Keeps s₀ s) : Out.Keeps s₀ (execPrapl rd tmA gs1 gs2 s) :=
  h.fabricOnly (h.conclude
    (.bind h.useMap fun _ h1 => .bindAny fun _ => .bindAny fun _ => .bindAny fun _ => h1.submit))

theorem Keeps.execPrmov {rd gs1 gs2} (h : Keeps s₀ s) : Out.Keeps s₀ (execPrmov rd gs1 gs2 s) :=
  h.fabricOnly (h.conclude (.bindAny fun _ => .bindAny fun _ => h.submit))

theorem Keeps.leavePerm {c j perm} (h : Keeps s₀ s) : Keeps s₀ (s.leavePerm c j perm) := h.setPerm.ite h

theorem Keeps.endFactor {c n status dcode} (h : Keeps s₀ s) : Keeps s₀ (s.endFactor c n status dcode) :=
  h.leavePerm.setJob.endJob

theorem Keeps.finishFactor {c n} (h : Keeps s₀ s) : Keeps s₀ (s.finishFactor c n) := h.endFactor.ite h.endFactor

theorem Keeps.startFactor {c n j} (h : Keeps s₀ s) : Keeps s₀ (s.startFactor c n j) := by
  unfold State.startFactor
  dsimp only
  split
  · exact h.leavePerm.jobError
  · split
    · exact h.hartCells.setJob.ite h.hartCells.setJob.endFactor
    · exact h.hartCells.setJob

theorem Keeps.factorColumn {c n j} (h : Keeps s₀ s) : Keeps s₀ (s.factorColumn c n j) := by
  unfold State.factorColumn
  dsimp only
  split
  · exact h.leavePerm.jobError
  · split
    · exact h.finishFactor
    · split
      · exact h.leavePerm.jobError
      · split
        · exact h.hartCells.setJob.endFactor
        · exact h.hartCells.setJob.finishFactor.ite h.hartCells.setJob

theorem Keeps.tagFault {c n j} (h : Keeps s₀ s) (e : s.tagFault c n j = some t) : Keeps s₀ t := by
  unfold State.tagFault at e
  split at e
  · cases e
  · split at e
    · cases e; exact h.leavePerm.jobError
    · split at e
      · cases e
      · cases e; exact h.leavePerm.endJob

theorem Keeps.factorOn {c n j} (h : Keeps s₀ s) : Keeps s₀ (s.factorOn c n j) := by
  unfold State.factorOn
  split
  · rename_i e
    exact h.tagFault e
  · have hc : Keeps s₀ (s.factorColumn c n { j with prep := true }) := h.factorColumn
    exact hc.ite (hc.endFactor.ite (hc.setJob.ite hc))

theorem Keeps.execFactorisationStep {core} (h : Keeps s₀ s) : Out.Keeps s₀ (execFactorisationStep core s) := by
  unfold Machine.execFactorisationStep
  split
  · exact .next h
  · refine .ite (.next h) ?_
    split
    · exact .ite (h.hartEvent (fun h1 => .next h1.startFactor)) (.next h)
    · exact h.hartEvent (fun h1 => .next h1.factorOn)
    · exact .next h
    · exact .next h
    · exact .next h
    · exact .next h

theorem Keeps.execPermutationApply {core} (h : Keeps s₀ s) : Out.Keeps s₀ (execPermutationApply core s) := by
  unfold Machine.execPermutationApply
  dsimp only
  split
  · exact .next h
  · refine .ite (.next h) (h.hartEvent (fun h1 => .ite (.next h1.endJob) ?_))
    split
    · exact .next h1.jobError
    · exact .next h1.hartCells.endJob

theorem Keeps.execPermutationMove {core} (h : Keeps s₀ s) : Out.Keeps s₀ (execPermutationMove core s) := by
  unfold Machine.execPermutationMove
  dsimp only
  split
  · exact .next h
  · refine .ite (.next h) (h.hartEvent (fun h1 => .ite (.next h1.setPerm.endJob) ?_))
    split
    · exact .next h1.jobError
    · exact .ite (.next h1.setPerm.endJob) (.next h1.hartCells.endJob)

/-! ### Major 0x0B: scalar floating point -/

theorem Keeps.fpOut {rd r} (h : Keeps s₀ s) : Out.Keeps s₀ (fpOut s rd r) := .next h.setG.flag.advance
theorem Keeps.fpBool {rd r} (h : Keeps s₀ s) : Out.Keeps s₀ (fpBool s rd r) := h.fpOut
theorem Keeps.fpToInt {rd rs1 f nearest} (h : Keeps s₀ s) : Out.Keeps s₀ (fpToInt s rd rs1 f nearest) := h.fpOut
theorem Keeps.execFaddS {rd rs1 rs2} (h : Keeps s₀ s) : Out.Keeps s₀ (execFaddS rd rs1 rs2 s) := h.fpOut
theorem Keeps.execFsubS {rd rs1 rs2} (h : Keeps s₀ s) : Out.Keeps s₀ (execFsubS rd rs1 rs2 s) := h.fpOut
theorem Keeps.execFmulS {rd rs1 rs2} (h : Keeps s₀ s) : Out.Keeps s₀ (execFmulS rd rs1 rs2 s) := h.fpOut
theorem Keeps.execFdivS {rd rs1 rs2} (h : Keeps s₀ s) : Out.Keeps s₀ (execFdivS rd rs1 rs2 s) := h.fpOut
theorem Keeps.execFsqrtS {rd rs1} (h : Keeps s₀ s) : Out.Keeps s₀ (execFsqrtS rd rs1 s) := h.fpOut
theorem Keeps.execFmaS {rd rs1 rs2} (h : Keeps s₀ s) : Out.Keeps s₀ (execFmaS rd rs1 rs2 s) := h.fpOut
theorem Keeps.execFminS {rd rs1 rs2} (h : Keeps s₀ s) : Out.Keeps s₀ (execFminS rd rs1 rs2 s) := h.fpOut
theorem Keeps.execFmaxS {rd rs1 rs2} (h : Keeps s₀ s) : Out.Keeps s₀ (execFmaxS rd rs1 rs2 s) := h.fpOut
theorem Keeps.execFeqS {rd rs1 rs2} (h : Keeps s₀ s) : Out.Keeps s₀ (execFeqS rd rs1 rs2 s) := h.fpBool
theorem Keeps.execFltS {rd rs1 rs2} (h : Keeps s₀ s) : Out.Keeps s₀ (execFltS rd rs1 rs2 s) := h.fpBool
theorem Keeps.execFleS {rd rs1 rs2} (h : Keeps s₀ s) : Out.Keeps s₀ (execFleS rd rs1 rs2 s) := h.fpBool
theorem Keeps.execFclassS {rd rs1} (h : Keeps s₀ s) : Out.Keeps s₀ (execFclassS rd rs1 s) := h.fpOut
theorem Keeps.execFnegS {rd rs1} (h : Keeps s₀ s) : Out.Keeps s₀ (execFnegS rd rs1 s) := h.fpOut
theorem Keeps.execFabsS {rd rs1} (h : Keeps s₀ s) : Out.Keeps s₀ (execFabsS rd rs1 s) := h.fpOut
theorem Keeps.execFcvtifS {rd rs1} (h : Keeps s₀ s) : Out.Keeps s₀ (execFcvtifS rd rs1 s) := h.fpOut
theorem Keeps.execFcvtfiS {rd rs1} (h : Keeps s₀ s) : Out.Keeps s₀ (execFcvtfiS rd rs1 s) := h.fpToInt
theorem Keeps.execFcvtfirS {rd rs1} (h : Keeps s₀ s) : Out.Keeps s₀ (execFcvtfirS rd rs1 s) := h.fpToInt
theorem Keeps.execFcvtbfS {rd rs1} (h : Keeps s₀ s) : Out.Keeps s₀ (execFcvtbfS rd rs1 s) := h.fpOut
theorem Keeps.execFcvtfbS {rd rs1} (h : Keeps s₀ s) : Out.Keeps s₀ (execFcvtfbS rd rs1 s) := h.fpOut
theorem Keeps.execFcvtpdS {rd rs1} (h : Keeps s₀ s) : Out.Keeps s₀ (execFcvtpdS rd rs1 s) := h.fpOut
theorem Keeps.execFaddD {rd rs1 rs2} (h : Keeps s₀ s) : Out.Keeps s₀ (execFaddD rd rs1 rs2 s) := h.fpOut
theorem Keeps.execFsubD {rd rs1 rs2} (h : Keeps s₀ s) : Out.Keeps s₀ (execFsubD rd rs1 rs2 s) := h.fpOut
theorem Keeps.execFmulD {rd rs1 rs2} (h : Keeps s₀ s) : Out.Keeps s₀ (execFmulD rd rs1 rs2 s) := h.fpOut
theorem Keeps.execFdivD {rd rs1 rs2} (h : Keeps s₀ s) : Out.Keeps s₀ (execFdivD rd rs1 rs2 s) := h.fpOut
theorem Keeps.execFsqrtD {rd rs1} (h : Keeps s₀ s) : Out.Keeps s₀ (execFsqrtD rd rs1 s) := h.fpOut
theorem Keeps.execFmaD {rd rs1 rs2} (h : Keeps s₀ s) : Out.Keeps s₀ (execFmaD rd rs1 rs2 s) := h.fpOut
theorem Keeps.execFminD {rd rs1 rs2} (h : Keeps s₀ s) : Out.Keeps s₀ (execFminD rd rs1 rs2 s) := h.fpOut
theorem Keeps.execFmaxD {rd rs1 rs2} (h : Keeps s₀ s) : Out.Keeps s₀ (execFmaxD rd rs1 rs2 s) := h.fpOut
theorem Keeps.execFeqD {rd rs1 rs2} (h : Keeps s₀ s) : Out.Keeps s₀ (execFeqD rd rs1 rs2 s) := h.fpBool
theorem Keeps.execFltD {rd rs1 rs2} (h : Keeps s₀ s) : Out.Keeps s₀ (execFltD rd rs1 rs2 s) := h.fpBool
theorem Keeps.execFleD {rd rs1 rs2} (h : Keeps s₀ s) : Out.Keeps s₀ (execFleD rd rs1 rs2 s) := h.fpBool
theorem Keeps.execFclassD {rd rs1} (h : Keeps s₀ s) : Out.Keeps s₀ (execFclassD rd rs1 s) := h.fpOut
theorem Keeps.execFnegD {rd rs1} (h : Keeps s₀ s) : Out.Keeps s₀ (execFnegD rd rs1 s) := h.fpOut
theorem Keeps.execFabsD {rd rs1} (h : Keeps s₀ s) : Out.Keeps s₀ (execFabsD rd rs1 s) := h.fpOut
theorem Keeps.execFcvtifD {rd rs1} (h : Keeps s₀ s) : Out.Keeps s₀ (execFcvtifD rd rs1 s) := h.fpOut
theorem Keeps.execFcvtfiD {rd rs1} (h : Keeps s₀ s) : Out.Keeps s₀ (execFcvtfiD rd rs1 s) := h.fpToInt
theorem Keeps.execFcvtfirD {rd rs1} (h : Keeps s₀ s) : Out.Keeps s₀ (execFcvtfirD rd rs1 s) := h.fpToInt
theorem Keeps.execFcvtbfD {rd rs1} (h : Keeps s₀ s) : Out.Keeps s₀ (execFcvtbfD rd rs1 s) := h.fpOut
theorem Keeps.execFcvtfbD {rd rs1} (h : Keeps s₀ s) : Out.Keeps s₀ (execFcvtfbD rd rs1 s) := h.fpOut
theorem Keeps.execFcvtpdD {rd rs1} (h : Keeps s₀ s) : Out.Keeps s₀ (execFcvtpdD rd rs1 s) := h.fpOut

/-! ### The two halves of a step -/

theorem Keeps.idle (h : Keeps s₀ s) : Out.Keeps s₀ s.idle := .next h

/-- Each instruction and each event of the module keeps them. -/
theorem Keeps.exec {i} (h : Keeps s₀ s) : Out.Keeps s₀ (exec i s) := by
  cases i with
  | add => exact h.execAdd
  | sub => exact h.execSub
  | and => exact h.execAnd
  | or => exact h.execOr
  | xor => exact h.execXor
  | andn => exact h.execAndn
  | orn => exact h.execOrn
  | sll => exact h.execSll
  | srl => exact h.execSrl
  | sra => exact h.execSra
  | rol => exact h.execRol
  | ror => exact h.execRor
  | slt => exact h.execSlt
  | sltu => exact h.execSltu
  | min => exact h.execMin
  | max => exact h.execMax
  | minu => exact h.execMinu
  | maxu => exact h.execMaxu
  | mul => exact h.execMul
  | mulh => exact h.execMulh
  | mulhu => exact h.execMulhu
  | div => exact h.execDiv
  | divu => exact h.execDivu
  | rem => exact h.execRem
  | remu => exact h.execRemu
  | addw => exact h.execAddw
  | subw => exact h.execSubw
  | sllw => exact h.execSllw
  | srlw => exact h.execSrlw
  | sraw => exact h.execSraw
  | mulw => exact h.execMulw
  | clz => exact h.execClz
  | ctz => exact h.execCtz
  | popc => exact h.execPopc
  | bswp => exact h.execBswp
  | sextb => exact h.execSextb
  | sexth => exact h.execSexth
  | sextw => exact h.execSextw
  | zextb => exact h.execZextb
  | zexth => exact h.execZexth
  | zextw => exact h.execZextw
  | addi => exact h.execAddi
  | andi => exact h.execAndi
  | ori => exact h.execOri
  | xori => exact h.execXori
  | slti => exact h.execSlti
  | sltiu => exact h.execSltiu
  | addiw => exact h.execAddiw
  | slli => exact h.execSlli
  | srli => exact h.execSrli
  | srai => exact h.execSrai
  | roli => exact h.execRoli
  | slliw => exact h.execSlliw
  | srliw => exact h.execSrliw
  | sraiw => exact h.execSraiw
  | lih => exact h.execLih
  | addpc => exact h.execAddpc
  | lb => exact h.execLb
  | lbu => exact h.execLbu
  | lh => exact h.execLh
  | lhu => exact h.execLhu
  | lw => exact h.execLw
  | lwu => exact h.execLwu
  | ld => exact h.execLd
  | sb => exact h.execSb
  | sh => exact h.execSh
  | sw => exact h.execSw
  | sd => exact h.execSd
  | beq => exact h.execBeq
  | bne => exact h.execBne
  | blt => exact h.execBlt
  | bge => exact h.execBge
  | bltu => exact h.execBltu
  | bgeu => exact h.execBgeu
  | jal => exact h.execJal
  | jalr => exact h.execJalr
  | faddS => exact h.execFaddS
  | fsubS => exact h.execFsubS
  | fmulS => exact h.execFmulS
  | fdivS => exact h.execFdivS
  | fsqrtS => exact h.execFsqrtS
  | fmaS => exact h.execFmaS
  | fminS => exact h.execFminS
  | fmaxS => exact h.execFmaxS
  | feqS => exact h.execFeqS
  | fltS => exact h.execFltS
  | fleS => exact h.execFleS
  | fclassS => exact h.execFclassS
  | fnegS => exact h.execFnegS
  | fabsS => exact h.execFabsS
  | fcvtifS => exact h.execFcvtifS
  | fcvtfiS => exact h.execFcvtfiS
  | fcvtfirS => exact h.execFcvtfirS
  | fcvtbfS => exact h.execFcvtbfS
  | fcvtfbS => exact h.execFcvtfbS
  | fcvtpdS => exact h.execFcvtpdS
  | faddD => exact h.execFaddD
  | fsubD => exact h.execFsubD
  | fmulD => exact h.execFmulD
  | fdivD => exact h.execFdivD
  | fsqrtD => exact h.execFsqrtD
  | fmaD => exact h.execFmaD
  | fminD => exact h.execFminD
  | fmaxD => exact h.execFmaxD
  | feqD => exact h.execFeqD
  | fltD => exact h.execFltD
  | fleD => exact h.execFleD
  | fclassD => exact h.execFclassD
  | fnegD => exact h.execFnegD
  | fabsD => exact h.execFabsD
  | fcvtifD => exact h.execFcvtifD
  | fcvtfiD => exact h.execFcvtfiD
  | fcvtfirD => exact h.execFcvtfirD
  | fcvtbfD => exact h.execFcvtbfD
  | fcvtfbD => exact h.execFcvtfbD
  | fcvtpdD => exact h.execFcvtpdD
  | crr => exact h.execCrr
  | crw => exact h.execCrw
  | crset => exact h.execCrset
  | crclr => exact h.execCrclr
  | halt => exact h.execHalt
  | haltr => exact h.execHaltr
  | commit => exact h.execCommit
  | abort => exact h.execAbort
  | trapi => exact h.execTrapi
  | budgq => exact h.execBudgq
  | send => exact h.execSend
  | rply => exact h.execRply
  | sendq => exact h.execSendq
  | resend => exact h.execResend
  | dropr => exact h.execDropr
  | hset => exact h.execHset
  | cwait => exact h.execCwait
  | pwait => exact h.execPwait
  | cadv => exact h.execCadv
  | padv => exact h.execPadv
  | hqry => exact h.execHqry
  | aadd => exact h.execAadd
  | aand => exact h.execAand
  | aor => exact h.execAor
  | axor => exact h.execAxor
  | amax => exact h.execAmax
  | amin => exact h.execAmin
  | amaxu => exact h.execAmaxu
  | aminu => exact h.execAminu
  | aswp => exact h.execAswp
  | acas => exact h.execAcas
  | aincw => exact h.execAincw
  | abfa => exact h.execAbfa
  | afadd => exact h.execAfadd
  | afmax => exact h.execAfmax
  | amxr => exact h.execAmxr
  | rels => exact h.execRels
  | acqs => exact h.execAcqs
  | fence => exact h.execFence
  | gid => exact h.execGid
  | gspawn => exact h.execGspawn
  | gdone => exact h.execGdone
  | barrAnd => exact h.execBarrAnd
  | barrOr => exact h.execBarrOr
  | barrSum => exact h.execBarrSum
  | barrPopc => exact h.execBarrPopc
  | bargAnd => exact h.execBargAnd
  | bargOr => exact h.execBargOr
  | bargSum => exact h.execBargSum
  | bargPopc => exact h.execBargPopc
  | vadd => exact h.execVadd
  | vsub => exact h.execVsub
  | vmul => exact h.execVmul
  | vfma => exact h.execVfma
  | vmin => exact h.execVmin
  | vmax => exact h.execVmax
  | vand => exact h.execVand
  | vor => exact h.execVor
  | vxor => exact h.execVxor
  | vshl => exact h.execVshl
  | vshr => exact h.execVshr
  | vsra => exact h.execVsra
  | vdiv => exact h.execVdiv
  | vabs => exact h.execVabs
  | vneg => exact h.execVneg
  | vcmpeq => exact h.execVcmpeq
  | vcmplt => exact h.execVcmplt
  | vcmple => exact h.execVcmple
  | vsel => exact h.execVsel
  | vmulh => exact h.execVmulh
  | vcmpltu => exact h.execVcmpltu
  | vminu => exact h.execVminu
  | vmaxu => exact h.execVmaxu
  | vaddVx => exact h.execVaddVx
  | vsubVx => exact h.execVsubVx
  | vmulVx => exact h.execVmulVx
  | vfmaVx => exact h.execVfmaVx
  | vminVx => exact h.execVminVx
  | vmaxVx => exact h.execVmaxVx
  | vandVx => exact h.execVandVx
  | vorVx => exact h.execVorVx
  | vxorVx => exact h.execVxorVx
  | vshlVx => exact h.execVshlVx
  | vshrVx => exact h.execVshrVx
  | vsraVx => exact h.execVsraVx
  | vdivVx => exact h.execVdivVx
  | vcmpeqVx => exact h.execVcmpeqVx
  | vcmpltVx => exact h.execVcmpltVx
  | vcmpleVx => exact h.execVcmpleVx
  | vselVx => exact h.execVselVx
  | vmulhVx => exact h.execVmulhVx
  | vcmpltuVx => exact h.execVcmpltuVx
  | vminuVx => exact h.execVminuVx
  | vmaxuVx => exact h.execVmaxuVx
  | vext => exact h.execVext
  | vld => exact h.execVld
  | vst => exact h.execVst
  | vlds => exact h.execVlds
  | vsts => exact h.execVsts
  | vgath => exact h.execVgath
  | vscat => exact h.execVscat
  | vldb => exact h.execVldb
  | vldk => exact h.execVldk
  | vstk => exact h.execVstk
  | vpermb => exact h.execVpermb
  | vbcst => exact h.execVbcst
  | viota => exact h.execViota
  | vcompr => exact h.execVcompr
  | vexpnd => exact h.execVexpnd
  | vslide => exact h.execVslide
  | vins => exact h.execVins
  | vzip => exact h.execVzip
  | vunzip => exact h.execVunzip
  | vrsum => exact h.execVrsum
  | vrmax => exact h.execVrmax
  | vrmin => exact h.execVrmin
  | vrowst => exact h.execVrowst
  | vrarg => exact h.execVrarg
  | vrpopc => exact h.execVrpopc
  | vsfn => exact h.execVsfn
  | vgact => exact h.execVgact
  | vstbl => exact h.execVstbl
  | vcvt => exact h.execVcvt
  | vdec => exact h.execVdec
  | venc => exact h.execVenc
  | vnib => exact h.execVnib
  | vrng => exact h.execVrng
  | vscl => exact h.execVscl
  | vpack => exact h.execVpack
  | tmset => exact h.execTmset
  | mgang => exact h.execMgang
  | mzero => exact h.execMzero
  | msta => exact h.execMsta
  | mlda => exact h.execMlda
  | msplit => exact h.execMsplit
  | dtld => exact h.execDtld
  | jwait => exact h.execJwait
  | jpoll => exact h.execJpoll
  | cpy => exact h.execCpy
  | cpyr => exact h.execCpyr
  | jcan => exact h.execJcan
  | flu => exact h.execFlu
  | fchol => exact h.execFchol
  | fqr => exact h.execFqr
  | ftrs => exact h.execFtrs
  | prapl => exact h.execPrapl
  | prmov => exact h.execPrmov
  | ridl => exact h.execRidl
  | draw => exact h.execDraw
  | spark => exact h.execSpark
  | sres => exact h.execSres
  | cmnew => exact h.execCmnew
  | cmjoin => exact h.execCmjoin
  | cmwait => exact h.execCmwait
  | cmbn => exact h.execCmbn
  | cmadv => exact h.execCmadv
  | cmsetMember => exact h.execCmsetMember
  | cmsetExpr => exact h.execCmsetExpr
  | cmsetQuorum => exact h.execCmsetQuorum
  | cmsetOpen => exact h.execCmsetOpen
  | cmend => exact h.execCmend
  | stnew => exact h.execStnew
  | splice => exact h.execSplice
  | spin => exact h.execSpin
  | sunpin => exact h.execSunpin
  | sidx => exact h.execSidx
  | sfork => exact h.execSfork
  | sdrop => exact h.execSdrop
  | tlbi => exact h.execTlbi
  | tlbis => exact h.execTlbis
  | tlbia => exact h.execTlbia
  | sidw => exact h.execSidw
  | atrn => exact h.execAtrn
  | rvbeg => exact h.execRvbeg
  | rvend => exact h.execRvend
  | rvqry => exact h.execRvqry
  | wrel => exact h.execWrel
  | wacq => exact h.execWacq
  | lstat => exact h.execLstat
  | hvcall => exact h.execHvcall
  | slotwEntry => exact h.execSlotwEntry
  | slotwPeriod => exact h.execSlotwPeriod
  | slotwLen => exact h.execSlotwLen
  | vdsw => exact h.execVdsw
  | mext => exact h.execMext
  | attest => exact h.execAttest
  | vdkey => exact h.execVdkey
  | wnew => exact h.execWnew
  | wgrant => exact h.execWgrant
  | wrevoke => exact h.execWrevoke
  | quench => exact h.execQuench
  | fmove => exact h.execFmove
  | eret => exact h.execEret
  | wfi => exact h.execWfi
  | addiC => exact h.execAddiC
  | ldiC => exact h.execLdiC
  | slliC => exact h.execSlliC
  | srliC => exact h.execSrliC
  | sraiC => exact h.execSraiC
  | andiC => exact h.execAndiC
  | mvC => exact h.execMvC
  | addC => exact h.execAddC
  | subC => exact h.execSubC
  | andC => exact h.execAndC
  | orC => exact h.execOrC
  | xorC => exact h.execXorC
  | jrC => exact h.execJrC
  | haltC => exact h.execHaltC
  | commitC => exact h.execCommitC
  | jC => exact h.execJC
  | jalC => exact h.execJalC
  | beqzC => exact h.execBeqzC
  | bnezC => exact h.execBnezC
  | bltzC => exact h.execBltzC
  | bgezC => exact h.execBgezC
  | lwC => exact h.execLwC
  | ldC => exact h.execLdC
  | swC => exact h.execSwC
  | sdC => exact h.execSdC
  | taskStart => exact h.execTaskStart
  | contextWake => exact h.execContextWake
  | chunkCommit => exact h.execChunkCommit
  | budgetExpiry => exact h.execBudgetExpiry
  | faultNotice => exact h.execFaultNotice
  | entryDepart => exact h.execEntryDepart
  | messageArrival => exact h.execMessageArrival
  | entryAccepted => exact h.execEntryAccepted
  | entryRefused => exact h.execEntryRefused
  | scopeStrip => exact h.execScopeStrip
  | resume => exact h.execResume
  | kill => exact h.execKill
  | stop => exact h.execStop
  | start => exact h.execStart
  | continueSave => exact h.execContinueSave
  | saveRecordWrite => exact h.execSaveRecordWrite
  | gangRound => exact h.execGangRound
  | gangTimeout => exact h.execGangTimeout
  | pairWaitTimeout => exact h.execPairWaitTimeout
  | partnerLost => exact h.execPartnerLost
  | jobEnd => exact h.execJobEnd
  | accumulatorJobRun => exact h.execAccumulatorJobRun
  | decodeTableLoad => exact h.execDecodeTableLoad
  | factorisationStep => exact h.execFactorisationStep
  | permutationApply => exact h.execPermutationApply
  | permutationMove => exact h.execPermutationMove
  | copySegment => exact h.execCopySegment
  | contextReserveRetry => exact h.execContextReserveRetry
  | ringDeliveryRetry => exact h.execRingDeliveryRetry
  | ridlRun => exact h.execRidlRun
  | riddleDraw => exact h.execRiddleDraw
  | sfuService => exact h.execSfuService
  | atomicPerform => exact h.execAtomicPerform
  | stitchRequest => exact h.execStitchRequest
  | committeeRequest => exact h.execCommitteeRequest
  | quorumDeadline => exact h.execQuorumDeadline
  | barrierRelease => exact h.execBarrierRelease
  | gspawnEnqueue => exact h.execGspawnEnqueue
  | blockPlace => exact h.execBlockPlace
  | slotBoundary => exact h.execSlotBoundary
  | invalidationJob => exact h.execInvalidationJob
  | translationEvict => exact h.execTranslationEvict
  | tamperSensor => exact h.execTamperSensor
  | load => exact h.execLoad
  | unload => exact h.execUnload
  | clear => exact h.execClear
  | kernelDrained => exact h.execKernelDrained
  | powerApplied => exact h.execPowerApplied
  | moduleReset => exact h.execModuleReset
  | mstsWrite => exact h.execMstsWrite
  | ictlWrite => exact h.execIctlWrite
  | fdivChange => exact h.execFdivChange
  | governorWindow => exact h.execGovernorWindow
  | rampWindow => exact h.execRampWindow
  | scrub => exact h.execScrub
  | clownWrite => exact h.execClownWrite
  | ipendClear => exact h.execIpendClear
  | wfiWake => exact h.execWfiWake
  | flitReceive => exact h.execFlitReceive
  | ackReceive => exact h.execAckReceive
  | nakReceive => exact h.execNakReceive
  | ltoExpiry => exact h.execLtoExpiry
  | trainingComplete => exact h.execTrainingComplete
  | trainingAttemptFail => exact h.execTrainingAttemptFail
  | electricalResetComplete => exact h.execElectricalResetComplete
  | linkEnable => exact h.execLinkEnable
  | linkDisable => exact h.execLinkDisable
  | linkReset => exact h.execLinkReset
  | rsetWrite => exact h.execRsetWrite
  | routeDrainComplete => exact h.execRouteDrainComplete
  | memberLost => exact h.execMemberLost
  | revolutionReady => exact h.execRevolutionReady
  | portRequest => exact h.execPortRequest
  | portCompletion => exact h.execPortCompletion
  | pqcmdResume => exact h.execPqcmdResume
  | pqcmdStop => exact h.execPqcmdStop
  | portStopped => exact h.execPortStopped
  | hostAccess => exact h.execHostAccess
  | networkInbound => exact h.execNetworkInbound
  | illegalEncoding => exact h.execIllegalEncoding
  | fetchFault => exact h.execFetchFault
  | coreFailure => exact h.execCoreFailure
  | bankSelfTestFail => exact h.execBankSelfTestFail
  | measurementCheckFail => exact h.execMeasurementCheckFail
  | portLinkChange => exact h.execPortLinkChange
  | counterNodeWriteBack => exact h.execCounterNodeWriteBack

theorem Keeps.issue {c} (h : Keeps s₀ s) : Out.Keeps s₀ (s.issue c) := by
  unfold State.issue
  split
  · split
    · exact h.idle
    · exact h.exec
  · dsimp only
    have hd := h.dispatch (c := c) (i := ‹Fin 4›)
    split
    · exact hd.exec
    · rename_i e
      have ht := hd.fetch.of_eq e
      split
      · exact ht.exec
      · exact ht.exec
      · exact hd.exec

theorem Keeps.step (h : Keeps s₀ s) : Out.Keeps s₀ (step s) := by
  unfold Machine.step
  dsimp only
  split
  · split
    · exact h.frame.idle
    · exact .ite h.frame.exec h.frame.idle
  · exact .ite h.frame.issue h.frame.idle
  · exact .ite h.frame.issue nofun

end

/-- Settles O58: no operation of a step writes a control core's level but the entry to a level there is and a return
to no higher one, and each write of the slot table's numbers, HRPT and MODW keeps them in range. -/
theorem stepKeepsRegistersInRange : Obligations.StepKeepsRegistersInRange := by
  unfold Obligations.StepKeepsRegistersInRange
  intro s t hr e
  exact (Keeps.refl.step t e).ranges hr

end Sys2Proof.Machine
end

section
/-! PROOF. Control registers (R9, R10, R73, R75, R138 to R140, R205, R461): what CRR, CRW, CRSET and CRCLR come to. -/

set_option Elab.async false

namespace Sys2Proof.Machine

open Sys2Proof.Claims

/-! ### The end of an instruction -/

@[simp] theorem State.settle_focus (s : State) : s.settle.focus = s.focus := by
  unfold State.settle
  split <;> rfl

/-- On a control core the end of an instruction changes nothing. -/
theorem State.settle_of_ctl {s : State} (h : s.ctl = true) : s.settle = s := by
  simp [State.settle, h]

theorem State.eq_settle_of_ctl {s t : State} (h : t.ctl = true) (e : t = s.settle) : s = t := by
  have hs : s.ctl = true := by
    rw [← h, e, State.ctl, State.ctl, State.settle_focus]
  rw [e, State.settle_of_ctl hs]

/-! ### The four forms -/

theorem exec_crr (rd : GReg) (n : BitVec 11) (s : State) : exec (.crr rd n) s = execCrr rd n s := rfl
theorem exec_crw (rd rs1 : GReg) (n : BitVec 11) (s : State) :
    exec (.crw rd n rs1) s = crOp s rd n (encI 0x0C 1 n rs1 rd) fun _ => s.g rs1 := rfl
theorem exec_crset (rd rs1 : GReg) (n : BitVec 11) (s : State) :
    exec (.crset rd n rs1) s = crOp s rd n (encI 0x0C 2 n rs1 rd) fun old => old ||| s.g rs1 := rfl
theorem exec_crclr (rd rs1 : GReg) (n : BitVec 11) (s : State) :
    exec (.crclr rd n rs1) s = crOp s rd n (encI 0x0C 3 n rs1 rd) fun old => old &&& ~~~(s.g rs1) := rfl

/-- Each of the three forms that write is `crOp` of its own encoding and of some function of the old value. -/
theorem exec_crWriteForm {rd rs1 : GReg} {n : BitVec 11} {i : Instr} (s : State)
    (hi : i ∈ [Instr.crw rd n rs1, .crset rd n rs1, .crclr rd n rs1]) :
    ∃ enc f, encode i = .long enc ∧ exec i s = crOp s rd n enc f := by
  simp only [List.mem_cons, List.not_mem_nil, or_false] at hi
  obtain rfl | rfl | rfl := hi
  · exact ⟨_, _, rfl, exec_crw ..⟩
  · exact ⟨_, _, rfl, exec_crset ..⟩
  · exact ⟨_, _, rfl, exec_crclr ..⟩

/-- An access that the register's rules refuse traps in all four forms. -/
theorem exec_crForm_trap {rd rs1 : GReg} {n : BitVec 11} {i : Instr} {s : State} {t : BitVec 32 → Trap}
    (hi : i ∈ [Instr.crr rd n, .crw rd n rs1, .crset rd n rs1, .crclr rd n rs1])
    (ht : ∀ write enc, s.crTrap n.toNat write enc = some (t enc)) :
    ∃ enc, encode i = .long enc ∧ exec i s = trapOut s (t enc) := by
  rcases List.mem_cons.mp hi with rfl | hi
  · exact ⟨_, rfl, (exec_crr ..).trans (by unfold execCrr; simp only [ht])⟩
  · obtain ⟨enc, f, he, hx⟩ := exec_crWriteForm s hi
    exact ⟨enc, he, hx.trans (by unfold crOp; simp only [ht])⟩

/-! ### The traps -/

theorem crTrap_of_not_exists {s : State} {n : Nat} (h : crExists s.ctl n = false) (write : Bool) (enc : BitVec 32) :
    s.crTrap n write enc = some (illegalTrap enc) := by
  simp [State.crTrap, h]

theorem crTrap_of_level {s : State} {n : Nat} (hc : s.ctl = true) (h : crExists true n = true)
    (hl : s.level < crLevel n) (write : Bool) (enc : BitVec 32) : s.crTrap n write enc = some (Trap.bare .priv 0) := by
  simp [State.crTrap, hc, h, hl]

theorem crTrap_none {s : State} {n : Nat} (h : crExists s.ctl n = true) (hl : crLevel n ≤ s.level) (hn : n ≠ 0x098)
    (write : Bool) (enc : BitVec 32) : s.crTrap n write enc = none := by
  simp [State.crTrap, h, hn, Nat.not_lt.mpr hl]

/-- FADDR of a trap ILLEGAL is the word's bytes as a number (R82). -/
theorem illegalTrap_long (w : BitVec 32) :
    illegalTrap w = Trap.at_ .illegal 0 (nat (ofBytes (Encoding.long w).bytes)) := by
  have h : zx w = nat (ofBytes (Encoding.long w).bytes) := by
    apply BitVec.eq_of_toNat_eq
    simp only [zx, nat, Encoding.bytes, ofBytes, BitVec.toNat_setWidth, BitVec.toNat_ofNat, BitVec.extractLsb'_toNat,
      Nat.shiftRight_eq_div_pow]
    have := w.isLt
    omega
  rw [illegalTrap, h]

/-- The numbers with a register, as the statements and as the model list them. -/
theorem crExists_eq_assigned (ctl : Bool) (n : Nat) : crExists ctl n = assigned ctl n := by
  rw [Bool.eq_iff_iff]
  cases ctl <;> simp [crExists, assigned] <;> omega

/-- The least level of a register of the control profile, as the statements and as the model list it. -/
theorem crLevel_eq_privilegeOf {n : Nat} (hn : 0x100 ≤ n) (h : assigned true n = true) : crLevel n = privilegeOf n := by
  have : n ≤ 0x11B ∨ n = 0x140 := by
    simp [assigned] at h
    omega
  rcases this with h | rfl
  · interval_cases n <;> rfl
  · rfl

theorem unassignedRegistersTrapIllegal : UnassignedRegistersTrapIllegal := by
  intro s rd rs1 n hn i hi
  obtain ⟨enc, he, hx⟩ := exec_crForm_trap hi (crTrap_of_not_exists ((crExists_eq_assigned _ _).trans hn))
  rw [Traps, hx, he, ← illegalTrap_long]
  rfl

theorem privilegedRegistersTrapBelowTheirLevel : PrivilegedRegistersTrapBelowTheirLevel := by
  intro s rd rs1 n hn ha i hi
  constructor
  · intro hc hl
    obtain ⟨enc, -, hx⟩ := exec_crForm_trap hi
      (crTrap_of_level hc ((crExists_eq_assigned _ _).trans ha) (crLevel_eq_privilegeOf hn ha ▸ hl))
    exact hx
  · intro hc
    refine unassignedRegistersTrapIllegal s rd rs1 n ?_ i hi
    simp [assigned, hc]
    omega

/-! ### A read, and a write that is let through -/

/-- An access to a register of a number is let through, it is no read of CYC, and the register holds `old`. -/
structure CrOpen (s : State) (n : Nat) (old : Word) : Prop where
  isNumber : n < 2048
  noTrap : ∀ write enc, s.crTrap n write enc = none
  noCount : n ≠ 0x00F
  holds : s.crRead n = old

theorem CrOpen.toNat {s : State} {n : Nat} {old : Word} (h : CrOpen s n old) : (BitVec.ofNat 11 n).toNat = n :=
  (BitVec.toNat_ofNat n 11).trans (Nat.mod_eq_of_lt h.isNumber)

/-- CRR gives the value and changes nothing else. -/
theorem CrOpen.crr {s : State} {n : Nat} {old : Word} (h : CrOpen s n old) (rd : GReg) :
    Gives (.crr rd (BitVec.ofNat 11 n)) s rd old 4 := by
  refine (exec_crr ..).trans ?_
  unfold execCrr
  simp only [h.toNat, h.noTrap, if_neg h.noCount, h.holds, writeG_eq]
  rfl

/-- A form that writes gives the old value, and writes its function of it. -/
theorem CrOpen.crOp {s : State} {n : Nat} {old : Word} (h : CrOpen s n old) (rd : GReg) (enc : BitVec 32)
    (f : Word → Word) (hk : n = 0x140 → (f old).toNat % 64 = 0) :
    crOp s rd (BitVec.ofNat 11 n) enc f = .next (((s.crWrite n (f old)).setG rd old).advance 4).settle := by
  have hk : ¬ (n = 0x140 ∧ (f old).toNat % 64 ≠ 0) := fun ⟨hn, hf⟩ => hf (hk hn)
  unfold Machine.crOp
  simp only [h.toNat, h.noTrap, if_neg h.noCount, h.holds, if_neg hk, conclude]

/-! ### The registers a context sees -/

/-- A pending write changes the registers a chunk can write (R139, R195, R236, R246, R305) and no other. -/
theorem Bank.apply_eq (b : Bank) (p : Pend) : b.apply p = { b with
    rfh := (b.apply p).rfh, smh := (b.apply p).smh, sqfh := (b.apply p).sqfh, stpl := (b.apply p).stpl,
    stfr := (b.apply p).stfr, rvh := (b.apply p).rvh, sidr := (b.apply p).sidr, h := (b.apply p).h,
    tm := (b.apply p).tm, user := (b.apply p).user, sfst := (b.apply p).sfst, gmem := (b.apply p).gmem } := by
  cases p with
  | reg r x => cases r <;> rfl
  | user t tab m => cases tab <;> rfl
  | ring _ _ | tmap _ _ | gdone _ | jcan _ _ | resend _ _ | dropr _ _ | rels _ => rfl

/-- What every pending write leaves unchanged, a context sees as the core has it. -/
theorem State.view_of_kept {α : Type} {f : Bank → α} (hf : ∀ b p, f (Bank.apply b p) = f b) (s : State) :
    f s.view = f s.me.bank := by
  have h : ∀ (l : List Pend) (b : Bank), f (l.foldl Bank.apply b) = f b := by
    intro l
    induction l with
    | nil => exact fun _ => rfl
    | cons p l ih => exact fun b => (ih (b.apply p)).trans (hf b p)
  exact h _ _

@[simp] theorem State.view_vdid (s : State) : s.view.vdid = s.me.bank.vdid :=
  s.view_of_kept (f := Bank.vdid) fun b p => by rw [b.apply_eq]
@[simp] theorem State.view_kid (s : State) : s.view.kid = s.me.bank.kid :=
  s.view_of_kept (f := Bank.kid) fun b p => by rw [b.apply_eq]
@[simp] theorem State.view_hblo (s : State) : s.view.hblo = s.me.bank.hblo :=
  s.view_of_kept (f := Bank.hblo) fun b p => by rw [b.apply_eq]
@[simp] theorem State.view_hbhi (s : State) : s.view.hbhi = s.me.bank.hbhi :=
  s.view_of_kept (f := Bank.hbhi) fun b p => by rw [b.apply_eq]
@[simp] theorem State.view_cause (s : State) : s.view.cause = s.me.bank.cause :=
  s.view_of_kept (f := Bank.cause) fun b p => by rw [b.apply_eq]
@[simp] theorem State.view_faddr (s : State) : s.view.faddr = s.me.bank.faddr :=
  s.view_of_kept (f := Bank.faddr) fun b p => by rw [b.apply_eq]
@[simp] theorem State.view_fpc (s : State) : s.view.fpc = s.me.bank.fpc :=
  s.view_of_kept (f := Bank.fpc) fun b p => by rw [b.apply_eq]
@[simp] theorem State.view_qdep (s : State) : s.view.qdep = s.me.bank.qdep :=
  s.view_of_kept (f := Bank.qdep) fun b p => by rw [b.apply_eq]
@[simp] theorem State.view_sqlim (s : State) : s.view.sqlim = s.me.bank.sqlim :=
  s.view_of_kept (f := Bank.sqlim) fun b p => by rw [b.apply_eq]
@[simp] theorem State.view_tsvc (s : State) : s.view.tsvc = s.me.bank.tsvc :=
  s.view_of_kept (f := Bank.tsvc) fun b p => by rw [b.apply_eq]
@[simp] theorem State.view_saveb (s : State) : s.view.saveb = s.me.bank.saveb :=
  s.view_of_kept (f := Bank.saveb) fun b p => by rw [b.apply_eq]
@[simp] theorem State.view_emrgb (s : State) : s.view.emrgb = s.me.bank.emrgb :=
  s.view_of_kept (f := Bank.emrgb) fun b p => by rw [b.apply_eq]
@[simp] theorem State.view_lrec (s : State) : s.view.lrec = s.me.bank.lrec :=
  s.view_of_kept (f := Bank.lrec) fun b p => by rw [b.apply_eq]
@[simp] theorem State.view_gpos (s : State) : s.view.gpos = s.me.bank.gpos :=
  s.view_of_kept (f := Bank.gpos) fun b p => by rw [b.apply_eq]
@[simp] theorem State.view_gbat (s : State) : s.view.gbat = s.me.bank.gbat :=
  s.view_of_kept (f := Bank.gbat) fun b p => by rw [b.apply_eq]
@[simp] theorem State.view_lqb (s : State) : s.view.lqb = s.me.bank.lqb :=
  s.view_of_kept (f := Bank.lqb) fun b p => by rw [b.apply_eq]
@[simp] theorem State.view_barst (s : State) : s.view.barst = s.me.bank.barst :=
  s.view_of_kept (f := Bank.barst) fun b p => by rw [b.apply_eq]
@[simp] theorem State.view_stst (s : State) : s.view.stst = s.me.bank.stst :=
  s.view_of_kept (f := Bank.stst) fun b p => by rw [b.apply_eq]
@[simp] theorem State.view_pginf (s : State) : s.view.pginf = s.me.bank.pginf :=
  s.view_of_kept (f := Bank.pginf) fun b p => by rw [b.apply_eq]
@[simp] theorem State.view_rvtb (s : State) : s.view.rvtb = s.me.bank.rvtb :=
  s.view_of_kept (f := Bank.rvtb) fun b p => by rw [b.apply_eq]
@[simp] theorem State.view_modid (s : State) : s.view.modid = s.me.bank.modid :=
  s.view_of_kept (f := Bank.modid) fun b p => by rw [b.apply_eq]

/-! ### Registers that a task may only read -/

/-- A write to a number that is none of the registers software may write changes no per-context register (R9). -/
theorem CtxRegs.write_of_not_mem {n : Nat} (h : n ∉ contextRegs.map (·.number)) (r : CtxRegs) (x : Word) :
    r.write n x = r := by
  simp only [contextRegs, List.map_cons, List.map_nil, List.mem_cons, List.not_mem_nil, or_false, not_or] at h
  unfold CtxRegs.write
  split <;> simp_all

/-- The read-only registers by number: below the control profile's, at no level, of no chunk, and none of those software
may write. -/
theorem readOnlyNumbers : ∀ n ∈ readOnlyRegs.map Prod.fst, n < 0x100 ∧ n ≠ 0x098 ∧ n ≠ 0x00F ∧ crLevel n = 0 ∧
    n ∉ contextRegs.map (·.number) ∧ (∀ ctl, crCoreReg ctl n = none) ∧
    ∀ ctl, (n < 0x040 ∨ 0x04D < n ∨ ctl = false) → crExists ctl n = true := by
  decide

/-- What a read-only register reads as. -/
theorem crRead_of_readOnly (s : State) : ∀ e ∈ readOnlyRegs, s.crRead e.1 = e.2 s := by
  simp only [readOnlyRegs, List.forall_mem_cons]
  exact ⟨rfl, congrArg nat s.view_vdid, s.view_kid, s.view_hblo, s.view_hbhi, rfl, rfl, rfl, s.view_cause, s.view_faddr,
    s.view_fpc, s.view_qdep, s.view_sqlim, s.view_tsvc, rfl, s.view_saveb, s.view_emrgb, rfl, s.view_lrec, rfl,
    s.view_gpos, s.view_gbat, s.view_lqb, s.view_barst, rfl, rfl, rfl, rfl, s.view_stst, s.view_pginf, s.view_rvtb,
    s.view_modid, nofun⟩

/-- A read-only register is open to every form, and holds what it reads as. -/
theorem crOpen_of_readOnly {s : State} {e : Nat × (State → Word)} (he : e ∈ readOnlyRegs)
    (hp : e.1 < 0x040 ∨ 0x04D < e.1 ∨ s.ctl = false) : CrOpen s e.1 (e.2 s) := by
  obtain ⟨hlt, h98, hcyc, hlevel, -, -, hex⟩ := readOnlyNumbers e.1 (List.mem_map_of_mem he)
  exact ⟨by omega, crTrap_none (hex _ hp) (hlevel ▸ Nat.zero_le _) h98, hcyc, crRead_of_readOnly s e he⟩

/-! ### Writes of per-context registers -/

theorem Regs.put_withCr (r : Regs) (x : GReg) (y : Word) (c : CtxRegs) :
    Regs.put { r with cr := c } x y = { r.put x y with cr := c } := by
  unfold Regs.put
  split <;> rfl

/-- A write to a number of no per-core register below the control profile's, with the old value to rd and the pc moved
on, as one write of the registers. -/
theorem crWrite_context {s : State} {n : Nat} (hn : n < 0x100) (hr : crCoreReg s.ctl n = none) (rd : GReg)
    (old x : Word) : ((s.crWrite n x).setG rd old).advance 4 = s.setRegs
      { s.regs.put rd old with pc := s.regs.pc + 4, cr := s.regs.cr.write n (x &&& crMask n) } := by
  rw [State.setG_advance]
  simp [State.crWrite, hr, Nat.not_le.mpr hn, State.setCr, State.pc, State.cr, Regs.put_withCr, w64]

theorem readOnlyRegistersKeepTheirValue : ReadOnlyRegistersKeepTheirValue := by
  intro s rd rs1 e he hp
  have hopen := crOpen_of_readOnly he hp
  obtain ⟨hlt, -, -, -, hctx, hcore, -⟩ := readOnlyNumbers e.1 (List.mem_map_of_mem he)
  refine ⟨hopen.crr rd, fun i hi => ?_⟩
  obtain ⟨enc, f, -, hx⟩ := exec_crWriteForm s hi
  rw [hx, hopen.crOp rd enc f (fun h => absurd h (by omega)), crWrite_context hlt (hcore _),
    CtxRegs.write_of_not_mem hctx]
  simp only [← Regs.put_cr s.regs rd (e.2 s)]

/-! ### CYC -/

/-- A count that has not reached its end goes on to a later one, short of its end. -/
theorem lt_laterCyc {old : Word} (h : old.toNat < 2 ^ 64 - 1) (n : Nat) : old.toNat < (laterCyc old n).toNat := by
  have hm : n % (2 ^ 64 - 1 - old.toNat) < 2 ^ 64 - 1 - old.toNat := Nat.mod_lt _ (by omega)
  rw [laterCyc, w64, BitVec.toNat_ofNat, Nat.mod_eq_of_lt (by omega)]
  omega

theorem cycleCountGoesOn : CycleCountGoesOn := by
  intro s rd
  refine ⟨laterCyc (s.cyc s.focus.1) (Config.elapsed s.tick), fun h => lt_laterCyc h _, ?_⟩
  have ht : ∀ enc, s.crTrap 0x00F false enc = none :=
    crTrap_none (by cases h : s.ctl <;> rfl) (Nat.zero_le _) (by decide) false
  have hold : s.advanceCyc.crRead 0x00F = laterCyc (s.cyc s.focus.1) (Config.elapsed s.tick) := by
    simp [State.crRead, State.cyc, State.advanceCyc, State.advanceCycOf, State.modIsland, State.island]
  refine (exec_crr ..).trans ?_
  unfold execCrr
  simp only [show (0x00F : BitVec 11).toNat = 0x00F from rfl, ht, if_true, hold, writeG_eq]
  rfl

/-- Settles O11: a refused access traps before anything is read or written; a register that may only be read is let
through, and no write reaches it. -/
theorem controlRegistersThatKeepOrTrap : Obligations.ControlRegistersThatKeepOrTrap :=
  ⟨readOnlyRegistersKeepTheirValue, unassignedRegistersTrapIllegal, privilegedRegistersTrapBelowTheirLevel,
    cycleCountGoesOn⟩

/-! ### The hypervisor's registers at level 2 -/

@[simp] theorem State.setMe_priv_regs (s : State) (q : Priv) : (s.setMe { s.me with priv := q }).regs = s.regs := by
  simp [State.regs, State.cx, State.ctx, State.setMe, State.me, Core.ctx]

/-- No chunk writes a register of the control profile. -/
theorem crCoreReg_of_control {ctl : Bool} {n : Nat} (hn : 0x100 ≤ n) : crCoreReg ctl n = none := by
  unfold crCoreReg
  split
  · omega
  · omega
  · omega
  · omega
  · omega
  · omega
  · omega
  · rfl

section

variable {s t : State} {rd rs1 : GReg} {n : Nat} {old : Word}

/-- A register of the control profile is open at level 2. -/
theorem crOpen_of_level2 (hc : s.ctl = true) (hl : s.level = 2) (hn : 0x101 ≤ n ∧ n ≤ 0x11B ∨ n = 0x140)
    (hold : s.crRead n = old) : CrOpen s n old := by
  have hex : crExists s.ctl n = true := by
    simp [hc, crExists]
    omega
  have hlevel : crLevel n ≤ s.level := by
    rw [hl]
    unfold crLevel
    split <;> decide
  exact ⟨by omega, crTrap_none hex hlevel (by omega), by omega, hold⟩

/-- CRW of a register of the control profile at level 2: what the write of the register makes of the state, with the old
value in rd and the pc moved on. -/
theorem exec_crw_level2 (hc : s.ctl = true) (hl : s.level = 2) (hn : 0x101 ≤ n ∧ n ≤ 0x11B ∨ n = 0x140)
    (hold : s.crRead n = old) (hk : n = 0x140 → (s.g rs1).toNat % 64 = 0)
    (ht : s.privWrite n (s.g rs1 &&& crMask n) = t) (hregs : t.regs = s.regs) (hfocus : t.focus = s.focus) :
    exec (.crw rd (BitVec.ofNat 11 n) rs1) s =
      .next (t.setRegs { s.regs.put rd old with pc := s.regs.pc + 4 }) := by
  have hcore : crCoreReg s.ctl n = none := crCoreReg_of_control (by omega)
  have hw : s.crWrite n (s.g rs1) = t := by
    simp only [State.crWrite, hcore, if_pos (show 0x100 ≤ n by omega), ht]
  have hctl : t.ctl = true := by
    rw [State.ctl, hfocus]
    exact hc
  rw [(exec_crw ..).trans ((crOpen_of_level2 hc hl hn hold).crOp rd _ _ hk), hw, State.setG_advance, hregs,
    State.settle_of_ctl (by exact hctl), State.pc, hregs]
  rfl

/-- CRW of KLDB with an address at no multiple of 64 traps MISALIGN (R205). -/
theorem exec_kldb_misaligned (hc : s.ctl = true) (hl : s.level = 2) (ha : (s.g rs1).toNat % 64 ≠ 0) :
    Traps (.crw rd 0x140 rs1) s .misalign 0 (s.g rs1) := by
  have hopen : CrOpen s 0x140 0 := crOpen_of_level2 hc hl (by decide) rfl
  refine (exec_crw ..).trans ?_
  unfold crOp
  simp only [show (0x140 : BitVec 11).toNat = 0x140 from rfl, hopen.noTrap, if_neg hopen.noCount, true_and, if_pos ha]
  rfl

end

/-- Settles O12: at level 2 every register of the control profile is open, and each write is the one its map gives. -/
theorem hypervisorRegisterWrites : Obligations.HypervisorRegisterWrites := by
  unfold Obligations.HypervisorRegisterWrites
  intro s rd rs1 hc hl a p v d writes priv vd
  have hp : p.cprv = 2 := hl
  have hsel : s.selVd = v := if_pos hl
  have hpriv (n : Nat) (old : Word) (q : Priv) (hn : 0x101 ≤ n ∧ n ≤ 0x11B) (hold : s.crRead n = old)
      (ht : s.privWrite n (a &&& crMask n) = priv q) : writes n old (priv q) :=
    exec_crw_level2 hc hl (.inl hn) hold (by omega) ht (State.setMe_priv_regs s q) rfl
  have hvd (n : Nat) (old : Word) (e : Vd) (hn : 0x101 ≤ n ∧ n ≤ 0x11B) (hold : s.crRead n = old)
      (ht : s.privWrite n (a &&& crMask n) = vd e) : writes n old (vd e) :=
    exec_crw_level2 hc hl (.inl hn) hold (by omega) ht rfl rfl
  have hix : levelIx p.cprv = 2 := congrArg levelIx hp
  have hmask (n : Nat) (h : crMask n = BitVec.allOnes 64) : a &&& crMask n = a := by
    rw [h, BitVec.and_allOnes]
  refine ⟨hpriv _ _ _ (by decide) ?_ ?_, hpriv _ _ _ (by decide) ?_ ?_, hpriv _ _ _ (by decide) ?_ ?_,
    hpriv _ _ _ (by decide) rfl ?_, hpriv _ _ _ (by decide) rfl rfl, hpriv _ _ _ (by decide) rfl rfl,
    hpriv _ _ _ (by decide) rfl rfl, hpriv _ _ _ (by decide) rfl rfl, hpriv _ _ _ (by decide) rfl rfl,
    hpriv _ _ _ (by decide) rfl rfl, hvd _ _ _ (by decide) ?_ ?_, hvd _ _ _ (by decide) ?_ ?_,
    hvd _ _ _ (by decide) ?_ ?_, hvd _ _ _ (by decide) ?_ ?_, hvd _ _ _ (by decide) ?_ ?_, hvd _ _ _ (by decide) ?_ ?_,
    exec_crw_level2 hc hl (by decide) rfl (by omega) rfl rfl rfl,
    exec_crw_level2 hc hl (by decide) rfl (by omega) rfl rfl rfl, ?_⟩
  · exact congrArg (fun i : Fin 3 => p.epc[i]) hix
  · exact congrArg (fun i : Fin 3 => priv { p with epc := p.epc.set i (a &&& ~~~1) }) hix
  · exact congrArg (fun i : Fin 3 => p.eprv[i]) hix
  · exact congrArg (fun i : Fin 3 => priv { p with eprv := p.eprv.set i (a &&& 3) }) hix
  · exact congrArg (fun i : Fin 3 => p.tvec[i]) hix
  · exact congrArg (fun i : Fin 3 => priv { p with tvec := p.tvec.set i (a &&& ~~~1) }) hix
  · rw [hmask 0x104 rfl]
    rfl
  · exact congrArg (fun v => (s.vdev v).s2base) hsel
  · rw [hmask 0x106 rfl]
    exact congrArg (fun v => s.modVd v fun d => { d with s2base := a }) hsel
  · exact congrArg (fun v => (s.vdev v).s2len) hsel
  · rw [hmask 0x107 rfl]
    exact congrArg (fun v => s.modVd v fun d => { d with s2len := a }) hsel
  · exact congrArg (fun v => (s.vdev v).bcap) hsel
  · rw [hmask 0x108 rfl]
    exact congrArg (fun v => s.modVd v fun d => { d with bcap := a }) hsel
  · exact congrArg (fun v => (s.vdev v).apol) hsel
  · exact congrArg (fun v => s.modVd v fun d => { d with apol := a &&& 3 }) hsel
  · exact congrArg (fun v => (s.vdev v).lqbv) hsel
  · exact congrArg (fun v => s.modVd v fun d => { d with lqbv := a &&& 0xFFFF_FFFF_FFFF }) hsel
  · exact congrArg (fun v => (s.vdev v).sidtb) hsel
  · exact congrArg (fun v => s.modVd v fun d => { d with sidtb := a &&& 0x1FF_FFFF_FFFF }) hsel
  · split
    · rename_i hal
      refine exec_crw_level2 hc hl (by decide) rfl (fun _ => hal) ?_ rfl rfl
      refine (congrArg (s.privWrite 0x140) (hmask 0x140 rfl)).trans ?_
      exact congrArg (fun l => s.modVd s.vd fun d => { d with
        loads := d.loads ++ [⟨a, s.focus.1, fld s.me.bank.sidr 15 0, l⟩] }) hp
    · rename_i hal
      exact exec_kldb_misaligned hc hl hal

/-! ### A control core whose context has a write pending in a chunk -/

/-- A control core whose executing context has a pending write of RFH in its chunk, as no control core that runs has
one (R339): its writes take effect at once. -/
def pendingControlCore : State :=
  State.reset.modCx fun y => { y with chunk := { y.chunk with pend := [.reg .rfh 1] } }

/-- CRW of RFH sets the register of the core, and the context goes on seeing what its chunk has pending. -/
theorem crw_pendingControlCore : ∃ t, exec (.crw 0 0x00B 0) pendingControlCore = .next t ∧ t.ctl = true ∧
    t.view.coreReg .rfh = 1 :=
  ⟨_, rfl, by decide, by decide⟩

/-- Refutes O10: where the executing context of a control core has a write of RFH pending, CRW of RFH changes the core's
register and not what the context sees. -/
theorem not_controlRegistersReadAndWrite : ¬ Obligations.ControlRegistersReadAndWrite := by
  unfold Obligations.ControlRegistersReadAndWrite
  rintro ⟨-, h⟩
  obtain ⟨-, hw⟩ := h pendingControlCore 0 0 (0x00B, 0xFFFF_FFFF_FFFF, .rfh) (by decide)
  obtain ⟨-, hw⟩ := hw (.crw 0 0x00B 0, 0) (by decide)
  obtain ⟨t, ht, -, hview, -⟩ := hw (by decide)
  obtain ⟨u, hu, hctl, hseen⟩ := crw_pendingControlCore
  have e : t = u := State.eq_settle_of_ctl hctl (Host.Outcome.next.inj (hu.symm.trans ht))
  rw [e, hseen] at hview
  exact absurd hview (by decide)

end Sys2Proof.Machine
end

section
/-! PROOF. The state at READY (R11, R479). -/

set_option Elab.async false

namespace Sys2Proof.Machine

open Sys2Proof.Claims

/-- At READY a core is the hypervisor's, or stands at its Reset values. -/
theorem core_reset_of_ne {d : Nat} (h : d ≠ controlCore Config.firstControlCore) : State.reset.core d = Core.reset := by
  simp [State.core, State.reset, Tab.get, Tab.look, h]

theorem core_reset_first : State.reset.core (controlCore Config.firstControlCore) = hypervisorCore := by
  simp [State.core, State.reset, Tab.get, Tab.look]

theorem bank_absent_reset (d : Nat) : (State.reset.bank d).kst = .absent := by
  unfold State.bank
  by_cases h : d = controlCore Config.firstControlCore
  · rw [h, core_reset_first]
    rfl
  · rw [core_reset_of_ne h]
    rfl

theorem ctx_free_reset {d : Nat} {i : Fin 4} (h : (d, i) ≠ (controlCore Config.firstControlCore, 0)) :
    (State.reset.ctx d i).st = .free := by
  unfold State.ctx
  by_cases hd : d = controlCore Config.firstControlCore
  · rw [hd, core_reset_first]
    have hi : i ≠ 0 := fun hi => h (by rw [hd, hi])
    fin_cases i
    · exact absurd rfl hi
    · rfl
    · rfl
    · rfl
  · rw [core_reset_of_ne hd]
    fin_cases i <;> rfl

theorem resetIsTheModuleAtReady : ResetIsTheModuleAtReady := by
  refine ⟨rfl, rfl, rfl, fun _ => rfl, bank_absent_reset, ?_, ?_, ?_, fun _ _ h => ctx_free_reset h,
    fun _ => ⟨rfl, fun _ => rfl⟩⟩
  · rw [State.ctx, core_reset_first]
    rfl
  · rw [State.ctx, core_reset_first]
    rfl
  · rw [core_reset_first]
    rfl

/-- Settles O59: the state at READY lists the hypervisor's core and nothing else. -/
theorem resetHasTheInvariants : Obligations.ResetHasTheInvariants :=
  ⟨resetIsTheModuleAtReady, rfl, registersInRange_reset⟩

end Sys2Proof.Machine
end

section
/-! PROOF. Rounding (R36, R37, R39): the model's rounding is rounding to nearest, ties to even, of the exact value that its mantissa,
exponent and sticky bit stand for. It is stated over an ordered field, so that rational results and square roots share it. -/

set_option Elab.async false

namespace Sys2Proof.Machine

open Sys2Proof.Claims

section Rounding

set_option linter.unusedSectionVars false

variable {K : Type} [Field K] [LinearOrder K] [IsStrictOrderedRing K] [FloorSemiring K]

/-! ### The nearest natural number, ties to even -/

/-- The natural number nearest to x, the even one of two. -/
def nearEven (x : K) : Nat :=
  if 1 < 2 * (x - ⌊x⌋₊) ∨ (2 * (x - ⌊x⌋₊) = 1 ∧ ⌊x⌋₊ % 2 = 1) then ⌊x⌋₊ + 1 else ⌊x⌋₊

theorem nearEven_natCast (n : Nat) : nearEven (n : K) = n := by simp [nearEven]

/-- It is the floor or the number above it, whichever is nearer, and even where neither is. -/
theorem nearEven_cases (x : K) :
    (nearEven x = ⌊x⌋₊ ∧ 2 * (x - ⌊x⌋₊) ≤ 1 ∧ (2 * (x - ⌊x⌋₊) = 1 → ⌊x⌋₊ % 2 = 0)) ∨
    (nearEven x = ⌊x⌋₊ + 1 ∧ 1 ≤ 2 * (x - ⌊x⌋₊) ∧ (2 * (x - ⌊x⌋₊) = 1 → ⌊x⌋₊ % 2 = 1)) := by
  unfold nearEven
  split
  · next h =>
    rcases h with h | ⟨h, ho⟩
    · exact .inr ⟨rfl, h.le, fun e => absurd e h.ne'⟩
    · exact .inr ⟨rfl, h.ge, fun _ => ho⟩
  · next h =>
    obtain ⟨h1, h2⟩ := not_or.1 h
    exact .inl ⟨rfl, not_lt.1 h1, fun e => Nat.mod_two_ne_one.1 fun o => h2 ⟨e, o⟩⟩

theorem nearEven_le_succ_floor (x : K) : nearEven x ≤ ⌊x⌋₊ + 1 := by
  rcases nearEven_cases x with ⟨h, -⟩ | ⟨h, -⟩ <;> omega

theorem floor_le_nearEven (x : K) : ⌊x⌋₊ ≤ nearEven x := by
  rcases nearEven_cases x with ⟨h, -⟩ | ⟨h, -⟩ <;> omega

/-- An even bound is reached from its lower midpoint on. -/
theorem le_nearEven_iff {x : K} (hx : 0 ≤ x) {n : Nat} (hn : n % 2 = 0) : n ≤ nearEven x ↔ 2 * (n : K) ≤ 2 * x + 1 := by
  have hf := Nat.floor_le hx
  have hl := Nat.lt_floor_add_one x
  rcases lt_trichotomy n (⌊x⌋₊ + 1) with h | h | h
  · have hc : (n : K) ≤ ⌊x⌋₊ := by exact_mod_cast Nat.lt_succ_iff.1 h
    exact iff_of_true ((Nat.lt_succ_iff.1 h).trans (floor_le_nearEven x)) (by linarith)
  · have hc : (n : K) = ⌊x⌋₊ + 1 := by exact_mod_cast h
    rcases nearEven_cases x with ⟨he, hle, ho⟩ | ⟨he, hle, -⟩
    · refine iff_of_false (by omega) fun h2 => ?_
      have := ho (le_antisymm hle (by linarith))
      omega
    · exact iff_of_true (by omega) (by linarith)
  · have hc : ((⌊x⌋₊ + 1 + 1 : Nat) : K) ≤ n := by exact_mod_cast h
    push_cast at hc
    exact iff_of_false (by have := nearEven_le_succ_floor x; omega) (by linarith)

/-- Shifting right with a sticky part below the last place rounds the quotient. -/
theorem roundShift_eq {m sh : Nat} {sticky : Bool} {d : K} (h0 : 0 ≤ d) (h1 : d < 1) (hs : sticky = true ↔ 0 < d)
    (hsh : sticky = true → sh ≠ 0) : roundShift m sh sticky = nearEven (((m : K) + d) / 2 ^ sh) := by
  unfold roundShift
  split
  · next h =>
    have hd : d = 0 := le_antisymm (not_lt.1 fun hd => hsh (hs.2 hd) h) h0
    rw [hd, h, add_zero, pow_zero, div_one, nearEven_natCast]
  · next h =>
    have hpow : (2 : Nat) ^ sh = 2 * 2 ^ (sh - 1) := by rw [← pow_succ', Nat.sub_add_cancel (Nat.pos_of_ne_zero h)]
    have hK : (2 : K) ^ sh = 2 * 2 ^ (sh - 1) := by exact_mod_cast hpow
    have hhalf : (0 : K) < 2 ^ (sh - 1) := by positivity
    have hm : (m : K) = 2 ^ sh * (m / 2 ^ sh : Nat) + (m % 2 ^ sh : Nat) := by exact_mod_cast (Nat.div_add_mod m (2 ^ sh)).symm
    have hr : ((m % 2 ^ sh : Nat) : K) + 1 ≤ 2 ^ sh := by exact_mod_cast Nat.mod_lt m (by positivity)
    have hfl : ⌊((m : K) + d) / 2 ^ sh⌋₊ = m / 2 ^ sh := by
      rw [Nat.floor_eq_iff (by positivity), le_div_iff₀ (by positivity), div_lt_iff₀ (by positivity), hm]
      constructor <;> nlinarith [Nat.cast_nonneg (α := K) (m % 2 ^ sh)]
    have hx : 2 * (((m : K) + d) / 2 ^ sh - (m / 2 ^ sh : Nat)) = ((m % 2 ^ sh : Nat) + d) / 2 ^ (sh - 1) := by
      rw [hm, hK]
      field_simp
      ring
    have hup : 2 ^ (sh - 1) < m % 2 ^ sh ∨ (m % 2 ^ sh = 2 ^ (sh - 1) ∧ (sticky = true ∨ m / 2 ^ sh % 2 = 1)) ↔
        1 < ((m % 2 ^ sh : Nat) + d) / 2 ^ (sh - 1) ∨
          (((m % 2 ^ sh : Nat) + d) / 2 ^ (sh - 1) = 1 ∧ m / 2 ^ sh % 2 = 1) := by
      rw [lt_div_iff₀ hhalf, div_eq_one_iff_eq hhalf.ne', one_mul]
      rcases lt_trichotomy (m % 2 ^ sh) (2 ^ (sh - 1)) with hlt | heq | hgt
      · have : ((m % 2 ^ sh : Nat) : K) + 1 ≤ 2 ^ (sh - 1) := by exact_mod_cast hlt
        exact iff_of_false (by omega) (by rintro (h | ⟨h, -⟩) <;> linarith)
      · have : ((m % 2 ^ sh : Nat) : K) = 2 ^ (sh - 1) := by exact_mod_cast heq
        rw [this, hs]
        simp [heq]
        rcases h0.eq_or_lt with rfl | hd
        · simp
        · simp [hd]
      · have : (2 : K) ^ (sh - 1) + 1 ≤ (m % 2 ^ sh : Nat) := by exact_mod_cast hgt
        exact iff_of_true (.inl hgt) (.inl (by linarith))
    simp only [nearEven, hfl, hx, hup]

/-! ### Encodings of magnitudes -/

/-- A format with a quiet bit and a normal binade. -/
structure Fmt.Usable (f : Fmt) : Prop where
  prec : 2 ≤ f.prec
  ebits : 2 ≤ f.ebits

/-- The number an encoding without a sign stands for; that of infinity continues the scale. -/
def Fmt.magVal (K : Type) [Field K] (f : Fmt) (n : Nat) : K :=
  if n / 2 ^ (f.prec - 1) = 0 then (n : K) * 2 ^ f.qmin
  else ((n % 2 ^ (f.prec - 1) + 2 ^ (f.prec - 1) : Nat) : K) * 2 ^ (f.qmin + ((n / 2 ^ (f.prec - 1) : Nat) - 1 : Int))

/-- The last place of a magnitude rounded to a format. -/
def Fmt.lastPlace (f : Fmt) (q : K) : Int := max (Int.log 2 q - (f.prec - 1 : Nat)) f.qmin

/-- The encoding of a magnitude rounded to nearest even, as though the exponents had no end. -/
def Fmt.mag (f : Fmt) (q : K) : Nat :=
  (f.lastPlace q - f.qmin).toNat * 2 ^ (f.prec - 1) + nearEven (q / 2 ^ f.lastPlace q)

variable {f : Fmt}

/-- Binade c holds the multiples of its last place up to the next binade's first number. -/
theorem Fmt.magVal_eq (hf : f.Usable) {c m : Nat} (hm : m ≤ 2 ^ f.prec) (hc : c = 0 ∨ 2 ^ (f.prec - 1) ≤ m) :
    f.magVal K (c * 2 ^ (f.prec - 1) + m) = m * 2 ^ (f.qmin + c) := by
  have hp : (2 : Nat) ^ f.prec = 2 * 2 ^ (f.prec - 1) := by
    rw [← pow_succ', Nat.sub_add_cancel (by have := hf.prec; omega)]
  have hpos : 0 < 2 ^ (f.prec - 1) := by positivity
  unfold magVal
  rw [Nat.mul_comm c, Nat.mul_add_div hpos, Nat.mul_add_mod]
  rcases lt_or_ge m (2 ^ (f.prec - 1)) with h | h
  · obtain rfl : c = 0 := hc.resolve_right (by omega)
    simp [Nat.div_eq_of_lt h]
  · rcases hm.lt_or_eq with h2 | h2
    · have hd : m / 2 ^ (f.prec - 1) = 1 := Nat.div_eq_of_lt_le (by omega) (by omega)
      have hr : m % 2 ^ (f.prec - 1) + 2 ^ (f.prec - 1) = m := by
        rw [Nat.mod_eq_sub_mod h, Nat.mod_eq_of_lt (by omega)]; omega
      rw [if_neg (by omega), hd, hr]
      push_cast
      congr 2
      ring
    · have hd : m / 2 ^ (f.prec - 1) = 2 := by rw [h2, hp]; exact Nat.mul_div_cancel _ hpos
      have hr : m % 2 ^ (f.prec - 1) = 0 := by rw [h2, hp]; exact Nat.mul_mod_left _ _
      rw [if_neg (by omega), hd, hr, h2, hp, zero_add]
      push_cast
      rw [show f.qmin + ((c : Int) + 2 - 1) = f.qmin + c + 1 by ring, zpow_add_one₀ two_ne_zero]
      ring

/-- Every magnitude is a multiple in a binade. -/
theorem Fmt.exists_binade (hf : f.Usable) (n : Nat) : ∃ c m, n = c * 2 ^ (f.prec - 1) + m ∧ m < 2 ^ f.prec ∧
    (c = 0 ∨ 2 ^ (f.prec - 1) ≤ m) := by
  have hp : (2 : Nat) ^ f.prec = 2 * 2 ^ (f.prec - 1) := by
    rw [← pow_succ', Nat.sub_add_cancel (by have := hf.prec; omega)]
  have hdm := Nat.div_add_mod n (2 ^ (f.prec - 1))
  have hlt := Nat.mod_lt n (y := 2 ^ (f.prec - 1)) (by positivity)
  rcases Nat.eq_zero_or_pos (n / 2 ^ (f.prec - 1)) with h | h
  · rw [h] at hdm
    exact ⟨0, n, by omega, by omega, .inl rfl⟩
  · obtain ⟨c, hc⟩ := Nat.exists_eq_succ_of_ne_zero h.ne'
    refine ⟨c, n % 2 ^ (f.prec - 1) + 2 ^ (f.prec - 1), ?_, by omega, .inr (by omega)⟩
    rw [hc, Nat.mul_succ, Nat.mul_comm] at hdm
    omega

theorem Fmt.magVal_strictMono (hf : f.Usable) : StrictMono (f.magVal K) := by
  refine strictMono_nat_of_lt_succ fun n => ?_
  obtain ⟨c, m, rfl, hm, hc⟩ := Fmt.exists_binade hf n
  rw [Nat.add_assoc, Fmt.magVal_eq hf hm.le hc, Fmt.magVal_eq hf hm (by omega)]
  exact mul_lt_mul_of_pos_right (by exact_mod_cast Nat.lt_succ_self m) (by positivity)

@[simp] theorem Fmt.magVal_zero : f.magVal K 0 = 0 := by simp [magVal]

theorem Fmt.magVal_nonneg (hf : f.Usable) (n : Nat) : 0 ≤ f.magVal K n := by
  rw [← Fmt.magVal_zero (K := K) (f := f)]
  exact (Fmt.magVal_strictMono hf).monotone (Nat.zero_le n)

/-! ### The rounded magnitude -/

/-- The quotient by the last place lies below 2^prec, and from 2^(prec − 1) on except in the lowest binade. -/
theorem Fmt.lastPlace_bounds (hf : f.Usable) {q : K} (hq : 0 < q) :
    q / 2 ^ f.lastPlace q < 2 ^ f.prec ∧
      ((f.lastPlace q - f.qmin).toNat = 0 ∨ 2 ^ (f.prec - 1) ≤ q / 2 ^ f.lastPlace q) := by
  have hp := hf.prec
  constructor
  · rw [div_lt_iff₀ (by positivity), ← zpow_natCast, ← zpow_add₀ two_ne_zero]
    refine (Int.lt_zpow_succ_log_self (b := 2) one_lt_two q).trans_le (zpow_le_zpow_right₀ one_le_two ?_)
    have := le_max_left (Int.log 2 q - (f.prec - 1 : Nat)) f.qmin
    rw [← lastPlace] at this
    omega
  · rcases le_total (Int.log 2 q - (f.prec - 1 : Nat)) f.qmin with h | h
    · exact .inl (by rw [lastPlace, max_eq_right h]; omega)
    · right
      rw [lastPlace, max_eq_left h, le_div_iff₀ (by positivity), ← zpow_natCast, ← zpow_add₀ two_ne_zero]
      simpa using Int.zpow_log_le_self (b := 2) one_lt_two hq

theorem Fmt.qmin_add_toNat (q : K) : f.qmin + ((f.lastPlace q - f.qmin).toNat : Int) = f.lastPlace q := by
  have := le_max_right (Int.log 2 q - (f.prec - 1 : Nat)) f.qmin
  rw [← lastPlace] at this
  omega

/-- The two magnitudes around q, the lower one no greater than q. -/
theorem Fmt.bracket (hf : f.Usable) {q : K} (hq : 0 < q) :
    let b := (f.lastPlace q - f.qmin).toNat * 2 ^ (f.prec - 1) + ⌊q / 2 ^ f.lastPlace q⌋₊
    f.magVal K b = ⌊q / 2 ^ f.lastPlace q⌋₊ * 2 ^ f.lastPlace q ∧
    f.magVal K (b + 1) = (⌊q / 2 ^ f.lastPlace q⌋₊ + 1) * 2 ^ f.lastPlace q := by
  obtain ⟨hlt, hge⟩ := Fmt.lastPlace_bounds hf hq
  have hq0 : 0 ≤ q / 2 ^ f.lastPlace q := by positivity
  have hk : ⌊q / 2 ^ f.lastPlace q⌋₊ < 2 ^ f.prec := by
    rw [Nat.floor_lt hq0]
    exact_mod_cast hlt
  have hk2 : (f.lastPlace q - f.qmin).toNat = 0 ∨ 2 ^ (f.prec - 1) ≤ ⌊q / 2 ^ f.lastPlace q⌋₊ :=
    hge.imp_right fun h => Nat.le_floor (by exact_mod_cast h)
  constructor
  · rw [Fmt.magVal_eq hf hk.le hk2, Fmt.qmin_add_toNat]
  · rw [Nat.add_assoc, Fmt.magVal_eq hf hk (by omega), Fmt.qmin_add_toNat]
    push_cast
    rfl

/-- The value of the rounded magnitude. -/
theorem Fmt.magVal_mag (hf : f.Usable) {q : K} (hq : 0 < q) :
    f.magVal K (f.mag q) = nearEven (q / 2 ^ f.lastPlace q) * 2 ^ f.lastPlace q := by
  obtain ⟨hb, hb1⟩ := Fmt.bracket hf hq
  rcases nearEven_cases (q / 2 ^ f.lastPlace q) with ⟨h, -⟩ | ⟨h, -⟩
  · rw [mag, h, hb]
  · rw [mag, h, ← Nat.add_assoc, hb1]
    push_cast
    rfl

theorem Fmt.mag_mod_two (hf : f.Usable) (q : K) : f.mag q % 2 = nearEven (q / 2 ^ f.lastPlace q) % 2 := by
  have : (2 : Nat) ^ (f.prec - 1) = 2 * 2 ^ (f.prec - 2) := by
    rw [← pow_succ']
    congr 1
    have := hf.prec
    omega
  rw [mag, this, Nat.mul_left_comm, Nat.mul_add_mod]

/-- No magnitude is nearer to q than the rounded one, and one as near has an odd encoding. -/
theorem Fmt.mag_nearest (hf : f.Usable) {q : K} (hq : 0 < q) (n : Nat) :
    |f.magVal K (f.mag q) - q| ≤ |f.magVal K n - q| ∧
      (|f.magVal K n - q| = |f.magVal K (f.mag q) - q| → n ≠ f.mag q → f.mag q % 2 = 0) := by
  obtain ⟨hb, hb1⟩ := Fmt.bracket hf hq
  have hpos : (0 : K) < 2 ^ f.lastPlace q := by positivity
  have hval := Fmt.magVal_mag hf hq
  have heven := Fmt.mag_mod_two hf q
  have hmag : f.mag q = (f.lastPlace q - f.qmin).toNat * 2 ^ (f.prec - 1) + nearEven (q / 2 ^ f.lastPlace q) := rfl
  have hqx : q = q / 2 ^ f.lastPlace q * 2 ^ f.lastPlace q := (div_mul_cancel₀ _ hpos.ne').symm
  have hx0 : 0 ≤ q / 2 ^ f.lastPlace q := by positivity
  generalize q / 2 ^ f.lastPlace q = x at *
  generalize (2 : K) ^ f.lastPlace q = u at *
  generalize (f.lastPlace q - f.qmin).toNat * 2 ^ (f.prec - 1) = b at *
  have hfl := mul_le_mul_of_nonneg_right (Nat.floor_le hx0) hpos.le
  have hlt := mul_lt_mul_of_pos_right (Nat.lt_floor_add_one x) hpos
  have hup : b + ⌊x⌋₊ + 1 ≤ n → (⌊x⌋₊ + 1) * u ≤ f.magVal K n ∧ ((⌊x⌋₊ + 1) * u = f.magVal K n → b + ⌊x⌋₊ + 1 = n) :=
    fun h => by
      rw [← hb1]
      exact ⟨(Fmt.magVal_strictMono hf).monotone h, fun e => (Fmt.magVal_strictMono hf).injective e⟩
  have hdn : n ≤ b + ⌊x⌋₊ → f.magVal K n ≤ ⌊x⌋₊ * u ∧ (f.magVal K n = ⌊x⌋₊ * u → n = b + ⌊x⌋₊) := fun h => by
    rw [← hb]
    exact ⟨(Fmt.magVal_strictMono hf).monotone h, fun e => (Fmt.magVal_strictMono hf).injective e⟩
  rw [hval]
  rcases nearEven_cases x with ⟨hn, hh, ho⟩ | ⟨hn, hh, ho⟩
  · have hd : |(nearEven x : K) * u - q| = q - ⌊x⌋₊ * u := by
      rw [hn, abs_of_nonpos (by linarith)]; ring
    have hmid : q - ⌊x⌋₊ * u ≤ (⌊x⌋₊ + 1) * u - q := by nlinarith
    rcases le_or_gt n (b + ⌊x⌋₊) with h | h
    · obtain ⟨h1, h2⟩ := hdn h
      rw [hd, abs_of_nonpos (by linarith)]
      exact ⟨by linarith, fun e hne => absurd (h2 (by linarith)) (by omega)⟩
    · obtain ⟨h1, h2⟩ := hup h
      rw [hd, abs_of_nonneg (by linarith)]
      refine ⟨by linarith, fun e _ => ?_⟩
      rw [heven, hn]
      exact ho (mul_right_cancel₀ hpos.ne' (by linarith))
  · have hd : |(nearEven x : K) * u - q| = (⌊x⌋₊ + 1) * u - q := by
      rw [hn, abs_of_nonneg (by push_cast; linarith)]; push_cast; rfl
    have hmid : (⌊x⌋₊ + 1) * u - q ≤ q - ⌊x⌋₊ * u := by nlinarith
    rcases le_or_gt n (b + ⌊x⌋₊) with h | h
    · obtain ⟨h1, h2⟩ := hdn h
      rw [hd, abs_of_nonpos (by linarith)]
      refine ⟨by linarith, fun e _ => ?_⟩
      have := ho (mul_right_cancel₀ hpos.ne' (by linarith))
      omega
    · obtain ⟨h1, h2⟩ := hup h
      rw [hd, abs_of_nonneg (by linarith)]
      exact ⟨by linarith, fun e hne => absurd (h2 (by linarith)) (by omega)⟩

/-- From here on a magnitude rounds to infinity. -/
def Fmt.overflows (f : Fmt) (q : K) : Prop := (2 - (2 : K) ^ (-(f.prec : Int))) * 2 ^ f.emax ≤ q

theorem Fmt.infBits_eq (hf : f.Usable) :
    f.infBits = (f.emax - (f.prec - 1 : Nat) - f.qmin).toNat * 2 ^ (f.prec - 1) + 2 ^ f.prec := by
  have hp : (2 : Nat) ^ f.prec = 2 * 2 ^ (f.prec - 1) := by
    rw [← pow_succ', Nat.sub_add_cancel (by have := hf.prec; omega)]
  have he : (2 : Nat) ^ f.ebits = 2 * 2 ^ (f.ebits - 1) := by
    rw [← pow_succ', Nat.sub_add_cancel (by have := hf.ebits; omega)]
  have h2 : 2 ≤ (2 : Nat) ^ (f.ebits - 1) := Nat.le_self_pow (by have := hf.ebits; omega) 2
  have hc : f.emax - (f.prec - 1 : Nat) - f.qmin = (2 ^ f.ebits - 3 : Nat) := by
    have := hf.prec
    simp only [qmin, emin, emax]
    omega
  rw [infBits, hc, Int.toNat_natCast, hp, ← Nat.add_mul]
  congr 1
  omega

/-- The rounded magnitude leaves the format exactly from the midpoint below the first number beyond it on. -/
theorem Fmt.infBits_le_mag_iff (hf : f.Usable) {q : K} (hq : 0 < q) : f.infBits ≤ f.mag q ↔ f.overflows q := by
  have hp := hf.prec
  have hpp : (2 : Nat) ^ f.prec = 2 * 2 ^ (f.prec - 1) := by
    rw [← pow_succ', Nat.sub_add_cancel (by omega)]
  obtain ⟨hlt, hge⟩ := Fmt.lastPlace_bounds hf hq
  have hx0 : 0 ≤ q / 2 ^ f.lastPlace q := by positivity
  have hpos : (0 : K) < 2 ^ f.lastPlace q := by positivity
  have hle : nearEven (q / 2 ^ f.lastPlace q) ≤ 2 ^ f.prec := by
    refine (nearEven_le_succ_floor _).trans ?_
    rw [Nat.succ_le_iff, Nat.floor_lt hx0]
    exact_mod_cast hlt
  have htop : f.qmin < f.emax - (f.prec - 1 : Nat) := by
    have h2 : 2 ≤ (2 : Nat) ^ (f.ebits - 1) := Nat.le_self_pow (by have := hf.ebits; omega) 2
    simp only [qmin, emin, emax]
    omega
  have hqm := le_max_right (Int.log 2 q - (f.prec - 1 : Nat)) f.qmin
  rw [← lastPlace] at hqm
  rw [Fmt.infBits_eq hf, mag, overflows]
  rcases lt_trichotomy (f.lastPlace q) (f.emax - (f.prec - 1 : Nat)) with h | h | h
  · refine iff_of_false ?_ ?_
    · have : ((f.lastPlace q - f.qmin).toNat + 1) * 2 ^ (f.prec - 1) ≤
        (f.emax - (f.prec - 1 : Nat) - f.qmin).toNat * 2 ^ (f.prec - 1) := Nat.mul_le_mul_right _ (by omega)
      rw [Nat.succ_mul] at this
      have : 0 < 2 ^ (f.prec - 1) := by positivity
      omega
    · rw [not_le]
      rw [div_lt_iff₀ hpos, ← zpow_natCast, ← zpow_add₀ two_ne_zero] at hlt
      have h1 : (2 : K) ^ (-(f.prec : Int)) ≤ 1 := zpow_le_one_of_nonpos₀ one_le_two (by omega)
      have h2 : (2 : K) ^ ((f.prec : Int) + f.lastPlace q) ≤ 2 ^ f.emax := zpow_le_zpow_right₀ one_le_two (by omega)
      have h3 : (0 : K) < 2 ^ f.emax := by positivity
      nlinarith
  · rw [← h, Nat.add_le_add_iff_left, le_nearEven_iff hx0 (by omega)]
    have he : (2 : K) ^ f.emax = 2 ^ f.prec * 2 ^ f.lastPlace q / 2 := by
      rw [h, ← zpow_natCast, ← zpow_add₀ two_ne_zero, eq_div_iff two_ne_zero, ← zpow_add_one₀ two_ne_zero]
      congr 1
      omega
    have hm : (2 : K) ^ (-(f.prec : Int)) * 2 ^ f.prec = 1 := by
      rw [← zpow_natCast, ← zpow_add₀ two_ne_zero]; simp
    have hq2 : q = q / 2 ^ f.lastPlace q * 2 ^ f.lastPlace q := (div_mul_cancel₀ _ hpos.ne').symm
    generalize q / 2 ^ f.lastPlace q = x at *
    generalize (2 : K) ^ f.lastPlace q = u at *
    rw [he, hq2, show (2 - (2 : K) ^ (-(f.prec : Int))) * (2 ^ f.prec * u / 2) =
      (2 ^ f.prec - 2 ^ (-(f.prec : Int)) * 2 ^ f.prec / 2) * u by ring, hm, mul_le_mul_iff_left₀ hpos]
    push_cast
    constructor <;> intro h <;> linarith
  · refine iff_of_true ?_ ?_
    · have : ((f.emax - (f.prec - 1 : Nat) - f.qmin).toNat + 1) * 2 ^ (f.prec - 1) ≤
        (f.lastPlace q - f.qmin).toNat * 2 ^ (f.prec - 1) := Nat.mul_le_mul_right _ (by omega)
      rw [Nat.succ_mul] at this
      have : 2 ^ (f.prec - 1) ≤ nearEven (q / 2 ^ f.lastPlace q) :=
        (Nat.le_floor (by exact_mod_cast hge.resolve_left (by omega))).trans (floor_le_nearEven _)
      omega
    · have := hge.resolve_left (by omega)
      rw [le_div_iff₀ hpos, ← zpow_natCast, ← zpow_add₀ two_ne_zero] at this
      have h1 : (0 : K) < 2 ^ (-(f.prec : Int)) := by positivity
      have h2 : (2 : K) ^ (f.emax + 1) ≤ 2 ^ (((f.prec - 1 : Nat) : Int) + f.lastPlace q) :=
        zpow_le_zpow_right₀ one_le_two (by omega)
      have h3 : (0 : K) < 2 ^ f.emax := by positivity
      rw [zpow_add_one₀ two_ne_zero] at h2
      nlinarith

/-! ### The model's rounding -/

/-- Below here a magnitude is tiny after rounding (R37). -/
abbrev Fmt.isTiny (f : Fmt) (q : K) : Prop := q < (2 - (2 : K) ^ (-(f.prec : Int))) * 2 ^ (-f.emax)

/-- The encoding and the flags of a magnitude rounded to a format, under a sign (R37). -/
def Fmt.roundMag (f : Fmt) (neg : Bool) (q : K) : Nat × Flags :=
  if q = 0 then (f.sign neg, 0)
  else if f.infBits ≤ f.mag q then (f.sign neg + f.infBits, 5)
  else (f.sign neg + f.mag q, if f.magVal K (f.mag q) = q then 0 else if f.isTiny q then 3 else 1)

/-- The binade of a number given by its leading bits. -/
theorem log_mul_zpow {m : Nat} (hm : m ≠ 0) (e : Int) {d : K} (h0 : 0 ≤ d) (h1 : d < 1) :
    Int.log 2 (((m : K) + d) * 2 ^ e) = e + (Nat.log2 m : Int) := by
  have hlo : (2 : K) ^ Nat.log2 m ≤ m := by exact_mod_cast Nat.log2_self_le hm
  have hhi : (m : K) + 1 ≤ 2 ^ (Nat.log2 m + 1) := by exact_mod_cast Nat.lt_log2_self
  have he : (0 : K) < 2 ^ e := by positivity
  have hq : 0 < ((m : K) + d) * 2 ^ e := mul_pos (by have : (0 : K) < 2 ^ Nat.log2 m := by positivity
                                                     linarith) he
  apply le_antisymm
  · rw [← Int.lt_add_one_iff, ← Int.lt_zpow_iff_log_lt one_lt_two hq]
    rw [show e + (Nat.log2 m : Int) + 1 = ((Nat.log2 m + 1 : Nat) : Int) + e by push_cast; ring, Nat.cast_ofNat,
      zpow_add₀ two_ne_zero, zpow_natCast]
    exact mul_lt_mul_of_pos_right (by linarith) he
  · rw [← Int.zpow_le_iff_le_log one_lt_two hq, Nat.cast_ofNat, add_comm, zpow_add₀ two_ne_zero, zpow_natCast]
    exact mul_le_mul_of_nonneg_right (by linarith) he.le

section

variable {m : Nat} {e : Int} {sticky : Bool} {d : K}

/-- A part below the last place, of which the model keeps only whether there is one. -/
structure Sticks (sticky : Bool) (d : K) : Prop where
  nonneg : 0 ≤ d
  lt_one : d < 1
  iff : sticky = true ↔ 0 < d

theorem Sticks.none : Sticks false (0 : K) := ⟨le_rfl, one_pos, by simp⟩

/-- The mantissa at a place, with what lies below it rounded away. -/
theorem roundShift_place (h : Sticks sticky d) {t : Int} (ht : sticky = true → e < t) :
    roundShift (m * 2 ^ (e - t).toNat) (t - e).toNat sticky = nearEven (((m : K) + d) * 2 ^ e / 2 ^ t) := by
  rcases lt_or_ge e t with hlt | hge
  · rw [Int.toNat_of_nonpos (by omega : e - t ≤ 0), pow_zero, Nat.mul_one,
      roundShift_eq h.nonneg h.lt_one h.iff (fun _ => by omega), mul_div_assoc, ← zpow_sub₀ two_ne_zero,
      ← zpow_natCast, div_eq_mul_inv, ← zpow_neg, Int.toNat_of_nonneg (by omega), neg_sub]
  · have hs : sticky = false := by
      cases sticky
      · rfl
      · exact absurd (ht rfl) (by omega)
    have hd : d = 0 := le_antisymm (not_lt.1 fun hd => by simp [h.iff.2 hd] at hs) h.nonneg
    rw [Int.toNat_of_nonpos (by omega : t - e ≤ 0), roundShift, if_pos rfl, hd, add_zero, mul_div_assoc,
      ← zpow_sub₀ two_ne_zero, ← nearEven_natCast (K := K) (m * 2 ^ (e - t).toNat)]
    push_cast
    rw [← zpow_natCast, Int.toNat_of_nonneg (by omega)]

theorem Sticks.eq_zero (h : Sticks sticky d) (hs : sticky = false) : d = 0 :=
  le_antisymm (not_lt.1 fun hd => by simp [h.iff.2 hd] at hs) h.nonneg

/-- The model's last place. -/
theorem Fmt.place_eq (q : K) (hf : f.Usable) :
    (if Int.log 2 q - ((f.prec : Int) - 1) < f.qmin then f.qmin else Int.log 2 q - ((f.prec : Int) - 1)) =
      f.lastPlace q := by
  have hp : ((f.prec - 1 : Nat) : Int) = (f.prec : Int) - 1 := by have := hf.prec; omega
  rw [lastPlace, hp, max_def]
  split <;> split <;> omega

/-- A part below m's last place is there, or m has low bits, exactly where the rounded number is another one. -/
theorem inexact_iff (h : Sticks sticky d) {t : Int} (ht : sticky = true → e < t) :
    (sticky || decide (m % 2 ^ (t - e).toNat ≠ 0)) = true ↔
      (nearEven (((m : K) + d) * 2 ^ e / 2 ^ t) : K) * 2 ^ t ≠ (m + d) * 2 ^ e := by
  have hpos : (0 : K) < 2 ^ t := by positivity
  rw [← not_iff_not, not_ne_iff, Bool.not_eq_true, Bool.or_eq_false_iff, decide_eq_false_iff_not, not_not]
  constructor
  · rintro ⟨hs, hm⟩
    rw [h.eq_zero hs, add_zero]
    have : ∃ k : Nat, (m : K) * 2 ^ e / 2 ^ t = k := by
      rw [mul_div_assoc, ← zpow_sub₀ two_ne_zero]
      rcases le_total e t with hle | hle
      · obtain ⟨k, hk⟩ := Nat.dvd_of_mod_eq_zero hm
        refine ⟨k, ?_⟩
        rw [hk, show e - t = -((t - e).toNat : Int) by omega, zpow_neg, zpow_natCast]
        push_cast
        field_simp
      · refine ⟨m * 2 ^ (e - t).toNat, ?_⟩
        rw [show e - t = ((e - t).toNat : Int) by omega, zpow_natCast]
        push_cast
        rfl
    obtain ⟨k, hk⟩ := this
    rw [hk, nearEven_natCast, ← hk, div_mul_cancel₀ _ hpos.ne']
  · intro heq
    generalize nearEven (((m : K) + d) * 2 ^ e / 2 ^ t) = k at heq
    rcases lt_or_ge e t with hlt | hge
    · have hk : ((k * 2 ^ (t - e).toNat : Nat) : K) = m + d := by
        have he : (0 : K) < 2 ^ e := by positivity
        apply mul_right_cancel₀ he.ne'
        rw [← heq]
        push_cast
        rw [← zpow_natCast, mul_assoc, ← zpow_add₀ two_ne_zero]
        congr 2
        omega
      have hlo : m ≤ k * 2 ^ (t - e).toNat := by
        have : (m : K) ≤ (k * 2 ^ (t - e).toNat : Nat) := by rw [hk]; linarith [h.nonneg]
        exact_mod_cast this
      have hhi : k * 2 ^ (t - e).toNat < m + 1 := by
        have : ((k * 2 ^ (t - e).toNat : Nat) : K) < (m + 1 : Nat) := by rw [hk]; push_cast; linarith [h.lt_one]
        exact_mod_cast this
      have hm : m = k * 2 ^ (t - e).toNat := by omega
      refine ⟨?_, by rw [hm]; exact Nat.mul_mod_left _ _⟩
      rw [← Bool.not_eq_true, h.iff, not_lt]
      rw [← hm] at hk
      linarith
    · refine ⟨?_, by rw [Int.toNat_of_nonpos (by omega), pow_zero, Nat.mod_one]⟩
      rw [← Bool.not_eq_true]
      exact fun hs => absurd (ht hs) (by omega)

/-- The model's test for tininess is on the number rounded with exponents without end (R37). -/
theorem Fmt.tiny_iff (hf : f.Usable) (h : Sticks sticky d) (hm : m ≠ 0) (hs : sticky = true → 2 ^ (f.prec + 1) ≤ m) :
    (decide (e + (Nat.log2 m : Int) < f.emin) && !(decide (e + (Nat.log2 m : Int) = f.emin - 1) &&
      decide (roundShift (m * 2 ^ (e - (e + (Nat.log2 m : Int) - ((f.prec : Int) - 1))).toNat)
        ((e + (Nat.log2 m : Int) - ((f.prec : Int) - 1)) - e).toNat sticky = 2 ^ f.prec))) = true ↔
      f.isTiny (((m : K) + d) * 2 ^ e) := by
  have hp := hf.prec
  have hpp : (2 : Nat) ^ f.prec = 2 * 2 ^ (f.prec - 1) := by
    rw [← pow_succ', Nat.sub_add_cancel (by omega)]
  have hsl : sticky = true → e < e + (Nat.log2 m : Int) - ((f.prec : Int) - 1) := fun hs' => by
    have := (Nat.le_log2 hm).2 (hs hs')
    omega
  have hlog := log_mul_zpow hm e h.nonneg h.lt_one
  have hq : 0 < ((m : K) + d) * 2 ^ e := by
    have : (1 : K) ≤ m := by exact_mod_cast Nat.one_le_iff_ne_zero.2 hm
    exact mul_pos (by linarith [h.nonneg]) (by positivity)
  rw [roundShift_place h hsl, ← hlog]
  generalize ((m : K) + d) * 2 ^ e = q at hq ⊢
  have hemin : f.emin = -f.emax + 1 := by rw [emin]; ring
  have hbound : (2 - (2 : K) ^ (-(f.prec : Int))) * 2 ^ (-f.emax) = 2 ^ f.emin - 2 ^ (f.emin - f.prec) / 2 := by
    rw [hemin, zpow_sub₀ two_ne_zero, zpow_add_one₀ two_ne_zero, zpow_neg]
    field_simp
  have hsmall : (2 : K) ^ (f.emin - f.prec) ≤ 2 ^ (f.emin - 1) := zpow_le_zpow_right₀ one_le_two (by omega)
  have hhalf : (2 : K) ^ f.emin = 2 * 2 ^ (f.emin - 1) := by
    rw [← zpow_one_add₀ two_ne_zero]
    congr 1
    ring
  have hpos : (0 : K) < 2 ^ (f.emin - f.prec) := by positivity
  rw [isTiny, hbound]
  rcases lt_trichotomy (Int.log 2 q) (f.emin - 1) with hlt | heq | hgt
  · refine iff_of_true (by simp; omega) ?_
    have : q < 2 ^ (f.emin - 1) := (Int.lt_zpow_iff_log_lt (b := 2) one_lt_two hq).2 hlt
    linarith
  · have hx : (0 : K) < 2 ^ (Int.log 2 q - ((f.prec : Int) - 1)) := by positivity
    have hlt : q < 2 ^ (Int.log 2 q + 1) := Int.lt_zpow_succ_log_self (b := 2) one_lt_two q
    have hdiv : q / 2 ^ (Int.log 2 q - ((f.prec : Int) - 1)) < 2 ^ f.prec := by
      rw [div_lt_iff₀ hx, ← zpow_natCast, ← zpow_add₀ two_ne_zero]
      convert hlt using 2
      ring
    have hx0 : 0 ≤ q / 2 ^ (Int.log 2 q - ((f.prec : Int) - 1)) := by positivity
    have hle : nearEven (q / 2 ^ (Int.log 2 q - ((f.prec : Int) - 1))) ≤ 2 ^ f.prec := by
      refine (nearEven_le_succ_floor _).trans ?_
      rw [Nat.succ_le_iff, Nat.floor_lt hx0]
      exact_mod_cast hdiv
    have hdec : decide (Int.log 2 q < f.emin) = true := decide_eq_true (by omega)
    rw [hdec, decide_eq_true heq, Bool.true_and, Bool.true_and, Bool.not_eq_true', decide_eq_false_iff_not,
      hle.ge_iff_eq.symm.not, le_nearEven_iff hx0 (by omega), not_le, ← sub_pos]
    have hu : (2 : K) ^ (Int.log 2 q - ((f.prec : Int) - 1)) = 2 ^ (f.emin - f.prec) := by
      congr 1
      omega
    have he : (2 : K) ^ f.emin = 2 ^ f.prec * 2 ^ (f.emin - f.prec) := by
      rw [← zpow_natCast, ← zpow_add₀ two_ne_zero]
      congr 1
      ring
    rw [hu, he, div_eq_mul_inv]
    push_cast
    rw [sub_pos, ← div_eq_mul_inv, ← lt_sub_iff_add_lt, ← lt_div_iff₀' two_pos, div_lt_iff₀ hpos]
    constructor <;> intro h' <;> linarith
  · refine iff_of_false (by simp; omega) ?_
    have : (2 : K) ^ f.emin ≤ q := (Int.zpow_le_iff_le_log (b := 2) one_lt_two hq).2 (by omega)
    linarith

end

end Rounding
end Sys2Proof.Machine
end

section
/-! PROOF. The rounding's encoding and flags (R37, R39): the fields that `Fmt.round` puts together are the nearest magnitude's. -/

set_option Elab.async false

namespace Sys2Proof.Machine
open Sys2Proof.Claims
section Rounding
set_option linter.unusedSectionVars false
variable {K : Type} [Field K] [LinearOrder K] [IsStrictOrderedRing K] [FloorSemiring K]
variable {f : Fmt} {m : Nat} {e : Int} {sticky : Bool} {d : K}

/-- A mantissa rounded up to the next binade's first number, with its last place there. -/
def Fmt.carry (f : Fmt) (n : Nat) (t : Int) : Nat × Int := if n = 2 ^ f.prec then (2 ^ (f.prec - 1), t + 1) else (n, t)

/-- The encoding the model assembles from a mantissa and its last place (R37). -/
theorem Fmt.assemble_eq (hf : f.Usable) {t : Int} {n : Nat} (ht : f.qmin ≤ t) (hn : n ≤ 2 ^ f.prec)
    (hb : t = f.qmin ∨ 2 ^ (f.prec - 1) ≤ n) (neg : Bool) (fl : Flags) :
    (if f.emax < (f.carry n t).2 + ((f.prec : Int) - 1) ∧ 2 ^ (f.prec - 1) ≤ (f.carry n t).1 then
        (f.sign neg + f.infBits, orF fOF fNX)
      else
        (f.sign neg + if (f.carry n t).1 < 2 ^ (f.prec - 1) then (f.carry n t).1
          else ((f.carry n t).2 - f.qmin + 1).toNat * 2 ^ (f.prec - 1) + ((f.carry n t).1 - 2 ^ (f.prec - 1)), fl)) =
      if f.infBits ≤ (t - f.qmin).toNat * 2 ^ (f.prec - 1) + n then (f.sign neg + f.infBits, 5)
      else (f.sign neg + ((t - f.qmin).toNat * 2 ^ (f.prec - 1) + n), fl) := by
  have hp := hf.prec
  have hpp : (2 : Nat) ^ f.prec = 2 * 2 ^ (f.prec - 1) := by
    rw [← pow_succ', Nat.sub_add_cancel (by omega)]
  have hpos : 0 < 2 ^ (f.prec - 1) := by positivity
  have hinf := Fmt.infBits_eq hf
  have htop : f.qmin < f.emax - (f.prec - 1 : Nat) := by
    have h2 : 2 ≤ (2 : Nat) ^ (f.ebits - 1) := Nat.le_self_pow (by have := hf.ebits; omega) 2
    simp only [qmin, emin, emax]
    omega
  obtain ⟨c, hc⟩ := Int.eq_ofNat_of_zero_le (by omega : 0 ≤ t - f.qmin)
  obtain ⟨b, hb⟩ := Int.eq_ofNat_of_zero_le (by omega : 0 ≤ f.emax - (f.prec - 1 : Nat) - f.qmin)
  have hcb : c = 0 ∨ 2 ^ (f.prec - 1) ≤ n := by omega
  rw [hc, Int.toNat_natCast]
  rw [hb, Int.toNat_natCast] at hinf
  have key : f.infBits ≤ c * 2 ^ (f.prec - 1) + n ↔ b < c ∧ 2 ^ (f.prec - 1) ≤ n ∨ b = c ∧ n = 2 ^ f.prec := by
    rw [hinf]
    rcases lt_trichotomy c b with h | h | h
    · have : (c + 1) * 2 ^ (f.prec - 1) ≤ b * 2 ^ (f.prec - 1) := Nat.mul_le_mul_right _ h
      rw [Nat.succ_mul] at this
      omega
    · subst h
      omega
    · have : (b + 1) * 2 ^ (f.prec - 1) ≤ c * 2 ^ (f.prec - 1) := Nat.mul_le_mul_right _ h
      rw [Nat.succ_mul] at this
      omega
  have hflags : orF fOF fNX = 5 := rfl
  rw [hflags]
  by_cases hn2 : n = 2 ^ f.prec
  · have hcarry : f.emax < t + 1 + ((f.prec : Int) - 1) ∧ 2 ^ (f.prec - 1) ≤ 2 ^ (f.prec - 1) ↔
        f.infBits ≤ c * 2 ^ (f.prec - 1) + n := by omega
    have hbits : (t + 1 - f.qmin + 1).toNat * 2 ^ (f.prec - 1) + (2 ^ (f.prec - 1) - 2 ^ (f.prec - 1)) =
        c * 2 ^ (f.prec - 1) + n := by
      rw [show (t + 1 - f.qmin + 1).toNat = c + 2 by omega, Nat.add_mul, hn2, hpp]
      omega
    simp only [Fmt.carry, if_pos hn2, hcarry, lt_irrefl, if_false, hbits]
  · have hkeep : f.emax < t + ((f.prec : Int) - 1) ∧ 2 ^ (f.prec - 1) ≤ n ↔
        f.infBits ≤ c * 2 ^ (f.prec - 1) + n := by omega
    have hbits : (if n < 2 ^ (f.prec - 1) then n
        else (t - f.qmin + 1).toNat * 2 ^ (f.prec - 1) + (n - 2 ^ (f.prec - 1))) = c * 2 ^ (f.prec - 1) + n := by
      split
      · rw [hcb.resolve_right (by omega)]
        omega
      · rw [show (t - f.qmin + 1).toNat = c + 1 by omega, Nat.succ_mul]
        omega
    simp only [Fmt.carry, if_neg hn2, hkeep, hbits]

theorem roundingFlags_eq {a b : Bool} {p q : Prop} [Decidable p] [Decidable q] (ha : a = true ↔ ¬p) (hb : b = true ↔ q) :
    ((if a then fNX else 0) ||| (if a && b then fUF else 0) : Flags) = if p then 0 else if q then 3 else 1 := by
  by_cases h1 : p
  · have : a = false := by rw [← Bool.not_eq_true, ha, not_not]; exact h1
    simp [this, h1]
  · by_cases h2 : q
    · simp [ha.2 h1, hb.2 h2, h1, h2, fNX, fUF]
    · have : b = false := by rw [← Bool.not_eq_true, hb]; exact h2
      simp [ha.2 h1, this, h1, h2, fNX]

/-- The model's rounding is the rounding of the exact magnitude (R37). -/
theorem Fmt.round_eq (hf : f.Usable) (neg : Bool) (h : Sticks sticky d) (hs : sticky = true → 2 ^ (f.prec + 1) ≤ m) :
    f.round neg m e sticky = f.roundMag neg (((m : K) + d) * 2 ^ e) := by
  have hp := hf.prec
  unfold Fmt.round
  split
  · next hm =>
    have : d = 0 := h.eq_zero (by
      rw [← Bool.not_eq_true]
      exact fun hs' => absurd (hs hs') (by rw [hm]; simp))
    simp [Fmt.roundMag, hm, this]
  · next hm =>
    have hlog := log_mul_zpow hm e h.nonneg h.lt_one
    have hq : 0 < ((m : K) + d) * 2 ^ e := by
      have : (1 : K) ≤ m := by exact_mod_cast Nat.one_le_iff_ne_zero.2 hm
      exact mul_pos (by linarith [h.nonneg]) (by positivity)
    have htiny := Fmt.tiny_iff hf (K := K) (e := e) h hm hs
    have hsl : sticky = true → e < f.lastPlace (((m : K) + d) * 2 ^ e) := fun hs' => by
      have := (Nat.le_log2 hm).2 (hs hs')
      have := le_max_left (Int.log 2 (((m : K) + d) * 2 ^ e) - (f.prec - 1 : Nat)) f.qmin
      rw [← Fmt.lastPlace] at this
      omega
    have hplace := Fmt.place_eq (((m : K) + d) * 2 ^ e) hf
    rw [hlog] at hplace
    have hin := inexact_iff (m := m) h hsl
    have hsh := roundShift_place (m := m) h hsl
    obtain ⟨hlt, hge⟩ := Fmt.lastPlace_bounds hf hq
    have hx0 : 0 ≤ ((m : K) + d) * 2 ^ e / 2 ^ f.lastPlace (((m : K) + d) * 2 ^ e) := by positivity
    have hqm := le_max_right (Int.log 2 (((m : K) + d) * 2 ^ e) - (f.prec - 1 : Nat)) f.qmin
    rw [← Fmt.lastPlace] at hqm
    have hle : nearEven (((m : K) + d) * 2 ^ e / 2 ^ f.lastPlace (((m : K) + d) * 2 ^ e)) ≤ 2 ^ f.prec := by
      refine (nearEven_le_succ_floor _).trans ?_
      rw [Nat.succ_le_iff, Nat.floor_lt hx0]
      exact_mod_cast hlt
    have hge' : f.lastPlace (((m : K) + d) * 2 ^ e) = f.qmin ∨
        2 ^ (f.prec - 1) ≤ nearEven (((m : K) + d) * 2 ^ e / 2 ^ f.lastPlace (((m : K) + d) * 2 ^ e)) :=
      hge.imp (fun h => by omega) fun h =>
        (Nat.le_floor (by exact_mod_cast h)).trans (floor_le_nearEven _)
    simp only [hplace, hsh]
    refine (Fmt.assemble_eq hf hqm hle hge' neg _).trans ?_
    rw [Fmt.roundMag, if_neg hq.ne', Fmt.magVal_mag hf hq, roundingFlags_eq hin htiny]
    rfl

end Rounding
end Sys2Proof.Machine
end

section
/-! PROOF. Encodings (R36): an encoding is a sign and a magnitude, and magnitudes are ordered as their values are. -/

set_option Elab.async false

namespace Sys2Proof.Machine
open Sys2Proof.Claims

/-! ### Encodings by sign and magnitude -/

section
variable {f : Fmt}

theorem Fmt.usable32 : fmt32.Usable := ⟨by decide, by decide⟩
theorem Fmt.usable64 : fmt64.Usable := ⟨by decide, by decide⟩
theorem Fmt.usableBf : fmtBf.Usable := ⟨by decide, by decide⟩

/-- The factor of a sign. -/
def sgn (neg : Bool) : Rat := if neg then -1 else 1

theorem sgn_mul_self (neg : Bool) : sgn neg * sgn neg = 1 := by cases neg <;> simp [sgn]
theorem abs_sgn (neg : Bool) : |sgn neg| = 1 := by cases neg <;> simp [sgn]
theorem sgn_ne_zero (neg : Bool) : sgn neg ≠ 0 := by cases neg <;> simp [sgn]
theorem sgn_not (neg : Bool) : sgn (!neg) = -sgn neg := by cases neg <;> simp [sgn]
theorem sgn_xor (a b : Bool) : sgn (a ^^ b) = sgn a * sgn b := by cases a <;> cases b <;> simp [sgn]
theorem sgn_mul_abs (x : Rat) : sgn (decide (x < 0)) * |x| = x := by
  by_cases h : x < 0
  · simp [sgn, h, abs_of_neg h]
  · simp [sgn, h, abs_of_nonneg (not_lt.1 h)]
theorem sgn_mul_neg_iff {neg : Bool} {q : Rat} (hq : 0 < q) : sgn neg * q < 0 ↔ neg = true := by
  cases neg <;> simp [sgn, hq, hq.le]

@[simp] theorem signBit_eq (f : Fmt) (neg : Bool) : signBit f neg = f.sign neg := rfl
@[simp] theorem infinity_eq (f : Fmt) (neg : Bool) : infinity f neg = f.sign neg + f.infBits := rfl
@[simp] theorem quietNan_eq (f : Fmt) : quietNan f = f.nan := by simp [quietNan, Fmt.nan, Fmt.sign]
theorem bias_eq (f : Fmt) : bias f = f.emax := by simp [bias, Fmt.emax]

theorem Fmt.width_eq (hf : f.Usable) : f.width - 1 = f.prec - 1 + f.ebits := by
  have := hf.prec
  rw [width]
  omega

theorem Fmt.infBits_lt (f : Fmt) : f.infBits < 2 ^ (f.prec - 1 + f.ebits) := by
  rw [infBits, Nat.add_comm, pow_add]
  exact Nat.mul_lt_mul_of_pos_right (Nat.sub_lt (by positivity) one_pos) (by positivity)

theorem Fmt.two_pow_width (hf : f.Usable) : 2 ^ (f.prec + f.ebits) = 2 * 2 ^ (f.width - 1) := by
  rw [← pow_succ', Nat.sub_add_cancel]
  · rfl
  · have := hf.prec
    rw [width]
    omega

theorem Fmt.sign_mod_two (hf : f.Usable) (neg : Bool) : f.sign neg % 2 = 0 := by
  have h : 2 ^ (f.width - 1) = 2 * 2 ^ (f.width - 2) := by
    rw [← pow_succ']
    congr 1
    have := hf.prec
    have := hf.ebits
    rw [width]
    omega
  cases neg <;> simp [sign, h]

/-- An encoding is its sign bit and a magnitude. -/
theorem Fmt.exists_sign (hf : f.Usable) {n : Nat} (hn : n < 2 ^ (f.prec + f.ebits)) :
    n = f.sign (isNegative f n) + n % 2 ^ (f.width - 1) := by
  rw [Fmt.two_pow_width hf] at hn
  have hd := Nat.div_add_mod n (2 ^ (f.width - 1))
  have : n / 2 ^ (f.width - 1) < 2 := Nat.div_lt_of_lt_mul (by rw [Nat.mul_comm]; exact hn)
  have hneg : isNegative f n = (n / 2 ^ (f.width - 1) % 2 == 1) := rfl
  rw [hneg, sign]
  rcases Nat.le_one_iff_eq_zero_or_eq_one.1 (Nat.lt_succ_iff.1 this) with h | h
  · simp [h] at hd ⊢
    exact hd.symm
  · simp [h] at hd ⊢
    exact hd.symm

section

variable (hf : f.Usable) {neg : Bool} {n : Nat} (hn : n < 2 ^ (f.width - 1))
include hf hn

omit hf in
theorem isNegative_sign : isNegative f (f.sign neg + n) = neg := by
  have hneg : isNegative f (f.sign neg + n) = ((f.sign neg + n) / 2 ^ (f.width - 1) % 2 == 1) := rfl
  rw [hneg]
  cases neg
  · simp [Fmt.sign, Nat.div_eq_of_lt hn]
  · rw [Fmt.sign, if_pos rfl, Nat.add_div_left _ (by positivity), Nat.div_eq_of_lt hn]
    rfl

theorem expo_sign : expo f (f.sign neg + n) = n / 2 ^ (f.prec - 1) := by
  rw [Fmt.width_eq hf, pow_add] at hn
  rw [expo, Fmt.sign]
  split
  · rw [Fmt.width_eq hf, pow_add, Nat.mul_add_div (by positivity), Nat.add_mod_left,
      Nat.mod_eq_of_lt (Nat.div_lt_of_lt_mul hn)]
  · rw [Nat.zero_add, Nat.mod_eq_of_lt (Nat.div_lt_of_lt_mul hn)]

omit hn in
theorem frac_sign : frac f (f.sign neg + n) = n % 2 ^ (f.prec - 1) := by
  rw [frac, Fmt.sign]
  split
  · rw [Fmt.width_eq hf, pow_add, Nat.mul_add_mod]
  · rw [Nat.zero_add]

theorem sign_add_lt : f.sign neg + n < 2 ^ (f.prec + f.ebits) := by
  rw [Fmt.two_pow_width hf, Fmt.sign]
  split <;> omega

end

/-- The value of an encoding: of a magnitude below infinity, under its sign. -/
theorem value_sign (hf : f.Usable) (neg : Bool) {n : Nat} (hn : n < 2 ^ (f.width - 1)) :
    value f (f.sign neg + n) = if n < f.infBits then some (sgn neg * f.magVal Rat n) else none := by
  have hexp : n / 2 ^ (f.prec - 1) < 2 ^ f.ebits := by
    rw [Fmt.width_eq hf, pow_add] at hn
    exact Nat.div_lt_of_lt_mul hn
  have hfin : n < f.infBits ↔ n / 2 ^ (f.prec - 1) ≠ 2 ^ f.ebits - 1 := by
    rw [Fmt.infBits, ← Nat.div_lt_iff_lt_mul (by positivity)]
    omega
  have hp := hf.prec
  rw [value, expo_sign hf hn, frac_sign hf, isNegative_sign hn, bias_eq]
  simp only [hfin, ite_not]
  split
  · rfl
  · split
    · next h =>
      have hlt : n < 2 ^ (f.prec - 1) := by
        rcases Nat.div_eq_zero_iff.1 h with h' | h'
        · exact absurd h' (by positivity)
        · exact h'
      rw [Fmt.magVal, if_pos h, Nat.mod_eq_of_lt hlt, mul_assoc]
      congr 4
      simp only [Fmt.qmin, Fmt.emin]
      ring
    · next h =>
      rw [Fmt.magVal, if_neg h, mul_assoc]
      congr 4
      simp only [Fmt.qmin, Fmt.emin]
      ring

theorem value_eq_some (hf : f.Usable) {n : Nat} (hn : n < 2 ^ (f.prec + f.ebits)) {x : Rat} (h : value f n = some x) :
    n % 2 ^ (f.width - 1) < f.infBits ∧ x = sgn (isNegative f n) * f.magVal Rat (n % 2 ^ (f.width - 1)) := by
  have hlt : n % 2 ^ (f.width - 1) < 2 ^ (f.width - 1) := Nat.mod_lt _ (by positivity)
  rw [Fmt.exists_sign hf hn, value_sign hf _ hlt] at h
  split at h
  · next hi => exact ⟨hi, (Option.some.inj h).symm⟩
  · cases h

/-! ### The rounded result and its flags are the spec's -/

theorem tooLarge_iff {q : Rat} (hq : 0 < q) (hf : f.Usable) (neg : Bool) :
    tooLarge f (sgn neg * q) ↔ f.infBits ≤ f.mag q := by
  rw [Fmt.infBits_le_mag_iff hf hq, tooLarge, abs_mul, abs_sgn, one_mul, abs_of_pos hq, bias_eq]
  rfl

theorem not_tooLarge_zero (f : Fmt) : ¬tooLarge f 0 := by
  have h1 : (2 : Rat) ^ (-(f.prec : Int)) ≤ 1 := zpow_le_one_of_nonpos₀ one_le_two (by omega)
  have h2 : (0 : Rat) < 2 ^ bias f := by positivity
  rw [tooLarge, abs_zero, not_le]
  exact mul_pos (by linarith) h2

/-- A magnitude rounded under a sign is the number of that sign rounded, with R37's flags. -/
theorem Fmt.roundMag_rounded (hf : f.Usable) (neg : Bool) {q : Rat} (hq : 0 ≤ q) :
    Rounded f (sgn neg * q) (f.roundMag neg q).1 (f.roundMag neg q).2 := by
  have hinf : f.infBits < 2 ^ (f.width - 1) := by rw [Fmt.width_eq hf]; exact f.infBits_lt
  have hpos : 0 < f.infBits := Nat.mul_pos (Nat.sub_pos_of_lt (Nat.one_lt_two_pow (by have := hf.ebits; omega)))
    (by positivity)
  rcases hq.eq_or_lt with rfl | hq
  · have hv : value f (f.sign neg) = some 0 := by
      have := value_sign hf neg (n := 0) (by positivity)
      rwa [if_pos hpos, Fmt.magVal_zero, mul_zero, Nat.add_zero] at this
    have hlt := sign_add_lt hf (neg := neg) (n := 0) (by positivity)
    rw [Fmt.roundMag, if_pos rfl, mul_zero]
    refine ⟨⟨hlt, fun h => absurd rfl h, fun h => absurd h (not_tooLarge_zero f), fun _ => ⟨0, hv, fun m x _ _ =>
      ⟨by simp, fun e hx => absurd (abs_eq_zero.1 (by simpa using e)) hx⟩⟩⟩, fun h => absurd h (not_tooLarge_zero f),
      fun _ _ => rfl, fun _ h => absurd hv h⟩
  · have hne : sgn neg * q ≠ 0 := mul_ne_zero (sgn_ne_zero _) hq.ne'
    have hlarge := tooLarge_iff hq hf neg
    have hsg : decide (sgn neg * q < 0) = neg := by
      rw [Bool.eq_iff_iff, decide_eq_true_iff, sgn_mul_neg_iff hq]
    rw [Fmt.roundMag, if_neg hq.ne']
    split
    · next h =>
      have hl := hlarge.2 h
      refine ⟨⟨sign_add_lt hf hinf, fun _ => ?_, fun _ => ?_, fun hn => absurd hl hn⟩, fun _ => rfl,
        fun hn => absurd hl hn, fun hn => absurd hl hn⟩
      · rw [isNegative_sign hinf, sgn_mul_neg_iff hq]
      · rw [hsg, infinity_eq]
    · next h =>
      have hmag : f.mag q < 2 ^ (f.width - 1) := by omega
      have hv := value_sign hf neg hmag
      rw [if_pos (not_le.1 h)] at hv
      have hn := mt hlarge.1 h
      have hd (x : Rat) : |sgn neg * x - sgn neg * q| = |x - q| := by
        rw [← mul_sub, abs_mul, abs_sgn, one_mul]
      refine ⟨⟨sign_add_lt hf hmag, fun _ => ?_, fun hl => absurd hl hn, fun _ => ⟨_, hv, fun m x hm hx => ?_⟩⟩,
        fun hl => absurd hl hn, fun _ h2 => ?_, fun _ h2 => ?_⟩
      · rw [isNegative_sign hmag, sgn_mul_neg_iff hq]
      · obtain ⟨-, rfl⟩ := value_eq_some hf hm hx
        have heven : f.mag q % 2 = 0 → (f.sign neg + f.mag q) % 2 = 0 := fun h => by
          have := Fmt.sign_mod_two hf neg
          omega
        rw [hd]
        by_cases hs : isNegative f m = neg
        · rw [hs, hd]
          obtain ⟨h1, h2⟩ := Fmt.mag_nearest hf hq (m % 2 ^ (f.width - 1))
          exact ⟨h1, fun e hne => heven (h2 e fun e' => hne (by rw [e']))⟩
        · have hs' : sgn (isNegative f m) = -sgn neg := by
            rw [← sgn_not]
            congr 1
            cases neg <;> simpa using hs
          obtain ⟨h1, h2⟩ := Fmt.mag_nearest hf hq 0
          have hm0 := Fmt.magVal_nonneg (K := Rat) hf (m % 2 ^ (f.width - 1))
          rw [hs', neg_mul, ← mul_neg, hd, Fmt.magVal_zero, zero_sub, abs_neg, abs_of_pos hq] at *
          rw [abs_of_neg (by linarith : -f.magVal Rat (m % 2 ^ (f.width - 1)) - q < 0)]
          refine ⟨by linarith, fun e _ => heven ?_⟩
          by_cases hz : f.mag q = 0
          · rw [hz]
          · exact h2 (by linarith) (Ne.symm hz)
      · rw [hv] at h2
        have := mul_left_cancel₀ (sgn_ne_zero neg) (Option.some.inj h2)
        simp [this]
      · rw [hv] at h2
        have : f.magVal Rat (f.mag q) ≠ q := fun e => h2 (by rw [e])
        rw [if_neg this, tiny, abs_mul, abs_sgn, one_mul, abs_of_pos hq, bias_eq]
        exact ⟨fun h => if_pos h, fun h => if_neg h⟩

end

end Sys2Proof.Machine
end

section
/-! PROOF. Exact operations (R37, R135): the model's operations on numbers that were read keep the exact value until the rounding. -/

set_option Elab.async false

namespace Sys2Proof.Machine
open Sys2Proof.Claims

/-! ### Encodings as the model reads them -/

section
variable {f : Fmt} {a : Nat}

theorem read_nan (hf : f.Usable) (h : isNan f a = true) : f.read a = .nan (isSignalling f a) := by
  simp only [isNan, expo, frac, Bool.and_eq_true, beq_iff_eq, bne_iff_ne] at h
  have hsig : isSignalling f a = decide (frac f a < 2 ^ (f.prec - 2)) := by
    simp [isSignalling, isNan, expo, frac, h.1, h.2]
  have hp : (2 : Nat) ^ (f.prec - 1) = 2 ^ (f.prec - 2) * 2 := by
    rw [← pow_succ]
    congr 1
    have := hf.prec
    omega
  have hlt : frac f a / 2 ^ (f.prec - 2) < 2 := Nat.div_lt_of_lt_mul (hp ▸ Nat.mod_lt _ (by positivity))
  have hz : frac f a / 2 ^ (f.prec - 2) = 0 ↔ frac f a < 2 ^ (f.prec - 2) := Nat.div_eq_zero_iff_lt (by positivity)
  simp only [Fmt.read, h.1, if_true, if_neg h.2, hsig]
  congr 2
  rw [← hz, ← frac, Nat.mod_eq_of_lt hlt]

theorem read_inf (h : isInf f a = true) : f.read a = .inf (isNegative f a) := by
  simp only [isInf, expo, frac, Bool.and_eq_true, beq_iff_eq] at h
  simp only [Fmt.read, h.1, h.2, if_true]
  rfl

/-- The value is the finite number of a sign. -/
inductive FVal.Exact : FVal → Bool → Rat → Prop
  | num (neg : Bool) (m : Nat) (e : Int) : Exact (.num neg m e) neg (sgn neg * (m * 2 ^ e))

theorem read_value {x : Rat} (h : value f a = some x) : (f.read a).Exact (isNegative f a) x := by
  have hneg : decide (a / 2 ^ (f.width - 1) % 2 = 1) = isNegative f a := rfl
  rw [value] at h
  have hsgn : (if isNegative f a = true then -1 else 1 : Rat) = sgn (isNegative f a) := rfl
  simp only [hsgn] at h
  split at h
  · cases h
  · next hm =>
    rw [expo] at hm
    split at h
    · next he =>
      rw [expo] at he
      have : x = sgn (isNegative f a) * (frac f a * 2 ^ f.qmin) := by
        rw [← Option.some.inj h, mul_assoc, bias_eq]
        congr 3
        simp only [Fmt.qmin, Fmt.emin]
        ring
      rw [this]
      simp only [Fmt.read, if_neg hm, if_pos he, hneg]
      exact .num _ _ _
    · next he =>
      rw [expo] at he
      have : x = sgn (isNegative f a) * ((frac f a + 2 ^ (f.prec - 1) : Nat) * 2 ^ (f.qmin + ((expo f a : Int) - 1))) := by
        rw [← Option.some.inj h, mul_assoc, bias_eq]
        congr 3
        simp only [Fmt.qmin, Fmt.emin]
        ring
      rw [this]
      simp only [Fmt.read, if_neg hm, if_neg he, hneg]
      exact .num _ _ _

/-- An encoding is a NaN, an infinity or a number. -/
theorem nan_or_inf_or_value (f : Fmt) (a : Nat) :
    (isNan f a = true ∧ isInf f a = false ∧ value f a = none) ∨
    (isNan f a = false ∧ isInf f a = true ∧ value f a = none) ∨
    (isNan f a = false ∧ isInf f a = false ∧ ∃ x, value f a = some x) := by
  by_cases he : expo f a = 2 ^ f.ebits - 1
  · have hv : value f a = none := by rw [value]; exact if_pos he
    by_cases hz : frac f a = 0
    · exact .inr (.inl (by simp [isNan, isInf, he, hz, hv]))
    · exact .inl (by simp [isNan, isInf, he, hz, hv])
  · refine .inr (.inr ⟨by simp [isNan, he], by simp [isInf, he], ?_⟩)
    simp only [value, if_neg he]
    split <;> exact ⟨_, rfl⟩

/-! ### Exact operations -/

variable {u v w : FVal} {p q : Bool} {x y z : Rat}

theorem FVal.Exact.negate (h : u.Exact p x) : u.negate.Exact (!p) (-x) := by
  obtain ⟨_, m, e⟩ := h
  have := FVal.Exact.num (!p) m e
  rwa [sgn_not, neg_mul] at this

theorem addNum_exact (n1 : Bool) (m1 : Nat) (e1 : Int) (n2 : Bool) (m2 : Nat) (e2 : Int) :
    ∃ n, (addNum n1 m1 e1 n2 m2 e2).Exact n (sgn n1 * (m1 * 2 ^ e1) + sgn n2 * (m2 * 2 ^ e2)) ∧
      (sgn n1 * (m1 * 2 ^ e1) + sgn n2 * (m2 * 2 ^ e2) = 0 → n = (n1 && n2)) := by
  have hscale (m : Nat) {e t : Int} (h : t ≤ e) : (m : Rat) * 2 ^ e = (m * 2 ^ (e - t).toNat : Nat) * 2 ^ t := by
    push_cast
    rw [mul_assoc, ← zpow_natCast, ← zpow_add₀ two_ne_zero]
    congr 2
    omega
  have h1 : (if e1 < e2 then e1 else e2) ≤ e1 := by split <;> omega
  have h2 : (if e1 < e2 then e1 else e2) ≤ e2 := by split <;> omega
  rw [hscale m1 h1, hscale m2 h2]
  unfold addNum
  dsimp only
  generalize (if e1 < e2 then e1 else e2) = t
  generalize m1 * 2 ^ (e1 - t).toNat = a
  generalize m2 * 2 ^ (e2 - t).toNat = b
  have ht : (0 : Rat) < 2 ^ t := by positivity
  by_cases hn : n1 = n2
  · subst hn
    refine ⟨n1, ?_, fun _ => (Bool.and_self _).symm⟩
    rw [if_pos rfl, ← mul_add, ← add_mul, ← Nat.cast_add]
    exact .num _ _ _
  · have hs : sgn n2 = -sgn n1 := by
      rw [← sgn_not]
      congr 1
      cases n1 <;> cases n2 <;> simp_all
    have hd : sgn n1 * (a * 2 ^ t) + sgn n2 * (b * 2 ^ t) = sgn n1 * ((a - b) * 2 ^ t) := by rw [hs]; ring
    have hand : (n1 && n2) = false := by cases n1 <;> cases n2 <;> simp_all
    rw [if_neg hn, hd, hand]
    split
    · next hab =>
      subst hab
      refine ⟨false, ?_, fun _ => rfl⟩
      have := FVal.Exact.num false 0 t
      simpa using this
    · next hab =>
      have hne : sgn n1 * (((a : Rat) - b) * 2 ^ t) ≠ 0 :=
        mul_ne_zero (sgn_ne_zero _) (mul_ne_zero (sub_ne_zero.2 (by exact_mod_cast hab)) ht.ne')
      split
      · next hlt =>
        refine ⟨n1, ?_, fun h => absurd h hne⟩
        rw [← Nat.cast_sub hlt.le]
        exact .num _ _ _
      · next hlt =>
        refine ⟨n2, ?_, fun h => absurd h hne⟩
        have := FVal.Exact.num n2 (b - a) t
        rw [Nat.cast_sub (by omega), hs] at this
        convert this using 1
        ring

theorem FVal.Exact.add (hu : u.Exact p x) (hv : v.Exact q y) :
    (u.add v).2 = 0 ∧ ∃ n, (u.add v).1.Exact n (x + y) ∧ (x + y = 0 → n = (p && q)) := by
  obtain ⟨_, m1, e1⟩ := hu
  obtain ⟨_, m2, e2⟩ := hv
  exact ⟨rfl, addNum_exact p m1 e1 q m2 e2⟩

theorem FVal.Exact.mul (hu : u.Exact p x) (hv : v.Exact q y) :
    (u.mul v).2 = 0 ∧ (u.mul v).1.Exact (p ^^ q) (x * y) := by
  obtain ⟨_, m1, e1⟩ := hu
  obtain ⟨_, m2, e2⟩ := hv
  refine ⟨rfl, ?_⟩
  have := FVal.Exact.num (p ^^ q) (m1 * m2) (e1 + e2)
  rw [sgn_xor, zpow_add₀ two_ne_zero] at this
  have hxy : sgn p * (m1 * 2 ^ e1) * (sgn q * (m2 * 2 ^ e2)) = sgn p * sgn q * ((m1 * m2 : Nat) * (2 ^ e1 * 2 ^ e2)) := by
    push_cast
    ring
  rwa [← hxy] at this

theorem FVal.Exact.sig (h : u.Exact p x) : u.sig = false := by
  obtain ⟨_, m, e⟩ := h
  rfl

theorem FVal.Exact.isNan (h : u.Exact p x) : u.isNan = false := by
  obtain ⟨_, m, e⟩ := h
  rfl

theorem FVal.Exact.neg_eq (h : u.Exact p x) : u.neg = p := by
  obtain ⟨_, m, e⟩ := h
  rfl

/-! ### Rounding an exact value -/

theorem FVal.Exact.pack_eq (hf : f.Usable) (h : u.Exact p x) : f.pack u = f.roundMag p |x| := by
  obtain ⟨_, m, e⟩ := h
  have : |sgn p * ((m : Rat) * 2 ^ e)| = (m + 0) * 2 ^ e := by
    rw [abs_mul, abs_sgn, one_mul, add_zero, abs_of_nonneg (by positivity)]
  rw [Fmt.pack, Fmt.round_eq hf p (Sticks.none (K := Rat)) (by simp), this]

theorem FVal.Exact.sgn_mul_abs (h : u.Exact p x) : sgn p * |x| = x := by
  obtain ⟨_, m, e⟩ := h
  rw [abs_mul, abs_sgn, one_mul, abs_of_nonneg (by positivity)]

@[simp] theorem Fmt.roundMag_zero (f : Fmt) (neg : Bool) : f.roundMag neg (0 : Rat) = (f.sign neg, 0) := if_pos rfl

/-- Packing a finite value rounds it once; a zero keeps its sign (R37). -/
theorem FVal.Exact.rounded (hf : f.Usable) (h : u.Exact p x) :
    Rounded f x (f.pack u).1 (f.pack u).2 ∧ (x = 0 → (f.pack u).1 = f.sign p) := by
  rw [h.pack_eq hf]
  refine ⟨?_, fun h0 => by rw [h0, abs_zero, Fmt.roundMag_zero]⟩
  have := Fmt.roundMag_rounded hf p (abs_nonneg x)
  rwa [h.sgn_mul_abs] at this

@[simp] theorem orF_zero (fl : Flags) : orF fl 0 = fl := Nat.or_zero fl
@[simp] theorem zero_orF (fl : Flags) : orF 0 fl = fl := Nat.zero_or fl

theorem Fmt.finish_eq (f : Fmt) (v : FVal) : f.finish (v, 0) = f.pack v := by simp [finish]

theorem FVal.Exact.addF (hf : f.Usable) (hu : u.Exact p x) (hv : v.Exact q y) :
    Rounded f (x + y) (f.addF u v).1 (f.addF u v).2 ∧ (x + y = 0 → (f.addF u v).1 = f.sign (p && q)) := by
  obtain ⟨hfl, n, hn, hz⟩ := hu.add hv
  obtain ⟨hr, hs⟩ := hn.rounded hf
  have : f.addF u v = f.pack (u.add v).1 := by rw [Fmt.addF, ← Fmt.finish_eq, ← hfl]
  rw [this]
  exact ⟨hr, fun h => by rw [hs h, hz h]⟩

theorem FVal.Exact.subF (hf : f.Usable) (hu : u.Exact p x) (hv : v.Exact q y) :
    Rounded f (x - y) (f.subF u v).1 (f.subF u v).2 ∧ (x - y = 0 → (f.subF u v).1 = f.sign (p && !q)) := by
  rw [sub_eq_add_neg]
  exact hu.addF hf hv.negate

theorem FVal.Exact.mulF (hf : f.Usable) (hu : u.Exact p x) (hv : v.Exact q y) :
    Rounded f (x * y) (f.mulF u v).1 (f.mulF u v).2 ∧ (x * y = 0 → (f.mulF u v).1 = f.sign (p != q)) := by
  obtain ⟨hfl, hn⟩ := hu.mul hv
  obtain ⟨hr, hs⟩ := hn.rounded hf
  have : f.mulF u v = f.pack (u.mul v).1 := by rw [Fmt.mulF, ← Fmt.finish_eq, ← hfl]
  rw [this]
  exact ⟨hr, hs⟩

theorem FVal.Exact.fmaF (hf : f.Usable) (hu : u.Exact p x) (hv : v.Exact q y) {r : Bool} (hw : w.Exact r z) :
    Rounded f (x * y + z) (f.fmaF u v w).1 (f.fmaF u v w).2 ∧
      (x * y + z = 0 → (f.fmaF u v w).1 = f.sign ((p != q) && r)) := by
  obtain ⟨hfl, hn⟩ := hu.mul hv
  obtain ⟨hfl2, n, hn2, hz⟩ := hn.add hw
  obtain ⟨hr, hs⟩ := hn2.rounded hf
  have : f.fmaF u v w = f.pack ((u.mul v).1.add w).1 := by
    rw [Fmt.fmaF, ← Fmt.finish_eq]
    simp [hfl, hfl2, hw.sig]
  rw [this]
  exact ⟨hr, fun h => by rw [hs h, hz h]⟩

/-- A quotient of numbers is the exact quotient rounded once. -/
theorem FVal.Exact.divF_eq (hf : f.Usable) (hu : u.Exact p x) (hv : v.Exact q y) (hy : y ≠ 0) :
    f.divF u v = f.roundMag (p ^^ q) |x / y| := by
  obtain ⟨_, m1, e1⟩ := hu
  obtain ⟨_, m2, e2⟩ := hv
  have hm2 : m2 ≠ 0 := by rintro rfl; simp at hy
  have habs : |sgn p * ((m1 : Rat) * 2 ^ e1) / (sgn q * (m2 * 2 ^ e2))| = m1 / m2 * 2 ^ (e1 - e2) := by
    rw [abs_div, abs_mul (sgn p), abs_mul (sgn q), abs_sgn, abs_sgn, one_mul, one_mul, abs_of_nonneg (by positivity),
      abs_of_nonneg (by positivity), zpow_sub₀ two_ne_zero, mul_div_mul_comm]
  rw [Fmt.divF, if_neg hm2, habs]
  split
  · next hm1 => simp [hm1]
  · next hm1 =>
    have hpos : (0 : Rat) < m2 := by exact_mod_cast Nat.pos_of_ne_zero hm2
    generalize hk : f.prec + 3 + Nat.log2 m2 = k
    have hdm : (m1 : Rat) * 2 ^ k = m2 * (m1 * 2 ^ k / m2 : Nat) + (m1 * 2 ^ k % m2 : Nat) := by
      exact_mod_cast (Nat.div_add_mod (m1 * 2 ^ k) m2).symm
    have hst : Sticks (decide (m1 * 2 ^ k % m2 ≠ 0)) (((m1 * 2 ^ k % m2 : Nat) : Rat) / m2) := by
      refine ⟨by positivity, ?_, ?_⟩
      · rw [div_lt_one hpos]
        exact_mod_cast Nat.mod_lt _ (Nat.pos_of_ne_zero hm2)
      · rw [decide_eq_true_iff, lt_div_iff₀ hpos, zero_mul, Nat.cast_pos, Nat.pos_iff_ne_zero]
    have hbig : 2 ^ (f.prec + 1) ≤ m1 * 2 ^ k / m2 := by
      rw [Nat.le_div_iff_mul_le (Nat.pos_of_ne_zero hm2)]
      calc 2 ^ (f.prec + 1) * m2 ≤ 2 ^ (f.prec + 1) * 2 ^ (Nat.log2 m2 + 1) :=
            Nat.mul_le_mul_left _ Nat.lt_log2_self.le
        _ ≤ 2 ^ k := by rw [← pow_add]; exact Nat.pow_le_pow_right two_pos (by omega)
        _ ≤ m1 * 2 ^ k := Nat.le_mul_of_pos_left _ (Nat.pos_of_ne_zero hm1)
    rw [Fmt.round_eq hf _ hst fun _ => hbig]
    congr 1
    have hsum : ((m1 * 2 ^ k / m2 : Nat) : Rat) + ((m1 * 2 ^ k % m2 : Nat) : Rat) / m2 = m1 * 2 ^ k / m2 := by
      rw [hdm]
      field_simp
    rw [hsum, zpow_sub₀ two_ne_zero (e1 - e2), zpow_natCast]
    field_simp

theorem FVal.Exact.divF (hf : f.Usable) (hu : u.Exact p x) (hv : v.Exact q y) (hy : y ≠ 0) :
    Rounded f (x / y) (f.divF u v).1 (f.divF u v).2 ∧ (x / y = 0 → (f.divF u v).1 = f.sign (p != q)) := by
  rw [hu.divF_eq hf hv hy]
  refine ⟨?_, fun h0 => by rw [h0, abs_zero, Fmt.roundMag_zero]⟩
  have h := Fmt.roundMag_rounded hf (p ^^ q) (abs_nonneg (x / y))
  have : sgn (p ^^ q) * |x / y| = x / y := by
    rw [sgn_xor, abs_div, ← hu.sgn_mul_abs, ← hv.sgn_mul_abs]
    simp only [abs_mul, abs_sgn, one_mul, abs_abs]
    have h1 := sgn_ne_zero q
    have h2 := sgn_mul_self q
    have h3 : |y| ≠ 0 := abs_ne_zero.2 hy
    field_simp
    rw [pow_two, h2, mul_one]
  rwa [this] at h

end

end Sys2Proof.Machine
end

section
/-! PROOF. Scalar floating arithmetic (R37, R39, R135), square roots with it. -/

set_option Elab.async false

namespace Sys2Proof.Machine
open Sys2Proof.Claims

/-! ### Square roots -/

theorem isqrtFrom_spec (n : Nat) : ∀ b r : Nat, r * r ≤ n → n < (r + 2 ^ b) * (r + 2 ^ b) →
    isqrtFrom n b r * isqrtFrom n b r ≤ n ∧ n < (isqrtFrom n b r + 1) * (isqrtFrom n b r + 1)
  | 0, r, h1, h2 => ⟨h1, h2⟩
  | b + 1, r, h1, h2 => by
    unfold isqrtFrom
    dsimp only
    split
    · next h =>
      refine isqrtFrom_spec n b _ h ?_
      rwa [Nat.add_assoc, ← Nat.two_mul, ← pow_succ']
    · next h => exact isqrtFrom_spec n b _ h1 (not_le.1 h)

theorem isqrt_eq_sqrt (n : Nat) : isqrt n = Nat.sqrt n := by
  have hn : n < 2 ^ (Nat.log2 n / 2 + 1) * 2 ^ (Nat.log2 n / 2 + 1) := by
    refine Nat.lt_log2_self.trans_le ?_
    rw [← pow_add]
    exact Nat.pow_le_pow_right two_pos (by omega)
  obtain ⟨h1, h2⟩ := isqrtFrom_spec n (Nat.log2 n / 2 + 1) 0 (Nat.zero_le n) (by simpa using hn)
  exact (Nat.eq_sqrt.2 ⟨h1, h2⟩)

section
variable {f : Fmt}

/-- A square root of a positive number is the real root rounded once. -/
theorem Fmt.sqrtF_eq (hf : f.Usable) {m : Nat} (hm : m ≠ 0) (e : Int) :
    f.sqrtF (.num false m e) = f.roundMag false (√((m : ℝ) * 2 ^ e)) := by
  rw [Fmt.sqrtF, if_neg hm, if_neg Bool.false_ne_true]
  generalize hk : 2 * (f.prec + 2) + (if e % 2 = 0 then 0 else 1) = k
  dsimp only
  rw [isqrt_eq_sqrt]
  generalize hv : m * 2 ^ k = v
  have h1 : Nat.sqrt v ≤ √(v : ℝ) := Real.nat_sqrt_le_real_sqrt
  have h2 : √(v : ℝ) < Nat.sqrt v + 1 := Real.real_sqrt_lt_nat_sqrt_succ
  have hst : Sticks (decide (Nat.sqrt v * Nat.sqrt v ≠ v)) (√(v : ℝ) - Nat.sqrt v) := by
    refine ⟨by linarith, by linarith, ?_⟩
    rw [decide_eq_true_iff, sub_pos]
    constructor
    · intro h
      refine h1.lt_of_ne fun heq => h ?_
      have : (Nat.sqrt v : ℝ) * Nat.sqrt v = v := by rw [heq, Real.mul_self_sqrt (Nat.cast_nonneg v)]
      exact_mod_cast this
    · intro h heq
      rw [← heq] at h
      push_cast at h
      rw [Real.sqrt_mul_self (Nat.cast_nonneg _), heq] at h
      exact lt_irrefl _ h
  have hbig : 2 ^ (f.prec + 1) ≤ Nat.sqrt v := by
    rw [Nat.le_sqrt, ← pow_add, ← hv]
    exact (Nat.pow_le_pow_right two_pos (by omega)).trans (Nat.le_mul_of_pos_left _ (Nat.pos_of_ne_zero hm))
  rw [Fmt.round_eq hf false hst fun _ => hbig, add_sub_cancel]
  congr 1
  have hv' : (m : ℝ) * 2 ^ e = v * (2 ^ ((e - (k : Int)) / 2)) ^ 2 := by
    rw [← hv, ← zpow_natCast, ← zpow_mul]
    push_cast
    rw [mul_assoc, ← zpow_natCast, ← zpow_add₀ two_ne_zero]
    congr 2
    split at hk <;> omega
  rw [hv', Real.sqrt_mul (Nat.cast_nonneg _), Real.sqrt_sq (by positivity)]

theorem FVal.Exact.sqrtF_zero {v : FVal} {p : Bool} {x : Rat} (f : Fmt) (h : v.Exact p x) (hx : x = 0) :
    f.sqrtF v = (f.sign p, 0) := by
  obtain ⟨_, m, e⟩ := h
  have he : (0 : Rat) < 2 ^ e := by positivity
  have hm : m = 0 := by
    have := (mul_eq_zero.1 hx).resolve_left (sgn_ne_zero p)
    exact_mod_cast (mul_eq_zero.1 this).resolve_right he.ne'
  rw [Fmt.sqrtF, if_pos hm]

theorem FVal.Exact.sqrtF_neg {v : FVal} {p : Bool} {x : Rat} (f : Fmt) (h : v.Exact p x) (hx : x < 0) :
    f.sqrtF v = (f.nan, fNV) := by
  obtain ⟨_, m, e⟩ := h
  have hp : p = true := by
    rw [← Bool.not_eq_false]
    rintro rfl
    have : (0 : Rat) ≤ m * 2 ^ e := by positivity
    simp only [sgn, Bool.false_eq_true, if_false, one_mul] at hx
    linarith
  have hm : m ≠ 0 := by rintro rfl; simp at hx
  rw [Fmt.sqrtF, if_neg hm, if_pos hp]

theorem Fmt.magVal_cast (f : Fmt) (n : Nat) : ((f.magVal Rat n : Rat) : ℝ) = f.magVal ℝ n := by
  unfold Fmt.magVal
  split <;> push_cast <;> rfl

theorem Fmt.magVal_one (hf : f.Usable) : f.magVal ℝ 1 = 2 ^ f.qmin := by
  have := Fmt.magVal_eq (K := ℝ) hf (c := 0) (m := 1) Nat.one_le_two_pow (.inl rfl)
  simpa using this

theorem Fmt.magVal_infBits (hf : f.Usable) : f.magVal ℝ f.infBits = 2 ^ (f.emax + 1) := by
  have htop : f.qmin < f.emax - (f.prec - 1 : Nat) := by
    have h2 : 2 ≤ (2 : Nat) ^ (f.ebits - 1) := Nat.le_self_pow (by have := hf.ebits; omega) 2
    have := hf.prec
    simp only [qmin, emin, emax]
    omega
  have hp := hf.prec
  rw [Fmt.infBits_eq hf, Fmt.magVal_eq hf le_rfl (.inr (Nat.pow_le_pow_right two_pos (Nat.sub_le _ _)))]
  push_cast
  rw [← zpow_natCast, ← zpow_add₀ two_ne_zero]
  congr 1
  omega

/-- The root of a positive number of a format is within the normal range. -/
theorem Fmt.sqrt_range (hf : f.Usable) (hw : f.prec ≤ f.emax) {n : Nat} (h0 : 0 < n) (hn : n < f.infBits) :
    ¬f.overflows (√(f.magVal ℝ n)) ∧ ¬f.isTiny (√(f.magVal ℝ n)) := by
  have hp := hf.prec
  have hlo : 2 ^ f.qmin ≤ f.magVal ℝ n := by
    rw [← Fmt.magVal_one hf]
    exact (Fmt.magVal_strictMono hf).monotone h0
  have hhi : f.magVal ℝ n < 2 ^ (f.emax + 1) := by
    rw [← Fmt.magVal_infBits hf]
    exact Fmt.magVal_strictMono hf hn
  have hn0 : 0 ≤ f.magVal ℝ n := Fmt.magVal_nonneg hf n
  have hs : (2 : ℝ) ^ (-(f.prec : Int)) ≤ 1 := zpow_le_one_of_nonpos₀ one_le_two (by omega)
  have hs0 : (0 : ℝ) < 2 ^ (-(f.prec : Int)) := by positivity
  constructor
  · rw [Fmt.overflows, not_le]
    have : √(f.magVal ℝ n) < 2 ^ f.emax := by
      rw [Real.sqrt_lt' (by positivity), ← zpow_natCast, ← zpow_mul]
      exact hhi.trans_le (zpow_le_zpow_right₀ one_le_two (by push_cast; omega))
    have h3 : (0 : ℝ) < 2 ^ f.emax := by positivity
    nlinarith
  · rw [Fmt.isTiny, not_lt]
    have : (2 : ℝ) ^ f.emin ≤ √(f.magVal ℝ n) := by
      rw [Real.le_sqrt' (by positivity), ← zpow_natCast, ← zpow_mul]
      refine (zpow_le_zpow_right₀ one_le_two ?_).trans hlo
      simp only [qmin, emin] at *
      push_cast
      omega
    have h3 : (2 : ℝ) ^ f.emin = 2 * 2 ^ (-f.emax) := by
      rw [← zpow_one_add₀ two_ne_zero]
      rfl
    have h4 : (0 : ℝ) < 2 ^ (-f.emax) := by positivity
    nlinarith

/-- Of two numbers the one no farther from s lies on s's side of their midpoint. -/
theorem midpoint_of_nearest {r y s : ℝ} (h : |r - s| ≤ |y - s|) :
    (r < y → 2 * s ≤ r + y) ∧ (y < r → r + y ≤ 2 * s) := by
  rw [← sq_le_sq] at h
  constructor <;> intro hlt <;> by_contra hc <;> nlinarith

/-- R136 on a positive number: the root nearest to the exact one. -/
theorem Fmt.sqrtF_nearest (hf : f.Usable) (hw : f.prec ≤ f.emax) {a : Nat} (ha : a < 2 ^ (f.prec + f.ebits)) {x : Rat}
    (h : value f a = some x) (hx : 0 < x) :
    ∃ n r, f.sqrtF (f.read a) = (n, if r * r = x then 0 else 1) ∧ n < 2 ^ (f.prec + f.ebits) ∧
      isNegative f n = false ∧ value f n = some r ∧
      ∀ m y, m < 2 ^ (f.prec + f.ebits) → value f m = some y → 0 ≤ y →
        (r < y → 4 * x ≤ (r + y) * (r + y)) ∧ (y < r → (r + y) * (r + y) ≤ 4 * x) := by
  obtain ⟨hfin, hval⟩ := value_eq_some hf ha h
  have hread := read_value h
  have hneg : isNegative f a = false := by
    rw [← Bool.not_eq_true]
    intro hn
    rw [hn] at hval
    have := Fmt.magVal_nonneg (K := Rat) hf (a % 2 ^ (f.width - 1))
    simp only [sgn, if_true] at hval
    linarith
  rw [hneg] at hval hread
  simp only [sgn, Bool.false_eq_true, if_false, one_mul] at hval
  generalize a % 2 ^ (f.width - 1) = k at hfin hval
  have hk : 0 < k := Nat.pos_of_ne_zero fun h0 => by rw [h0, Fmt.magVal_zero] at hval; linarith
  obtain ⟨hover, htiny⟩ := Fmt.sqrt_range hf hw hk hfin
  have hxr : ((x : Rat) : ℝ) = f.magVal ℝ k := by rw [hval, Fmt.magVal_cast]
  have hsq : f.sqrtF (f.read a) = f.roundMag false (√(x : ℝ)) := by
    generalize f.read a = v at hread
    obtain ⟨_, m, e⟩ := hread
    have hm : m ≠ 0 := by rintro rfl; simp at hx
    rw [Fmt.sqrtF_eq hf hm]
    push_cast [sgn]
    simp
  rw [← hxr] at hover htiny
  have hx' : (0 : ℝ) < x := by exact_mod_cast hx
  have hs : 0 < √(x : ℝ) := Real.sqrt_pos.2 hx'
  have hmag : f.mag (√(x : ℝ)) < f.infBits := by rw [← not_le, Fmt.infBits_le_mag_iff hf hs]; exact hover
  have hlt : f.mag (√(x : ℝ)) < 2 ^ (f.width - 1) := by
    refine hmag.trans ?_
    rw [Fmt.width_eq hf]
    exact f.infBits_lt
  have hv := value_sign hf false hlt
  have hnn := isNegative_sign (neg := false) hlt
  have hl := sign_add_lt hf (neg := false) hlt
  rw [if_pos hmag] at hv
  have hz : f.sign false = 0 := rfl
  simp only [hz, Nat.zero_add, sgn, Bool.false_eq_true, if_false, one_mul] at hv hnn hl
  refine ⟨f.mag (√(x : ℝ)), f.magVal Rat (f.mag (√(x : ℝ))), ?_, hl, hnn, hv, fun m y hm hy hy0 => ?_⟩
  · have hexact : f.magVal ℝ (f.mag (√(x : ℝ))) = √(x : ℝ) ↔
        f.magVal Rat (f.mag (√(x : ℝ))) * f.magVal Rat (f.mag (√(x : ℝ))) = x := by
      rw [← Fmt.magVal_cast, eq_comm, Real.sqrt_eq_iff_mul_self_eq hx'.le
        (by exact_mod_cast Fmt.magVal_nonneg (K := Rat) hf _)]
      norm_cast
      exact eq_comm
    rw [hsq, Fmt.roundMag, if_neg hs.ne', if_neg (not_le.2 hmag), hz, Nat.zero_add, if_neg htiny]
    simp only [hexact]
  · have hym : ((y : Rat) : ℝ) = f.magVal ℝ (m % 2 ^ (f.width - 1)) := by
      obtain ⟨-, rfl⟩ := value_eq_some hf hm hy
      rw [← Fmt.magVal_cast]
      have h0 := Fmt.magVal_nonneg (K := Rat) hf (m % 2 ^ (f.width - 1))
      cases hs : isNegative f m
      · simp [sgn]
      · rw [hs] at hy0
        simp only [sgn, if_true] at hy0 ⊢
        have : f.magVal Rat (m % 2 ^ (f.width - 1)) = 0 := by linarith
        rw [this]
        simp
    obtain ⟨hup, hdn⟩ := midpoint_of_nearest (Fmt.mag_nearest hf hs (m % 2 ^ (f.width - 1))).1
    rw [← hym, ← Fmt.magVal_cast] at hup hdn
    have hsqx := Real.mul_self_sqrt hx'.le
    have hr0 : (0 : ℝ) ≤ (f.magVal Rat (f.mag (√(x : ℝ))) : Rat) := by
      exact_mod_cast Fmt.magVal_nonneg (K := Rat) hf _
    have hy0' : (0 : ℝ) ≤ (y : Rat) := by exact_mod_cast hy0
    constructor <;> intro hlt
    · have := hup (by exact_mod_cast hlt)
      have : (4 : ℝ) * x ≤ (f.magVal Rat (f.mag (√(x : ℝ))) + y) * (f.magVal Rat (f.mag (√(x : ℝ))) + y) := by
        nlinarith
      exact_mod_cast this
    · have := hdn (by exact_mod_cast hlt)
      have : ((f.magVal Rat (f.mag (√(x : ℝ))) + y) * (f.magVal Rat (f.mag (√(x : ℝ))) + y) : ℝ) ≤ 4 * x := by
        nlinarith
      exact_mod_cast this

end

/-! ### The scalar instructions (R135) -/

/-- A floating result is one write of the registers. -/
theorem fpOut_eq (s : State) (rd : GReg) (n : Nat) (fl : Flags) :
    fpOut s rd (n, fl) = .next (s.setRegs { s.regs.put rd (nat n) with
      pc := s.regs.pc + 4
      cr := { s.regs.cr with fflg := s.regs.cr.fflg ||| nat fl } }) := by
  simp [fpOut, State.flag, State.orFlags, State.setCr, State.setG, State.advance, State.setPc, State.cr, State.pc, nat,
    w64]

theorem fpGives_of_fpOut {i : Instr} {s : State} {rd : GReg} {r : Nat × Flags} (h : exec i s = fpOut s rd r) :
    FpGives i s rd r.1 r.2 := by
  rw [FpGives, Leaves, h, ← fpOut_eq]

theorem low_lt (f : Fmt) (x : Word) : low f x < 2 ^ (f.prec + f.ebits) := Nat.mod_lt _ (by positivity)

/-- An instruction of two operands that rounds on values rounds on registers. -/
theorem roundsExact_of {op : GReg → GReg → GReg → Instr} {f : Fmt} {F : FVal → FVal → Nat × Flags}
    {ok : Rat → Rat → Prop} {g : Rat → Rat → Rat} {zero : Bool → Bool → Bool}
    (hop : ∀ s rd rs1 rs2, exec (op rd rs1 rs2) s = fpOut s rd (F (s.fop f rs1) (s.fop f rs2)))
    (hF : ∀ u v a b x y, u.Exact a x → v.Exact b y → ok x y →
      Rounded f (g x y) (F u v).1 (F u v).2 ∧ (g x y = 0 → (F u v).1 = f.sign (zero a b))) :
    RoundsExact op f ok g zero := fun s rd rs1 rs2 x y hx hy hxy => by
  obtain ⟨hr, hz⟩ := hF _ _ _ _ x y (read_value hx) (read_value hy) hxy
  exact ⟨_, _, fpGives_of_fpOut (hop s rd rs1 rs2), hr, hz⟩

theorem roundsFused_of {op : GReg → GReg → GReg → Instr} {f : Fmt} (hf : f.Usable)
    (hop : ∀ s rd rs1 rs2, exec (op rd rs1 rs2) s = fpOut s rd (f.fmaF (s.fop f rs1) (s.fop f rs2) (s.fop f rd))) :
    RoundsFused op f := fun s rd rs1 rs2 x y z hx hy hz => by
  obtain ⟨hr, h0⟩ := (read_value hx).fmaF hf (read_value hy) (read_value hz)
  exact ⟨_, _, fpGives_of_fpOut (hop s rd rs1 rs2), hr, h0⟩

theorem roundsRoot_of {op : GReg → GReg → Instr} {f : Fmt} (hf : f.Usable) (hw : f.prec ≤ f.emax)
    (hop : ∀ s rd rs1, exec (op rd rs1) s = fpOut s rd (f.sqrtF (s.fop f rs1))) : RoundsRoot op f := by
  intro s rd rs1 x a hx
  have hgive : FpGives (op rd rs1) s rd (f.sqrtF (f.read a)).1 (f.sqrtF (f.read a)).2 := fpGives_of_fpOut (hop s rd rs1)
  have ha : a < 2 ^ (f.prec + f.ebits) := low_lt f _
  refine ⟨fun h0 => ?_, fun hneg => ?_, fun hpos => ?_⟩
  · have hsign : a = f.sign (isNegative f a) := by
      obtain ⟨-, hv⟩ := value_eq_some hf ha hx
      have hm : f.magVal Rat (a % 2 ^ (f.width - 1)) = f.magVal Rat 0 := by
        rw [Fmt.magVal_zero]
        exact (mul_eq_zero.1 (hv.symm.trans h0)).resolve_left (sgn_ne_zero _)
      have := Fmt.exists_sign hf ha
      rwa [(Fmt.magVal_strictMono hf).injective hm] at this
    have hroot : f.sqrtF (f.read a) = (f.sign (isNegative f a), 0) := (read_value hx).sqrtF_zero f h0
    rw [hroot, ← hsign] at hgive
    exact hgive
  · have hroot : f.sqrtF (f.read a) = (f.nan, 16) := (read_value hx).sqrtF_neg f hneg
    rw [hroot, ← quietNan_eq] at hgive
    exact hgive
  · obtain ⟨n, r, hn, hlt, hnn, hv, hnear⟩ := Fmt.sqrtF_nearest hf hw ha hx hpos
    rw [hn] at hgive
    exact ⟨n, r, hgive, hlt, hnn, hv, hnear⟩

/-- Settles O7: every operation forms the exact result as a value, and the model's one rounding is to nearest even. -/
theorem floatingArithmeticIsCorrectlyRounded : Obligations.FloatingArithmeticIsCorrectlyRounded :=
  ⟨roundsExact_of (fun _ _ _ _ => rfl) fun _ _ _ _ _ _ hu hv _ => hu.addF Fmt.usable32 hv,
    roundsExact_of (fun _ _ _ _ => rfl) fun _ _ _ _ _ _ hu hv _ => hu.addF Fmt.usable64 hv,
    roundsExact_of (fun _ _ _ _ => rfl) fun _ _ _ _ _ _ hu hv _ => hu.subF Fmt.usable32 hv,
    roundsExact_of (fun _ _ _ _ => rfl) fun _ _ _ _ _ _ hu hv _ => hu.subF Fmt.usable64 hv,
    roundsExact_of (fun _ _ _ _ => rfl) fun _ _ _ _ _ _ hu hv _ => hu.mulF Fmt.usable32 hv,
    roundsExact_of (fun _ _ _ _ => rfl) fun _ _ _ _ _ _ hu hv _ => hu.mulF Fmt.usable64 hv,
    roundsExact_of (fun _ _ _ _ => rfl) fun _ _ _ _ _ _ hu hv hy => hu.divF Fmt.usable32 hv hy,
    roundsExact_of (fun _ _ _ _ => rfl) fun _ _ _ _ _ _ hu hv hy => hu.divF Fmt.usable64 hv hy,
    roundsFused_of Fmt.usable32 fun _ _ _ _ => rfl, roundsFused_of Fmt.usable64 fun _ _ _ _ => rfl,
    roundsRoot_of Fmt.usable32 (by decide) fun _ _ _ => rfl, roundsRoot_of Fmt.usable64 (by decide) fun _ _ _ => rfl⟩

end Sys2Proof.Machine
end

section
/-! PROOF. Operands that are no finite numbers (R38, R136). -/

set_option Elab.async false

namespace Sys2Proof.Machine
open Sys2Proof.Claims

section
variable {f : Fmt} {a b c : Nat}

/-! ### Operands that are no numbers (R38, R136) -/

theorem read_isNan (hf : f.Usable) (a : Nat) : (f.read a).isNan = isNan f a := by
  rcases nan_or_inf_or_value f a with ⟨h, -⟩ | ⟨h, hi, -⟩ | ⟨h, -, x, hx⟩
  · rw [read_nan hf h, h]; rfl
  · rw [read_inf hi, h]; rfl
  · rw [(read_value hx).isNan, h]

theorem isSignalling_of_not_nan (h : isNan f a = false) : isSignalling f a = false := by simp [isSignalling, h]

theorem read_sig (hf : f.Usable) (a : Nat) : (f.read a).sig = isSignalling f a := by
  rcases nan_or_inf_or_value f a with ⟨h, -⟩ | ⟨h, hi, -⟩ | ⟨h, -, x, hx⟩
  · rw [read_nan hf h]; rfl
  · rw [read_inf hi, isSignalling_of_not_nan h]; rfl
  · rw [(read_value hx).sig, isSignalling_of_not_nan h]

theorem read_neg (h : isNan f a = false) : (f.read a).neg = isNegative f a := by
  rcases nan_or_inf_or_value f a with ⟨h', -⟩ | ⟨-, hi, -⟩ | ⟨-, -, x, hx⟩
  · rw [h] at h'; cases h'
  · rw [read_inf hi]; rfl
  · exact (read_value hx).neg_eq

theorem isNan_of_inf (h : isInf f a = true) : isNan f a = false := by
  rcases nan_or_inf_or_value f a with ⟨-, h', -⟩ | ⟨h', -⟩ | ⟨h', -⟩
  · rw [h] at h'; cases h'
  · exact h'
  · exact h'

theorem isNan_of_value (h : (value f a).isSome = true) : isNan f a = false := by
  rcases nan_or_inf_or_value f a with ⟨-, -, h'⟩ | ⟨h', -⟩ | ⟨h', -⟩
  · rw [h'] at h; cases h
  · exact h'
  · exact h'

theorem value_of_isZero (hf : f.Usable) (h : isZero f a = true) : value f a = some 0 := by
  have : (0 : Nat) ≠ 2 ^ f.ebits - 1 := by
    have := Nat.one_lt_two_pow (n := f.ebits) (by have := hf.ebits; omega)
    omega
  simp only [isZero, Bool.and_eq_true, beq_iff_eq] at h
  simp [value, h.1, h.2, this]

theorem read_of_isZero (hf : f.Usable) (h : isZero f a = true) : ∃ e, f.read a = .num (isNegative f a) 0 e := by
  have hv := read_value (value_of_isZero hf h)
  generalize f.read a = v, hx : (0 : Rat) = x at hv
  obtain ⟨_, m, e⟩ := hv
  have he : (0 : Rat) < 2 ^ e := by positivity
  have hm : m = 0 := by
    have := (mul_eq_zero.1 hx.symm).resolve_left (sgn_ne_zero _)
    exact_mod_cast (mul_eq_zero.1 this).resolve_right he.ne'
  exact ⟨e, by rw [hm]⟩

/-- A number that is not zero is read with a mantissa. -/
theorem read_of_not_isZero (hv : (value f a).isSome = true) (h : isZero f a = false) :
    ∃ m e, f.read a = .num (isNegative f a) m e ∧ m ≠ 0 := by
  have hmax : expo f a ≠ 2 ^ f.ebits - 1 := fun he => by rw [value, if_pos he] at hv; cases hv
  by_cases he : expo f a = 0
  · refine ⟨frac f a, f.qmin, ?_, fun h0 => by simp [isZero, he, h0] at h⟩
    rw [expo] at he hmax
    simp only [Fmt.read, if_neg hmax, if_pos he]
    rfl
  · refine ⟨frac f a + 2 ^ (f.prec - 1), f.qmin + ((expo f a : Int) - 1), ?_, by positivity⟩
    rw [expo] at he hmax
    simp only [Fmt.read, if_neg hmax, if_neg he]
    rfl

theorem read_of_some (hv : (value f a).isSome = true) : ∃ m e, f.read a = .num (isNegative f a) m e := by
  obtain ⟨x, hx⟩ := Option.isSome_iff_exists.1 hv
  have := read_value hx
  generalize f.read a = v at this
  obtain ⟨_, m, e⟩ := this
  exact ⟨m, e, rfl⟩

theorem finish_nan (f : Fmt) (fl : Flags) : f.finish (.nan false, fl) = (f.nan, fl) := by simp [Fmt.finish, Fmt.pack]
theorem finish_inf (f : Fmt) (n : Bool) (fl : Flags) : f.finish (.inf n, fl) = (f.sign n + f.infBits, fl) := by
  simp [Fmt.finish, Fmt.pack]

variable {u v w : FVal}

theorem FVal.add_nan (h : u.isNan = true ∨ v.isNan = true) : u.add v = (.nan false, sigFlags u v) := by
  cases u <;> cases v <;> simp_all [FVal.isNan, FVal.add]

theorem FVal.mul_nan (h : u.isNan = true ∨ v.isNan = true) : u.mul v = (.nan false, sigFlags u v) := by
  cases u <;> cases v <;> simp_all [FVal.isNan, FVal.mul]

theorem FVal.divF_nan (f : Fmt) (h : u.isNan = true ∨ v.isNan = true) : f.divF u v = (f.nan, sigFlags u v) := by
  cases u <;> cases v <;> simp_all [FVal.isNan, Fmt.divF]

theorem FVal.negate_isNan (v : FVal) : v.negate.isNan = v.isNan := by cases v <;> rfl
theorem FVal.negate_sig (v : FVal) : v.negate.sig = v.sig := by cases v <;> rfl

@[simp] theorem FVal.sig_nan (b : Bool) : (FVal.nan b).sig = b := rfl
@[simp] theorem FVal.sig_inf (n : Bool) : (FVal.inf n).sig = false := rfl
@[simp] theorem FVal.sig_num (n : Bool) (m : Nat) (e : Int) : (FVal.num n m e).sig = false := rfl

/-- NV where a quiet bit is clear. -/
theorem sigFlags_eq (u v : FVal) : sigFlags u v = if (u.sig || v.sig) = true then 16 else 0 := rfl

theorem fmaF_eq (f : Fmt) (u v w : FVal) : f.fmaF u v w = f.finish (((u.mul v).1.add w).1,
    orF (orF (u.mul v).2 ((u.mul v).1.add w).2) (if w.sig then fNV else 0)) := rfl

/-- A product of which one factor is a NaN, whatever the addend. -/
theorem fmaF_nan (f : Fmt) (h : u.isNan = true ∨ v.isNan = true) (w : FVal) :
    f.fmaF u v w = (f.nan, if (u.sig || v.sig || w.sig) = true then 16 else 0) := by
  rw [fmaF_eq, FVal.mul_nan h, FVal.add_nan (.inl rfl), finish_nan]
  cases hu : u.sig <;> cases hv : v.sig <;> cases hw : w.sig <;> simp [sigFlags, hu, hv, hw, orF, fNV]

/-- An addend that is a NaN beside a product that raised nothing. -/
theorem fmaF_nan_addend (f : Fmt) (hp : (u.mul v).2 = 0) (hs : (u.mul v).1.sig = false) (hw : w.isNan = true) :
    f.fmaF u v w = (f.nan, if w.sig = true then 16 else 0) := by
  rw [fmaF_eq, FVal.add_nan (.inr hw), finish_nan, hp]
  cases h : w.sig <;> simp [sigFlags, h, hs, orF, fNV]

theorem fpGives_of_eq {i : Instr} {s : State} {rd : GReg} {r : Nat × Flags} {n fl : Nat} (h : exec i s = fpOut s rd r)
    (e : r = (n, fl)) : FpGives i s rd n fl := by
  have := fpGives_of_fpOut h
  rwa [e] at this

end

section
variable {f : Fmt} {add sub mul div fma : GReg → GReg → GReg → Instr} {root : GReg → GReg → Instr}

/-- What the five operations of two operands and the root compute. -/
structure Computes (f : Fmt) (add sub mul div fma : GReg → GReg → GReg → Instr) (root : GReg → GReg → Instr) : Prop where
  add : ∀ s rd rs1 rs2, exec (add rd rs1 rs2) s = fpOut s rd (f.addF (s.fop f rs1) (s.fop f rs2))
  sub : ∀ s rd rs1 rs2, exec (sub rd rs1 rs2) s = fpOut s rd (f.subF (s.fop f rs1) (s.fop f rs2))
  mul : ∀ s rd rs1 rs2, exec (mul rd rs1 rs2) s = fpOut s rd (f.mulF (s.fop f rs1) (s.fop f rs2))
  div : ∀ s rd rs1 rs2, exec (div rd rs1 rs2) s = fpOut s rd (f.divF (s.fop f rs1) (s.fop f rs2))
  fma : ∀ s rd rs1 rs2, exec (fma rd rs1 rs2) s = fpOut s rd (f.fmaF (s.fop f rs1) (s.fop f rs2) (s.fop f rd))
  root : ∀ s rd rs1, exec (root rd rs1) s = fpOut s rd (f.sqrtF (s.fop f rs1))

theorem specialCases_of (hf : f.Usable) (h : Computes f add sub mul div fma root) :
    SpecialCases add sub mul div fma root f := by
  intro s rd rs1 rs2 a b c sa sb nan inf sig
  have ha : s.fop f rs1 = f.read a := rfl
  have hb : s.fop f rs2 = f.read b := rfl
  have hc : s.fop f rd = f.read c := rfl
  have hadd := h.add s rd rs1 rs2
  have hsub := h.sub s rd rs1 rs2
  have hmul := h.mul s rd rs1 rs2
  have hdiv := h.div s rd rs1 rs2
  have hfma := h.fma s rd rs1 rs2
  have hroot := h.root s rd rs1
  rw [ha] at hadd hsub hmul hdiv hfma hroot
  rw [hb] at hadd hsub hmul hdiv hfma
  rw [hc] at hfma
  refine ⟨?_, ?_, ?_, ?_, ?_, ?_, ?_, ?_, ?_, ?_⟩
  · intro hn
    have hn' : (f.read a).isNan = true ∨ (f.read b).isNan = true := by simpa only [read_isNan hf] using hn
    have hsig : sigFlags (f.read a) (f.read b) = if sig = true then 16 else 0 := by
      rw [sigFlags_eq, read_sig hf, read_sig hf]
    refine ⟨fpGives_of_eq hadd ?_, fpGives_of_eq hsub ?_, fpGives_of_eq hmul ?_, fpGives_of_eq hdiv ?_, fpGives_of_eq hfma ?_⟩
    · rw [Fmt.addF, FVal.add_nan hn', finish_nan, hsig, quietNan_eq]
    · rw [Fmt.subF, FVal.add_nan (by rwa [FVal.negate_isNan]), finish_nan, sigFlags_eq, FVal.negate_sig, ← sigFlags_eq,
        hsig, quietNan_eq]
    · rw [Fmt.mulF, FVal.mul_nan hn', finish_nan, hsig, quietNan_eq]
    · rw [FVal.divF_nan f hn', hsig, quietNan_eq]
    · rw [fmaF_nan f hn', read_sig hf, read_sig hf, read_sig hf, quietNan_eq]
  · intro hn
    refine fpGives_of_eq hroot ?_
    rw [read_nan hf hn, quietNan_eq]
    rfl
  · intro hi
    have hr := read_inf hi
    rw [hr] at hroot
    split
    · next hs => exact fpGives_of_eq hroot (by rw [show isNegative f a = true from hs, quietNan_eq]; rfl)
    · next hs =>
      exact fpGives_of_eq hroot (by rw [show isNegative f a = false from Bool.eq_false_iff.2 hs, infinity_eq]; simp [Fmt.sqrtF, Fmt.sign])
  · intro hia hib
    have hra : f.read a = .inf sa := read_inf hia
    have hrb : f.read b = .inf sb := read_inf hib
    rw [hra, hrb] at hadd hsub hmul hdiv
    refine ⟨?_, ?_, fpGives_of_eq hmul ?_, fpGives_of_eq hdiv ?_⟩
    · split
      · next hs => exact fpGives_of_eq hadd (by rw [Fmt.addF, FVal.add]; simp [hs, finish_inf])
      · next hs => exact fpGives_of_eq hadd (by rw [Fmt.addF, FVal.add]; simp [hs, finish_nan, fNV])
    · split
      · next hs => exact fpGives_of_eq hsub (by simp [Fmt.subF, FVal.negate, FVal.add, hs, finish_nan, fNV])
      · next hs =>
        have hs' : sa = !sb := by cases hx : sa <;> cases hy : sb <;> simp_all
        exact fpGives_of_eq hsub (by simp [Fmt.subF, FVal.negate, FVal.add, hs', finish_inf])
    · rw [Fmt.mulF, FVal.mul, finish_inf]; rfl
    · rw [Fmt.divF, quietNan_eq]; rfl
  · intro hia hvb
    have hra : f.read a = .inf sa := read_inf hia
    obtain ⟨m, e, hrb⟩ := read_of_some hvb
    rw [hra, hrb] at hadd hsub hdiv
    refine ⟨fpGives_of_eq hadd ?_, fpGives_of_eq hsub ?_, fpGives_of_eq hdiv ?_, ?_⟩
    · rw [Fmt.addF, FVal.add, finish_inf]; rfl
    · rw [Fmt.subF, FVal.negate, FVal.add, finish_inf]; rfl
    · rfl
    · split
      · next hz =>
        obtain ⟨e', hrb⟩ := read_of_isZero hf hz
        rw [hra, hrb] at hmul
        exact fpGives_of_eq hmul (by rw [Fmt.mulF, FVal.mul, if_pos rfl, finish_nan, quietNan_eq]; rfl)
      · next hz =>
        obtain ⟨m', e', hrb, hm⟩ := read_of_not_isZero hvb (Bool.eq_false_iff.2 hz)
        rw [hra, hrb] at hmul
        exact fpGives_of_eq hmul (by rw [Fmt.mulF, FVal.mul, if_neg hm, finish_inf]; rfl)
  · intro hva hib
    have hrb : f.read b = .inf sb := read_inf hib
    obtain ⟨m, e, hra⟩ := read_of_some hva
    rw [hra, hrb] at hadd hsub hdiv
    refine ⟨fpGives_of_eq hadd ?_, fpGives_of_eq hsub ?_, fpGives_of_eq hdiv ?_, ?_⟩
    · rw [Fmt.addF, FVal.add, finish_inf]; rfl
    · rw [Fmt.subF, FVal.negate, FVal.add, finish_inf]; rfl
    · rfl
    · split
      · next hz =>
        obtain ⟨e', hra⟩ := read_of_isZero hf hz
        rw [hra, hrb] at hmul
        exact fpGives_of_eq hmul (by rw [Fmt.mulF, FVal.mul, if_pos rfl, finish_nan, quietNan_eq]; rfl)
      · next hz =>
        obtain ⟨m', e', hra, hm⟩ := read_of_not_isZero hva (Bool.eq_false_iff.2 hz)
        rw [hra, hrb] at hmul
        refine fpGives_of_eq hmul ?_
        rw [Fmt.mulF, FVal.mul, if_neg hm, finish_inf, Bool.xor_comm]; rfl
  · intro hva hzb
    obtain ⟨e, hrb⟩ := read_of_isZero hf hzb
    split
    · next hz =>
      obtain ⟨e', hra⟩ := read_of_isZero hf hz
      rw [hra, hrb] at hdiv
      exact fpGives_of_eq hdiv (by rw [Fmt.divF, if_pos rfl, if_pos rfl, quietNan_eq]; rfl)
    · next hz =>
      obtain ⟨m', e', hra, hm⟩ := read_of_not_isZero hva (Bool.eq_false_iff.2 hz)
      rw [hra, hrb] at hdiv
      exact fpGives_of_eq hdiv (by rw [Fmt.divF, if_pos rfl, if_neg hm]; rfl)
  · intro hz
    have hp : (f.read a).mul (f.read b) = (.nan false, fNV) := by
      rcases hz with ⟨hza, hib⟩ | ⟨hia, hzb⟩
      · obtain ⟨e, hra⟩ := read_of_isZero hf hza
        rw [hra, read_inf hib, FVal.mul, if_pos rfl]
      · obtain ⟨e, hrb⟩ := read_of_isZero hf hzb
        rw [hrb, read_inf hia, FVal.mul, if_pos rfl]
    refine fpGives_of_eq hfma ?_
    rw [fmaF_eq, hp, FVal.add_nan (.inl rfl), finish_nan, quietNan_eq]
    cases hs : (f.read c).sig <;> simp [sigFlags, hs, orF, fNV]
  · intro hz
    have hp : (f.read a).mul (f.read b) = (.inf (sa ^^ sb), 0) := by
      have hside (x : Nat) (h1 : isNan f x = false) (h2 : isZero f x = false) :
          f.read x = .inf (isNegative f x) ∨ ∃ m e, f.read x = .num (isNegative f x) m e ∧ m ≠ 0 := by
        rcases nan_or_inf_or_value f x with ⟨h, -⟩ | ⟨-, h, -⟩ | ⟨-, -, y, h⟩
        · rw [h1] at h; cases h
        · exact .inl (read_inf h)
        · exact .inr (read_of_not_isZero (by rw [h]; rfl) h2)
      rcases hz with ⟨hia, hnb, hzb⟩ | ⟨hib, hna, hza⟩
      · rw [read_inf hia]
        rcases hside b hnb hzb with h | ⟨m, e, h, hm⟩
        · rw [h]; rfl
        · rw [h, FVal.mul, if_neg hm]
      · rw [read_inf hib]
        rcases hside a hna hza with h | ⟨m, e, h, hm⟩
        · rw [h]; rfl
        · rw [h, FVal.mul, if_neg hm, Bool.xor_comm]
    refine ⟨fun hn => fpGives_of_eq hfma ?_, fun ⟨hi, hs⟩ => fpGives_of_eq hfma ?_, fun ⟨hn, hs⟩ => fpGives_of_eq hfma ?_⟩
    · rw [fmaF_nan_addend f (by rw [hp]) (by rw [hp]; rfl) (by rw [read_isNan hf]; exact hn), read_sig hf, quietNan_eq]
    · have hs' : ¬(sa ^^ sb) = isNegative f c := fun e => hs (by rw [← e])
      rw [fmaF_eq, hp, read_inf hi]
      simp [FVal.add, hs', finish_nan, orF, fNV]
    · rcases nan_or_inf_or_value f c with ⟨h', -⟩ | ⟨-, h', -⟩ | ⟨-, -, y, h'⟩
      · rw [hn] at h'; cases h'
      · have hs' : (sa ^^ sb) = isNegative f c := by
          by_contra hne
          exact hs ⟨h', fun e => hne (by rw [e])⟩
        rw [fmaF_eq, hp, read_inf h']
        simp [FVal.add, hs', finish_inf, orF]
      · obtain ⟨m, e, hrc⟩ := read_of_some (by rw [h']; rfl : (value f c).isSome = true)
        rw [fmaF_eq, hp, hrc]
        simp [FVal.add, finish_inf, orF]
  · intro hva hvb
    obtain ⟨m, e, hra⟩ := read_of_some hva
    obtain ⟨m', e', hrb⟩ := read_of_some hvb
    rw [hra, hrb] at hfma
    refine ⟨fun hn => fpGives_of_eq hfma ?_, fun hi => fpGives_of_eq hfma ?_⟩
    · rw [fmaF_nan_addend f rfl rfl (by rw [read_isNan hf]; exact hn), read_sig hf, quietNan_eq]
    · rw [fmaF_eq, read_inf hi]
      simp [FVal.add, FVal.mul, finish_inf, orF]
end

end Sys2Proof.Machine
end

section
/-! PROOF. Comparisons, extremes, classes and signs (R38, R136, R137). -/

set_option Elab.async false

namespace Sys2Proof.Machine
open Sys2Proof.Claims

section
variable {f : Fmt} {a b : Nat} {u v : FVal} {p q : Bool} {x y : Rat}

/-! ### Comparisons (R136) -/

theorem FVal.Exact.lt (hu : u.Exact p x) (hv : v.Exact q y) : u.lt v = true ↔ x < y := by
  obtain ⟨_, m1, e1⟩ := hu
  obtain ⟨_, m2, e2⟩ := hv
  obtain ⟨n, hn, -⟩ := addNum_exact p m1 e1 (!q) m2 e2
  rw [sgn_not, neg_mul, ← sub_eq_add_neg] at hn
  rw [← sub_neg, FVal.lt]
  generalize addNum p m1 e1 (!q) m2 e2 = d, sgn p * _ - _ = z at hn
  obtain ⟨_, k, e⟩ := hn
  have he : (0 : Rat) < 2 ^ e := by positivity
  rw [Bool.and_eq_true, decide_eq_true_iff]
  rcases Nat.eq_zero_or_pos k with rfl | hk
  · simp
  · have : (0 : Rat) < k * 2 ^ e := by positivity
    rw [sgn_mul_neg_iff this]
    exact and_iff_left hk.ne'

/-- The model's order on encodings that are no NaN is the extended line's. -/
theorem read_lt (ha : isNan f a = false) (hb : isNan f b = false) : (f.read a).lt (f.read b) = true ↔ below f a b := by
  rcases nan_or_inf_or_value f a with ⟨h, -⟩ | ⟨-, hia, hva⟩ | ⟨-, -, x, hx⟩
  · rw [ha] at h; cases h
  · rcases nan_or_inf_or_value f b with ⟨h, -⟩ | ⟨-, hib, hvb⟩ | ⟨-, -, y, hy⟩
    · rw [hb] at h; cases h
    · simp [below, hva, hvb, read_inf hia, read_inf hib, FVal.lt]
    · have := read_value hy
      generalize f.read b = v at this
      obtain ⟨_, m, e⟩ := this
      simp [below, hva, hy, read_inf hia, FVal.lt]
  · rcases nan_or_inf_or_value f b with ⟨h, -⟩ | ⟨-, hib, hvb⟩ | ⟨-, -, y, hy⟩
    · rw [hb] at h; cases h
    · have := read_value hx
      generalize f.read a = v at this
      obtain ⟨_, m, e⟩ := this
      simp [below, hx, hvb, read_inf hib, FVal.lt]
    · rw [(read_value hx).lt (read_value hy)]
      simp [below, hx, hy]

theorem below_asymm (h : below f a b) : ¬below f b a := by
  unfold below at *
  cases ha : value f a <;> cases hb : value f b <;> simp only [ha, hb] at h ⊢
  · simp [h.1]
  · simp [h]
  · simp [h]
  · exact not_lt.2 h.le

theorem below_irrefl (f : Fmt) (a : Nat) : ¬below f a a := fun h => below_asymm h h

theorem read_eq_iff (hf : f.Usable) : (f.read a).eq (f.read b) = true ↔
    (isNan f a || isNan f b) = false ∧ ¬below f a b ∧ ¬below f b a := by
  rw [FVal.eq, read_isNan hf, read_isNan hf]
  cases ha : isNan f a
  · cases hb : isNan f b
    · rw [← read_lt ha hb, ← read_lt hb ha]
      simp
    · simp
  · simp

theorem read_lt_iff (hf : f.Usable) : (f.read a).lt (f.read b) = true ↔
    (isNan f a || isNan f b) = false ∧ below f a b := by
  cases ha : isNan f a
  · cases hb : isNan f b
    · rw [read_lt ha hb]; simp
    · rw [read_nan hf hb]
      cases f.read a <;> simp [FVal.lt]
  · rw [read_nan hf ha]
    simp [FVal.lt]

theorem read_le_iff (hf : f.Usable) : ((f.read a).lt (f.read b) || (f.read a).eq (f.read b)) = true ↔
    (isNan f a || isNan f b) = false ∧ ¬below f b a := by
  rw [Bool.or_eq_true, read_lt_iff hf, read_eq_iff hf]
  constructor
  · rintro (⟨h, hb⟩ | ⟨h, -, hb⟩)
    · exact ⟨h, below_asymm hb⟩
    · exact ⟨h, hb⟩
  · rintro ⟨h, hb⟩
    by_cases hab : below f a b
    · exact .inl ⟨h, hab⟩
    · exact .inr ⟨h, hab, hb⟩

theorem sigFlags_read (hf : f.Usable) (a b : Nat) :
    sigFlags (f.read a) (f.read b) = if (isSignalling f a || isSignalling f b) = true then 16 else 0 := by
  rw [sigFlags_eq, read_sig hf, read_sig hf]

/-! ### Minimum and maximum -/

/-- The encodings of zero are the two sign bits alone. -/
theorem eq_sign_of_isZero (hf : f.Usable) (ha : a < 2 ^ (f.prec + f.ebits)) (h : isZero f a = true) :
    a = f.sign (isNegative f a) := by
  obtain ⟨-, hv⟩ := value_eq_some hf ha (value_of_isZero hf h)
  have hm : f.magVal Rat (a % 2 ^ (f.width - 1)) = f.magVal Rat 0 := by
    rw [Fmt.magVal_zero]
    exact (mul_eq_zero.1 hv.symm).resolve_left (sgn_ne_zero _)
  have := Fmt.exists_sign hf ha
  rwa [(Fmt.magVal_strictMono hf).injective hm] at this

theorem sign_false_lt (f : Fmt) : f.sign false < f.sign true := by simp [Fmt.sign]

/-- What the order of FMIN and FMAX decides between two encodings. -/
theorem read_below_iff (hf : f.Usable) (ha : isNan f a = false) (hb : isNan f b = false) :
    (f.read a).below (f.read b) = true ↔
      below f a b ∨ (¬below f a b ∧ ¬below f b a ∧ isNegative f a = true ∧ isNegative f b = false) := by
  rw [FVal.below, Bool.or_eq_true, read_lt ha hb, Bool.and_eq_true, Bool.and_eq_true, read_eq_iff hf, read_neg ha,
    read_neg hb, ha, hb]
  simp only [Bool.or_self, true_and, Bool.not_eq_true', and_assoc]

theorem not_below_of_not_read_below (hf : f.Usable) (ha : isNan f a = false) (hb : isNan f b = false)
    (h : ¬(f.read a).below (f.read b) = true) : ¬below f a b :=
  fun hlt => h ((read_below_iff hf ha hb).2 (.inl hlt))

theorem not_below_of_read_below (hf : f.Usable) (ha : isNan f a = false) (hb : isNan f b = false)
    (h : (f.read a).below (f.read b) = true) : ¬below f b a := by
  rcases (read_below_iff hf ha hb).1 h with h | ⟨-, h, -⟩
  · exact below_asymm h
  · exact h

/-- Of two zeros the model puts the negative one below, as its encoding stands above. -/
theorem read_below_zero (hf : f.Usable) (hla : a < 2 ^ (f.prec + f.ebits)) (hlb : b < 2 ^ (f.prec + f.ebits))
    (ha : isZero f a = true) (hb : isZero f b = true) : (f.read a).below (f.read b) = true ↔ b < a := by
  have hva := value_of_isZero hf ha
  have hvb := value_of_isZero hf hb
  have hea := eq_sign_of_isZero hf hla ha
  have heb := eq_sign_of_isZero hf hlb hb
  rw [read_below_iff hf (isNan_of_value (by rw [hva]; rfl)) (isNan_of_value (by rw [hvb]; rfl))]
  have hn : ¬below f a b := by simp [below, hva, hvb]
  have hn' : ¬below f b a := by simp [below, hva, hvb]
  simp only [hn, hn', not_false_iff, true_and, false_or]
  have := sign_false_lt f
  generalize isNegative f a = s at hea
  generalize isNegative f b = t at heb
  subst hea heb
  cases s <;> cases t <;> simp [this, this.le]

/-- R136's minimum and maximum. -/
theorem minMax_spec (hf : f.Usable) (hla : a < 2 ^ (f.prec + f.ebits)) (hlb : b < 2 ^ (f.prec + f.ebits)) (isMax : Bool) :
    ∃ n, f.minMax isMax a b = (n, if (isSignalling f a || isSignalling f b) = true then 16 else 0) ∧
      (isNan f a = true → isNan f b = true → n = quietNan f) ∧
      (isNan f a = true → isNan f b = false → n = b) ∧ (isNan f a = false → isNan f b = true → n = a) ∧
      ((isNan f a || isNan f b) = false → (n = a ∨ n = b) ∧
        (if isMax then ¬below f n a ∧ ¬below f n b else ¬below f a n ∧ ¬below f b n) ∧
        (isZero f a = true → isZero f b = true → n = if isMax then min a b else max a b)) := by
  rw [← sigFlags_read hf, Fmt.minMax]
  simp only [read_isNan hf]
  cases ha : isNan f a <;> cases hb : isNan f b
  · cases isMax
    · refine ⟨if (f.read b).below (f.read a) then b else a, by simp, by simp, by simp, by simp, fun _ => ?_⟩
      split
      · next h =>
        refine ⟨.inr rfl, ⟨not_below_of_read_below hf hb ha h, below_irrefl f b⟩, fun hza hzb => ?_⟩
        rw [read_below_zero hf hlb hla hzb hza] at h
        exact (max_eq_right h.le).symm
      · next h =>
        refine ⟨.inl rfl, ⟨below_irrefl f a, not_below_of_not_read_below hf hb ha h⟩, fun hza hzb => ?_⟩
        rw [read_below_zero hf hlb hla hzb hza, not_lt] at h
        exact (max_eq_left h).symm
    · refine ⟨if (f.read a).below (f.read b) then b else a, by simp, by simp, by simp, by simp, fun _ => ?_⟩
      split
      · next h =>
        refine ⟨.inr rfl, ⟨not_below_of_read_below hf ha hb h, below_irrefl f b⟩, fun hza hzb => ?_⟩
        rw [read_below_zero hf hla hlb hza hzb] at h
        exact (min_eq_right h.le).symm
      · next h =>
        refine ⟨.inl rfl, ⟨below_irrefl f a, not_below_of_not_read_below hf ha hb h⟩, fun hza hzb => ?_⟩
        rw [read_below_zero hf hla hlb hza hzb, not_lt] at h
        exact (min_eq_left h).symm
  · exact ⟨a, by simp⟩
  · exact ⟨b, by simp⟩
  · exact ⟨f.nan, by simp⟩

/-! ### Class and sign (R137) -/

theorem classOf_eq (hf : f.Usable) (a : Nat) : f.classOf a =
    (if isZero f a then 1 else if expo f a = 0 then 2 else if expo f a < 2 ^ f.ebits - 1 then 4
        else if isInf f a then 8 else if isSignalling f a then 32 else 16) +
      (if isNegative f a then 256 else 0) := by
  have hexp : expo f a < 2 ^ f.ebits := Nat.mod_lt _ (by positivity)
  have hmax : 0 < 2 ^ f.ebits - 1 := Nat.sub_pos_of_lt (Nat.one_lt_two_pow (by have := hf.ebits; omega))
  have hfr : frac f a < 2 ^ (f.prec - 1) := Nat.mod_lt _ (by positivity)
  have hneg : (if a / 2 ^ (f.width - 1) % 2 = 1 then 0x100 else 0) = (if isNegative f a then 256 else 0) := by
    simp only [isNegative, beq_iff_eq]
    rfl
  rw [Fmt.classOf, hneg]
  rcases nan_or_inf_or_value f a with ⟨h, hi, hv⟩ | ⟨-, hi, -⟩ | ⟨hn, hi, x, hx⟩
  · have he : expo f a = 2 ^ f.ebits - 1 ∧ frac f a ≠ 0 := by simpa [isNan] using h
    rw [read_nan hf h]
    simp only [isZero, he.1, hi]
    simp [hmax.ne', Nat.add_comm]
  · have he : expo f a = 2 ^ f.ebits - 1 := by simp [isInf] at hi; exact hi.1
    rw [read_inf hi]
    simp [isZero, he, hi, hmax.ne', Nat.add_comm]
  · have hne : expo f a ≠ 2 ^ f.ebits - 1 := fun he => by rw [value, if_pos he] at hx; cases hx
    by_cases he : expo f a = 0
    · have hr : f.read a = .num (isNegative f a) (frac f a) f.qmin := by
        rw [expo] at he hne
        simp only [Fmt.read, if_neg hne, if_pos he]
        rfl
      rw [hr]
      by_cases hz : frac f a = 0
      · simp [isZero, he, hz, Nat.add_comm]
      · simp [isZero, he, hz, hfr, Nat.add_comm]
    · have hr : f.read a = .num (isNegative f a) (frac f a + 2 ^ (f.prec - 1)) (f.qmin + ((expo f a : Int) - 1)) := by
        have he' := he
        rw [expo] at he' hne
        simp only [Fmt.read, if_neg hne, if_neg he']
        rfl
      have hlt : expo f a < 2 ^ f.ebits - 1 := by omega
      rw [hr]
      simp [isZero, he, hlt, Nat.add_comm]

theorem xor_top {k n : Nat} (h : n < 2 * 2 ^ k) : n ^^^ 2 ^ k = if n < 2 ^ k then n + 2 ^ k else n - 2 ^ k := by
  have hlow {m : Nat} (hm : m < 2 ^ k) : m ^^^ 2 ^ k = m + 2 ^ k := by
    apply Nat.eq_of_testBit_eq
    intro i
    rw [Nat.testBit_xor, Nat.testBit_two_pow, Nat.add_comm]
    rcases lt_trichotomy i k with hi | rfl | hi
    · rw [Nat.testBit_two_pow_add_gt hi]
      simp [hi.ne']
    · rw [Nat.testBit_two_pow_add_eq]
      simp
    · have h1 : m < 2 ^ i := hm.trans (Nat.pow_lt_pow_right one_lt_two hi)
      have h2 : 2 ^ k + m < 2 ^ i := by
        have : 2 ^ (k + 1) ≤ 2 ^ i := Nat.pow_le_pow_right two_pos hi
        rw [pow_succ] at this
        omega
      simp [Nat.testBit_lt_two_pow h1, Nat.testBit_lt_two_pow h2, hi.ne]
  split
  · next hn => exact hlow hn
  · next hn =>
    have hs : (n - 2 ^ k) ^^^ 2 ^ k = n := by
      rw [hlow (by omega)]
      omega
    conv_lhs => rw [← hs]
    rw [Nat.xor_assoc, Nat.xor_self, Nat.xor_zero]

end

section
variable {f : Fmt} {feq flt fle fmin fmax : GReg → GReg → GReg → Instr} {fclass fneg fabs : GReg → GReg → Instr}

/-- What the comparisons, the extremes, the class and the signs compute. -/
structure ComputesOrder (f : Fmt) (feq flt fle fmin fmax : GReg → GReg → GReg → Instr)
    (fclass fneg fabs : GReg → GReg → Instr) : Prop where
  eq : ∀ s rd rs1 rs2, exec (feq rd rs1 rs2) s = fpBool s rd (feqF (s.fop f rs1) (s.fop f rs2))
  lt : ∀ s rd rs1 rs2, exec (flt rd rs1 rs2) s = fpBool s rd (fltF (s.fop f rs1) (s.fop f rs2))
  le : ∀ s rd rs1 rs2, exec (fle rd rs1 rs2) s = fpBool s rd (fleF (s.fop f rs1) (s.fop f rs2))
  min : ∀ s rd rs1 rs2, exec (fmin rd rs1 rs2) s = fpOut s rd (f.minMax false (s.fbits f rs1) (s.fbits f rs2))
  max : ∀ s rd rs1 rs2, exec (fmax rd rs1 rs2) s = fpOut s rd (f.minMax true (s.fbits f rs1) (s.fbits f rs2))
  class_ : ∀ s rd rs1, exec (fclass rd rs1) s = fpOut s rd (f.classOf (s.fbits f rs1), 0)
  neg : ∀ s rd rs1, exec (fneg rd rs1) s = fpOut s rd (s.fbits f rs1 ^^^ 2 ^ (f.width - 1), 0)
  abs : ∀ s rd rs1, exec (fabs rd rs1) s = fpOut s rd (s.fbits f rs1 % 2 ^ (f.width - 1), 0)

theorem b2n_cases (b : Bool) : (b2n b = 1 ∨ b2n b = 0) ∧ (b2n b = 1 ↔ b = true) := by cases b <;> simp [b2n]

theorem compares_of (hf : f.Usable) (h : ComputesOrder f feq flt fle fmin fmax fclass fneg fabs) :
    Compares feq flt fle fmin fmax fclass fneg fabs f := by
  intro s rd rs1 rs2 a b some1 quiet loud top
  have ha : a < 2 ^ (f.prec + f.ebits) := low_lt f _
  have hb : b < 2 ^ (f.prec + f.ebits) := low_lt f _
  have hquiet : sigFlags (f.read a) (f.read b) = quiet := sigFlags_read hf a b
  have hloud : (if (f.read a).isNan || (f.read b).isNan then fNV else 0 : Flags) = loud := by
    rw [read_isNan hf, read_isNan hf]; rfl
  refine ⟨?_, ?_, ?_, ?_, ?_, ?_, ?_, ?_⟩
  · obtain ⟨h1, h2⟩ := b2n_cases ((f.read a).eq (f.read b))
    refine ⟨_, fpGives_of_eq (h.eq s rd rs1 rs2) (Prod.ext rfl hquiet), h1, ?_⟩
    exact h2.trans (read_eq_iff hf)
  · obtain ⟨h1, h2⟩ := b2n_cases ((f.read a).lt (f.read b))
    refine ⟨_, fpGives_of_eq (h.lt s rd rs1 rs2) (Prod.ext rfl hloud), h1, ?_⟩
    exact h2.trans (read_lt_iff hf)
  · obtain ⟨h1, h2⟩ := b2n_cases ((f.read a).lt (f.read b) || (f.read a).eq (f.read b))
    refine ⟨_, fpGives_of_eq (h.le s rd rs1 rs2) (Prod.ext rfl hloud), h1, ?_⟩
    exact h2.trans (read_le_iff hf)
  · obtain ⟨n, hn, h1, h2, h3, h4⟩ := minMax_spec hf ha hb false
    exact ⟨n, fpGives_of_eq (h.min s rd rs1 rs2) hn, h1, h2, h3, fun hs => by
      obtain ⟨ho, ⟨hba, hbb⟩, hz⟩ := h4 hs
      exact ⟨ho, hba, hbb, hz⟩⟩
  · obtain ⟨n, hn, h1, h2, h3, h4⟩ := minMax_spec hf ha hb true
    exact ⟨n, fpGives_of_eq (h.max s rd rs1 rs2) hn, h1, h2, h3, fun hs => by
      obtain ⟨ho, ⟨hba, hbb⟩, hz⟩ := h4 hs
      exact ⟨ho, hba, hbb, hz⟩⟩
  · exact fpGives_of_eq (h.class_ s rd rs1) (Prod.ext (classOf_eq hf a) rfl)
  · refine fpGives_of_eq (h.neg s rd rs1) (Prod.ext ?_ rfl)
    rw [Fmt.two_pow_width hf] at ha
    exact xor_top ha
  · exact fpGives_of_eq (h.abs s rd rs1) rfl

end

theorem computes32 : Computes fmt32 .faddS .fsubS .fmulS .fdivS .fmaS .fsqrtS :=
  ⟨fun _ _ _ _ => rfl, fun _ _ _ _ => rfl, fun _ _ _ _ => rfl, fun _ _ _ _ => rfl, fun _ _ _ _ => rfl, fun _ _ _ => rfl⟩
theorem computes64 : Computes fmt64 .faddD .fsubD .fmulD .fdivD .fmaD .fsqrtD :=
  ⟨fun _ _ _ _ => rfl, fun _ _ _ _ => rfl, fun _ _ _ _ => rfl, fun _ _ _ _ => rfl, fun _ _ _ _ => rfl, fun _ _ _ => rfl⟩
theorem computesOrder32 : ComputesOrder fmt32 .feqS .fltS .fleS .fminS .fmaxS .fclassS .fnegS .fabsS :=
  ⟨fun _ _ _ _ => rfl, fun _ _ _ _ => rfl, fun _ _ _ _ => rfl, fun _ _ _ _ => rfl, fun _ _ _ _ => rfl, fun _ _ _ => rfl,
    fun _ _ _ => rfl, fun _ _ _ => rfl⟩
theorem computesOrder64 : ComputesOrder fmt64 .feqD .fltD .fleD .fminD .fmaxD .fclassD .fnegD .fabsD :=
  ⟨fun _ _ _ _ => rfl, fun _ _ _ _ => rfl, fun _ _ _ _ => rfl, fun _ _ _ _ => rfl, fun _ _ _ _ => rfl, fun _ _ _ => rfl,
    fun _ _ _ => rfl, fun _ _ _ => rfl⟩

/-- Settles O8: the cases of the exact operations that are no numbers, and the order of the extended line on encodings. -/
theorem floatingSpecialCasesAndComparisons : Obligations.FloatingSpecialCasesAndComparisons :=
  ⟨⟨specialCases_of Fmt.usable32 computes32, specialCases_of Fmt.usable64 computes64⟩,
    compares_of Fmt.usable32 computesOrder32, compares_of Fmt.usable64 computesOrder64⟩

end Sys2Proof.Machine
end

section
/-! PROOF. Scalar conversions (R36, R41, R135): integers and encodings as exact values, rounded once. -/

set_option Elab.async false

namespace Sys2Proof.Machine
open Sys2Proof.Claims

/-! ### Numbers to integers -/

/-- k is the integer a number rounds to: the nearest, even at a tie, or the one toward zero. -/
def IntRounded (nearest : Bool) (x : Rat) (k : Int) : Prop :=
  if nearest then |(k : Rat) - x| ≤ 1 / 2 ∧ (|(k : Rat) - x| = 1 / 2 → k % 2 = 0)
  else (0 ≤ x → (k : Rat) ≤ x ∧ x < k + 1) ∧ (x < 0 → (k : Rat) - 1 < x ∧ x ≤ k)

/-- The natural number that a magnitude rounds to. -/
def natRounded (nearest : Bool) (y : Rat) : Nat := if nearest then nearEven y else ⌊y⌋₊

theorem natRounded_natCast (nearest : Bool) (n : Nat) : natRounded nearest n = n := by
  cases nearest <;> simp [natRounded, nearEven_natCast]

theorem natRounded_eq_iff (nearest : Bool) (y : Rat) : (natRounded nearest y : Rat) = y ↔ (⌊y⌋₊ : Rat) = y := by
  constructor <;> intro h
  · rw [← h, Nat.floor_natCast]
  · rw [← h, natRounded_natCast]

/-- The model's integer, and what it calls inexact. -/
theorem roundInt_eq (m : Nat) (e : Int) (nearest : Bool) :
    roundInt m e nearest = (natRounded nearest (m * 2 ^ e), decide ((natRounded nearest (m * 2 ^ e : Rat) : Rat) ≠ m * 2 ^ e)) := by
  rw [roundInt]
  split
  · next h =>
    obtain ⟨n, rfl⟩ := Int.eq_ofNat_of_zero_le h
    have : (m : Rat) * 2 ^ (n : Int) = (m * 2 ^ n : Nat) := by push_cast; rw [zpow_natCast]
    rw [Int.toNat_natCast, this, natRounded_natCast, decide_eq_false (not_not.2 rfl)]
  · next h =>
    obtain ⟨n, hn⟩ := Int.eq_ofNat_of_zero_le (by omega : 0 ≤ -e)
    have hy : (m : Rat) * 2 ^ e = m / (2 ^ n : Nat) := by
      rw [show e = -(n : Int) by omega, zpow_neg, zpow_natCast, Nat.cast_pow, div_eq_mul_inv]
      rfl
    have hfloor : ⌊(m : Rat) / (2 ^ n : Nat)⌋₊ = m / 2 ^ n := Nat.floor_div_eq_div m (2 ^ n)
    have hfst : (if nearest then roundShift m n false else m / 2 ^ n) = natRounded nearest ((m : Rat) / (2 ^ n : Nat)) := by
      have hs := Sticks.none (K := Rat)
      rw [natRounded, hfloor, roundShift_eq hs.nonneg hs.lt_one hs.iff (by simp), add_zero, Nat.cast_pow]
      rfl
    dsimp only
    rw [hn, Int.toNat_natCast, hy, Prod.mk.injEq, decide_eq_decide, ne_eq, ne_eq, not_iff_not,
      natRounded_eq_iff, hfloor]
    refine ⟨hfst, ?_⟩
    rw [eq_div_iff (by positivity)]
    have := Nat.div_add_mod m (2 ^ n)
    constructor <;> intro h
    · exact_mod_cast (by rw [Nat.mul_comm]; omega : m / 2 ^ n * 2 ^ n = m)
    · have h : m / 2 ^ n * 2 ^ n = m := by exact_mod_cast h
      rw [Nat.mul_comm] at h
      omega

theorem natRounded_spec (nearest p : Bool) {y : Rat} (hy : 0 ≤ y) :
    IntRounded nearest (sgn p * y) (if p then -(natRounded nearest y : Int) else natRounded nearest y) := by
  have hf := Nat.floor_le hy
  have hl := Nat.lt_floor_add_one y
  have hk : ((if p then -(natRounded nearest y : Int) else natRounded nearest y : Int) : Rat) =
      sgn p * natRounded nearest y := by cases p <;> simp [sgn]
  rw [IntRounded, hk]
  cases nearest
  · have hn : natRounded false y = ⌊y⌋₊ := rfl
    rw [hn]
    cases p
    · simp only [sgn, Bool.false_eq_true, if_false, one_mul]
      exact ⟨fun _ => ⟨hf, hl⟩, fun h => absurd hy (not_le.2 h)⟩
    · simp only [sgn, if_true, Bool.false_eq_true, if_false]
      refine ⟨fun h => ?_, fun _ => ⟨by linarith, by linarith⟩⟩
      have h0 : y = 0 := by linarith
      simp [h0]
  · have hn : natRounded true y = nearEven y := rfl
    have hpar : (if p then -(nearEven y : Int) else nearEven y) % 2 = 0 ↔ nearEven y % 2 = 0 := by
      cases p <;> simp <;> omega
    rw [if_pos rfl, ← mul_sub, abs_mul, abs_sgn, one_mul, hn, hpar]
    rcases nearEven_cases y with ⟨h, h1, h2⟩ | ⟨h, h1, h2⟩
    · rw [h, abs_of_nonpos (by linarith)]
      exact ⟨by linarith, fun e => h2 (by linarith)⟩
    · rw [h, Nat.cast_succ, abs_of_nonneg (by linarith)]
      exact ⟨by linarith, fun e => by have := h2 (by linarith); omega⟩

/-- A number to an integer in a range: judged on the rounded integer (R36). -/
theorem FVal.Exact.toInt {u : FVal} {p : Bool} {x : Rat} (h : u.Exact p x) (nearest : Bool) (lo hi : Int) :
    ∃ k : Int, IntRounded nearest x k ∧ Machine.toInt u nearest lo hi =
      if k < lo then (lo, 16) else if hi < k then (hi, 16) else (k, if (k : Rat) = x then 0 else 1) := by
  obtain ⟨_, m, e⟩ := h
  refine ⟨_, natRounded_spec nearest p (y := m * 2 ^ e) (by positivity), ?_⟩
  have hx (n : Nat) : ((if p then -(n : Int) else n : Int) : Rat) = sgn p * (m * 2 ^ e) ↔ (n : Rat) = m * 2 ^ e := by
    have : ((if p then -(n : Int) else n : Int) : Rat) = sgn p * n := by cases p <;> simp [sgn]
    rw [this]
    exact ⟨fun e => mul_left_cancel₀ (sgn_ne_zero p) e, fun e => by rw [e]⟩
  have hfl : (if decide ((natRounded nearest ((m : Rat) * 2 ^ e) : Rat) ≠ m * 2 ^ e) = true then fNX else 0 : Flags) =
      if (natRounded nearest ((m : Rat) * 2 ^ e) : Rat) = m * 2 ^ e then 0 else 1 := by
    by_cases h : (natRounded nearest ((m : Rat) * 2 ^ e) : Rat) = m * 2 ^ e <;> simp [h, fNX]
  rw [Machine.toInt, roundInt_eq]
  dsimp only
  rw [hfl]
  simp only [hx]
  rfl

/-! ### Integers to numbers -/

theorem ofInt_exact (k : Int) : (ofInt k).Exact (decide (k < 0)) k := by
  have := FVal.Exact.num (decide (k < 0)) k.natAbs 0
  rw [zpow_zero, mul_one, Nat.cast_natAbs, Int.cast_abs] at this
  have hm := Machine.sgn_mul_abs (k : Rat)
  rw [show decide ((k : Rat) < 0) = decide (k < 0) by simp] at hm
  rwa [hm] at this

/-! ### The scalar instructions (R135) -/

theorem fromInteger_of {op : GReg → GReg → Instr} {f : Fmt} (hf : f.Usable)
    (hop : ∀ s rd rs1, exec (op rd rs1) s = fpOut s rd (f.pack (ofInt (s.g rs1).toInt))) : FromInteger op f := by
  intro s rd rs1 k
  obtain ⟨hr, hz⟩ := (ofInt_exact k).rounded hf
  refine ⟨(f.pack (ofInt k)).1, (f.pack (ofInt k)).2, fpGives_of_fpOut (hop s rd rs1), hr, fun h => ?_⟩
  have := hz (by rw [h]; rfl)
  rw [this, h]
  rfl

theorem int_toNat (k : Int) : (int k).toNat = ofS 64 k := BitVec.toNat_ofInt k

theorem toInteger_of {op : GReg → GReg → Instr} {f : Fmt} {nearest : Bool} (hf : f.Usable)
    (hop : ∀ s rd rs1, exec (op rd rs1) s = fpToInt s rd rs1 f nearest) : ToInteger op f nearest := by
  intro s rd rs1 a gives
  have hout {k : Int} {fl : Nat} (h : toInt (f.read a) nearest (-(2 : Int) ^ 63) ((2 : Int) ^ 63 - 1) = (k, fl)) :
      gives k fl := by
    refine fpGives_of_eq (r := (ofS 64 k, fl)) ?_ (by rw [int_toNat])
    have hread : s.fop f rs1 = f.read a := rfl
    rw [hop, fpToInt, hread]
    simp only [Nat.cast_pow, Nat.cast_ofNat, h]
  refine ⟨fun hn => hout ?_, fun hn hv => hout ?_, fun x hx => ?_⟩
  · rw [read_nan hf hn]; rfl
  · rcases nan_or_inf_or_value f a with ⟨h, -⟩ | ⟨-, hi, -⟩ | ⟨-, -, y, hy⟩
    · rw [hn] at h; cases h
    · rw [read_inf hi]; rfl
    · rw [hv] at hy; cases hy
  · obtain ⟨k, hk, hr⟩ := (read_value hx).toInt nearest (-(2 : Int) ^ 63) ((2 : Int) ^ 63 - 1)
    refine ⟨k, hk, ?_⟩
    split
    · next h => exact hout (by rw [hr, if_pos h])
    · next h =>
      rw [if_neg h] at hr
      split
      · next h => exact hout (by rw [hr, if_pos h])
      · next h => exact hout (by rw [hr, if_neg h])

/-- What a conversion between formats gives. -/
theorem pack_read {src dst : Fmt} (hs : src.Usable) (hd : dst.Usable) (a : Nat) :
    (∀ x, value src a = some x → Rounded dst x (dst.pack (src.read a)).1 (dst.pack (src.read a)).2 ∧
      (x = 0 → (dst.pack (src.read a)).1 = signBit dst (isNegative src a))) ∧
    (isNan src a = true → dst.pack (src.read a) = (quietNan dst, if isSignalling src a then 16 else 0)) ∧
    (isInf src a = true → dst.pack (src.read a) = (infinity dst (isNegative src a), 0)) := by
  refine ⟨fun x hx => (read_value hx).rounded hd, fun hn => ?_, fun hi => ?_⟩
  · rw [read_nan hs hn, quietNan_eq]; rfl
  · rw [read_inf hi]; rfl

theorem converts_of {op : GReg → GReg → Instr} {src dst : Fmt} (hs : src.Usable) (hd : dst.Usable)
    (hop : ∀ s rd rs1, exec (op rd rs1) s = fpOut s rd (dst.pack (s.fop src rs1))) : Converts op src dst := by
  intro s rd rs1 a
  obtain ⟨hnum, hnan, hinf⟩ := pack_read hs hd a
  refine ⟨fun x hx => ?_, fun hn => fpGives_of_eq (hop s rd rs1) (hnan hn), fun hn hv => ?_⟩
  · obtain ⟨hr, hz⟩ := hnum x hx
    exact ⟨_, _, fpGives_of_fpOut (hop s rd rs1), hr, hz⟩
  · rcases nan_or_inf_or_value src a with ⟨h, -⟩ | ⟨-, hi, -⟩ | ⟨-, -, y, hy⟩
    · rw [hn] at h; cases h
    · exact fpGives_of_eq (hop s rd rs1) (hinf hi)
    · rw [hv] at hy; cases hy

/-- Settles O9: integers and encodings are exact values, and each conversion rounds one. -/
theorem floatingConversions : Obligations.FloatingConversions :=
  ⟨fromInteger_of Fmt.usable32 fun _ _ _ => rfl, fromInteger_of Fmt.usable64 fun _ _ _ => rfl,
    toInteger_of Fmt.usable32 fun _ _ _ => rfl, toInteger_of Fmt.usable64 fun _ _ _ => rfl,
    toInteger_of Fmt.usable32 fun _ _ _ => rfl, toInteger_of Fmt.usable64 fun _ _ _ => rfl,
    converts_of Fmt.usable32 Fmt.usableBf fun _ _ _ => rfl, converts_of Fmt.usable64 Fmt.usableBf fun _ _ _ => rfl,
    converts_of Fmt.usableBf Fmt.usable32 fun _ _ _ => rfl, converts_of Fmt.usableBf Fmt.usable64 fun _ _ _ => rfl,
    converts_of Fmt.usable64 Fmt.usable32 fun _ _ _ => rfl, converts_of Fmt.usable32 Fmt.usable64 fun _ _ _ => rfl⟩

end Sys2Proof.Machine
end

section
/-! PROOF. Vector results (R217, R218): the lanes and the flags of a packed register, and the one write that gives it. -/

set_option Elab.async false

namespace Sys2Proof.Machine
open Sys2Proof.Claims

/-! ### Lanes of a packed register (R217, R218) -/

theorem ofLanes_lt (w : Nat) : ∀ xs : List Nat, ofLanes w xs < 2 ^ (w * xs.length)
  | [] => by simp [ofLanes]
  | x :: xs => by
    have ih := ofLanes_lt w xs
    have hx : x % 2 ^ w < 2 ^ w := Nat.mod_lt _ (by positivity)
    rw [ofLanes, List.length_cons, Nat.mul_succ, Nat.add_comm (w * _), pow_add]
    calc x % 2 ^ w + 2 ^ w * ofLanes w xs < 2 ^ w * (ofLanes w xs + 1) := by rw [Nat.mul_succ]; omega
      _ ≤ 2 ^ w * 2 ^ (w * xs.length) := Nat.mul_le_mul_left _ ih

theorem ofLanes_lane (w : Nat) : ∀ (xs : List Nat) (i : Nat), i < xs.length →
    ofLanes w xs / 2 ^ (w * i) % 2 ^ w = xs.getD i 0 % 2 ^ w
  | x :: xs, 0, _ => by simp [ofLanes]
  | x :: xs, i + 1, h => by
    have ih := ofLanes_lane w xs i (by simpa using h)
    rw [ofLanes, Nat.mul_succ, Nat.add_comm (w * i), pow_add, ← Nat.div_div_eq_div_mul,
      Nat.add_mul_div_left _ _ (by positivity), Nat.div_eq_of_lt (Nat.mod_lt _ (by positivity)), Nat.zero_add, ih]
    rfl

theorem laneOf_eq_lane (et : ETy) (v : VWord) (l : Nat) : laneOf et v l = lane v et.width l := by
  rw [lane, Nat.shiftRight_eq_div_pow, laneOf]

theorem laneOf_lt (et : ETy) (v : VWord) (l : Nat) : laneOf et v l < 2 ^ et.width := Nat.mod_lt _ (by positivity)

theorem lanes_width (et : ETy) : et.width * et.lanes = 512 := by cases et <;> rfl

theorem laneOf_ofLanes (et : ETy) {xs : List Nat} (h : xs.length = et.lanes) {l : Nat} (hl : l < et.lanes) :
    laneOf et (BitVec.ofNat 512 (ofLanes et.width xs)) l = xs.getD l 0 % 2 ^ et.width := by
  have hlt := ofLanes_lt et.width xs
  rw [h, lanes_width] at hlt
  rw [laneOf, BitVec.toNat_ofNat, Nat.mod_eq_of_lt hlt]
  exact ofLanes_lane _ _ _ (h ▸ hl)

section
variable (et : ETy) (mask : Word) (old : VWord)

theorem laneOf_mapLanes (f : Nat → Nat) {l : Nat} (hl : l < et.lanes) : laneOf et (mapLanes et.width et.lanes mask old f) l =
    if mask.getLsbD l then f l % 2 ^ et.width else laneOf et old l := by
  rw [mapLanes, laneOf_ofLanes et (by simp) hl]
  simp only [List.getD_eq_getElem?_getD, List.getElem?_map, List.getElem?_range hl, Option.map_some, Option.getD_some]
  split
  · rfl
  · rw [← laneOf_eq_lane, Nat.mod_eq_of_lt (laneOf_lt _ _ _)]

theorem laneOf_mapFlag (f : Nat → Nat × Flags) {l : Nat} (hl : l < et.lanes) :
    laneOf et (mapFlag et.width et.lanes mask old f).1 l =
      if mask.getLsbD l then (f l).1 % 2 ^ et.width else laneOf et old l := by
  rw [mapFlag, laneOf_ofLanes et (by simp) hl]
  simp only [List.getD_eq_getElem?_getD, List.getElem?_map, List.getElem?_range hl, Option.map_some, Option.getD_some]
  split
  · rfl
  · rw [← laneOf_eq_lane, Nat.mod_eq_of_lt (laneOf_lt _ _ _)]

end

theorem testBit_foldl_orF {α : Type} (f : α → Flags) (j : Nat) : ∀ (xs : List α) (z : Flags),
    (xs.foldl (fun a r => orF a (f r)) z).testBit j = true ↔ z.testBit j = true ∨ ∃ x ∈ xs, (f x).testBit j = true
  | [], z => by simp
  | x :: xs, z => by
    rw [List.foldl_cons, testBit_foldl_orF f j xs, orF, Nat.testBit_or, Bool.or_eq_true, or_assoc]
    simp

/-- The flags of a vector result are those of its active lanes (R218). -/
theorem testBit_mapFlag (w n : Nat) (mask : Word) (old : VWord) (f : Nat → Nat × Flags) (j : Nat) :
    (mapFlag w n mask old f).2.testBit j = true ↔
      ∃ l < n, mask.getLsbD l = true ∧ (f l).2.testBit j = true := by
  rw [mapFlag, testBit_foldl_orF]
  simp only [Nat.zero_testBit, Bool.false_eq_true, false_or, List.mem_map, List.mem_range, exists_exists_and_eq_and]
  constructor
  · rintro ⟨l, hl, h⟩
    split at h
    · next hm => exact ⟨l, hl, hm, h⟩
    · simp at h
  · rintro ⟨l, hl, hm, h⟩
    exact ⟨l, hl, by rwa [if_pos hm]⟩

/-! ### A vector result -/

theorem writeV_eq (s : State) (vd : VReg) (r : VWord × Flags) :
    writeV s vd r = .next (s.setRegs { s.regs.putV vd r.1 with
      pc := s.regs.pc + nat 4
      cr := { s.regs.cr with fflg := s.regs.cr.fflg ||| nat r.2 } }) := by
  simp [writeV, State.flag, State.orFlags, State.setCr, State.setV, State.advance, State.setPc, State.cr, State.pc, nat,
    w64, Regs.putV]

theorem vGives_of_writeV {i : Instr} {s : State} {vd : VReg} {r : VWord × Flags} (h : exec i s = writeV s vd r) :
    VGives i s vd r.1 r.2 := by
  rw [VGives, Leaves, h, writeV_eq]

theorem lanes_eq (s : State) (et : ETy) (v : VReg) : s.lanes et v = laneOf et (s.regs.getV v) := by
  funext l
  rw [laneOf_eq_lane]
  rfl

/-- A masked lane function is a vector instruction's result (R218). -/
theorem vLanes_of {i : Instr} {s : State} {et : ETy} {vd : VReg} {k : KReg} {f : Nat → Nat}
    (h : exec i s = writeV s vd (mapLanes et.width et.lanes (s.k k) (s.v vd) f, 0))
    (hf : ∀ l < et.lanes, f l < 2 ^ et.width) : VLanes i s et vd k f := by
  refine ⟨_, vGives_of_writeV h, fun l hl => ?_⟩
  rw [laneOf_mapLanes et _ _ _ hl, Nat.mod_eq_of_lt (hf l hl)]
  rfl

theorem fLanes_of {i : Instr} {s : State} {et : ETy} {vd : VReg} {k : KReg} {P : Nat → Nat → Nat → Prop}
    {f : Nat → Nat × Flags} (h : exec i s = writeV s vd (mapFlag et.width et.lanes (s.k k) (s.v vd) f))
    (hf : ∀ l < et.lanes, (f l).1 < 2 ^ et.width ∧ P l (f l).1 (f l).2) : FLanes i s et vd k P := by
  refine ⟨_, _, fun l => (f l).2, vGives_of_writeV h, fun l hl => ?_, fun j => testBit_mapFlag _ _ _ _ _ j⟩
  obtain ⟨hlt, hp⟩ := hf l hl
  rw [laneOf_mapFlag et _ _ _ hl, Nat.mod_eq_of_lt hlt]
  show if (s.k k).getLsbD l then _ else _
  split
  · exact hp
  · rfl

end Sys2Proof.Machine
end

section
/-! PROOF. Conversions of lanes (R36, R240), and the encodings that are exact results. -/

set_option Elab.async false

namespace Sys2Proof.Machine
open Sys2Proof.Claims

section
variable {f : Fmt}

/-! ### Encodings that are results -/

theorem Fmt.infBits_lt_width (hf : f.Usable) : f.infBits < 2 ^ (f.width - 1) := by
  rw [Fmt.width_eq hf]
  exact f.infBits_lt

theorem Fmt.nan_lt (hf : f.Usable) : f.nan < 2 ^ (f.prec + f.ebits) := by
  have hp : (2 : Nat) ^ (f.prec - 1) = 2 * 2 ^ (f.prec - 2) := by
    rw [← pow_succ']
    congr 1
    have := hf.prec
    omega
  have h1 : f.infBits + 2 ^ (f.prec - 1) = 2 ^ (f.width - 1) := by
    rw [Fmt.width_eq hf, Fmt.infBits, Nat.sub_mul, one_mul, Nat.sub_add_cancel, Nat.add_comm, pow_add]
    exact Nat.le_mul_of_pos_left _ (by positivity)
  have : 0 < 2 ^ (f.prec - 2) := by positivity
  rw [Fmt.two_pow_width hf, Fmt.nan]
  omega

theorem Fmt.pack_lt (hf : f.Usable) (u : FVal) : (f.pack u).1 < 2 ^ (f.prec + f.ebits) := by
  cases u with
  | nan s => exact Fmt.nan_lt hf
  | inf n => exact sign_add_lt hf (Fmt.infBits_lt_width hf)
  | num n m e =>
    obtain ⟨⟨⟨h, -⟩, -⟩, -⟩ := (FVal.Exact.num n m e).rounded hf
    exact h

/-- A sign and a value have one encoding. -/
theorem eq_of_value (hf : f.Usable) {b n : Nat} {neg : Bool} (hb : b < 2 ^ (f.prec + f.ebits))
    (hs : isNegative f b = neg) (hv : value f b = some (sgn neg * f.magVal Rat n)) : b = f.sign neg + n := by
  obtain ⟨-, h⟩ := value_eq_some hf hb hv
  rw [hs] at h
  have := (Fmt.magVal_strictMono (K := Rat) hf).injective (mul_left_cancel₀ (sgn_ne_zero neg) h)
  rw [this, ← hs]
  exact Fmt.exists_sign hf hb

theorem eq_of_isInf (hf : f.Usable) {b : Nat} (hb : b < 2 ^ (f.prec + f.ebits)) (h : isInf f b = true) :
    b = f.sign (isNegative f b) + f.infBits := by
  have hlt : b % 2 ^ (f.width - 1) < 2 ^ (f.width - 1) := Nat.mod_lt _ (by positivity)
  have hs := Fmt.exists_sign hf hb
  have he : expo f b = b % 2 ^ (f.width - 1) / 2 ^ (f.prec - 1) := by
    conv_lhs => rw [hs]
    exact expo_sign hf hlt
  have hfr : frac f b = b % 2 ^ (f.width - 1) % 2 ^ (f.prec - 1) := by
    conv_lhs => rw [hs]
    exact frac_sign hf
  simp only [isInf, Bool.and_eq_true, beq_iff_eq, he, hfr] at h
  have := Nat.div_add_mod (b % 2 ^ (f.width - 1)) (2 ^ (f.prec - 1))
  rw [h.1, h.2, Nat.add_zero, Nat.mul_comm] at this
  rw [Fmt.infBits, this]
  exact hs

theorem Fmt.mag_magVal (hf : f.Usable) {n : Nat} (hn : n ≠ 0) : f.mag (f.magVal Rat n) = n := by
  have hpos : 0 < f.magVal Rat n := by
    rw [← Fmt.magVal_zero (K := Rat) (f := f)]
    exact Fmt.magVal_strictMono hf (Nat.pos_of_ne_zero hn)
  obtain ⟨h, -⟩ := Fmt.mag_nearest hf hpos n
  rw [sub_self, abs_zero] at h
  exact (Fmt.magVal_strictMono (K := Rat) hf).injective (sub_eq_zero.1 (abs_eq_zero.1 (le_antisymm h (abs_nonneg _))))

/-- A value of the format rounds to itself. -/
theorem Fmt.roundMag_magVal (hf : f.Usable) (neg : Bool) {n : Nat} (hn : n < f.infBits) :
    f.roundMag neg (f.magVal Rat n) = (f.sign neg + n, 0) := by
  by_cases h0 : n = 0
  · rw [h0, Fmt.magVal_zero, Fmt.roundMag_zero, Nat.add_zero]
  · have hne : f.magVal Rat n ≠ 0 := by
      rw [← Fmt.magVal_zero (K := Rat) (f := f)]
      exact (Fmt.magVal_strictMono (K := Rat) hf).injective.ne h0
    rw [Fmt.roundMag, if_neg hne, Fmt.mag_magVal hf h0, if_neg (not_le.2 hn), if_pos rfl]

/-- An encoding that is no NaN is what its value packs to. -/
theorem Fmt.pack_read_self (hf : f.Usable) {b : Nat} (hb : b < 2 ^ (f.prec + f.ebits)) (h : isNan f b = false) :
    f.pack (f.read b) = (b, 0) := by
  rcases nan_or_inf_or_value f b with ⟨h', -⟩ | ⟨-, hi, -⟩ | ⟨-, -, x, hx⟩
  · rw [h] at h'; cases h'
  · rw [read_inf hi]
    exact Prod.ext (eq_of_isInf hf hb hi).symm rfl
  · obtain ⟨hlt, hv⟩ := value_eq_some hf hb hx
    rw [(read_value hx).pack_eq hf, hv, abs_mul, abs_sgn, one_mul, abs_of_nonneg (Fmt.magVal_nonneg hf _),
      Fmt.roundMag_magVal hf _ hlt]
    exact Prod.ext (Fmt.exists_sign hf hb).symm rfl

/-- The encoding of a magnitude m × 2^e in the normal range with few enough bits. -/
def Fmt.normal (f : Fmt) (m : Nat) (e : Int) : Nat :=
  (e + (Nat.log2 m : Int) - f.emin).toNat * 2 ^ (f.prec - 1) + m * 2 ^ (f.prec - 1 - Nat.log2 m)

theorem Fmt.normal_spec (hf : f.Usable) {m : Nat} {e : Int} (hm : m ≠ 0) (hl : Nat.log2 m ≤ f.prec - 1)
    (hlo : f.emin ≤ e + (Nat.log2 m : Int)) (hhi : e + (Nat.log2 m : Int) ≤ f.emax) :
    f.normal m e < f.infBits ∧ f.magVal Rat (f.normal m e) = m * 2 ^ e := by
  have hp := hf.prec
  have hpp : (2 : Nat) ^ f.prec = 2 * 2 ^ (f.prec - 1) := by rw [← pow_succ', Nat.sub_add_cancel (by omega)]
  have hsplit : (2 : Nat) ^ (f.prec - 1) = 2 ^ Nat.log2 m * 2 ^ (f.prec - 1 - Nat.log2 m) := by
    rw [← pow_add, Nat.add_sub_cancel' hl]
  have h1 : 2 ^ (f.prec - 1) ≤ m * 2 ^ (f.prec - 1 - Nat.log2 m) := by
    rw [hsplit]
    exact Nat.mul_le_mul_right _ (Nat.log2_self_le hm)
  have h2 : m * 2 ^ (f.prec - 1 - Nat.log2 m) < 2 ^ f.prec := by
    rw [hpp, hsplit, ← Nat.mul_assoc, ← pow_succ']
    exact Nat.mul_lt_mul_of_pos_right Nat.lt_log2_self (by positivity)
  constructor
  · rw [Fmt.infBits_eq hf, Fmt.normal]
    have : (e + (Nat.log2 m : Int) - f.emin).toNat ≤ (f.emax - (f.prec - 1 : Nat) - f.qmin).toNat := by
      simp only [Fmt.qmin]
      omega
    have := Nat.mul_le_mul_right (2 ^ (f.prec - 1)) this
    omega
  · rw [Fmt.normal, Fmt.magVal_eq hf h2.le (.inr h1), Int.toNat_of_nonneg (by omega), Nat.cast_mul, Nat.cast_pow,
      Nat.cast_ofNat, mul_assoc, ← zpow_natCast, ← zpow_add₀ two_ne_zero]
    congr 2
    simp only [Fmt.qmin]
    omega

/-- A number in the normal range with few enough bits packs to its own encoding. -/
theorem Fmt.pack_normal (hf : f.Usable) (neg : Bool) {m : Nat} {e : Int} (hm : m ≠ 0) (hl : Nat.log2 m ≤ f.prec - 1)
    (hlo : f.emin ≤ e + (Nat.log2 m : Int)) (hhi : e + (Nat.log2 m : Int) ≤ f.emax) :
    f.pack (.num neg m e) = (f.sign neg + f.normal m e, 0) := by
  obtain ⟨h1, h2⟩ := Fmt.normal_spec hf hm hl hlo hhi
  rw [(FVal.Exact.num neg m e).pack_eq hf, abs_mul, abs_sgn, one_mul, abs_of_nonneg (by positivity), ← h2,
    Fmt.roundMag_magVal hf neg h1]

end

/-! ### Integer lanes -/

theorem toS_eq {w x : Nat} (h : x < 2 ^ w) : toS w x = signed w x := by
  rw [toS, signed, Nat.mod_eq_of_lt h]
  push_cast
  rfl

theorem ofS_eq (w : Nat) (x : Int) : ofS w x = wrap w x := by
  rw [ofS, wrap]
  push_cast
  rfl

theorem wrap_lt (w : Nat) (x : Int) : wrap w x < 2 ^ w := by
  have h1 := Int.emod_lt_of_pos x (by positivity : (0 : Int) < 2 ^ w)
  have h2 := Int.emod_nonneg x (by positivity : (2 : Int) ^ w ≠ 0)
  rw [wrap]
  zify
  rw [Int.toNat_of_nonneg h2]
  exact h1

theorem satS_eq (w : Nat) (x : Int) :
    satS w x = wrap w (max (-(2 : Int) ^ (w - 1)) (min x ((2 : Int) ^ (w - 1) - 1))) := by
  have hpos : (0 : Int) < 2 ^ (w - 1) := by positivity
  rw [satS, ofS_eq]
  congr 1
  push_cast
  generalize (2 : Int) ^ (w - 1) = t at hpos
  split
  · omega
  · split <;> omega

/-! ### Lanes between types (R36, R240) -/

theorem etFmt_usable (et : ETy) : (etFmt et).Usable := by
  cases et
  case bf16 => exact Fmt.usableBf
  case f64 => exact Fmt.usable64
  all_goals exact Fmt.usable32

theorem etFmt_width {et : ETy} (h : et.isInt = false) : (etFmt et).prec + (etFmt et).ebits = et.width := by
  cases et
  case bf16 | f32 | f64 => rfl
  all_goals cases h

theorem toInt_read_num {f : Fmt} {a : Nat} {x : Rat} (h : value f a = some x) {lo hi : Int} (hlh : lo ≤ hi) :
    ∃ k : Int, |(k : Rat) - x| ≤ 1 / 2 ∧ (|(k : Rat) - x| = 1 / 2 → k % 2 = 0) ∧
      toInt (f.read a) true lo hi = (max lo (min k hi), if k < lo ∨ hi < k then 16 else if (k : Rat) = x then 0 else 1) := by
  obtain ⟨k, ⟨hk, hk2⟩, ht⟩ := (read_value h).toInt true lo hi
  refine ⟨k, hk, hk2, ht.trans ?_⟩
  split
  · next h => rw [if_pos (.inl h), min_eq_left (by omega), max_eq_left h.le]
  · next h =>
    split
    · next h' => rw [if_pos (.inr h'), min_eq_right h'.le, max_eq_right hlh]
    · next h' => rw [if_neg (not_or.2 ⟨h, h'⟩), min_eq_left (not_lt.1 h'), max_eq_right (not_lt.1 h)]

theorem convLane_converted (et dt : ETy) {x : Nat} (hx : x < 2 ^ et.width) :
    (convLane et dt x).1 < 2 ^ dt.width ∧ ConvertedLane et dt x (convLane et dt x).1 (convLane et dt x).2 := by
  have hlh : -((2 ^ (dt.width - 1) : Nat) : Int) ≤ (2 ^ (dt.width - 1) : Nat) - 1 := by
    have : 0 < 2 ^ (dt.width - 1) := by positivity
    omega
  have hf := etFmt_usable et
  have hd := etFmt_usable dt
  rw [ConvertedLane, convLane, toS_eq hx]
  cases he : et.isInt <;> cases hdt : dt.isInt <;>
    simp only [Bool.false_eq_true, Bool.true_eq_false, false_implies, true_implies, true_and, and_true]
  · rw [← etFmt_width hdt]
    obtain ⟨hnum, hnan, hinf⟩ := pack_read hf hd x
    exact ⟨Fmt.pack_lt hd _, hnum, fun h => by rw [hnan h]; exact ⟨rfl, rfl⟩, fun h => by rw [hinf h]; exact ⟨rfl, rfl⟩⟩
  · rw [ofS_eq]
    refine ⟨wrap_lt _ _, fun h => ?_, fun h => ?_, fun q hq => ?_⟩
    · rw [read_nan hf h]
      simp [toInt, wrap, fNV]
    · rw [read_inf h, toInt]
      push_cast
      exact ⟨rfl, rfl⟩
    · obtain ⟨k, h1, h2, h3⟩ := toInt_read_num hq hlh
      refine ⟨k, h1, h2, ?_⟩
      rw [h3]
      push_cast
      exact ⟨rfl, rfl⟩
  · rw [← etFmt_width hdt]
    obtain ⟨hr, -⟩ := (ofInt_exact (signed et.width x)).rounded hd
    exact ⟨Fmt.pack_lt hd _, hr⟩
  · rw [satS_eq]
    exact ⟨wrap_lt _ _, rfl⟩

theorem getLsbD_low (n : Nat) {l : Nat} (hl : l < 64) : (w64 (2 ^ n - 1)).getLsbD l = decide (l < n) := by
  rw [w64, BitVec.getLsbD_ofNat, Nat.testBit_two_pow_sub_one, decide_eq_true hl, Bool.true_and]

theorem lanes_le (et : ETy) : et.lanes ≤ 64 := by cases et <;> decide

end Sys2Proof.Machine
end

section
/-! PROOF. The decode table's values (R42 to R44), and the search of the encoder's table mode (R47). -/

set_option Elab.async false

namespace Sys2Proof.Machine
open Sys2Proof.Claims

/-! ### The decode table (R42 to R44) -/

/-- E8M10 loses nothing of a small multiple of a power of two in binary32's normal range: it is the one encoding of its
sign and value. -/
theorem e8m10_eq {b m : Nat} {e : Int} {neg : Bool} (hm : m < 2 ^ 11) (he : -126 ≤ e) (he' : e ≤ 100) (hb : b < 2 ^ 32)
    (hs : isNegative fmt32 b = neg) (hv : value fmt32 b = some (sgn neg * (m * (2 : Rat) ^ e))) :
    e8m10 neg m e * 2 ^ 13 = b := by
  have hf := Fmt.usable32
  rw [e8m10]
  rcases Nat.eq_zero_or_pos m with rfl | hpos
  · have hb0 : b = fmt32.sign neg + 0 := eq_of_value hf hb hs (by rw [hv, Fmt.magVal_zero]; simp)
    have hp : fmt32.pack (.num neg 0 e) = (fmt32.sign neg, 0) := rfl
    rw [hb0, hp]
    cases neg <;> rfl
  · have hl : Nat.log2 m ≤ 10 := Nat.lt_succ_iff.1 ((Nat.log2_lt hpos.ne').2 hm)
    have hlo : fmt32.emin ≤ e + (Nat.log2 m : Int) := by
      have : fmt32.emin = -126 := rfl
      omega
    have hhi : e + (Nat.log2 m : Int) ≤ fmt32.emax := by
      have : fmt32.emax = 127 := rfl
      omega
    have hl' : Nat.log2 m ≤ fmt32.prec - 1 := hl.trans (by decide)
    obtain ⟨-, h2⟩ := Fmt.normal_spec hf hpos.ne' hl' hlo hhi
    have hbn : b = fmt32.sign neg + fmt32.normal m e := eq_of_value hf hb hs (by rw [hv, h2])
    have hdvd : 2 ^ 13 ∣ fmt32.sign neg + fmt32.normal m e := by
      refine Nat.dvd_add (by cases neg <;> decide) (Nat.dvd_add (Dvd.dvd.mul_left (by decide) _) ?_)
      exact Dvd.dvd.mul_left (Nat.pow_dvd_pow 2 (by have : fmt32.prec - 1 = 23 := rfl; omega)) _
    rw [Fmt.pack_normal hf neg hpos.ne' hl' hlo hhi, Nat.div_mul_cancel hdvd, hbn]

theorem natAbs_signed (c : Nat) : (((signed 8 c).natAbs : Nat) : Rat) = |((signed 8 c : Int) : Rat)| := by
  rw [Nat.cast_natAbs, Int.cast_abs]

/-- The model's table gives each code's one value (R43, R44). -/
theorem f32_of_codeMeans {t : DecodeTable} {c b : Nat} (hc : c < 256) (h : CodeMeans t c b) : t.f32 c = b := by
  rw [DecodeTable.f32, DecodeTable.code]
  unfold CodeMeans at h
  split at h
  · next hp => rw [if_pos hp, h]
  · next hp =>
    rw [if_neg (by omega), hp]
    simp only [presetCode]
    dsimp only at h
    split
    · next hn => rw [if_pos hn] at h; rw [h]; rfl
    · next hn =>
      rw [if_neg hn] at h
      split
      · next he =>
        rw [if_pos he] at h
        obtain ⟨hb, hs, hv⟩ := h
        refine e8m10_eq (by omega) (by norm_num) (by norm_num) hb hs (hv.trans ?_)
        rw [sgn]
        congr 2
        norm_num
        ring
      · next he =>
        rw [if_neg he] at h
        obtain ⟨hb, hs, hv⟩ := h
        refine e8m10_eq (by omega) (by omega) (by omega) hb hs (hv.trans ?_)
        rw [sgn, zpow_sub₀ two_ne_zero, zpow_sub₀ two_ne_zero]
        congr 2
        push_cast
        ring
  · next hp =>
    rw [if_neg (by omega), hp, presetCode]
    dsimp only at h ⊢
    split
    · next hn =>
      rw [if_pos hn] at h
      rw [h]
      split
      · cases decide (128 ≤ c) <;> rfl
      · rfl
    · next hn =>
      rw [if_neg hn] at h
      split
      · next he =>
        rw [if_pos he] at h
        obtain ⟨hb, hs, hv⟩ := h
        refine e8m10_eq (by omega) (by norm_num) (by norm_num) hb hs (hv.trans ?_)
        rw [sgn]
        congr 2
        norm_num
        ring
      · next he =>
        rw [if_neg he] at h
        obtain ⟨hb, hs, hv⟩ := h
        refine e8m10_eq (by omega) (by omega) (by omega) hb hs (hv.trans ?_)
        rw [sgn, zpow_sub₀ two_ne_zero, zpow_sub₀ two_ne_zero]
        congr 2
        push_cast
        ring
  · next hp =>
    rw [if_neg (by omega), hp, presetCode, toS_eq hc]
    obtain ⟨hb, hs, hv⟩ := h
    have hlt : (signed 8 c).natAbs < 2 ^ 11 := by
      rw [signed]
      split <;> omega
    refine e8m10_eq hlt (by norm_num) (by norm_num) hb hs (hv.trans ?_)
    rw [natAbs_signed, zpow_zero, mul_one]
    rfl
  · next hp =>
    rw [if_neg (by omega), hp, presetCode]
    obtain ⟨hb, hs, hv⟩ := h
    refine e8m10_eq (by omega) (by norm_num) (by norm_num) hb hs (hv.trans ?_)
    simp [sgn]
  · exact h.elim

/-- A lane that a code's value packs to (R38, R45). -/
theorem narrowed_pack {f : Fmt} (hf : f.Usable) (b : Nat) : Narrowed f b (f.pack (read32 b)).1 := by
  obtain ⟨hnum, hnan, hinf⟩ := pack_read Fmt.usable32 hf b
  exact ⟨fun h => congrArg Prod.fst (hnan h), fun h => congrArg Prod.fst (hinf h), fun q hq =>
    ⟨(hnum q hq).1.1, (hnum q hq).2⟩⟩

/-! ### The encoder's table mode (R46, R47) -/

section
variable {u v : FVal} {p q : Bool} {x y : Rat}

theorem FVal.Exact.eq (hu : u.Exact p x) (hv : v.Exact q y) : u.eq v = true ↔ x = y := by
  rw [FVal.eq, hu.isNan, hv.isNan]
  have h1 := hu.lt hv
  have h2 := hv.lt hu
  cases hl : u.lt v <;> cases hr : v.lt u <;> simp only [hl, hr] at h1 h2 ⊢ <;> simp at h1 h2 ⊢
  · exact le_antisymm h2 h1
  · exact h2.ne'
  · exact h1.ne
  · exact h1.ne

theorem FVal.Exact.leF (hu : u.Exact p x) (hv : v.Exact q y) : Machine.leF u v = true ↔ x ≤ y := by
  rw [Machine.leF, Bool.or_eq_true, hu.lt hv, hu.eq hv, le_iff_lt_or_eq]

theorem FVal.Exact.absF (hu : u.Exact p x) : (Machine.absF u).Exact false |x| := by
  obtain ⟨_, m, e⟩ := hu
  have := FVal.Exact.num false m e
  rwa [show sgn false = 1 from rfl, one_mul, ← abs_of_nonneg (by positivity : (0 : Rat) ≤ m * 2 ^ e),
    ← one_mul |_|, ← abs_sgn p, ← abs_mul] at this

theorem FVal.Exact.scaleBy (hu : u.Exact p x) {n : Int} (h : -8000 ≤ n) (h' : n ≤ 8000) :
    (Machine.scaleBy u n).Exact p (x * 2 ^ n) := by
  obtain ⟨_, m, e⟩ := hu
  have := FVal.Exact.num p m (e + n)
  rw [Machine.scaleBy, if_neg (by omega), if_neg (by omega)]
  rwa [zpow_add₀ two_ne_zero, ← mul_assoc, ← mul_assoc, mul_assoc (sgn p)] at this

end

/-- The codes up to TOP have values T that do not fall. -/
structure Rises (t : DecodeTable) (top : Nat) (T : Nat → Rat) : Prop where
  code : ∀ c ≤ top, ∃ b, CodeMeans t c b ∧ value fmt32 b = some (T c)
  le_succ : ∀ c < top, T c ≤ T (c + 1)

section
variable {t : DecodeTable} {top : Nat} {T : Nat → Rat}

theorem Rises.exact (h : Rises t top T) (htop : top < 256) {c : Nat} (hc : c ≤ top) : ∃ p, (t.value c).Exact p (T c) := by
  obtain ⟨b, hb, hv⟩ := h.code c hc
  rw [DecodeTable.value, f32_of_codeMeans (by omega) hb]
  exact ⟨_, read_value hv⟩

theorem Rises.le (h : Rises t top T) {c d : Nat} (hcd : c ≤ d) (hd : d ≤ top) : T c ≤ T d := by
  induction d, hcd using Nat.le_induction with
  | base => exact le_rfl
  | succ d _ ih => exact (ih (by omega)).trans (h.le_succ d (by omega))

/-- The search keeps a code at or below the magnitude and the codes above its interval above it. -/
theorem searchCode_spec (h : Rises t top T) (htop : top < 256) {m : FVal} {y : Rat} (hm : m.Exact false y) :
    ∀ fuel lo hi, lo ≤ hi → hi ≤ top → hi < lo + 2 ^ fuel → (T lo ≤ y ∨ lo = 0) → (∀ d ≤ top, hi < d → y < T d) →
      searchCode t m fuel lo hi ≤ top ∧ (T (searchCode t m fuel lo hi) ≤ y ∨ searchCode t m fuel lo hi = 0) ∧
        ∀ d ≤ top, searchCode t m fuel lo hi < d → y < T d
  | 0, lo, hi, hle, hhi, hf, hlo, hup => by
    have : lo = hi := by rw [pow_zero] at hf; omega
    subst this
    exact ⟨hhi, hlo, hup⟩
  | fuel + 1, lo, hi, hle, hhi, hf, hlo, hup => by
    rw [searchCode]
    split
    · next hge =>
      have : lo = hi := by omega
      subst this
      exact ⟨hhi, hlo, hup⟩
    · next hlt =>
      rw [pow_succ] at hf
      obtain ⟨p, hp⟩ := h.exact htop (c := (lo + hi + 1) / 2) (by omega)
      dsimp only
      split
      · next hmid =>
        exact searchCode_spec h htop hm fuel _ _ (by omega) hhi (by omega) (.inl ((hp.leF hm).1 hmid)) hup
      · next hmid =>
        refine searchCode_spec h htop hm fuel _ _ (by omega) (by omega) (by omega) hlo fun d hd hlt' => ?_
        rw [hp.leF hm, not_le] at hmid
        exact hmid.trans_le (h.le (by omega) hd)

end

end Sys2Proof.Machine
end

section
/-! PROOF. Codes (R46, R47), scaling by a power of two (R239), and the generator (R241). -/

set_option Elab.async false

namespace Sys2Proof.Machine
open Sys2Proof.Claims

/-! ### Codes (R46, R47) -/

theorem Rises.of {t : DecodeTable} {top : Nat} {T : Nat → Rat}
    (h1 : ∀ c ≤ top, ∃ b, CodeMeans t c b ∧ value fmt32 b = some (T c)) (h2 : ∀ c < top, T c ≤ T (c + 1)) : Rises t top T :=
  ⟨h1, h2⟩

theorem bitOf_eq (x : Word) (n : Nat) : bitOf x n = x.getLsbD n := by
  simp [bitOf, BitVec.getLsbD]

theorem fld_eq_div (x : Word) (hi lo : Nat) : fld x hi lo = x.toNat / 2 ^ lo % 2 ^ (hi + 1 - lo) := by
  rw [fld, Nat.shiftRight_eq_div_pow]

/-- The search, and the step to the next code where that is nearer (R47). -/
theorem nearestCode_spec {t : DecodeTable} {top : Nat} {T : Nat → Rat} (h : Rises t top T) (htop : top < 256) {m : FVal}
    {y : Rat} (hm : m.Exact false y) :
    let c := searchCode t m 8 0 top
    (c ≤ top ∧ (T c ≤ y ∨ c = 0) ∧ ∀ d ≤ top, c < d → y < T d) ∧
      (if c < top ∧ (t.value c).lt m then
          let h := scaleBy ((t.value c).add (t.value (c + 1))).1 (-1)
          if h.lt m || (m.eq h && decide (c % 2 = 1)) then c + 1 else c
        else c) =
        if c < top ∧ T c < y ∧ ((T c + T (c + 1)) / 2 < y ∨ (y = (T c + T (c + 1)) / 2 ∧ c % 2 = 1)) then c + 1 else c := by
  intro c
  have hs := searchCode_spec h htop hm 8 0 top (Nat.zero_le _) le_rfl (by omega) (.inr rfl)
    fun d hd hlt => absurd hlt (not_lt.2 hd)
  refine ⟨hs, ?_⟩
  obtain ⟨p, hp⟩ := h.exact htop hs.1
  have hp : (t.value c).Exact p (T c) := hp
  by_cases hc : c < top ∧ T c < y
  · obtain ⟨p', hp'⟩ := h.exact htop (c := c + 1) hc.1
    obtain ⟨-, n, hn, -⟩ := hp.add hp'
    have hmid := hn.scaleBy (n := -1) (by norm_num) (by norm_num)
    rw [zpow_neg_one, ← div_eq_mul_inv] at hmid
    rw [if_pos ⟨hc.1, (hp.lt hm).2 hc.2⟩]
    dsimp only
    simp only [Bool.or_eq_true, Bool.and_eq_true, decide_eq_true_eq, hmid.lt hm, hm.eq hmid, hc.1, hc.2, true_and]
  · rw [if_neg fun h => hc ⟨h.1, (hp.lt hm).1 h.2⟩, if_neg fun h => hc ⟨h.1, h.2.1⟩]

theorem FVal.Exact.lt_inf {u : FVal} {p : Bool} {x : Rat} (h : u.Exact p x) : u.lt (.inf false) = true := by
  obtain ⟨_, m, e⟩ := h
  rfl

theorem tableCode_spec {f : Fmt} (t : DecodeTable) (encm : Word) (z : Nat) :
    TableCode f t encm z (tableCode t encm (f.read z)) := by
  unfold TableCode
  intro top s above T h1 h2
  have h := Rises.of h1 h2
  have htop : top < 256 := by
    have : top < 128 := Nat.mod_lt _ (by norm_num)
    omega
  have hfld : fld encm 14 8 = top := fld_eq_div ..
  have hab : (if bitOf encm 2 = true then fld encm 23 16 ||| s else top ||| s) = above := by
    have hinf : fld encm 23 16 = encm.toNat / 2 ^ 16 % 256 := fld_eq_div ..
    show _ = (if encm.getLsbD 2 then encm.toNat / 2 ^ 16 % 256 else top) ||| s
    rw [bitOf_eq, hinf]
    split <;> rfl
  obtain ⟨p, hp⟩ := h.exact htop (c := top) le_rfl
  refine ⟨fun hi => ?_, fun r hr => ?_⟩
  · rw [read_inf hi, tableCode]
    simp only [FVal.isNan, FVal.neg, absF, hfld, hp.lt_inf, if_true]
    exact hab
  · have hx := read_value hr
    have hm := hx.absF
    obtain ⟨hsearch, hstep⟩ := nearestCode_spec h htop hm
    rw [tableCode, hx.isNan, hx.neg_eq, hfld]
    dsimp only at hstep
    simp only [Bool.false_eq_true, if_false, hstep, hp.lt hm]
    refine ⟨fun hlt => by rw [if_pos hlt]; exact hab, fun hle => ?_⟩
    rw [if_neg (not_lt.2 hle)]
    obtain ⟨hc, hlo, hup⟩ := hsearch
    exact ⟨_, hc, hlo, hup, rfl⟩

/-- Every code is a byte. -/
theorem encodeCode_lt (t : DecodeTable) (encm : Word) (v : FVal) : encodeCode t encm v < 2 ^ 8 := by
  have hfld (hi lo : Nat) (h : hi + 1 - lo ≤ 8) : fld encm hi lo < 2 ^ 8 :=
    (Nat.mod_lt _ (by positivity)).trans_le (Nat.pow_le_pow_right two_pos h)
  have hs : (if v.neg then 0x80 else 0) < 2 ^ 8 := by split <;> norm_num
  have htop : fld encm 14 8 < 2 ^ 8 - 1 := by
    have : fld encm 14 8 < 2 ^ (14 + 1 - 8) := Nat.mod_lt _ (by positivity)
    norm_num at this ⊢
    omega
  have hsearch (m : FVal) : ∀ fuel lo hi, lo ≤ hi → searchCode t m fuel lo hi ≤ hi := by
    intro fuel
    induction fuel with
    | zero => exact fun lo hi h => h
    | succ fuel ih =>
      intro lo hi h
      rw [searchCode]
      split
      · exact h
      · dsimp only
        split
        · exact ih _ _ (by omega)
        · exact (ih _ _ (by omega)).trans (by omega)
  rw [encodeCode]
  split
  · split
    · norm_num
    · rw [ofS_eq]; exact wrap_lt _ _
  · split
    · norm_num
    · rw [ofS_eq]; exact wrap_lt _ _
  · rw [tableCode]
    split
    · exact hfld _ _ (by norm_num)
    · dsimp only
      split
      · split
        · exact Nat.or_lt_two_pow (hfld _ _ (by norm_num)) hs
        · exact Nat.or_lt_two_pow (by omega) hs
      · refine Nat.or_lt_two_pow ?_ hs
        have := hsearch (absF v) 8 0 (fld encm 14 8) (Nat.zero_le _)
        split
        · split <;> omega
        · omega

/-- The integer modes: rounded to nearest and saturated, 0 for a NaN (R47). -/
theorem intCode_spec {f : Fmt} (hf : f.Usable) {z : Nat} {lo hi : Int} (hlh : lo ≤ hi) {n : Nat}
    (hn : n = if (f.read z).isNan then 0 else ofS 8 (toInt (f.read z) true lo hi).1) :
    (isNan f z = true → n = 0) ∧
      (isInf f z = true → n = if isNegative f z then wrap 8 lo else wrap 8 hi) ∧
      ∀ r, value f z = some r → ∃ p : Int, |(p : Rat) - r| ≤ 1 / 2 ∧ (|(p : Rat) - r| = 1 / 2 → p % 2 = 0) ∧
        n = wrap 8 (max lo (min p hi)) := by
  rw [read_isNan hf] at hn
  refine ⟨fun h => by rw [hn, if_pos h], fun h => ?_, fun r hr => ?_⟩
  · rw [hn, isNan_of_inf h, read_inf h, ofS_eq, toInt]
    simp only [Bool.false_eq_true, if_false]
    split <;> rfl
  · obtain ⟨k, h1, h2, h3⟩ := toInt_read_num hr hlh
    refine ⟨k, h1, h2, ?_⟩
    rw [hn, isNan_of_value (by rw [hr]; rfl), h3, ofS_eq]
    rfl

/-! ### Scaling (R239) -/

section
variable {f : Fmt}

/-- A magnitude below half the least subnormal rounds to zero, tiny and inexact. -/
theorem Fmt.roundMag_small (hf : f.Usable) (neg : Bool) {q : Rat} (hq : 0 < q) (h : q < 2 ^ (f.qmin - 1)) :
    f.roundMag neg q = (f.sign neg, 3) := by
  have hlog : Int.log 2 q < f.qmin - 1 := (Int.lt_zpow_iff_log_lt one_lt_two hq).1 (by exact_mod_cast h)
  have hplace : f.lastPlace q = f.qmin := by
    rw [Fmt.lastPlace]
    exact max_eq_right (by omega)
  have hhalf : q / 2 ^ f.qmin < 1 / 2 := by
    rw [div_lt_iff₀ (by positivity)]
    rw [zpow_sub_one₀ two_ne_zero] at h
    linarith
  have hfloor : ⌊q / 2 ^ f.qmin⌋₊ = 0 := Nat.floor_eq_zero.2 (hhalf.trans (by norm_num))
  have hmag : f.mag q = 0 := by
    rw [Fmt.mag, hplace, sub_self, nearEven, hfloor, Nat.cast_zero, sub_zero, if_neg (by
      rintro (h | ⟨h, -⟩) <;> linarith)]
    simp
  have hinf : 0 < f.infBits := Nat.mul_pos (Nat.sub_pos_of_lt (Nat.one_lt_two_pow (by have := hf.ebits; omega)))
    (by positivity)
  have htiny : f.isTiny q := by
    have h1 : (2 : Rat) ^ (-(f.prec : Int)) ≤ 1 := zpow_le_one_of_nonpos₀ one_le_two (by omega)
    have h2 : (2 : Rat) ^ (f.qmin - 1) ≤ 2 ^ (-f.emax) :=
      zpow_le_zpow_right₀ one_le_two (by
        have := hf.prec
        simp only [Fmt.qmin, Fmt.emin]
        omega)
    have h3 : (0 : Rat) < 2 ^ (-f.emax) := by positivity
    rw [Fmt.isTiny]
    nlinarith
  rw [Fmt.roundMag, if_neg hq.ne', hmag, if_neg (by omega), Fmt.magVal_zero, if_neg hq.ne, if_pos htiny, Nat.add_zero]

/-- A magnitude beyond the range rounds to infinity. -/
theorem Fmt.roundMag_large (hf : f.Usable) (neg : Bool) {q : Rat} (h : 2 ^ (f.emax + 1) ≤ q) :
    f.roundMag neg q = (f.sign neg + f.infBits, 5) := by
  have hq : 0 < q := lt_of_lt_of_le (by positivity) h
  rw [Fmt.roundMag, if_neg hq.ne', if_pos]
  rw [Fmt.infBits_le_mag_iff hf hq, Fmt.overflows]
  have h1 : (0 : Rat) < 2 ^ (-(f.prec : Int)) := by positivity
  have h2 : (0 : Rat) < 2 ^ f.emax := by positivity
  rw [zpow_add_one₀ two_ne_zero] at h
  nlinarith

theorem value_bounds (hf : f.Usable) {a : Nat} (ha : a < 2 ^ (f.prec + f.ebits)) {r : Rat} (h : value f a = some r)
    (hr : r ≠ 0) : 2 ^ f.qmin ≤ |r| ∧ |r| < 2 ^ (f.emax + 1) := by
  obtain ⟨hlt, rfl⟩ := value_eq_some hf ha h
  generalize a % 2 ^ (f.width - 1) = n at hlt hr
  have hp := hf.prec
  have hmono := Fmt.magVal_strictMono (K := Rat) hf
  rw [abs_mul, abs_sgn, one_mul, abs_of_nonneg (Fmt.magVal_nonneg hf _)]
  have h1 : f.magVal Rat 1 = 2 ^ f.qmin := by
    have := Fmt.magVal_eq (K := Rat) hf (c := 0) (m := 1) Nat.one_le_two_pow (.inl rfl)
    simpa using this
  have h2 : f.magVal Rat f.infBits = 2 ^ (f.emax + 1) := by
    rw [Fmt.infBits_eq hf, Fmt.magVal_eq hf le_rfl (.inr (Nat.pow_le_pow_right two_pos (by omega))), Nat.cast_pow,
      Nat.cast_ofNat, ← zpow_natCast, ← zpow_add₀ two_ne_zero]
    congr 1
    have he : (2 : Nat) ^ f.ebits = 2 * 2 ^ (f.ebits - 1) := by
      rw [← pow_succ', Nat.sub_add_cancel (by have := hf.ebits; omega)]
    have hpos : 0 < 2 ^ (f.ebits - 1) := by positivity
    have : (2 : Nat) ≤ 2 ^ (f.ebits - 1) := by
      calc 2 = 2 ^ 1 := rfl
        _ ≤ _ := Nat.pow_le_pow_right two_pos (by have := hf.ebits; omega)
    simp only [Fmt.qmin, Fmt.emin, Fmt.emax]
    omega
  constructor
  · rw [← h1]
    refine hmono.monotone (Nat.one_le_iff_ne_zero.2 fun h0 => hr ?_)
    rw [h0, Fmt.magVal_zero, mul_zero]
  · rw [← h2]
    exact hmono hlt

/-- Beyond the exponents that the model keeps apart, every power rounds alike. -/
theorem scaleBy_rounded (hf : f.Usable) (hw : f.emax + 2 ≤ f.qmin + 8000) {a : Nat} (ha : a < 2 ^ (f.prec + f.ebits))
    {r : Rat} (h : value f a = some r) (n : Int) :
    Rounded f (r * 2 ^ n) (f.pack (scaleBy (f.read a) n)).1 (f.pack (scaleBy (f.read a) n)).2 ∧
      (r = 0 → (f.pack (scaleBy (f.read a) n)).1 = f.sign (isNegative f a)) := by
  have hx := read_value h
  have hcl (n' : Int) (h1 : -8000 ≤ n') (h2 : n' ≤ 8000) : f.pack (scaleBy (f.read a) n') = f.roundMag (isNegative f a) (|r| * 2 ^ n') := by
    rw [(hx.scaleBy h1 h2).pack_eq hf, abs_mul, abs_of_pos (by positivity : (0 : Rat) < 2 ^ n')]
  have hroundMag : f.pack (scaleBy (f.read a) n) = f.roundMag (isNegative f a) (|r| * 2 ^ n) := by
    have hclamp : scaleBy (f.read a) n = scaleBy (f.read a) (if n < -8000 then -8000 else if 8000 < n then 8000 else n) := by
      generalize f.read a = u at hx
      obtain ⟨_, m, e⟩ := hx
      simp only [scaleBy]
      congr 2
      split <;> split <;> omega
    by_cases hr : r = 0
    · rw [hclamp, hcl _ (by split <;> omega) (by split <;> omega), hr]
      simp
    · obtain ⟨hlo, hhi⟩ := value_bounds hf ha h hr
      have hpos : 0 < |r| := abs_pos.2 hr
      rw [hclamp]
      split
      · next hn =>
        have hs (k : Int) (hk : k ≤ -8000) : |r| * 2 ^ k < 2 ^ (f.qmin - 1) := by
          calc |r| * 2 ^ k < 2 ^ (f.emax + 1) * 2 ^ k := mul_lt_mul_of_pos_right hhi (by positivity)
            _ = 2 ^ (f.emax + 1 + k) := (zpow_add₀ two_ne_zero _ _).symm
            _ ≤ 2 ^ (f.qmin - 1) := zpow_le_zpow_right₀ one_le_two (by omega)
        rw [hcl _ le_rfl (by norm_num), Fmt.roundMag_small hf _ (by positivity) (hs _ le_rfl),
          Fmt.roundMag_small hf _ (by positivity) (hs _ hn.le)]
      · split
        · next hn =>
          have hs (k : Int) (hk : 8000 ≤ k) : 2 ^ (f.emax + 1) ≤ |r| * 2 ^ k := by
            calc (2 : Rat) ^ (f.emax + 1) ≤ 2 ^ (f.qmin + k) := zpow_le_zpow_right₀ one_le_two (by omega)
              _ = 2 ^ f.qmin * 2 ^ k := zpow_add₀ two_ne_zero _ _
              _ ≤ |r| * 2 ^ k := mul_le_mul_of_nonneg_right hlo (by positivity)
          rw [hcl _ (by norm_num) le_rfl, Fmt.roundMag_large hf _ (hs _ le_rfl), Fmt.roundMag_large hf _ (hs _ hn.le)]
        · exact hcl _ (by omega) (by omega)
  rw [hroundMag]
  refine ⟨?_, fun h0 => by rw [h0, abs_zero, zero_mul, Fmt.roundMag_zero]⟩
  have := Fmt.roundMag_rounded hf (isNegative f a) (by positivity : 0 ≤ |r| * 2 ^ n)
  rwa [← mul_assoc, hx.sgn_mul_abs] at this

end

/-! ### The generator (R241) -/

theorem toNat_mixed (z : BitVec 32) : (mixed z).toNat = mixStep z.toNat := by
  rw [mixed, mixStep, BitVec.toNat_mul, BitVec.toNat_xor, BitVec.toNat_ushiftRight, Nat.shiftRight_eq_div_pow]
  rfl

theorem toNat_rotl7 (x : BitVec 32) : (x.rotateLeft 7).toNat = rotl7 x.toNat := by
  have := x.isLt
  have h : x.toNat / 2 ^ 25 < 2 ^ 7 := by omega
  rw [BitVec.toNat_rotateLeft, rotl7, Nat.shiftRight_eq_div_pow, Nat.shiftLeft_eq]
  have hm : x.toNat * 2 ^ 7 % 2 ^ 32 = x.toNat % 2 ^ 25 * 2 ^ 7 := by omega
  rw [show 7 % 32 = 7 from rfl, show 32 - 7 = 25 from rfl, hm, ← Nat.shiftLeft_eq, ← Nat.shiftLeft_add_eq_or_of_lt h,
    Nat.shiftLeft_eq]
  omega

theorem rng_eq (key c : Word) : rng key c.toNat = (generator key c).toNat := by
  have hc := c.isLt
  have hk := key.isLt
  rw [generator]
  simp only [BitVec.toNat_xor, BitVec.toNat_ushiftRight, Nat.shiftRight_eq_div_pow, toNat_mixed, toNat_rotl7,
    BitVec.toNat_setWidth]
  have h1 : c.toNat / 2 ^ 32 % 2 ^ 32 = c.toNat / 2 ^ 32 := Nat.mod_eq_of_lt (by omega)
  have h2 : fld key 31 0 = key.toNat % 2 ^ 32 := by rw [fld_eq_div, pow_zero, Nat.div_one]
  have h3 : fld key 63 32 = key.toNat / 2 ^ 32 % 2 ^ 32 := fld_eq_div ..
  simp only [rng, h1, h2, h3, Nat.mod_eq_of_lt hc]

theorem rng_mod (key : Word) (c : Nat) : rng key (c % 2 ^ 64) = rng key c := by rw [rng, rng, Nat.mod_mod]

/-- A generator value in [0, 1) is exact (R241). -/
theorem rngF32_value {z : Nat} (hz : z < 2 ^ 32) :
    rngF32 z < 2 ^ 32 ∧ value fmt32 (rngF32 z) = some (((z / 2 ^ 8 : Nat) : Rat) / 2 ^ 24) := by
  have hf := Fmt.usable32
  refine ⟨Fmt.pack_lt hf _, ?_⟩
  have hm : z / 2 ^ 8 < 2 ^ 24 := by omega
  rw [rngF32]
  generalize z / 2 ^ 8 = m at hm
  rcases Nat.eq_zero_or_pos m with rfl | hpos
  · have hp : fmt32.pack (.num false 0 (-24)) = (fmt32.sign false, 0) := rfl
    rw [hp]
    have := value_sign hf false (n := 0) (by decide)
    rw [if_pos (by decide), Fmt.magVal_zero, mul_zero] at this
    simpa using this
  · have hl : Nat.log2 m ≤ fmt32.prec - 1 := Nat.lt_succ_iff.1 ((Nat.log2_lt hpos.ne').2 hm)
    have hl' : Nat.log2 m ≤ 23 := hl
    have hlo : fmt32.emin ≤ -24 + (Nat.log2 m : Int) := by
      have : fmt32.emin = -126 := rfl
      omega
    have hhi : -24 + (Nat.log2 m : Int) ≤ fmt32.emax := by
      have : fmt32.emax = 127 := rfl
      omega
    obtain ⟨h1, h2⟩ := Fmt.normal_spec hf hpos.ne' hl hlo hhi
    rw [Fmt.pack_normal hf false hpos.ne' hl hlo hhi, value_sign hf false (h1.trans (Fmt.infBits_lt_width hf)), if_pos h1, h2]
    simp [sgn, zpow_neg, div_eq_mul_inv]

end Sys2Proof.Machine
end

section
/-! PROOF. The vector instructions that convert, decode, encode and draw (R36, R42 to R47, R239 to R241). -/

set_option Elab.async false

namespace Sys2Proof.Machine
open Sys2Proof.Claims

/-! ### Codes by mode (R46, R47) -/

theorem codeMeans_lt {t : DecodeTable} {c b : Nat} (h : CodeMeans t c b) : b < 2 ^ 32 := by
  unfold CodeMeans at h
  split at h
  · have := (t.words.getD c 0).isLt
    omega
  · dsimp only at h
    split at h
    · rw [h]; decide
    · split at h <;> exact h.1
  · dsimp only at h
    split at h
    · rw [h]
      split
      · cases decide (128 ≤ c) <;> decide
      · decide
    · split at h <;> exact h.1
  · exact h.1
  · exact h.1
  · exact h.elim

section
variable {t : DecodeTable} {encm : Word} (v : FVal)

theorem encodeCode_table (h : fld encm 1 0 = 0) : encodeCode t encm v = tableCode t encm v := by simp only [encodeCode, h]

theorem encodeCode_signed (h : fld encm 1 0 = 1) :
    encodeCode t encm v = if v.isNan then 0 else ofS 8 (toInt v true (-128) 127).1 := by simp only [encodeCode, h]

theorem encodeCode_unsigned (h : fld encm 1 0 = 2) :
    encodeCode t encm v = if v.isNan then 0 else ofS 8 (toInt v true 0 255).1 := by simp only [encodeCode, h]

end

section
variable (s : State) (et dt half : ETy) (vd vs2 vs1 : VReg) (q m : BitVec 4) (k : KReg)

/-! ### Conversions of lanes (R36, R240) -/

theorem vcvt_converts : ∃ (v : VWord) (fl : Nat) (g : Nat → Nat), VGives (.vcvt et vd vs2 dt k) s vd v fl ∧
    (∀ l < dt.lanes, if (s.regs.getK k).getLsbD l = true ∧ l < et.lanes then
        ConvertedLane et dt (laneOf et (s.regs.getV vs2) l) (laneOf dt v l) (g l)
      else laneOf dt v l = laneOf dt (s.regs.getV vd) l) ∧
    ∀ j, fl.testBit j = true ↔
      ∃ l < dt.lanes, (s.regs.getK k).getLsbD l = true ∧ l < et.lanes ∧ (g l).testBit j = true := by
  have hmask {l : Nat} (hl : l < dt.lanes) : (s.k k &&& w64 (2 ^ Nat.min et.lanes dt.lanes - 1)).getLsbD l = true ↔
      (s.regs.getK k).getLsbD l = true ∧ l < et.lanes := by
    rw [BitVec.getLsbD_and, getLsbD_low _ (hl.trans_le (lanes_le dt)), Bool.and_eq_true, decide_eq_true_iff]
    refine and_congr_right fun _ => ⟨fun h => ?_, fun h => ?_⟩
    · exact lt_of_lt_of_le h (Nat.min_le_left _ _)
    · exact Nat.lt_min.2 ⟨h, hl⟩
  refine ⟨_, _, fun l => (convLane et dt (laneOf et (s.regs.getV vs2) l)).2, vGives_of_writeV rfl, fun l hl => ?_,
    fun j => ?_⟩
  · obtain ⟨hlt, hc⟩ := convLane_converted et dt (laneOf_lt et (s.regs.getV vs2) l)
    rw [laneOf_mapFlag dt _ _ _ hl]
    simp only [hmask hl, lanes_eq]
    split
    · rw [Nat.mod_eq_of_lt hlt]
      exact hc
    · rfl
  · rw [testBit_mapFlag]
    refine exists_congr fun l => and_congr_right fun hl => ?_
    rw [hmask hl, and_assoc, lanes_eq]

theorem vpack_converts
    (h : (et, half) ∈ [(ETy.i16, ETy.i8), (.i32, .i16), (.i64, .i32), (.f32, .bf16), (.f64, .f32)]) :
    FLanes (.vpack et vd vs2 vs1 k) s half vd k (fun l n g => ConvertedLane et half
      (if l < half.lanes / 2 then laneOf et (s.regs.getV vs2) l else laneOf et (s.regs.getV vs1) (l - half.lanes / 2))
      n g) := by
  have hhalf : halfType et = half := by
    simp only [List.mem_cons, Prod.mk.injEq, List.not_mem_nil, or_false] at h
    rcases h with ⟨rfl, rfl⟩ | ⟨rfl, rfl⟩ | ⟨rfl, rfl⟩ | ⟨rfl, rfl⟩ | ⟨rfl, rfl⟩ <;> rfl
  subst hhalf
  refine fLanes_of rfl fun l _ => ?_
  rw [lanes_eq, lanes_eq]
  exact convLane_converted _ _ (by split <;> exact laneOf_lt _ _ _)

/-! ### Decoding and encoding (R42 to R47, R239) -/

theorem isInt_of_sfu (h : et = .f32 ∨ et = .bf16) : et.isInt = false := by rcases h with rfl | rfl <;> rfl

theorem vdec_decodes (het : et = .f32 ∨ et = .bf16) :
    ∃ v, VGives (.vdec et vd vs2 q k) s vd v 0 ∧ ∀ l < et.lanes,
      let c := laneOf .i8 (s.regs.getV vs2) (q.toNat * et.lanes + l)
      let n := laneOf et v l
      (¬(s.regs.getK k).getLsbD l = true → n = laneOf et (s.regs.getV vd) l) ∧
      ((s.regs.getK k).getLsbD l = true → ∀ b, CodeMeans s.view.dtab c b → Narrowed (etFmt et) b n ∧
        (et = .f32 → isNan (etFmt et) b = false → n = b)) := by
  have hx : exec (.vdec et vd vs2 q k) s = writeV s vd (mapLanes et.width et.lanes (s.k k) (s.v vd) (fun i =>
      ((etFmt et).pack (s.view.dtab.value (s.lanes .i8 vs2 (q.toNat * et.lanes + i)))).1), 0) := rfl
  refine ⟨_, vGives_of_writeV hx, fun l hl => ?_⟩
  have hf := etFmt_usable et
  intro c n
  have hc : c < 256 := laneOf_lt .i8 _ _
  have hn : n = if (s.regs.getK k).getLsbD l then ((etFmt et).pack (s.view.dtab.value c)).1
      else laneOf et (s.regs.getV vd) l := by
    show laneOf et (mapLanes _ _ _ _ _) l = _
    rw [laneOf_mapLanes et _ _ _ hl, Nat.mod_eq_of_lt, lanes_eq]
    · rfl
    · rw [← etFmt_width (isInt_of_sfu et het)]
      exact Fmt.pack_lt hf _
  refine ⟨fun ha => by rw [hn, if_neg ha], fun ha b hb => ?_⟩
  rw [if_pos ha, DecodeTable.value, f32_of_codeMeans hc hb] at hn
  rw [hn]
  refine ⟨narrowed_pack hf b, fun h32 hnan => ?_⟩
  subst h32
  exact congrArg Prod.fst (Fmt.pack_read_self Fmt.usable32 (codeMeans_lt hb) hnan)

theorem venc_trapsIllegal (h : s.regs.cr.encm.toNat % 4 = 3) :
    Traps (.venc et vd vs2 q k) s .illegal 0 (nat (ofBytes (encode (.venc et vd vs2 q k)).bytes)) := by
  have hx : exec (.venc et vd vs2 q k) s = trapOut s (illegalTrap (encV 26 2 vs2 q k et.code vd)) := by
    have hm : fld s.cr.encm 1 0 = 3 := by
      rw [fld_eq_div, pow_zero, Nat.div_one]
      exact h
    show execVenc et vd vs2 q k s = _
    rw [execVenc, if_pos hm]
  rw [Traps, hx, illegalTrap_long]
  rfl

theorem venc_encodes (hmode : s.regs.cr.encm.toNat % 4 ≠ 3) :
    ∃ v, VGives (.venc et vd vs2 q k) s vd v 0 ∧ ∀ l < 64,
      let first := q.toNat * et.lanes
      let f := etFmt et
      let act (l : Nat) : Prop := (s.regs.getK k).getLsbD l = true
      let mode := s.regs.cr.encm.toNat % 4
      let n := laneOf .i8 v l
      let z := laneOf et (s.regs.getV vs2) (l - first)
      (¬(first ≤ l ∧ l < first + et.lanes ∧ act (l - first)) → n = laneOf .i8 (s.regs.getV vd) l) ∧
      (first ≤ l → l < first + et.lanes → act (l - first) →
        (mode ≠ 0 → isNan f z = true → n = 0) ∧
        (mode = 0 → isNan f z = true → n = s.regs.cr.encm.toNat / 2 ^ 24 % 256) ∧
        (mode = 0 → TableCode f s.view.dtab s.regs.cr.encm z n) ∧
        (mode ≠ 0 → isInf f z = true →
          n = if mode = 1 then (if isNegative f z then 128 else 127) else (if isNegative f z then 0 else 255)) ∧
        (mode ≠ 0 → ∀ r, value f z = some r → ∃ p : Int, |(p : Rat) - r| ≤ 1 / 2 ∧
          (|(p : Rat) - r| = 1 / 2 → p % 2 = 0) ∧
          n = if mode = 1 then wrap 8 (max (-128) (min p 127)) else wrap 8 (max 0 (min p 255)))) := by
  have hm : fld s.regs.cr.encm 1 0 = s.regs.cr.encm.toNat % 4 := by
    rw [fld_eq_div, pow_zero, Nat.div_one]
    rfl
  have hx : exec (.venc et vd vs2 q k) s = writeV s vd (mapLanes ETy.i8.width ETy.i8.lanes
      (w64 (((s.k k).toNat % 2 ^ et.lanes) * 2 ^ (q.toNat * et.lanes))) (s.v vd) (fun i =>
        encodeCode s.view.dtab s.cr.encm ((etFmt et).read (s.lanes et vs2 (i - q.toNat * et.lanes)))), 0) := by
    show execVenc et vd vs2 q k s = _
    rw [execVenc, if_neg (hm ▸ hmode)]
    rfl
  refine ⟨_, vGives_of_writeV hx, fun l hl => ?_⟩
  intro first f act mode n z
  have hf : f.Usable := etFmt_usable et
  have hmask : (w64 (((s.k k).toNat % 2 ^ et.lanes) * 2 ^ first)).getLsbD l = true ↔
      first ≤ l ∧ l < first + et.lanes ∧ act (l - first) := by
    rw [w64, BitVec.getLsbD_ofNat, decide_eq_true hl, Bool.true_and, Nat.testBit_mul_two_pow, Bool.and_eq_true,
      decide_eq_true_iff, Nat.testBit_mod_two_pow, Bool.and_eq_true, decide_eq_true_iff]
    show first ≤ l ∧ l - first < et.lanes ∧ act (l - first) ↔ _
    refine and_congr_right fun h => and_congr_left fun _ => ?_
    omega
  have hn : n = if first ≤ l ∧ l < first + et.lanes ∧ act (l - first) then
      encodeCode s.view.dtab s.regs.cr.encm (f.read z) else laneOf .i8 (s.regs.getV vd) l := by
    show laneOf .i8 (mapLanes _ _ _ _ _) l = _
    rw [laneOf_mapLanes .i8 _ _ _ hl, lanes_eq]
    exact if_congr hmask (Nat.mod_eq_of_lt (encodeCode_lt _ _ _)) rfl
  refine ⟨fun h => by rw [hn, if_neg h], fun h1 h2 h3 => ?_⟩
  rw [if_pos ⟨h1, h2, h3⟩] at hn
  have hcase : mode = 0 ∨ mode = 1 ∨ mode = 2 := by
    have : mode < 4 := Nat.mod_lt _ (by norm_num)
    have : mode ≠ 3 := hmode
    omega
  rcases hcase with h | h | h
  · rw [encodeCode_table _ (hm.trans h)] at hn
    rw [hn]
    refine ⟨fun h' => absurd h h', fun _ hnan => ?_, fun _ => tableCode_spec _ _ _, fun h' => absurd h h',
      fun h' => absurd h h'⟩
    rw [tableCode, read_isNan hf, if_pos hnan, fld_eq_div]
    rfl
  · rw [encodeCode_signed _ (hm.trans h)] at hn
    obtain ⟨h1, h2, h3⟩ := intCode_spec hf (by norm_num) hn
    simp only [if_pos h]
    exact ⟨fun _ => h1, fun h' => by omega, fun h' => by omega, fun _ => h2, fun _ => h3⟩
  · rw [encodeCode_unsigned _ (hm.trans h)] at hn
    obtain ⟨h1, h2, h3⟩ := intCode_spec hf (by norm_num) hn
    simp only [if_neg (by omega : mode ≠ 1)]
    exact ⟨fun _ => h1, fun h' => by omega, fun h' => by omega, fun _ => h2, fun _ => h3⟩

theorem vnib_takes : VLanes (.vnib vd vs2 m k) s .i8 vd k (fun l =>
    let b := laneOf .i8 (s.regs.getV vs2) (32 * (m.toNat % 2) + l / 2)
    let n := if l % 2 = 0 then b % 16 else b / 16
    if m.getLsbD 1 then wrap 8 (signed 4 n) else n) := by
  have hm : b2n (m.getLsbD 0) = m.toNat % 2 := by
    rw [b2n, BitVec.getLsbD, Nat.testBit_zero]
    rcases Nat.mod_two_eq_zero_or_one m.toNat with h | h <;> simp [h]
  have hnib (l : Nat) (b : Nat) (hb : b < 2 ^ ETy.i8.width) : (if l % 2 = 0 then b % 16 else b / 16) < 2 ^ 4 := by
    have : b < 256 := hb
    split <;> omega
  have hx : exec (.vnib vd vs2 m k) s = writeV s vd (mapLanes ETy.i8.width ETy.i8.lanes (s.k k) (s.v vd) (fun l =>
      let b := laneOf .i8 (s.regs.getV vs2) (32 * (m.toNat % 2) + l / 2)
      let n := if l % 2 = 0 then b % 16 else b / 16
      if m.getLsbD 1 then wrap 8 (signed 4 n) else n), 0) := by
    show execVnib vd vs2 m k s = _
    rw [execVnib, lanes_eq, hm]
    congr 4
    funext l
    dsimp only
    rw [toS_eq (hnib l _ (laneOf_lt .i8 _ _)), ofS_eq]
  refine vLanes_of hx fun l _ => ?_
  have := hnib l (laneOf .i8 (s.regs.getV vs2) (32 * (m.toNat % 2) + l / 2)) (laneOf_lt .i8 _ _)
  dsimp only
  split
  · exact wrap_lt _ _
  · exact this.trans (by decide)

/-! ### Scaling and random draws (R239, R241) -/

theorem scale_range (et : ETy) : (etFmt et).emax + 2 ≤ (etFmt et).qmin + 8000 := by cases et <;> decide

theorem vscl_scales (h : et.isInt = false) : FLanes (.vscl et vd vs2 vs1 k) s et vd k (fun l n g =>
    (∀ r, value (etFmt et) (laneOf et (s.regs.getV vs2) l) = some r →
      Rounded (etFmt et) (r * (2 : Rat) ^ signed et.width (laneOf et (s.regs.getV vs1) l)) n g ∧
      (r = 0 → n = signBit (etFmt et) (isNegative (etFmt et) (laneOf et (s.regs.getV vs2) l)))) ∧
    (isNan (etFmt et) (laneOf et (s.regs.getV vs2) l) = true → n = quietNan (etFmt et)) ∧
    (isInf (etFmt et) (laneOf et (s.regs.getV vs2) l) = true → n = laneOf et (s.regs.getV vs2) l ∧ g = 0)) := by
  have hf := etFmt_usable et
  refine fLanes_of rfl fun l _ => ?_
  rw [lanes_eq, lanes_eq, toS_eq (laneOf_lt et _ _), ← etFmt_width h]
  have hlt : laneOf et (s.regs.getV vs2) l < 2 ^ ((etFmt et).prec + (etFmt et).ebits) := by
    rw [etFmt_width h]
    exact laneOf_lt _ _ _
  refine ⟨Fmt.pack_lt hf _, fun r hr => scaleBy_rounded hf (scale_range et) hlt hr _, fun hn => ?_, fun hi => ?_⟩
  · rw [read_nan hf hn, quietNan_eq]
    rfl
  · rw [read_inf hi]
    exact ⟨(eq_of_isInf hf hlt hi).symm, rfl⟩

theorem vrng_draws (het : et = .i32 ∨ et = .f32) : ∃ v, VGives (.vrng et vd vs2 k) s vd v 0 ∧ ∀ l < et.lanes,
    let z := (generator s.regs.cr.rngk ((s.regs.getV vs2).setWidth 64 + nat l)).toNat
    (¬(s.regs.getK k).getLsbD l = true → laneOf et v l = laneOf et (s.regs.getV vd) l) ∧
    ((s.regs.getK k).getLsbD l = true → et = .i32 → laneOf et v l = z) ∧
    ((s.regs.getK k).getLsbD l = true → et = .f32 →
      value (etFmt et) (laneOf et v l) = some (((z / 2 ^ 8 : Nat) : Rat) / 2 ^ 24)) := by
  have hx : exec (.vrng et vd vs2 k) s = writeV s vd (mapLanes et.width et.lanes (s.k k) (s.v vd) (fun i =>
      if et = .f32 then rngF32 (rng s.cr.rngk (lane (s.v vs2) 64 0 + i)) else rng s.cr.rngk (lane (s.v vs2) 64 0 + i)), 0) :=
    rfl
  refine ⟨_, vGives_of_writeV hx, fun l hl => ?_⟩
  intro z
  have hz : z < 2 ^ 32 := (generator _ _).isLt
  have hrng : rng s.cr.rngk (lane (s.v vs2) 64 0 + l) = z := by
    rw [← rng_mod]
    have : (lane (s.v vs2) 64 0 + l) % 2 ^ 64 = ((s.regs.getV vs2).setWidth 64 + nat l).toNat := by
      rw [BitVec.toNat_add, BitVec.toNat_setWidth, nat, BitVec.toNat_ofNat, lane, Nat.mul_zero, Nat.shiftRight_zero,
        Nat.add_mod_mod]
      rfl
    rw [this, rng_eq]
    rfl
  clear_value z
  rw [laneOf_mapLanes et _ _ _ hl, hrng]
  refine ⟨fun h => if_neg h, fun (h : (s.k k).getLsbD l = true) he => ?_,
    fun (h : (s.k k).getLsbD l = true) he => ?_⟩
  · subst he
    rw [if_pos h, if_neg (by decide)]
    exact Nat.mod_eq_of_lt hz
  · subst he
    obtain ⟨hlt, hv⟩ := rngF32_value hz
    have hw : rngF32 z % 2 ^ ETy.f32.width = rngF32 z := Nat.mod_eq_of_lt hlt
    rw [if_pos h, if_pos rfl, hw]
    exact hv

end

/-- Settles O28, lane by lane: each clause is what the model's lane function computes, under the mask. -/
theorem vectorConversions : Obligations.VectorConversions := by
  intro s et dt half vd vs2 vs1 q m k
  exact ⟨vcvt_converts s et dt vd vs2 k, vpack_converts s et half vd vs2 vs1 k,
    fun het _ => ⟨vdec_decodes s et vd vs2 q k het, venc_trapsIllegal s et vd vs2 q k, venc_encodes s et vd vs2 q k⟩,
    vnib_takes s vd vs2 m k, vscl_scales s et vd vs2 vs1 k, vrng_draws s et vd vs2 k⟩

end Sys2Proof.Machine
end

section
/-! PROOF. A decode table past the TCM (R43, R268): a clause on tables and modes that the model does not keep. -/

set_option Elab.async false

namespace Sys2Proof.Machine
open Sys2Proof.Claims

/-- A DTLD of a user's table whose 256 words begin where the TCM ends. -/
def tablePastTcm : Job := { Job.reset with st := .queued, kind := 5, ops := [2 ^ 18, 0] }

/-- That job at the head of core 0's slice queue, in the state at READY. -/
def tablePastTcmQueued : State :=
  { State.reset with cores := [(0, { Core.reset with bank := Core.reset.bank.setJob 0 tablePastTcm })] }

/-- The model ends the job FAULT, with PERM in DCODE: the range is not backed. -/
theorem tablePastTcm_ends : (match exec (.decodeTableLoad 0) tablePastTcmQueued with
    | .next t => (t.job 0 0).status
    | _ => 0) = nat (4 + 5 * 2 ^ 8 + Cause.perm.code * 2 ^ 32) := by decide +kernel

theorem core_tablePastTcmQueued (c : Nat) : (tablePastTcmQueued.core c).bank.kst = .absent ∧
    ∀ i : Fin 4, ((tablePastTcmQueued.core c).ctx i).running = false := by
  by_cases h : c = 0
  · subst h
    decide +kernel
  · have : tablePastTcmQueued.core c = Core.reset := by
      simp [tablePastTcmQueued, State.core, Tab.get, Tab.look, h]
    rw [this]
    decide +kernel

theorem idle_tablePastTcmQueued : IdleCluster tablePastTcmQueued 0 :=
  ⟨fun c hc => ⟨by rw [hc]; decide +kernel, .inl (core_tablePastTcmQueued c).1⟩,
    fun c i _ => (core_tablePastTcmQueued c).2 i⟩

/-- Refutes O31: the clause on DTLD says that every DTLD at a head ends DONE, with no bound on word 0 where word 1 is 0.
A table that begins at 2^18, past the TCM, ends FAULT with PERM. (DTLD itself submits no such job: R268 checks the
range, and the statement leaves that out.) -/
theorem not_gangsTablesAndMailboxes : ¬ Obligations.GangsTablesAndMailboxes := by
  rintro ⟨-, h⟩
  obtain ⟨hload, -⟩ := h tablePastTcmQueued 0 0 0 tablePastTcm (by norm_num) (by norm_num) idle_tablePastTcmQueued
    ⟨rfl, rfl⟩ (by unfold HeadIs; decide +kernel) rfl
  obtain ⟨t, ht, ⟨-, hstatus⟩, -⟩ := hload rfl
  have hmodel := tablePastTcm_ends
  simp only [ht] at hmodel
  rw [hmodel] at hstatus
  revert hstatus
  decide +kernel

end Sys2Proof.Machine
end

section
/-! PROOF. Permutations of vectors (R228). -/

set_option Elab.async false

namespace Sys2Proof.Machine
open Sys2Proof.Claims

/-! ### Vector results without flags -/

theorem vAll_of {i : Instr} {s : State} {et : ETy} {vd : VReg} {f : Nat → Nat} {mask : Word} {old : VWord} {g : Nat → Nat}
    (h : exec i s = writeV s vd (mapLanes et.width et.lanes mask old g, 0))
    (hf : ∀ l < et.lanes, (if mask.getLsbD l then g l % 2 ^ et.width else laneOf et old l) = f l) : VAll i s et vd f :=
  ⟨_, vGives_of_writeV h, fun l hl => by rw [laneOf_mapLanes et _ _ _ hl, hf l hl]⟩

theorem getLsbD_all {et : ETy} {l : Nat} (hl : l < et.lanes) : (BitVec.allOnes 64).getLsbD l = true := by
  rw [BitVec.getLsbD_allOnes]
  exact decide_eq_true (hl.trans_le (lanes_le et))

theorem bitsBelow_eq (s : State) (k : KReg) (l : Nat) : bitsBelow (s.k k) l = activeBelow s k l := by
  rw [bitsBelow, activeLanes, activeBelow, List.countP_eq_length_filter]
  rfl

theorem activeBelow_le (s : State) (k : KReg) (l : Nat) : activeBelow s k l ≤ l := by
  have := List.countP_le_length (p := fun j => (s.regs.getK k).getLsbD j) (l := List.range l)
  rwa [List.length_range] at this

/-- An active lane stands in the list of the active lanes behind those below it. -/
theorem activeLanes_getD {mask : Word} {n l : Nat} (hl : l < n) (h : mask.getLsbD l = true) :
    (activeLanes n mask)[(activeLanes l mask).length]? = some l := by
  obtain ⟨d, rfl⟩ := Nat.exists_eq_add_of_lt hl
  have hsplit : List.range (l + d + 1) = List.range l ++ l :: (List.range d).map (l + 1 + ·) := by
    rw [show l + d + 1 = l + 1 + d by omega, List.range_add, List.range_succ, List.append_assoc]
    rfl
  rw [activeLanes, hsplit, List.filter_append, List.filter_cons_of_pos h, activeLanes, List.getElem?_append_right le_rfl,
    Nat.sub_self]
  rfl

section
variable (s : State) (et : ETy) (vd vs2 vs1 : VReg) (k : KReg)

/-! ### Permutations (R228) -/

theorem vLanes_of_permOp {i : Instr} {f : Nat → Nat} (h : exec i s = permOp s et vd k f)
    (hf : ∀ l < et.lanes, f l < 2 ^ et.width) : VLanes i s et vd k f := vLanes_of h hf

theorem vpermb_copies : VLanes (.vpermb vd vs2 vs1 k) s .i8 vd k (fun l =>
    let x := laneOf .i8 (s.regs.getV vs1) l
    if 128 ≤ x then 0 else laneOf .i8 (s.regs.getV vs2) (x % 64)) := by
  refine vLanes_of_permOp s .i8 vd k (f := _) ?_ fun l _ => ?_
  · show permOp s .i8 vd k _ = _
    simp only [lanes_eq]
  · dsimp only
    split
    · exact Nat.two_pow_pos _
    · exact laneOf_lt _ _ _

theorem vcompr_packs : ∃ v, VGives (.vcompr et vd vs2 k) s vd v 0 ∧
    (∀ l < et.lanes, (s.regs.getK k).getLsbD l = true → laneOf et v (activeBelow s k l) = laneOf et (s.regs.getV vs2) l) ∧
    ∀ l < et.lanes, activeBelow s k et.lanes ≤ l → laneOf et v l = 0 := by
  have hx : exec (.vcompr et vd vs2 k) s = writeV s vd (mapLanes et.width et.lanes (BitVec.allOnes 64) 0
      (fun i => ((activeLanes et.lanes (s.k k)).map (s.lanes et vs2)).getD i 0), 0) := rfl
  have hv (l : Nat) (hl : l < et.lanes) : laneOf et (mapLanes et.width et.lanes (BitVec.allOnes 64) 0
      fun i => ((activeLanes et.lanes (s.k k)).map (s.lanes et vs2)).getD i 0) l =
      ((activeLanes et.lanes (s.k k)).map (s.lanes et vs2)).getD l 0 % 2 ^ et.width := by
    rw [laneOf_mapLanes et _ _ _ hl, if_pos (getLsbD_all hl)]
  refine ⟨_, vGives_of_writeV hx, fun l hl (ha : (s.k k).getLsbD l = true) => ?_,
    fun l hl hle => ?_⟩
  · have hle := activeBelow_le s k l
    dsimp only
    rw [hv _ (by omega), ← bitsBelow_eq, bitsBelow, List.getD_eq_getElem?_getD, List.getElem?_map,
      activeLanes_getD hl ha, lanes_eq]
    exact Nat.mod_eq_of_lt (laneOf_lt _ _ _)
  · dsimp only
    rw [hv _ hl, List.getD_eq_getElem?_getD, List.getElem?_eq_none]
    · exact Nat.zero_mod _
    · rw [List.length_map]
      exact (bitsBelow_eq s k et.lanes).le.trans hle

theorem vslide_copies : VLanes (.vslide et vd vs2 vs1 k) s et vd k (fun l =>
    let j := (l : Int) + signed 8 ((s.regs.getV vs1).toNat % 256)
    if 0 ≤ j ∧ j < et.lanes then laneOf et (s.regs.getV vs2) j.toNat else 0) := by
  have hd : toS 8 (lane (s.v vs1) 8 0) = signed 8 ((s.regs.getV vs1).toNat % 256) := by
    have : lane (s.v vs1) 8 0 = (s.regs.getV vs1).toNat % 256 := by
      rw [lane, Nat.mul_zero, Nat.shiftRight_zero]
      rfl
    rw [this]
    exact toS_eq (w := 8) (Nat.mod_lt _ (by norm_num))
  refine vLanes_of_permOp s et vd k (f := _) ?_ fun l _ => ?_
  · show permOp s et vd k _ = _
    simp only [hd, lanes_eq]
  · dsimp only
    split
    · exact laneOf_lt _ _ _
    · exact Nat.two_pow_pos _

theorem vins_inserts : VAll (.vins et vd vs2 vs1) s et vd (fun l =>
    if l = (s.regs.getV vs2).toNat % 2 ^ 64 % et.lanes then laneOf et (s.regs.getV vs1) 0
    else laneOf et (s.regs.getV vd) l) := by
  refine vAll_of (mask := w64 (2 ^ (lane (s.v vs2) 64 0 % et.lanes))) (old := s.v vd) (g := fun _ => s.lanes et vs1 0)
    rfl fun l hl => ?_
  have hj : lane (s.v vs2) 64 0 % et.lanes = (s.regs.getV vs2).toNat % 2 ^ 64 % et.lanes := by
    rw [lane, Nat.mul_zero, Nat.shiftRight_zero]
    rfl
  have hbit : (w64 (2 ^ (lane (s.v vs2) 64 0 % et.lanes))).getLsbD l = true ↔
      l = (s.regs.getV vs2).toNat % 2 ^ 64 % et.lanes := by
    rw [w64, BitVec.getLsbD_ofNat, decide_eq_true (hl.trans_le (lanes_le et)), Bool.true_and, Nat.testBit_two_pow,
      decide_eq_true_iff, hj, eq_comm]
  rw [lanes_eq, Nat.mod_eq_of_lt (laneOf_lt _ _ _)]
  exact if_congr hbit rfl rfl

theorem vectorPermutations : VectorPermutations := by
  intro s et vd vs2 vs1 k a b old n act half
  refine ⟨vpermb_copies s vd vs2 vs1 k, ?_, fun hi => ?_, vcompr_packs s et vd vs2 k, ?_, vslide_copies s et vd vs2 vs1 k,
    vins_inserts s et vd vs2 vs1, ?_, ?_⟩
  · refine vLanes_of_permOp s et vd k ?_ fun _ _ => laneOf_lt _ _ _
    show permOp s et vd k _ = _
    rw [lanes_eq]
  · refine vAll_of (mask := BitVec.allOnes 64) (old := 0) (g := fun i => bitsBelow (s.k k) i) rfl fun l hl => ?_
    have hw : 64 ≤ 2 ^ et.width := by cases et <;> simp [ETy.width]
    have := lanes_le et
    have := activeBelow_le s k l
    rw [if_pos (getLsbD_all hl), bitsBelow_eq]
    exact Nat.mod_eq_of_lt (by omega)
  · refine vLanes_of_permOp s et vd k ?_ fun _ _ => laneOf_lt _ _ _
    show permOp s et vd k _ = _
    simp only [lanes_eq, bitsBelow_eq]
    rfl
  · refine vLanes_of_permOp s et vd k ?_ fun l _ => by split <;> exact laneOf_lt _ _ _
    show permOp s et vd k _ = _
    congr 1
    funext l
    split <;> rw [lanes_eq]
  · refine vLanes_of_permOp s et vd k ?_ fun l _ => by split <;> exact laneOf_lt _ _ _
    show permOp s et vd k _ = _
    simp only [lanes_eq]
    rfl

end

end Sys2Proof.Machine
end

section
/-! PROOF. Extremes of a list, in the order of their kind (R54), and sums. -/

set_option Elab.async false

namespace Sys2Proof.Machine
open Sys2Proof.Claims

/-! ### Encodings on a line (R54, R136) -/

/-- Where an encoding that is no NaN stands on the extended line. -/
def lineKey (f : Fmt) (a : Nat) : WithBot (WithTop Rat) :=
  match value f a with
  | some x => ((x : WithTop Rat) : WithBot (WithTop Rat))
  | none => if isNegative f a then ⊥ else ((⊤ : WithTop Rat) : WithBot (WithTop Rat))

/-- The same with the two zeros apart. -/
def signedKey (f : Fmt) (a : Nat) : WithBot (WithTop Rat) ×ₗ Bool := toLex (lineKey f a, !isNegative f a)

section
variable {f : Fmt} {a b : Nat}

theorem below_iff_lineKey : below f a b ↔ lineKey f a < lineKey f b := by
  unfold below lineKey
  cases ha : value f a <;> cases hb : value f b <;> simp only
  · cases isNegative f a <;> cases isNegative f b <;> simp
  · cases isNegative f a <;> simp
  · cases isNegative f b
    · exact iff_of_true rfl (WithBot.coe_lt_coe.2 (WithTop.coe_lt_top _))
    · exact iff_of_false (by simp) not_lt_bot
  · simp [WithBot.coe_lt_coe]

theorem read_below_iff_signedKey (hf : f.Usable) (ha : isNan f a = false) (hb : isNan f b = false) :
    (f.read a).below (f.read b) = true ↔ signedKey f a < signedKey f b := by
  rw [read_below_iff hf ha hb, below_iff_lineKey, below_iff_lineKey, signedKey, signedKey, Prod.Lex.toLex_lt_toLex]
  refine or_congr_right ?_
  constructor
  · rintro ⟨h1, h2, h3, h4⟩
    exact ⟨le_antisymm (not_lt.1 h2) (not_lt.1 h1), by simp [h3, h4]⟩
  · rintro ⟨h1, h2⟩
    refine ⟨not_lt.2 h1.ge, not_lt.2 h1.le, ?_⟩
    revert h2
    cases isNegative f a <;> cases isNegative f b <;> simp

end

/-! ### The greatest and the least of a list (R54, R229) -/

/-- The greatest or least of a list under an order, from its last element up. -/
def pickBy (less : Nat → Nat → Bool) (isMax : Bool) : List Nat → Nat
  | [] => 0
  | [x] => x
  | x :: y :: rest =>
    let z := pickBy less isMax (y :: rest)
    if isMax then (if less x z then z else x) else (if less x z then x else z)

theorem pickFlt_eq (f : Fmt) (isMax : Bool) : ∀ xs, pickFlt f isMax xs = pickBy (fun x y => (f.read x).below (f.read y)) isMax xs
  | [] => rfl
  | [_] => rfl
  | x :: y :: rest => by rw [pickFlt, pickBy, pickFlt_eq f isMax (y :: rest)]; simp

theorem pickInt_eq (w : Nat) (isMax : Bool) : ∀ xs, pickInt w isMax xs = pickBy (fun x y => decide (toS w x < toS w y)) isMax xs
  | [] => rfl
  | [_] => rfl
  | x :: y :: rest => by rw [pickInt, pickBy, pickInt_eq w isMax (y :: rest)]; simp

theorem pickBy_spec {α : Type} [LinearOrder α] {less : Nat → Nat → Bool} {key : Nat → α} (isMax : Bool) :
    ∀ xs : List Nat, xs ≠ [] → (∀ x ∈ xs, ∀ y ∈ xs, less x y = true ↔ key x < key y) →
      pickBy less isMax xs ∈ xs ∧
        ∀ y ∈ xs, if isMax then key y ≤ key (pickBy less isMax xs) else key (pickBy less isMax xs) ≤ key y
  | [], h, _ => absurd rfl h
  | [x], _, _ => by
    refine ⟨List.mem_singleton.2 rfl, fun y hy => ?_⟩
    rw [List.mem_singleton.1 hy, pickBy]
    simp
  | x :: y :: rest, _, hless => by
    obtain ⟨hz, hall⟩ := pickBy_spec isMax (y :: rest) (by simp) fun u hu v hv =>
      hless u (List.mem_cons_of_mem _ hu) v (List.mem_cons_of_mem _ hv)
    have hl := hless x (List.mem_cons_self ..) _ (List.mem_cons_of_mem _ hz)
    rw [pickBy]
    generalize pickBy less isMax (y :: rest) = z at hz hall hl
    cases isMax
    · simp only [Bool.false_eq_true, if_false] at hall ⊢
      split
      · next h =>
        rw [hl] at h
        exact ⟨List.mem_cons_self .., fun u hu => (List.mem_cons.1 hu).elim (fun e => e ▸ le_rfl)
          fun hu => h.le.trans (hall u hu)⟩
      · next h =>
        rw [hl, not_lt] at h
        exact ⟨List.mem_cons_of_mem _ hz, fun u hu => (List.mem_cons.1 hu).elim (fun e => e ▸ h) (hall u)⟩
    · simp only [if_true] at hall ⊢
      split
      · next h =>
        rw [hl] at h
        exact ⟨List.mem_cons_of_mem _ hz, fun u hu => (List.mem_cons.1 hu).elim (fun e => e ▸ h.le) (hall u)⟩
      · next h =>
        rw [hl, not_lt] at h
        exact ⟨List.mem_cons_self .., fun u hu => (List.mem_cons.1 hu).elim (fun e => e ▸ le_rfl)
          fun hu => (hall u hu).trans h⟩

/-- The lowest of rising indices with the greatest key. -/
theorem argMax_spec {α : Type} [LinearOrder α] {et : ETy} {x : Nat → Nat} {key : Nat → α} :
    ∀ (rest : List Nat) (best : Nat), (best :: rest).Pairwise (· < ·) →
      (∀ i ∈ best :: rest, ∀ j ∈ best :: rest, laneLess et (x i) (x j) = true ↔ key i < key j) →
      argMax et x best rest ∈ best :: rest ∧ ∀ j ∈ best :: rest, key j ≤ key (argMax et x best rest) ∧
        (j < argMax et x best rest → key j < key (argMax et x best rest))
  | [], best, _, _ => by
    refine ⟨List.mem_singleton.2 rfl, fun j hj => ?_⟩
    rw [List.mem_singleton.1 hj, argMax]
    exact ⟨le_rfl, fun h => absurd h (lt_irrefl _)⟩
  | i :: rest, best, hsort, hless => by
    rw [List.pairwise_cons] at hsort
    obtain ⟨hbest, hrest⟩ := hsort
    have hl := hless best (by simp) i (by simp)
    rw [argMax]
    split
    · next h =>
      rw [hl] at h
      obtain ⟨hr, hall⟩ := argMax_spec rest i hrest fun u hu v hv =>
        hless u (List.mem_cons_of_mem _ hu) v (List.mem_cons_of_mem _ hv)
      refine ⟨List.mem_cons_of_mem _ hr, fun j hj => (List.mem_cons.1 hj).elim (fun e => ?_) (hall j)⟩
      have := h.trans_le (hall i (by simp)).1
      exact e ▸ ⟨this.le, fun _ => this⟩
    · next h =>
      rw [hl, not_lt] at h
      have hmem {u : Nat} (hu : u ∈ best :: rest) : u ∈ best :: i :: rest :=
        (List.mem_cons.1 hu).elim (fun e => e ▸ List.mem_cons_self ..)
          fun hu => List.mem_cons_of_mem _ (List.mem_cons_of_mem _ hu)
      obtain ⟨hr, hall⟩ := argMax_spec rest best
        (List.pairwise_cons.2 ⟨fun u hu => hbest u (List.mem_cons_of_mem _ hu), (List.pairwise_cons.1 hrest).2⟩)
        fun u hu v hv => hless u (hmem hu) v (hmem hv)
      have hb := hall best (by simp)
      generalize argMax et x best rest = r at hr hall hb
      refine ⟨hmem hr, fun j hj => ?_⟩
      rcases List.mem_cons.1 hj with rfl | hj
      · exact hb
      · rcases List.mem_cons.1 hj with rfl | hj
        · refine ⟨h.trans hb.1, fun hlt => h.trans_lt (hb.2 ?_)⟩
          exact (hbest j (by simp)).trans hlt
        · exact hall j (List.mem_cons_of_mem _ hj)

/-! ### Sums over lists -/

theorem foldl_add_eq {α : Type} (g : α → Nat) : ∀ (xs : List α) (z : Nat),
    xs.foldl (fun a i => a + g i) z = z + (xs.map g).sum
  | [], z => by simp
  | x :: xs, z => by rw [List.foldl_cons, foldl_add_eq g xs, List.map_cons, List.sum_cons, Nat.add_assoc]

/-- The one bits of a lane. -/
theorem popWord_eq {w x : Nat} (hw : w ≤ 64) (hx : x < 2 ^ w) :
    popWord (w64 x) = (List.range w).countP fun j => x.testBit j := by
  have hsplit : List.range 64 = List.range w ++ (List.range (64 - w)).map (w + ·) := by
    rw [← List.range_add, Nat.add_sub_cancel' hw]
  have hbit (i : Nat) (hi : i ∈ List.range 64) : (w64 x).getLsbD i = x.testBit i := by
    rw [w64, BitVec.getLsbD_ofNat, decide_eq_true (List.mem_range.1 hi), Bool.true_and]
  have hhigh : ((List.range (64 - w)).map (w + ·)).countP (fun j => x.testBit j) = 0 := by
    refine List.countP_eq_zero.2 fun i hi => ?_
    obtain ⟨j, -, rfl⟩ := List.mem_map.1 hi
    rw [Nat.testBit_lt_two_pow (hx.trans_le (Nat.pow_le_pow_right two_pos (Nat.le_add_right w j)))]
    simp
  rw [popWord, List.filter_congr hbit, ← List.countP_eq_length_filter, hsplit, List.countP_append, hhigh, Nat.add_zero]

end Sys2Proof.Machine
end

section
/-! PROOF. Reductions to an extreme lane, its index, integer sums and counts (R54, R229). -/

set_option Elab.async false

namespace Sys2Proof.Machine
open Sys2Proof.Claims

section
variable (s : State) (et : ETy) (vd vs2 : VReg) (k : KReg)

/-! ### The active lanes -/

theorem mem_activeLanes {n l : Nat} {mask : Word} : l ∈ activeLanes n mask ↔ l < n ∧ mask.getLsbD l = true := by
  rw [activeLanes, List.mem_filter, List.mem_range]

theorem activeLanes_pairwise (n : Nat) (mask : Word) : (activeLanes n mask).Pairwise (· < ·) :=
  List.pairwise_lt_range.filter _

/-- NV of a reduction: a floating lane is a NaN whose quiet bit is clear (R54). -/
def nanFlag : Flags :=
  if et.isInt then 0 else sigOf (etFmt et) ((activeLanes et.lanes (s.k k)).map (laneOf et (s.regs.getV vs2)))

theorem sigOf_spec {f : Fmt} (hf : f.Usable) (xs : List Nat) :
    (sigOf f xs = 16 ∨ sigOf f xs = 0) ∧ (sigOf f xs = 16 ↔ ∃ x ∈ xs, isSignalling f x = true) := by
  have hany : (xs.any fun x => (f.read x).sig) = true ↔ ∃ x ∈ xs, isSignalling f x = true := by
    simp [List.any_eq_true, read_sig hf]
  rw [sigOf, ← hany]
  cases xs.any fun x => (f.read x).sig <;> simp [fNV]

theorem nanFlag_spec : (nanFlag s et vs2 k = 16 ∨ nanFlag s et vs2 k = 0) ∧
    (nanFlag s et vs2 k = 16 ↔ ∃ l, (l < et.lanes ∧ (s.regs.getK k).getLsbD l = true) ∧ et.isInt = false ∧
      isSignalling (etFmt et) (laneOf et (s.regs.getV vs2) l) = true) := by
  rw [nanFlag]
  cases et.isInt
  · obtain ⟨h1, h2⟩ := sigOf_spec (etFmt_usable et) ((activeLanes et.lanes (s.k k)).map (laneOf et (s.regs.getV vs2)))
    refine ⟨h1, h2.trans ?_⟩
    simp only [List.mem_map, exists_exists_and_eq_and, mem_activeLanes, true_and]
    rfl
  · simp

/-! ### The order of the lanes of a type -/

theorem laneLess_int (h : et.isInt = true) {x y : Nat} (hx : x < 2 ^ et.width) (hy : y < 2 ^ et.width) :
    laneLess et x y = true ↔ signed et.width x < signed et.width y := by
  rw [laneLess, if_pos h, toS_eq hx, toS_eq hy, decide_eq_true_iff]

theorem laneLess_flt (h : et.isInt = false) {x y : Nat} (hx : isNan (etFmt et) x = false)
    (hy : isNan (etFmt et) y = false) : laneLess et x y = true ↔ lineKey (etFmt et) x < lineKey (etFmt et) y := by
  rw [laneLess, h, if_neg Bool.false_ne_true, read_lt hx hy, below_iff_lineKey]

/-! ### VRMAX and VRMIN (R54, R229) -/

theorem extremeOp_eq (isMax : Bool) : extremeOp s isMax et vd vs2 k = writeV s vd (lowVec
    (let xs := (activeLanes et.lanes (s.k k)).map (laneOf et (s.regs.getV vs2))
     if et.isInt then pickInt et.width isMax xs
     else if xs.any fun x => (((etFmt et).read x).isNan) then (etFmt et).nan else pickFlt (etFmt et) isMax xs),
    nanFlag s et vs2 k) := by
  rw [extremeOp, lanes_eq, nanFlag]
  cases et.isInt <;> rfl

theorem extremeOp_nil (isMax : Bool) (h : activeLanes et.lanes (s.k k) = []) :
    extremeOp s isMax et vd vs2 k = writeV s vd (lowVec 0, 0) := by
  rw [extremeOp_eq, nanFlag, h]
  cases et.isInt <;> rfl

theorem any_isNan (h : et.isInt = false) :
    (((activeLanes et.lanes (s.k k)).map (laneOf et (s.regs.getV vs2))).any fun x => ((etFmt et).read x).isNan) = true ↔
      ∃ l, (l < et.lanes ∧ (s.regs.getK k).getLsbD l = true) ∧ et.isInt = false ∧
        isNan (etFmt et) (laneOf et (s.regs.getV vs2) l) = true := by
  simp only [List.any_eq_true, List.mem_map, exists_exists_and_eq_and, mem_activeLanes, read_isNan (etFmt_usable et), h,
    true_and]
  rfl

theorem extremeOp_nan (isMax : Bool) (h : ∃ l, (l < et.lanes ∧ (s.regs.getK k).getLsbD l = true) ∧ et.isInt = false ∧
    isNan (etFmt et) (laneOf et (s.regs.getV vs2) l) = true) :
    extremeOp s isMax et vd vs2 k = writeV s vd (lowVec (quietNan (etFmt et)), nanFlag s et vs2 k) := by
  have hi : et.isInt = false := by
    obtain ⟨_, _, hi, _⟩ := h
    exact hi
  rw [extremeOp_eq]
  dsimp only
  rw [hi, if_neg Bool.false_ne_true, if_pos ((any_isNan s et vs2 k hi).2 h), quietNan_eq]

/-- Of two zeros the one whose key is greater has the lesser encoding. -/
theorem zero_le_of_signedKey_le {f : Fmt} (hf : f.Usable) {a b : Nat} (hla : a < 2 ^ (f.prec + f.ebits))
    (hlb : b < 2 ^ (f.prec + f.ebits)) (ha : isZero f a = true) (hb : isZero f b = true)
    (h : signedKey f a ≤ signedKey f b) : b ≤ a := by
  have hna := isNan_of_value (by rw [value_of_isZero hf ha]; rfl)
  have hnb := isNan_of_value (by rw [value_of_isZero hf hb]; rfl)
  rw [← not_lt, ← read_below_iff_signedKey hf hnb hna, read_below_zero hf hlb hla hb ha] at h
  exact not_lt.1 h

/-- What a lane that VRMAX or VRMIN picks is: extreme among the active ones, and of zeros the one by its sign. -/
theorem extremeOp_pick (isMax : Bool) (hne : activeLanes et.lanes (s.k k) ≠ [])
    (hnan : ¬∃ l, (l < et.lanes ∧ (s.regs.getK k).getLsbD l = true) ∧ et.isInt = false ∧
      isNan (etFmt et) (laneOf et (s.regs.getV vs2) l) = true) :
    let a := laneOf et (s.regs.getV vs2)
    let f := etFmt et
    let act (l : Nat) : Prop := l < et.lanes ∧ (s.regs.getK k).getLsbD l = true
    let less (x y : Nat) : Prop := if et.isInt then signed et.width x < signed et.width y else below f x y
    ∃ l, act l ∧ extremeOp s isMax et vd vs2 k = writeV s vd (lowVec (a l), nanFlag s et vs2 k) ∧
      (∀ j, act j → ¬(if isMax then less (a l) (a j) else less (a j) (a l))) ∧
      (et.isInt = false → isZero f (a l) = true → ∀ j, act j → isZero f (a j) = true →
        if isMax then a l ≤ a j else a j ≤ a l) := by
  intro a f act less
  have hf : f.Usable := etFmt_usable et
  have hmem {l : Nat} : l ∈ activeLanes et.lanes (s.k k) ↔ act l := mem_activeLanes
  have hxs : (activeLanes et.lanes (s.k k)).map a ≠ [] := by simpa using hne
  rw [extremeOp_eq]
  dsimp only
  cases hi : et.isInt
  · have hlt (l : Nat) : a l < 2 ^ (f.prec + f.ebits) := by
      rw [etFmt_width hi]
      exact laneOf_lt _ _ _
    have hnum {l : Nat} (hl : act l) : isNan f (a l) = false := by
      rw [Bool.eq_false_iff]
      exact fun h => hnan ⟨l, hl, hi, h⟩
    have hanyNan := mt (any_isNan s et vs2 k hi).1 hnan
    obtain ⟨hz, hall⟩ := pickBy_spec (key := signedKey f) (less := fun x y => (f.read x).below (f.read y)) isMax _ hxs
      fun x hx y hy => by
        obtain ⟨l, hl, rfl⟩ := List.mem_map.1 hx
        obtain ⟨j, hj, rfl⟩ := List.mem_map.1 hy
        exact read_below_iff_signedKey hf (hnum (hmem.1 hl)) (hnum (hmem.1 hj))
    obtain ⟨l, hl, hal⟩ := List.mem_map.1 hz
    rw [← hal] at hall
    have hkey (j : Nat) (hj : act j) := hall (a j) (List.mem_map_of_mem (hmem.2 hj))
    have hline {i j : Nat} (h : signedKey f (a i) ≤ signedKey f (a j)) : ¬below f (a j) (a i) := fun hb => by
      refine absurd ?_ (not_lt.2 h)
      rw [signedKey, signedKey, Prod.Lex.toLex_lt_toLex]
      exact .inl (below_iff_lineKey.1 hb)
    refine ⟨l, hmem.1 hl, ?_, fun j hj => ?_, fun _ hzl j hj hzj => ?_⟩
    · rw [if_neg Bool.false_ne_true, if_neg hanyNan, pickFlt_eq, hal]
    · have := hkey j hj
      have hless (x y : Nat) : less x y ↔ below f x y := by
        show (if et.isInt = true then _ else _) ↔ _
        rw [hi, if_neg Bool.false_ne_true]
      rw [hless, hless]
      cases isMax <;> exact hline this
    · have := hkey j hj
      cases isMax
      · exact zero_le_of_signedKey_le hf (hlt l) (hlt j) hzl hzj this
      · exact zero_le_of_signedKey_le hf (hlt j) (hlt l) hzj hzl this
  · obtain ⟨hz, hall⟩ := pickBy_spec (key := toS et.width) (less := fun x y => decide (toS et.width x < toS et.width y))
      isMax _ hxs fun x _ y _ => decide_eq_true_iff
    obtain ⟨l, hl, hal⟩ := List.mem_map.1 hz
    rw [← hal] at hall
    refine ⟨l, hmem.1 hl, ?_, fun j hj => ?_, fun h => absurd h (by decide)⟩
    · rw [if_pos rfl, pickInt_eq, hal]
    · have := hall (a j) (List.mem_map_of_mem (hmem.2 hj))
      rw [toS_eq (laneOf_lt _ _ _), toS_eq (laneOf_lt _ _ _)] at this
      have hless (x y : Nat) : less x y ↔ signed et.width x < signed et.width y := by
        show (if et.isInt = true then _ else _) ↔ _
        rw [if_pos hi]
      rw [hless, hless]
      cases isMax <;> exact not_lt.2 this

/-! ### VRARG (R54, R229) -/

theorem vrarg_nil (h : activeLanes et.lanes (s.k k) = []) :
    exec (.vrarg et vd vs2 k) s = writeV s vd (lowVec (2 ^ 64 - 1), 0) := by
  show execVrarg et vd vs2 k s = _
  rw [execVrarg, h]

theorem vrarg_cons {i : Nat} {rest : List Nat} (h : activeLanes et.lanes (s.k k) = i :: rest) :
    exec (.vrarg et vd vs2 k) s = writeV s vd (lowVec
      (if et.isInt then argMax et (laneOf et (s.regs.getV vs2)) i rest
       else ((i :: rest).find? fun j => ((etFmt et).read (laneOf et (s.regs.getV vs2) j)).isNan).getD
         (argMax et (laneOf et (s.regs.getV vs2)) i rest)), nanFlag s et vs2 k) := by
  show execVrarg et vd vs2 k s = _
  rw [execVrarg, nanFlag, h, lanes_eq]
  dsimp only
  cases et.isInt
  · simp only [Bool.false_eq_true, if_false]
    split
    · next j hj => rw [hj]; rfl
    · next hj => rw [hj]; rfl
  · rfl

theorem vrarg_nan (h : ∃ l, (l < et.lanes ∧ (s.regs.getK k).getLsbD l = true) ∧ et.isInt = false ∧
    isNan (etFmt et) (laneOf et (s.regs.getV vs2) l) = true) :
    ∃ l, (l < et.lanes ∧ (s.regs.getK k).getLsbD l = true) ∧ isNan (etFmt et) (laneOf et (s.regs.getV vs2) l) = true ∧
      (∀ j < l, j < et.lanes ∧ (s.regs.getK k).getLsbD j = true → isNan (etFmt et) (laneOf et (s.regs.getV vs2) j) = false) ∧
      exec (.vrarg et vd vs2 k) s = writeV s vd (lowVec l, nanFlag s et vs2 k) := by
  have hf := etFmt_usable et
  obtain ⟨m, hm, hi, hnan⟩ := h
  have hml : m ∈ activeLanes et.lanes (s.k k) := mem_activeLanes.2 hm
  have hsort := activeLanes_pairwise et.lanes (s.k k)
  cases hl : activeLanes et.lanes (s.k k) with
  | nil => rw [hl] at hml; cases hml
  | cons i rest =>
    rw [hl] at hml hsort
    have hsome : ((i :: rest).find? fun j => ((etFmt et).read (laneOf et (s.regs.getV vs2) j)).isNan).isSome = true := by
      rw [List.find?_isSome]
      exact ⟨m, hml, by rw [read_isNan hf]; exact hnan⟩
    obtain ⟨l, hfind⟩ := Option.isSome_iff_exists.1 hsome
    obtain ⟨hp, as, bs, hsplit, hbefore⟩ := List.find?_eq_some_iff_append.1 hfind
    have hlm : l ∈ activeLanes et.lanes (s.k k) := by rw [hl, hsplit]; simp
    refine ⟨l, mem_activeLanes.1 hlm, by rw [← read_isNan hf]; exact hp, fun j hj hact => ?_, ?_⟩
    · have hjm : j ∈ as ++ l :: bs := by
        rw [← hsplit, ← hl]
        exact mem_activeLanes.2 hact
      rw [hsplit, List.pairwise_append, List.pairwise_cons] at hsort
      obtain ⟨-, ⟨hlb, -⟩, -⟩ := hsort
      have hja : j ∈ as := by
        rcases List.mem_append.1 hjm with h | h
        · exact h
        · rcases List.mem_cons.1 h with rfl | h
          · exact absurd hj (lt_irrefl _)
          · exact absurd (hlb j h) (not_lt.2 hj.le)
      have := hbefore j hja
      rw [read_isNan hf] at this
      simpa using this
    · rw [vrarg_cons s et vd vs2 k hl, hi, if_neg Bool.false_ne_true, hfind]
      rfl

theorem vrarg_pick (hne : activeLanes et.lanes (s.k k) ≠ [])
    (hnan : ¬∃ l, (l < et.lanes ∧ (s.regs.getK k).getLsbD l = true) ∧ et.isInt = false ∧
      isNan (etFmt et) (laneOf et (s.regs.getV vs2) l) = true) :
    let a := laneOf et (s.regs.getV vs2)
    let act (l : Nat) : Prop := l < et.lanes ∧ (s.regs.getK k).getLsbD l = true
    let less (x y : Nat) : Prop := if et.isInt then signed et.width x < signed et.width y else below (etFmt et) x y
    ∃ l, act l ∧ exec (.vrarg et vd vs2 k) s = writeV s vd (lowVec l, nanFlag s et vs2 k) ∧
      (∀ j, act j → ¬less (a l) (a j)) ∧ ∀ j < l, act j → less (a j) (a l) := by
  intro a act less
  have hf := etFmt_usable et
  have hsort := activeLanes_pairwise et.lanes (s.k k)
  cases hl : activeLanes et.lanes (s.k k) with
  | nil => exact absurd hl hne
  | cons i rest =>
    have hmem {l : Nat} : l ∈ i :: rest ↔ act l := by rw [← hl]; exact mem_activeLanes
    rw [hl] at hsort
    rw [vrarg_cons s et vd vs2 k hl]
    cases hi : et.isInt
    · have hnum {l : Nat} (hm : act l) : isNan (etFmt et) (a l) = false := by
        rw [Bool.eq_false_iff]
        exact fun h => hnan ⟨l, hm, hi, h⟩
      have hfind : ((i :: rest).find? fun j => ((etFmt et).read (a j)).isNan) = none := by
        rw [List.find?_eq_none]
        intro j hj
        rw [read_isNan hf, hnum (hmem.1 hj)]
        exact Bool.false_ne_true
      obtain ⟨hr, hall⟩ := argMax_spec (et := et) (x := a) (key := fun j => lineKey (etFmt et) (a j)) rest i hsort
        fun u hu v hv => laneLess_flt et hi (hnum (hmem.1 hu)) (hnum (hmem.1 hv))
      have hless (x y : Nat) : less x y ↔ lineKey (etFmt et) x < lineKey (etFmt et) y := by
        show (if et.isInt = true then _ else _) ↔ _
        rw [hi, if_neg Bool.false_ne_true, below_iff_lineKey]
      refine ⟨_, hmem.1 hr, ?_, fun j hj => ?_, fun j hlt hj => ?_⟩
      · rw [if_neg Bool.false_ne_true, hfind]
        rfl
      · rw [hless]
        exact not_lt.2 (hall j (hmem.2 hj)).1
      · rw [hless]
        exact (hall j (hmem.2 hj)).2 hlt
    · obtain ⟨hr, hall⟩ := argMax_spec (et := et) (x := a) (key := fun j => signed et.width (a j)) rest i hsort
        fun u _ v _ => laneLess_int et hi (laneOf_lt _ _ _) (laneOf_lt _ _ _)
      have hless (x y : Nat) : less x y ↔ signed et.width x < signed et.width y := by
        show (if et.isInt = true then _ else _) ↔ _
        rw [if_pos hi]
      refine ⟨_, hmem.1 hr, ?_, fun j hj => ?_, fun j hlt hj => ?_⟩
      · rw [if_pos rfl]
      · rw [hless]
        exact not_lt.2 (hall j (hmem.2 hj)).1
      · rw [hless]
        exact (hall j (hmem.2 hj)).2 hlt

/-! ### Integer sums and one bits (R229) -/

theorem vrsum_int (h : et.isInt = true) : exec (.vrsum et vd vs2 k) s = writeV s vd (lowVec
    (((activeLanes et.lanes (s.k k)).map (laneOf et (s.regs.getV vs2))).sum % 2 ^ et.width), 0) := by
  show execVrsum et vd vs2 k s = _
  rw [execVrsum, if_pos h, foldl_add_eq, Nat.zero_add, lanes_eq]

theorem vrpopc_counts : exec (.vrpopc et vd vs2 k) s = writeV s vd (lowVec
    (((activeLanes et.lanes (s.k k)).map fun l =>
      (List.range et.width).countP fun j => (laneOf et (s.regs.getV vs2) l).testBit j).sum), 0) := by
  have hw : et.width ≤ 64 := by cases et <;> decide
  show execVrpopc et vd vs2 k s = _
  rw [execVrpopc, foldl_add_eq, Nat.zero_add, lanes_eq]
  simp only [popWord_eq hw (laneOf_lt et _ _)]

end

end Sys2Proof.Machine
end

section
/-! PROOF. Sums over the fixed tree (R53, R229). -/

set_option Elab.async false

namespace Sys2Proof.Machine
open Sys2Proof.Claims

/-! ### What the scalar instructions give (R135) -/

section
variable {opS opD : GReg → GReg → GReg → Instr} {F : FVal → FVal → FVal → Nat × Flags} (a b c : Nat)

theorem likeScalar32_of (h : ∀ s rd r1 r2,
    exec (opS rd r1 r2) s = fpOut s rd (F (s.fop fmt32 r1) (s.fop fmt32 r2) (s.fop fmt32 rd))) :
    LikeScalar opS opD .f32 a b c (F (read32 a) (read32 b) (read32 c)).1 (F (read32 a) (read32 b) (read32 c)).2 := by
  intro u rd r1 r2 ha hb hc
  refine ⟨fun _ => ?_, fun h => by cases h⟩
  rw [← ha, ← hb, ← hc]
  exact fpGives_of_fpOut (h u rd r1 r2)

theorem likeScalar64_of (h : ∀ s rd r1 r2,
    exec (opD rd r1 r2) s = fpOut s rd (F (s.fop fmt64 r1) (s.fop fmt64 r2) (s.fop fmt64 rd))) :
    LikeScalar opS opD .f64 a b c (F (fmt64.read a) (fmt64.read b) (fmt64.read c)).1
      (F (fmt64.read a) (fmt64.read b) (fmt64.read c)).2 := by
  intro u rd r1 r2 ha hb hc
  refine ⟨fun h => (by cases h), fun _ => ?_⟩
  rw [← ha, ← hb, ← hc]
  exact fpGives_of_fpOut (h u rd r1 r2)

end

/-! ### The fixed tree (R53) -/

section
variable {f : Fmt}

theorem addPart_flags (a b : Part) (fl : Flags) :
    addPart f a b fl = ((addPart f a b 0).1, orF fl (addPart f a b 0).2) := by
  cases a <;> cases b <;> simp [addPart, orF]

theorem testBit_orF (a b : Flags) (j : Nat) :
    (orF a b).testBit j = true ↔ a.testBit j = true ∨ b.testBit j = true := by
  rw [orF, Nat.testBit_or, Bool.or_eq_true]

theorem treeLevel_spec : ∀ (m : Nat) (ps : List Part) (fl : Flags), ps.length = 2 * m →
    (treeLevel f ps fl).1.length = m ∧
    (∀ l < m, (treeLevel f ps fl).1.getD l none = (addPart f (ps.getD (2 * l) none) (ps.getD (2 * l + 1) none) 0).1) ∧
    ∀ j, (treeLevel f ps fl).2.testBit j = true ↔ fl.testBit j = true ∨
      ∃ l < m, (addPart f (ps.getD (2 * l) none) (ps.getD (2 * l + 1) none) 0).2.testBit j = true
  | 0, [], fl, _ => by simp [treeLevel]
  | m + 1, a :: b :: rest, fl, h => by
    obtain ⟨h1, h2, h3⟩ := treeLevel_spec m rest (orF fl (addPart f a b 0).2) (by simpa [Nat.mul_succ] using h)
    rw [treeLevel, addPart_flags]
    dsimp only
    refine ⟨by rw [List.length_cons, h1], fun l hl => ?_, fun j => ?_⟩
    · cases l with
      | zero => rfl
      | succ l => exact h2 l (by omega)
    · rw [h3, testBit_orF, or_assoc]
      refine or_congr_right ⟨?_, ?_⟩
      · rintro (h | ⟨l, hl, h⟩)
        · exact ⟨0, by omega, h⟩
        · exact ⟨l + 1, by omega, h⟩
      · rintro ⟨l, hl, h⟩
        cases l with
        | zero => exact .inl h
        | succ l => exact .inr ⟨l, by omega, h⟩

/-- What a level does with two neighbours. -/
theorem addPart_match {adds : Nat → Nat → Nat → Nat → Prop}
    (hadds : ∀ x y, adds x y (f.addF (f.read x) (f.read y)).1 (f.addF (f.read x) (f.read y)).2) (a b : Part) :
    match a, b with
    | none, y => (addPart f a b 0).1 = y ∧ (addPart f a b 0).2 = 0
    | some x, none => (addPart f a b 0).1 = some x ∧ (addPart f a b 0).2 = 0
    | some x, some y => ∃ z, (addPart f a b 0).1 = some z ∧ adds x y z (addPart f a b 0).2 := by
  cases a with
  | none => simp [addPart]
  | some x =>
    cases b with
    | none => simp [addPart]
    | some y =>
      have h0 : (addPart f (some x) (some y) 0).2 = (f.addF (f.read x) (f.read y)).2 := zero_orF _
      refine ⟨_, rfl, ?_⟩
      rw [h0]
      exact hadds x y

/-- The model's tree is the statement's. -/
theorem treeSum_spec {adds : Nat → Nat → Nat → Nat → Prop}
    (hadds : ∀ x y, adds x y (f.addF (f.read x) (f.read y)).1 (f.addF (f.read x) (f.read y)).2) :
    ∀ (n : Nat) (ps : List Part) (fl : Flags) (p : Nat → Option Nat), ps.length = 2 ^ n →
      (∀ l < 2 ^ n, p l = ps.getD l none) →
      ∃ r g, TreeSum adds n p r g ∧ (treeSum f n ps fl).1 = r.getD 0 ∧ (treeSum f n ps fl).2 = orF fl g
  | 0, ps, fl, p, hlen, hp => by
    refine ⟨p 0, 0, ⟨rfl, rfl⟩, ?_, by simp [treeSum, orF]⟩
    rw [hp 0 (by norm_num), treeSum]
    cases ps <;> rfl
  | n + 1, ps, fl, p, hlen, hp => by
    rw [pow_succ, Nat.mul_comm] at hlen
    have hp2 (l : Nat) (hl : l < 2 ^ n) : p (2 * l) = ps.getD (2 * l) none ∧ p (2 * l + 1) = ps.getD (2 * l + 1) none :=
      ⟨hp _ (by rw [pow_succ]; omega), hp _ (by rw [pow_succ]; omega)⟩
    obtain ⟨h1, h2, h3⟩ := treeLevel_spec (f := f) (2 ^ n) ps fl hlen
    obtain ⟨-, -, h3'⟩ := treeLevel_spec (f := f) (2 ^ n) ps 0 hlen
    obtain ⟨r, rest, htree, hval, hfl⟩ := treeSum_spec hadds n (treeLevel f ps fl).1 (treeLevel f ps fl).2
      (fun l => (treeLevel f ps fl).1.getD l none) h1 fun l _ => rfl
    have hbits (j : Nat) : (treeLevel f ps 0).2.testBit j = true ↔
        ∃ l < 2 ^ n, (addPart f (ps.getD (2 * l) none) (ps.getD (2 * l + 1) none) 0).2.testBit j = true := by
      rw [h3' j]
      simp
    refine ⟨r, orF rest (treeLevel f ps 0).2,
      ⟨_, fun l => (addPart f (ps.getD (2 * l) none) (ps.getD (2 * l + 1) none) 0).2, rest, fun l hl => ?_, htree,
        fun j => by rw [testBit_orF, hbits]⟩, hval, ?_⟩
    · rw [h2 l hl, (hp2 l hl).1, (hp2 l hl).2]
      exact addPart_match hadds _ _
    · rw [treeSum]
      refine hfl.trans (Nat.eq_of_testBit_eq fun j => ?_)
      rw [Bool.eq_iff_iff, testBit_orF, testBit_orF, testBit_orF, hbits, h3, or_assoc, or_comm (a := rest.testBit j = true)]

theorem Fmt.finish_lt (hf : f.Usable) (r : FVal × Flags) : (f.finish r).1 < 2 ^ (f.prec + f.ebits) := Fmt.pack_lt hf r.1

theorem treeLevel_lt (hf : f.Usable) : ∀ (ps : List Part) (fl : Flags), (∀ x, some x ∈ ps → x < 2 ^ (f.prec + f.ebits)) →
    ∀ x, some x ∈ (treeLevel f ps fl).1 → x < 2 ^ (f.prec + f.ebits)
  | [], _, _ => by simp [treeLevel]
  | [_], _, h => by simpa [treeLevel] using h
  | a :: b :: rest, fl, h => by
    intro x hx
    rw [treeLevel, addPart_flags] at hx
    rcases List.mem_cons.1 hx with hx | hx
    · cases a with
      | none => exact h x (by rw [hx]; simp [addPart])
      | some u =>
        cases b with
        | none => exact h x (by rw [hx]; simp [addPart])
        | some v =>
          rw [Option.some.inj hx]
          exact Fmt.finish_lt hf _
    · exact treeLevel_lt hf rest _ (fun y hy => h y (by simp [hy])) x hx

theorem treeSum_lt (hf : f.Usable) : ∀ (n : Nat) (ps : List Part) (fl : Flags),
    (∀ x, some x ∈ ps → x < 2 ^ (f.prec + f.ebits)) → (treeSum f n ps fl).1 < 2 ^ (f.prec + f.ebits)
  | 0, [], _, _ => Nat.two_pow_pos _
  | 0, none :: _, _, _ => Nat.two_pow_pos _
  | 0, some x :: _, _, h => h x (by simp)
  | n + 1, ps, fl, h => by
    rw [treeSum]
    exact treeSum_lt hf n _ _ (treeLevel_lt hf ps fl h)

end

/-! ### VRSUM of floating lanes (R53, R229) -/

section
variable (s : State) (et : ETy) (vd vs2 : VReg) (k : KReg)

/-- The parts of a sum over the lanes. -/
def laneParts : List Part :=
  (List.range et.lanes).map fun l =>
    if (s.regs.getK k).getLsbD l then some (widen et (laneOf et (s.regs.getV vs2) l)) else none

theorem laneParts_getD {l : Nat} (hl : l < et.lanes) : (laneParts s et vs2 k).getD l none =
    if (s.regs.getK k).getLsbD l then some (widen et (laneOf et (s.regs.getV vs2) l)) else none := by
  rw [laneParts, List.getD_eq_getElem?_getD, List.getElem?_map, List.getElem?_range hl]
  rfl

theorem vrsum_flt (h : et.isInt = false) : exec (.vrsum et vd vs2 k) s = writeV s vd
    (lowVec ((etFmt et).pack ((sumFmt et).read (treeSum (sumFmt et) (treeDepth et) (laneParts s et vs2 k) 0).1)).1,
      orF (treeSum (sumFmt et) (treeDepth et) (laneParts s et vs2 k) 0).2
        ((etFmt et).pack ((sumFmt et).read (treeSum (sumFmt et) (treeDepth et) (laneParts s et vs2 k) 0).1)).2) := by
  show execVrsum et vd vs2 k s = _
  rw [execVrsum, h, if_neg Bool.false_ne_true, lanes_eq]
  rfl

theorem laneParts_length : (laneParts s et vs2 k).length = et.lanes := by rw [laneParts, List.length_map, List.length_range]

theorem laneParts_lt (h : et.isInt = false) :
    ∀ x, some x ∈ laneParts s et vs2 k → x < 2 ^ ((sumFmt et).prec + (sumFmt et).ebits) := by
  intro x hx
  obtain ⟨l, -, hl⟩ := List.mem_map.1 hx
  split at hl
  · rw [← Option.some.inj hl]
    have := laneOf_lt et (s.regs.getV vs2) l
    generalize laneOf et (s.regs.getV vs2) l = y at this
    cases et
    case f32 | f64 => exact this
    case bf16 =>
      have : y < 2 ^ 16 := this
      show y * 2 ^ 16 < 2 ^ 32
      omega
    all_goals cases h
  · cases hl

theorem sumFmt_usable (et : ETy) : (sumFmt et).Usable := by
  rw [sumFmt]
  split
  · exact Fmt.usable64
  · exact Fmt.usable32

theorem vrsum_sums (het : et = .f32 ∨ et = .f64) : ∃ r fl x g,
    exec (.vrsum et vd vs2 k) s = writeV s vd (lowVec x, fl ||| g) ∧
    TreeSum (fun x y z g => ∀ c, LikeScalar .faddS .faddD et x y c z g) (if et = .f32 then 4 else 3)
      (fun l => if (s.regs.getK k).getLsbD l then some (id (laneOf et (s.regs.getV vs2) l)) else none) r fl ∧
    (isNan (etFmt et) (r.getD 0) = true →
      x = quietNan (etFmt et) ∧ g = if isSignalling (etFmt et) (r.getD 0) then 16 else 0) ∧
    (isNan (etFmt et) (r.getD 0) = false → x = r.getD 0 ∧ g = 0) := by
  have hi : et.isInt = false := by rcases het with rfl | rfl <;> rfl
  have hsum : sumFmt et = etFmt et := by rcases het with rfl | rfl <;> rfl
  have hdepth : treeDepth et = if et = .f32 then 4 else 3 := by rcases het with rfl | rfl <;> rfl
  have hlanes : et.lanes = 2 ^ treeDepth et := by rcases het with rfl | rfl <;> rfl
  have hwiden (x : Nat) : widen et x = x := by rcases het with rfl | rfl <;> rfl
  have hf := etFmt_usable et
  have hadds (x y : Nat) : ∀ c, LikeScalar .faddS .faddD et x y c
      ((etFmt et).addF ((etFmt et).read x) ((etFmt et).read y)).1
      ((etFmt et).addF ((etFmt et).read x) ((etFmt et).read y)).2 := by
    intro c
    rcases het with rfl | rfl
    · exact likeScalar32_of (F := fun u v _ => fmt32.addF u v) x y c fun _ _ _ _ => rfl
    · exact likeScalar64_of (F := fun u v _ => fmt64.addF u v) x y c fun _ _ _ _ => rfl
  obtain ⟨r, fl, htree, hval, hfl⟩ := treeSum_spec (adds := fun x y z g => ∀ c, LikeScalar .faddS .faddD et x y c z g) hadds
    (treeDepth et) (laneParts s et vs2 k) 0
    (fun l => if (s.regs.getK k).getLsbD l then some (id (laneOf et (s.regs.getV vs2) l)) else none)
    ((laneParts_length s et vs2 k).trans hlanes) fun l hl => by
      rw [laneParts_getD s et vs2 k (hlanes ▸ hl), hwiden]
      rfl
  have hlt := treeSum_lt (sumFmt_usable et) (treeDepth et) _ 0 (laneParts_lt s et vs2 k hi)
  rw [hsum, hval] at hlt
  have hx := vrsum_flt s et vd vs2 k hi
  rw [hsum, hval, hfl, zero_orF] at hx
  rw [hdepth] at htree
  refine ⟨r, fl, _, _, hx, htree, fun h => ?_, fun h => ?_⟩
  · rw [read_nan hf h, quietNan_eq]
    exact ⟨rfl, rfl⟩
  · rw [Fmt.pack_read_self hf hlt h]
    exact ⟨rfl, rfl⟩

theorem vrsum_bf16 : ∃ r fl x g,
    exec (.vrsum .bf16 vd vs2 k) s = writeV s vd (lowVec x, fl ||| g) ∧
    TreeSum (Scalar32 .faddS) 5
      (fun l => if (s.regs.getK k).getLsbD l then some (laneOf .bf16 (s.regs.getV vs2) l * 2 ^ 16) else none) r fl ∧
    ∀ (u : State) (rd rs : GReg), (u.regs.get rs).toNat % 2 ^ 32 = r.getD 0 → FpGives (.fcvtbfS rd rs) u rd x g := by
  have hadds (x y : Nat) : Scalar32 .faddS x y (fmt32.addF (fmt32.read x) (fmt32.read y)).1
      (fmt32.addF (fmt32.read x) (fmt32.read y)).2 := fun c =>
    likeScalar32_of (F := fun u v _ => fmt32.addF u v) x y c fun _ _ _ _ => rfl
  obtain ⟨r, fl, htree, hval, hfl⟩ := treeSum_spec (adds := Scalar32 .faddS) hadds 5 (laneParts s .bf16 vs2 k) 0
    (fun l => if (s.regs.getK k).getLsbD l then some (laneOf .bf16 (s.regs.getV vs2) l * 2 ^ 16) else none)
    (laneParts_length s .bf16 vs2 k) fun l hl => by
      rw [laneParts_getD s .bf16 vs2 k hl]
      rfl
  have hx := vrsum_flt s .bf16 vd vs2 k rfl
  have hsum : treeSum (sumFmt .bf16) (treeDepth .bf16) (laneParts s .bf16 vs2 k) 0 =
      treeSum fmt32 5 (laneParts s .bf16 vs2 k) 0 := rfl
  rw [hsum, hval, hfl, zero_orF] at hx
  refine ⟨r, fl, _, _, hx, htree, fun u rd rs hu => ?_⟩
  rw [← hu]
  exact fpGives_of_fpOut (i := .fcvtbfS rd rs) (r := fmtBf.pack (u.fop fmt32 rs)) rfl

end

end Sys2Proof.Machine
end

section
/-! PROOF. Loads of own places (R113, R118, R120, R463), and the read signature that they leave. -/

set_option Elab.async false

namespace Sys2Proof.Machine
open Sys2Proof.Claims

/-! ### Bytes of a number -/

theorem ofBytes_div (bs : List Byte) : ∀ i, ofBytes bs / 256 ^ i % 256 = (bs.getD i 0).toNat := by
  induction bs with
  | nil => intro i; simp [ofBytes]
  | cons b bs ih =>
    intro i
    have hb : b.toNat < 256 := b.isLt
    cases i with
    | zero =>
      rw [pow_zero, Nat.div_one, ofBytes, Nat.add_mul_mod_self_left, Nat.mod_eq_of_lt hb]
      rfl
    | succ i =>
      rw [pow_succ', ← Nat.div_div_eq_div_mul, ofBytes, Nat.add_mul_div_left _ _ (by norm_num), Nat.div_eq_of_lt hb,
        Nat.zero_add, ih]
      rfl

theorem ofBytes_lt (bs : List Byte) : ofBytes bs < 256 ^ bs.length := by
  induction bs with
  | nil => simp [ofBytes]
  | cons b bs ih =>
    have hb : b.toNat < 256 := b.isLt
    rw [ofBytes, List.length_cons, pow_succ']
    omega

/-! ### The read signature -/

/-- The state whose chunk has a read signature. -/
def State.withReads (s : State) (sig : BitVec 1024) : State :=
  s.setCx { s.cx with chunk := { s.cx.chunk with rsig := sig } }

section
variable (s : State) (y : Ctx) (sig : BitVec 1024)

theorem State.setCx_me : (s.setCx y).me = s.me.putCtx s.focus.2 y := by
  simp [State.me, State.setCx, State.putCtx, State.modCore]

@[simp] theorem State.setCx_cx : (s.setCx y).cx = y := by
  simp [State.cx, State.ctx, State.setCx, State.putCtx, State.modCore]

@[simp] theorem State.setCx_setCx (z : Ctx) : (s.setCx y).setCx z = s.setCx z := by
  have h (t : State) (y : Ctx) : t.setCx y = t.putCore t.focus.1 (t.me.putCtx t.focus.2 y) := rfl
  rw [h (s.setCx y), State.setCx_me, h s z, h s y]
  simp [State.putCore, Core.putCtx]

theorem State.setRegs_eq_setCx (r : Regs) : s.setRegs r = s.setCx { s.cx with regs := r } := rfl

@[simp] theorem State.withReads_focus : (s.withReads sig).focus = s.focus := rfl
@[simp] theorem State.withReads_mem : (s.withReads sig).mem = s.mem := rfl
@[simp] theorem State.withReads_cx :
    (s.withReads sig).cx = { s.cx with chunk := { s.cx.chunk with rsig := sig } } := State.setCx_cx ..
@[simp] theorem State.withReads_withReads (sig' : BitVec 1024) : (s.withReads sig).withReads sig' = s.withReads sig' := by
  rw [State.withReads, State.withReads_cx, State.withReads, State.setCx_setCx]
  rfl
theorem State.withReads_core_other {c : Nat} (h : c ≠ s.focus.1) : (s.withReads sig).core c = s.core c :=
  State.core_putCore_other _ _ _ _ h

theorem State.withReads_core_self : (s.withReads sig).core s.focus.1 =
    s.me.putCtx s.focus.2 { s.cx with chunk := { s.cx.chunk with rsig := sig } } := State.setCx_me ..

@[simp] theorem State.withReads_bank (c : Nat) : (s.withReads sig).bank c = s.bank c := by
  by_cases h : c = s.focus.1
  · subst h
    rw [State.bank, State.withReads_core_self]
    rfl
  · rw [State.bank, State.withReads_core_other s sig h, State.bank]

theorem State.withReads_owed (c : Nat) : ((s.withReads sig).core c).owed = (s.core c).owed := by
  by_cases h : c = s.focus.1
  · subst h
    rw [State.withReads_core_self]
    rfl
  · rw [State.withReads_core_other s sig h]

theorem State.withReads_localFor (c m : Nat) : (s.withReads sig).localFor c m = s.localFor c m := by
  rw [State.localFor, State.localFor, State.withReads_bank]
  rfl

/-- More reads of a chunk hold no access back that was not held. -/
theorem State.withReads_held {p : Place} {va : Word} {n : Nat} {store : Bool}
    (hsub : s.cx.chunk.rsig ||| sig = sig) (h : s.held p va n store = false) :
    (s.withReads sig).held p va n store = false := by
  rw [State.held, Bool.or_eq_false_iff] at h ⊢
  refine ⟨?_, ?_⟩
  · rw [← h.1, State.interlocked, State.interlocked]
    simp only [State.withReads_focus, State.withReads_bank, State.withReads_localFor]
    rfl
  · have hfree := h.2
    rw [← Bool.not_eq_true, State.owedHolds, List.any_eq_true] at hfree ⊢
    rintro ⟨o, ho, hp⟩
    rw [State.withReads_focus, State.withReads_owed] at ho
    refine hfree ⟨o, ho, ?_⟩
    simp only [Bool.and_eq_true, decide_eq_true_eq, State.withReads_cx] at hp ⊢
    refine ⟨hp.1, ?_⟩
    have hz := hp.2
    rw [← hsub] at hz
    apply BitVec.eq_of_getLsbD_eq
    intro i hi
    have hbit := congrArg (fun x => x.getLsbD i) hz
    have h0 : (0 : BitVec 1024).getLsbD i = false := BitVec.getLsbD_zero
    simp only [BitVec.getLsbD_and, BitVec.getLsbD_or, h0] at hbit ⊢
    revert hbit
    generalize s.cx.chunk.rsig.getLsbD i = b1
    generalize sig.getLsbD i = b2
    generalize s.cx.chunk.wsig.getLsbD i = b3
    generalize (sigBit p.addr).getLsbD i = b4
    revert b1 b2 b3 b4
    decide

end

/-! ### Own places (R113, R463) -/

section
variable {s : State} {c : Nat}

theorem tcmByte_of_unshared (h : Unshared s c) (off : Nat) : s.tcmByte c off = some (tcmAt c + off) := by
  obtain ⟨hsh, hk⟩ := h
  have hsh : (s.cluster (clusterOf c)).shared = false := hsh
  rw [State.tcmByte]
  dsimp only
  split
  · rw [hsh, if_neg Bool.false_ne_true]
  · next hne =>
    obtain ⟨hb, hn⟩ := hk.resolve_left hne
    rw [hb, hn]
    split
    · congr 1
      omega
    · rw [if_pos (by omega)]
      congr 1
      omega

theorem spadByte_of_unshared (h : Unshared s c) (off : Nat) : s.spadByte c off = some (spadAt (clusterOf c) + off) := by
  have hsh : (s.cluster (clusterOf c)).shared = false := h.1
  rw [State.spadByte, hsh]
  rfl

theorem isControl_of_fabric (h : c < 2 ^ 18) : isControl c = false := by
  rw [isControl, decide_eq_false_iff_not]
  omega

/-- Where a load of an own place leads. -/
theorem reach_of_ownPlace {va : Word} {n a : Nat} (h : OwnPlace s va n a) :
    s.reach s.focus.1 .load va = .place { addr := a, home := none } := by
  obtain ⟨hc, hu, ha, -⟩ := h
  rw [State.reach, State.reachAs, State.asker]
  dsimp only
  rw [isControl_of_fabric hc, if_neg Bool.false_ne_true, State.fabricReach]
  rw [ownAddr] at ha
  dsimp only
  split at ha
  · next hlt =>
    rw [if_pos hlt]
    simp only [Bool.not_true, Bool.false_eq_true, if_false, tcmByte_of_unshared hu]
    rw [← Option.some.inj ha]
    rfl
  · next hge =>
    split at ha
    · next hsp =>
      rw [if_neg hge, if_pos hsp, if_neg (by decide), spadByte_of_unshared hu]
      rw [← Option.some.inj ha]
      rfl
    · cases ha

theorem readFails_own {a n : Nat} (h : ∀ k < n, s.uncorrectableAt (a + k) = false) :
    s.readFails { addr := a, home := none } n = none := by
  have hb : s.badByte a n = none := by
    rw [State.badByte, List.find?_eq_none]
    intro b hb
    obtain ⟨k, hk, rfl⟩ := List.mem_map.1 hb
    rw [h k (List.mem_range.1 hk)]
    exact Bool.false_ne_true
  have hl : s.lineSt { addr := a, home := none } = .good := rfl
  rw [State.readFails, hl, if_neg (by decide), hb]

/-- The bytes of an aligned word as the task sees them. -/
theorem overlay_getD (s : State) (b : Nat) {i : Nat} (hi : i < 8) (hb : b % 8 = 0) :
    (overlay s.cx.chunk.cells b (s.wordAt { addr := b, home := none })).getD i 0 = seen s (b + i) := by
  have hw : BitVec.ofNat 8 ((s.wordAt { addr := b, home := none }).toNat / 256 ^ i) = s.mem.byte (b + i) := by
    have hlt := ofBytes_lt (s.bytesAt { addr := b / 8 * 8, home := none } 8)
    have hbytes : s.bytesAt { addr := b / 8 * 8, home := none } 8 = (List.range 8).map fun j => s.mem.byte (b + j) := by
      rw [State.bytesAt, Nat.div_mul_cancel (Nat.dvd_of_mod_eq_zero hb)]
      rfl
    rw [hbytes, List.length_map, List.length_range] at hlt
    apply BitVec.eq_of_toNat_eq
    rw [BitVec.toNat_ofNat, State.wordAt, hbytes, w64, BitVec.toNat_ofNat, Nat.mod_eq_of_lt (b := 2 ^ 64) hlt]
    refine (ofBytes_div _ i).trans ?_
    rw [List.getD_eq_getElem?_getD, List.getElem?_map, List.getElem?_range hi]
    rfl
  rw [overlay, List.getD_eq_getElem?_getD, List.getElem?_map, List.getElem?_range hi, Option.map_some, Option.getD_some,
    seen, hw]
  cases Tab.look s.cx.chunk.cells (b + i) <;> rfl

theorem seenNum_eq (s : State) : ∀ (n i b : Nat) (bs : List Byte), (∀ j < n, bs.getD (i + j) 0 = seen s (b + j)) →
    i + n ≤ bs.length → ofBytes ((bs.drop i).take n) = seenNum s b n
  | 0, _, _, _, _, _ => by simp [ofBytes, seenNum]
  | n + 1, i, b, bs, h, hlen => by
    have ih := seenNum_eq s n (i + 1) (b + 1) bs (fun j hj => by
      have := h (j + 1) (by omega)
      rwa [show i + (j + 1) = i + 1 + j by omega, show b + (j + 1) = b + 1 + j by omega] at this) (by omega)
    have h0 := h 0 (by omega)
    rw [List.getD_eq_getElem?_getD, Nat.add_zero, List.getElem?_eq_getElem (by omega), Option.getD_some, Nat.add_zero] at h0
    rw [List.drop_eq_getElem_cons (by omega), List.take_succ_cons, ofBytes, ih, h0]
    rfl

/-- A load of an own place that nothing holds back (R118, R120). -/
theorem load_own {va : Word} {n a : Nat} (hn : n ∣ 8) (h : ElementMay s va n a false) :
    s.load va n = .ok (seenNum s a n, s.withReads (s.cx.chunk.rsig ||| sigBit a)) := by
  obtain ⟨hown, hheld, -⟩ := h
  have hreach := reach_of_ownPlace hown
  obtain ⟨hc, hu, ha, hal, hunc⟩ := hown
  have hctl : s.ctl = false := isControl_of_fabric hc
  have hfind : s.find s.focus.1 .load va =
      (.ok { place := { addr := a, home := none }, translated := false, lg := false }, s) := by
    rw [State.find, State.findAs]
    have : s.reachAs (s.asker s.focus.1) .load va = .place { addr := a, home := none } := hreach
    rw [this]
  have htrap : s.dataTrap { place := { addr := a, home := none }, translated := false, lg := false } va n = none := by
    rw [State.dataTrap, readFails_own hunc]
    rfl
  have hmod : a % 8 = va.toNat % 8 := by
    rw [ownAddr] at ha
    split at ha
    · rw [← Option.some.inj ha]; omega
    · split at ha
      · rw [← Option.some.inj ha]; omega
      · cases ha
  have hwait : (decide (regionOf a = .tcm) && s.held { addr := a, home := none } va n false) = false := by
    by_cases hva : va.toNat < 2 ^ 18
    · rw [hheld hva, Bool.and_false]
    · have : regionOf a ≠ .tcm := by
        rw [ownAddr, if_neg hva] at ha
        split at ha
        · rw [← Option.some.inj ha, regionOf]
          rw [if_neg (by omega), if_neg (by omega), if_neg (by omega)]
          decide
        · cases ha
      rw [decide_eq_false this, Bool.false_and]
  have hread : s.readPlace { place := { addr := a, home := none }, translated := false, lg := false } n =
      (seenNum s a n, s.withReads (s.cx.chunk.rsig ||| sigBit a)) := by
    have hfit : a % 8 + n ≤ 8 := by
      obtain ⟨q, hq⟩ := hn
      have : n ∣ va.toNat % 8 := (Nat.dvd_mod_iff ⟨q, hq⟩).2 (Nat.dvd_of_mod_eq_zero hal)
      obtain ⟨r, hr⟩ := this
      have hlt : va.toNat % 8 < 8 := Nat.mod_lt _ (by norm_num)
      rw [hmod, hr]
      rw [hr, hq] at hlt
      have : r < q := lt_of_mul_lt_mul_left hlt (Nat.zero_le n)
      calc n * r + n = n * (r + 1) := by ring
        _ ≤ n * q := Nat.mul_le_mul_left n this
        _ = 8 := hq.symm
    have hword : s.wordAt { addr := a, home := none } = s.wordAt { addr := a / 8 * 8, home := none } := by
      rw [State.wordAt, State.wordAt]
      dsimp only
      rw [Nat.mul_div_cancel _ (by norm_num)]
    rw [State.readPlace]
    simp only [Bool.false_eq_true, if_false, hctl]
    refine Prod.ext ?_ rfl
    rw [hword]
    refine seenNum_eq s n (a % 8) a _ (fun j hj => ?_) ?_
    · rw [overlay_getD s (a / 8 * 8) (by omega) (by omega)]
      congr 1
      omega
    · rw [overlay, List.length_map, List.length_range]
      exact hfit
  rw [State.load, if_neg (by omega), hfind]
  dsimp only
  rw [htrap]
  dsimp only
  rw [hctl, Bool.not_false, Bool.true_and, hwait, if_neg Bool.false_ne_true]
  have hnote : s.noteUse false false va = s := by
    rw [State.noteUse, hctl]
    rfl
  rw [hnote, hread]

end

end Sys2Proof.Machine
end

section
/-! PROOF. The elements of a row (R226, R230), and its sums in the row's order (R53). -/

set_option Elab.async false

namespace Sys2Proof.Machine
open Sys2Proof.Claims

/-! ### The elements of a row (R226, R230) -/

/-- A read signature after reads of the places of some elements. -/
def readSig (place : Nat → Nat) (es : List Nat) (sig : BitVec 1024) : BitVec 1024 :=
  es.foldl (fun sig e => sig ||| sigBit (place e)) sig

theorem getLsbD_readSig (place : Nat → Nat) (j : Nat) : ∀ (es : List Nat) (sig : BitVec 1024),
    (readSig place es sig).getLsbD j = true ↔ sig.getLsbD j = true ∨ ∃ e ∈ es, (sigBit (place e)).getLsbD j = true
  | [], sig => by simp [readSig]
  | e :: es, sig => by
    have ih := getLsbD_readSig place j es (sig ||| sigBit (place e))
    rw [readSig] at ih ⊢
    rw [List.foldl_cons, ih, BitVec.getLsbD_or, Bool.or_eq_true, or_assoc]
    simp

section
variable {s : State} {sig : BitVec 1024}

theorem elementMay_withReads {va : Word} {n a : Nat} (hsub : s.cx.chunk.rsig ||| sig = sig) (h : ElementMay s va n a false) :
    ElementMay (s.withReads sig) va n a false := by
  obtain ⟨⟨hc, ⟨hsh, hk⟩, ha, hal, hu⟩, hheld, -⟩ := h
  refine ⟨⟨hc, ⟨hsh, ?_⟩, ha, hal, hu⟩, fun hva => State.withReads_held s sig hsub (hheld hva), fun h => by cases h⟩
  rw [State.withReads_focus, State.withReads_bank]
  exact hk

theorem seen_withReads (a : Nat) : seen (s.withReads sig) a = seen s a := by
  rw [seen, seen, State.withReads_cx, State.withReads_mem]

theorem seenNum_withReads : ∀ (n a : Nat), seenNum (s.withReads sig) a n = seenNum s a n
  | 0, _ => rfl
  | n + 1, a => by rw [seenNum, seenNum, seen_withReads, seenNum_withReads n]

theorem seenNum_lt (s : State) : ∀ (n a : Nat), seenNum s a n < 256 ^ n
  | 0, _ => by simp [seenNum]
  | n + 1, a => by
    have := seenNum_lt s n (a + 1)
    have hb : (seen s a).toNat < 256 := (seen s a).isLt
    rw [seenNum, pow_succ']
    omega

theorem or_mono {a b c : BitVec 1024} (h : a ||| b = b) : a ||| (b ||| c) = b ||| c := by rw [← BitVec.or_assoc, h]

variable {n : Nat} {addr : Nat → Word} {place : Nat → Nat}

theorem loadElems_withReads (hn : n ∣ 8) : ∀ (es : List Nat) (sig : BitVec 1024), s.cx.chunk.rsig ||| sig = sig →
    (∀ e ∈ es, ElementMay s (addr e) n (place e) false) →
    (s.withReads sig).loadElems n (es.map fun e => (e, addr e)) =
      .ok (es.map fun e => (e, seenNum s (place e) n), s.withReads (readSig place es sig))
  | [], _, _, _ => rfl
  | e :: es, sig, hsub, h => by
    have hload := load_own hn (elementMay_withReads hsub (h e (by simp)))
    rw [State.withReads_withReads, State.withReads_cx, seenNum_withReads] at hload
    have ih := loadElems_withReads hn es (sig ||| sigBit (place e)) (or_mono hsub) fun e he => h e (by simp [he])
    rw [List.map_cons, State.loadElems, hload, Ans.bind]
    dsimp only
    rw [ih]
    rfl

/-- Elements of own places that nothing holds back are read, in one chunk. -/
theorem loadElems_own (hn : n ∣ 8) {es : List Nat} (hne : es ≠ []) (h : ∀ e ∈ es, ElementMay s (addr e) n (place e) false) :
    s.loadElems n (es.map fun e => (e, addr e)) =
      .ok (es.map fun e => (e, seenNum s (place e) n), s.withReads (readSig place es s.cx.chunk.rsig)) := by
  cases es with
  | nil => exact absurd rfl hne
  | cons e es =>
    have hsub : s.cx.chunk.rsig ||| s.cx.chunk.rsig = s.cx.chunk.rsig := BitVec.or_self
    have ih := loadElems_withReads hn es (s.cx.chunk.rsig ||| sigBit (place e)) (or_mono hsub)
      fun e he => h e (by simp [he])
    rw [List.map_cons, State.loadElems, load_own hn (h e (by simp)), Ans.bind]
    dsimp only
    rw [ih]
    rfl

end

/-! ### Row sums (R53, R55) -/

/-- The partial sum of an element's lane behind it, and the flags of the step that made it. -/
def rowAt (step : Part → Nat → Nat × Flags) (d : Nat → Nat) (e : Nat) : Nat × Flags :=
  if e < 16 then step none (d e) else step (some (rowAt step d (e - 16)).1) (d e)
termination_by e

/-- The partial sums of the 16 lanes behind the first e elements. -/
def rowLanes (step : Part → Nat → Nat × Flags) (d : Nat → Nat) (e : Nat) : List Part :=
  (List.range 16).map fun l => if l < e then some (rowAt step d (l + (e - 1 - l) / 16 * 16)).1 else none

section
variable {step : Part → Nat → Nat × Flags} {d : Nat → Nat}

theorem rowAt_of_lt {e : Nat} (h : e < 16) : rowAt step d e = step none (d e) := by rw [rowAt, if_pos h]

theorem rowAt_of_ge {e : Nat} (h : ¬e < 16) : rowAt step d e = step (some (rowAt step d (e - 16)).1) (d e) := by
  rw [rowAt, if_neg h]

theorem rowLanes_length (e : Nat) : (rowLanes step d e).length = 16 := by rw [rowLanes, List.length_map, List.length_range]

theorem rowLanes_getD (e : Nat) {l : Nat} (hl : l < 16) : (rowLanes step d e).getD l none =
    if l < e then some (rowAt step d (l + (e - 1 - l) / 16 * 16)).1 else none := by
  rw [rowLanes, List.getD_eq_getElem?_getD, List.getElem?_map, List.getElem?_range hl]
  rfl

theorem rowLanes_getElem (e : Nat) {l : Nat} (hl : l < (rowLanes step d e).length) : (rowLanes step d e)[l] =
    if l < e then some (rowAt step d (l + (e - 1 - l) / 16 * 16)).1 else none := by
  simp [rowLanes]

/-- The next element's step, on its lane's part. -/
theorem rowAt_eq (e : Nat) : rowAt step d e = step ((rowLanes step d e).getD (e % 16) none) (d e) := by
  rw [rowLanes_getD e (Nat.mod_lt _ (by norm_num))]
  by_cases h : e < 16
  · rw [rowAt_of_lt h, if_neg (by omega)]
  · rw [rowAt_of_ge h, if_pos (by omega)]
    congr 4
    omega

theorem rowLanes_succ (e : Nat) : (rowLanes step d e).set (e % 16) (some (rowAt step d e).1) = rowLanes step d (e + 1) := by
  refine List.ext_getElem (by rw [List.length_set, rowLanes_length, rowLanes_length]) fun l h1 h2 => ?_
  rw [rowLanes_length] at h2
  rw [List.getElem_set, rowLanes_getElem, rowLanes_getElem]
  by_cases hl : e % 16 = l
  · rw [if_pos hl, if_pos (by omega)]
    congr 3
    omega
  · rw [if_neg hl]
    by_cases hlt : l < e
    · rw [if_pos hlt, if_pos (by omega)]
      congr 3
      omega
    · rw [if_neg hlt, if_neg (by omega)]

theorem rowParts_spec : ∀ (xs : List Nat) (e : Nat) (fl : Flags), (∀ i < xs.length, xs.getD i 0 = d (e + i)) →
    (rowParts step xs e (rowLanes step d e) fl).1 = rowLanes step d (e + xs.length) ∧
    ∀ j, (rowParts step xs e (rowLanes step d e) fl).2.testBit j = true ↔ fl.testBit j = true ∨
      ∃ i < xs.length, (rowAt step d (e + i)).2.testBit j = true
  | [], e, fl, _ => by simp [rowParts]
  | x :: xs, e, fl, h => by
    have hx : x = d e := h 0 (by simp)
    obtain ⟨h1, h2⟩ := rowParts_spec xs (e + 1) (orF fl (rowAt step d e).2) fun i hi => by
      have := h (i + 1) (by simpa using hi)
      rwa [show e + (i + 1) = e + 1 + i by omega] at this
    rw [rowParts]
    dsimp only
    rw [hx, ← rowAt_eq (step := step) (d := d) e, rowLanes_succ]
    refine ⟨?_, fun j => ?_⟩
    · rw [h1, List.length_cons]
      congr 1
      omega
    · rw [h2, testBit_orF, or_assoc]
      refine or_congr_right ⟨?_, ?_⟩
      · rintro (h | ⟨i, hi, h⟩)
        · exact ⟨0, by simp, h⟩
        · exact ⟨i + 1, by simpa using hi, by rwa [show e + (i + 1) = e + 1 + i by omega]⟩
      · rintro ⟨i, hi, h⟩
        cases i with
        | zero => exact .inl h
        | succ i => exact .inr ⟨i, by simpa using hi, by rwa [show e + (i + 1) = e + 1 + i by omega] at h⟩

theorem addF_scalar32 (x y : Nat) : Scalar32 .faddS x y (fmt32.addF (fmt32.read x) (fmt32.read y)).1
    (fmt32.addF (fmt32.read x) (fmt32.read y)).2 := fun c =>
  likeScalar32_of (F := fun u v _ => fmt32.addF u v) x y c fun _ _ _ _ => rfl
theorem subF_scalar32 (x y : Nat) : Scalar32 .fsubS x y (fmt32.subF (fmt32.read x) (fmt32.read y)).1
    (fmt32.subF (fmt32.read x) (fmt32.read y)).2 := fun c =>
  likeScalar32_of (F := fun u v _ => fmt32.subF u v) x y c fun _ _ _ _ => rfl
theorem mulF_scalar32 (x y : Nat) : Scalar32 .fmulS x y (fmt32.mulF (fmt32.read x) (fmt32.read y)).1
    (fmt32.mulF (fmt32.read x) (fmt32.read y)).2 := fun c =>
  likeScalar32_of (F := fun u v _ => fmt32.mulF u v) x y c fun _ _ _ _ => rfl
theorem divF_scalar32 (x y : Nat) : Scalar32 .fdivS x y (fmt32.divF (fmt32.read x) (fmt32.read y)).1
    (fmt32.divF (fmt32.read x) (fmt32.read y)).2 := fun c =>
  likeScalar32_of (F := fun u v _ => fmt32.divF u v) x y c fun _ _ _ _ => rfl
theorem fmaF_likeScalar (x y z : Nat) : LikeScalar .fmaS .fmaS .f32 x y z
    (fmt32.fmaF (fmt32.read x) (fmt32.read y) (fmt32.read z)).1 (fmt32.fmaF (fmt32.read x) (fmt32.read y) (fmt32.read z)).2 :=
  likeScalar32_of (F := fun u v w => fmt32.fmaF u v w) x y z fun _ _ _ _ => rfl

theorem rowSum_spec {first : Nat → Nat → Nat → Prop} {next : Nat → Nat → Nat → Nat → Prop}
    (hfirst : ∀ y, first y (step none y).1 (step none y).2)
    (hnext : ∀ q y, next q y (step (some q) y).1 (step (some q) y).2) {len : Nat} {xs : List Nat} (hlen : xs.length = len)
    (hxs : ∀ i < len, xs.getD i 0 = d i) (fl : Flags) :
    ∃ g, RowSum first next len d (rowSum step xs fl).1 g ∧ (rowSum step xs fl).2 = orF fl g := by
  have hnil : List.replicate 16 (none : Part) = rowLanes step d 0 := rfl
  have hxs' : ∀ i < xs.length, xs.getD i 0 = d (0 + i) := fun i hi => by rw [Nat.zero_add]; exact hxs i (hlen ▸ hi)
  obtain ⟨h1, h2⟩ := rowParts_spec (step := step) xs 0 fl hxs'
  obtain ⟨-, h2'⟩ := rowParts_spec (step := step) xs 0 0 hxs'
  rw [Nat.zero_add, hlen] at h1
  simp only [hlen, Nat.zero_add] at h2 h2'
  obtain ⟨o, f, htree, hval, hfl⟩ := treeSum_spec (adds := Scalar32 .faddS) addF_scalar32 4 (rowLanes step d len)
    (rowParts step xs 0 (rowLanes step d 0) fl).2
    (fun l => if l < len then some (rowAt step d (l + (len - 1 - l) / 16 * 16)).1 else none) (rowLanes_length len)
    fun l hl => (rowLanes_getD len hl).symm
  have hsum : rowSum step xs fl = treeSum fmt32 4 (rowLanes step d len) (rowParts step xs 0 (rowLanes step d 0) fl).2 := by
    rw [rowSum, hnil]
    dsimp only
    rw [h1]
  refine ⟨orF f (rowParts step xs 0 (rowLanes step d 0) 0).2,
    ⟨fun e => (rowAt step d e).1, fun e => (rowAt step d e).2, o, f, fun e _ => ?_, htree, ?_, fun j => ?_⟩, ?_⟩
  · dsimp only
    split
    · next h => rw [rowAt_of_lt h]; exact hfirst _
    · next h => rw [rowAt_of_ge h]; exact hnext _ _
  · rw [hsum, hval]
  · rw [testBit_orF, h2']
    simp
  · rw [hsum, hfl]
    refine Nat.eq_of_testBit_eq fun j => ?_
    rw [Bool.eq_iff_iff, testBit_orF, testBit_orF, testBit_orF, h2, h2', or_assoc, or_comm (a := f.testBit j = true)]
    simp

end

end Sys2Proof.Machine
end

section
/-! PROOF. The statistics of a row (R55). -/

set_option Elab.async false

namespace Sys2Proof.Machine
open Sys2Proof.Claims

/-! ### Numbers of one value (R55) -/

section
variable {f : Fmt}

/-- A quotient knows of its divisor the value alone. -/
theorem divF_congr (hf : f.Usable) (u : FVal) {v v' : FVal} {q : Bool} {y : Rat} (hv : v.Exact q y) (hv' : v'.Exact q y)
    (hy : y ≠ 0) : f.divF u v = f.divF u v' := by
  cases u with
  | nan b => rw [FVal.divF_nan f (.inl rfl), FVal.divF_nan f (.inl rfl), sigFlags_eq, sigFlags_eq, hv.sig, hv'.sig]
  | inf n =>
    generalize hy' : y = z at hv hv'
    obtain ⟨_, m, e⟩ := hv
    cases v' with
    | nan b => cases hv'
    | inf b => cases hv'
    | num b m' e' =>
      have : b = q := hv'.neg_eq
      rw [this]
      rfl
  | num n m e =>
    have hu := FVal.Exact.num n m e
    rw [hu.divF_eq hf hv hy, hu.divF_eq hf hv' hy]

/-- A fused sum with +0 knows nothing of the zero's exponent. -/
theorem fmaF_zero (hf : f.Usable) (u v : FVal) (e e' : Int) : f.fmaF u v (.num false 0 e) = f.fmaF u v (.num false 0 e') := by
  rw [fmaF_eq, fmaF_eq]
  generalize u.mul v = p
  obtain ⟨w, fl⟩ := p
  cases w with
  | nan b => rfl
  | inf n => rfl
  | num n m t =>
    have hu := FVal.Exact.num n m t
    have hz (e : Int) : (FVal.num false 0 e).Exact false 0 := by
      have := FVal.Exact.num false 0 e
      simpa using this
    obtain ⟨h1, n1, hn1, hs1⟩ := hu.add (hz e)
    obtain ⟨h2, n2, hn2, hs2⟩ := hu.add (hz e')
    have hn : n1 = n2 := by
      by_cases h0 : sgn n * ((m : Rat) * 2 ^ t) + 0 = 0
      · rw [hs1 h0, hs2 h0]
      · have e1 := hn1.sgn_mul_abs
        rw [← hn2.sgn_mul_abs, abs_mul, abs_sgn, one_mul, abs_abs] at e1
        have := mul_right_cancel₀ (abs_ne_zero.2 h0) e1
        cases n1 <;> cases n2 <;> simp [sgn] at this ⊢ <;> norm_num at this
    have hpack : f.pack ((FVal.num n m t).add (.num false 0 e)).1 = f.pack ((FVal.num n m t).add (.num false 0 e')).1 := by
      rw [hn1.pack_eq hf, hn2.pack_eq hf, hn]
    dsimp only
    rw [Fmt.finish, Fmt.finish, hpack, h1, h2]
    rfl

end

/-- The counts up to 2^24 are binary32 values. -/
theorem exists_f32_natCast {k : Nat} (h1 : 1 ≤ k) (h2 : k ≤ 2 ^ 24) :
    ∃ n < 2 ^ 32, isNegative fmt32 n = false ∧ value fmt32 n = some (k : Rat) := by
  have hf := Fmt.usable32
  have hnormal {m : Nat} {e : Int} (hm : m ≠ 0) (hl : Nat.log2 m ≤ 23) (he : 0 ≤ e) (he' : e ≤ 100) (hk : (k : Rat) = m * 2 ^ e) :
      ∃ n < 2 ^ 32, isNegative fmt32 n = false ∧ value fmt32 n = some (k : Rat) := by
    obtain ⟨hlt, hv⟩ := Fmt.normal_spec hf (e := e) hm hl (by have : fmt32.emin = -126 := rfl; omega)
      (by have : fmt32.emax = 127 := rfl; omega)
    have hw := hlt.trans (Fmt.infBits_lt_width hf)
    refine ⟨fmt32.sign false + fmt32.normal m e, sign_add_lt hf hw, isNegative_sign hw, ?_⟩
    rw [value_sign hf false hw, if_pos hlt, hv, hk]
    simp [sgn]
  rcases h2.eq_or_lt with rfl | h2
  · exact hnormal (m := 1) (e := 24) (by norm_num) (by decide) (by norm_num) (by norm_num) (by norm_num)
  · exact hnormal (e := 0) (by omega) (Nat.lt_succ_iff.1 ((Nat.log2_lt (by omega)).2 h2)) le_rfl (by norm_num) (by simp)

/-! ### The statistics of a row (R55) -/

/-- A lane's sum over a row, and of squares. -/
def sumStep (p : Part) (d : Nat) : Nat × Flags :=
  match p with
  | none => (d, 0)
  | some a => fmt32.addF (fmt32.read a) (fmt32.read d)

def squareStep (p : Part) (d : Nat) : Nat × Flags :=
  fmt32.fmaF (fmt32.read d) (fmt32.read d) (match p with
    | none => .num false 0 0
    | some a => fmt32.read a)

/-- The statistics as the model forms them from the row's sums. -/
def statsOf (x0 n : FVal) (s1 s2 : Nat) : (Nat × Nat) × List Flags :=
  let m1 := fmt32.divF (fmt32.read s1) n
  let mean := fmt32.addF x0 (fmt32.read m1.1)
  let ss := fmt32.mulF (fmt32.read s1) (fmt32.read s1)
  let t := fmt32.divF (fmt32.read ss.1) n
  let v1 := fmt32.subF (fmt32.read s2) (fmt32.read t.1)
  let var := fmt32.divF (fmt32.read v1.1) n
  ((mean.1, if !(fmt32.read var.1).isNan && (fmt32.read var.1).neg then 0 else var.1),
    [m1.2, mean.2, ss.2, t.2, v1.2, var.2])

/-- The differences of a row's elements from its first. -/
def rowDiffs (xs : List Nat) : List (Nat × Flags) :=
  xs.map fun x => fmt32.subF (fmt32.read x) (fmt32.read (xs.headD 0))

def isFinite32 (x : Nat) : Bool :=
  match fmt32.read x with
  | .num _ _ _ => true
  | _ => false

theorem rowStats_eq (xs : List Nat) : rowStats xs =
    let ds := rowDiffs xs
    let s1 := rowSum sumStep (ds.map (·.1)) (ds.foldl (fun a d => orF a d.2) 0)
    let s2 := rowSum squareStep (ds.map (·.1)) s1.2
    let r := statsOf (fmt32.read (xs.headD 0)) (ofInt xs.length) s1.1 s2.1
    if xs.all isFinite32 then (r.1, r.2.foldl orF s2.2) else ((fmt32.nan, fmt32.nan), r.2.foldl orF s2.2) := rfl

theorem isFinite32_eq (x : Nat) : isFinite32 x = (value fmt32 x).isSome := by
  rw [isFinite32]
  rcases nan_or_inf_or_value fmt32 x with ⟨h, -, hv⟩ | ⟨-, h, hv⟩ | ⟨-, -, y, hy⟩
  · rw [read_nan Fmt.usable32 h, hv]; rfl
  · rw [read_inf h, hv]; rfl
  · obtain ⟨m, e, h⟩ := read_of_some (f := fmt32) (a := x) (by rw [hy]; rfl)
    rw [h, hy]; rfl

theorem testBit_foldl_or (j : Nat) (xs : List Flags) (z : Flags) :
    (xs.foldl orF z).testBit j = true ↔ z.testBit j = true ∨ ∃ g ∈ xs, g.testBit j = true := testBit_foldl_orF id j xs z

theorem rowStats_notFinite {xs : List Nat} (h : ∃ x ∈ xs, value fmt32 x = none) :
    (rowStats xs).1 = (quietNan fmt32, quietNan fmt32) := by
  obtain ⟨x, hx, hv⟩ := h
  have : xs.all isFinite32 = false := by
    rw [Bool.eq_false_iff, Ne, List.all_eq_true]
    intro hall
    have := hall x hx
    rw [isFinite32_eq, hv] at this
    cases this
  rw [rowStats_eq]
  dsimp only
  rw [this, if_neg Bool.false_ne_true, quietNan_eq]

/-- A variance below zero becomes zero. -/
theorem notBelowZero_eq (v : Nat) : (if !(fmt32.read v).isNan && (fmt32.read v).neg then 0 else v) =
    if isNan fmt32 v = false ∧ isNegative fmt32 v = true then 0 else v := by
  rw [read_isNan Fmt.usable32]
  cases hv : isNan fmt32 v
  · simp [read_neg hv]
  · simp

theorem rowStats_finite {len : Nat} {x : Nat → Nat} (h1 : 1 ≤ len) (h2 : len ≤ 2 ^ 24)
    (h : ∀ e < len, (value fmt32 (x e)).isSome = true) :
    RowStatistics len x (rowStats ((List.range len).map x)).1.1 (rowStats ((List.range len).map x)).1.2
      (rowStats ((List.range len).map x)).2 := by
  have hf := Fmt.usable32
  obtain ⟨n, hn, hneg, hval⟩ := exists_f32_natCast h1 h2
  have hcount : (fmt32.read n).Exact false (len : Rat) := hneg ▸ read_value hval
  have hofInt : (ofInt (len : Int)).Exact false (len : Rat) := by
    have := ofInt_exact len
    rw [decide_eq_false (by omega)] at this
    exact_mod_cast this
  have hdiv (u : FVal) : fmt32.divF u (ofInt (len : Int)) = fmt32.divF u (fmt32.read n) :=
    divF_congr hf u hofInt hcount (by exact_mod_cast (by omega : len ≠ 0))
  have hhead : ((List.range len).map x).headD 0 = x 0 := by
    obtain ⟨m, rfl⟩ := Nat.exists_eq_add_of_le' h1
    rw [List.range_succ_eq_map]
    rfl
  have hall : ((List.range len).map x).all isFinite32 = true := by
    rw [List.all_eq_true]
    intro y hy
    obtain ⟨e, he, rfl⟩ := List.mem_map.1 hy
    rw [isFinite32_eq]
    exact h e (List.mem_range.1 he)
  have hdiffs : rowDiffs ((List.range len).map x) =
      (List.range len).map fun e => fmt32.subF (fmt32.read (x e)) (fmt32.read (x 0)) := by
    rw [rowDiffs, hhead, List.map_map]
    rfl
  have hlen : (((List.range len).map fun e => fmt32.subF (fmt32.read (x e)) (fmt32.read (x 0))).map (·.1)).length = len := by
    simp
  have hget : ∀ i < len, (((List.range len).map fun e => fmt32.subF (fmt32.read (x e)) (fmt32.read (x 0))).map (·.1)).getD i 0 =
      (fmt32.subF (fmt32.read (x i)) (fmt32.read (x 0))).1 := fun i hi => by
    rw [List.getD_eq_getElem?_getD, List.getElem?_map, List.getElem?_map, List.getElem?_range hi]
    rfl
  rw [rowStats_eq]
  dsimp only
  rw [hall, if_pos rfl, hhead, hdiffs, List.length_map, List.length_range]
  have hfl0 (j : Nat) : (((List.range len).map fun e => fmt32.subF (fmt32.read (x e)) (fmt32.read (x 0))).foldl
      (fun a d => orF a d.2) 0).testBit j = true ↔
      ∃ e < len, (fmt32.subF (fmt32.read (x e)) (fmt32.read (x 0))).2.testBit j = true := by
    rw [testBit_foldl_orF]
    simp
  generalize ((List.range len).map fun e => fmt32.subF (fmt32.read (x e)) (fmt32.read (x 0))).foldl
    (fun a d => orF a d.2) 0 = fl0 at hfl0
  generalize ((List.range len).map fun e => fmt32.subF (fmt32.read (x e)) (fmt32.read (x 0))).map (·.1) = ds at hlen hget
  obtain ⟨f1, hs1, hf1⟩ := rowSum_spec (step := sumStep) (d := fun e => (fmt32.subF (fmt32.read (x e)) (fmt32.read (x 0))).1)
    (first := fun y p g => p = y ∧ g = 0) (next := fun q y p g => Scalar32 .faddS q y p g) (fun y => ⟨rfl, rfl⟩)
    (fun q y => addF_scalar32 q y) hlen hget fl0
  obtain ⟨f2, hs2, hf2⟩ := rowSum_spec (step := squareStep)
    (d := fun e => (fmt32.subF (fmt32.read (x e)) (fmt32.read (x 0))).1)
    (first := fun y p g => LikeScalar .fmaS .fmaS .f32 y y 0 p g) (next := fun q y p g => LikeScalar .fmaS .fmaS .f32 y y q p g)
    (fun y => by
      have hz : fmt32.read 0 = .num false 0 fmt32.qmin := rfl
      have := fmaF_likeScalar y y 0
      rw [hz, fmaF_zero hf _ _ fmt32.qmin 0] at this
      exact this)
    (fun q y => fmaF_likeScalar y y q) hlen hget (rowSum sumStep ds fl0).2
  rw [hf2]
  generalize (rowSum squareStep ds (rowSum sumStep ds fl0).2).1 = s2 at hs2
  rw [hf1]
  generalize (rowSum sumStep ds fl0).1 = s1 at hs1
  rw [statsOf]
  dsimp only
  rw [hdiv, hdiv, hdiv]
  refine ⟨_, _, s1, f1, s2, f2, n, _, _, _, _, _, _, _, _, _, _, _, fun e _ => subF_scalar32 (x e) (x 0), hs1, hs2, hn, hval,
    divF_scalar32 s1 n, addF_scalar32 (x 0) _, mulF_scalar32 s1 s1, divF_scalar32 _ n, subF_scalar32 s2 _,
    divF_scalar32 _ n, ?_, fun j => ?_⟩
  · exact notBelowZero_eq _
  · rw [testBit_foldl_or, testBit_orF, testBit_orF, hfl0, or_assoc, or_assoc]
    exact or_congr_right (by rw [List.exists_mem_cons_iff _ f1, List.exists_mem_cons_iff _ f2])

/-- A row of one number other than zero: that number, and variance 0. -/
theorem rowStats_one {x : Nat} {q : Rat} (hx : x < 2 ^ 32) (h : value fmt32 x = some q) (hq : q ≠ 0) :
    (rowStats [x]).1 = (x, 0) := by
  have hf := Fmt.usable32
  have hv := read_value h
  have hd : (fmt32.subF (fmt32.read x) (fmt32.read x)).1 = 0 := by
    obtain ⟨-, h0⟩ := hv.subF hf hv
    rw [h0 (sub_self q)]
    cases isNegative fmt32 x <;> rfl
  have hmean : (fmt32.addF (fmt32.read x) (fmt32.read 0)).1 = x := by
    have hz : (fmt32.read 0).Exact false 0 := by
      have hr : fmt32.read 0 = .num false 0 fmt32.qmin := rfl
      have := FVal.Exact.num false 0 fmt32.qmin
      rw [hr]
      simpa using this
    obtain ⟨hfl, n, hn, -⟩ := hv.add hz
    rw [add_zero] at hn
    have hs : n = isNegative fmt32 x := by
      have e1 := hn.sgn_mul_abs
      rw [← hv.sgn_mul_abs, abs_mul, abs_sgn, one_mul, abs_abs] at e1
      have := mul_right_cancel₀ (abs_ne_zero.2 hq) e1
      revert this
      cases n <;> cases isNegative fmt32 x <;> simp [sgn] <;> norm_num
    have hp := Fmt.pack_read_self hf hx (isNan_of_value (by rw [h]; rfl))
    rw [hv.pack_eq hf] at hp
    show (fmt32.pack ((fmt32.read x).add (fmt32.read 0)).1).1 = x
    rw [hn.pack_eq hf, hs, hp]
  have hall : [x].all isFinite32 = true := by
    rw [List.all_cons, isFinite32_eq, h]
    rfl
  rw [rowStats_eq]
  dsimp only
  rw [hall, if_pos rfl]
  have hds : (rowDiffs [x]).map (·.1) = [0] := congrArg (fun d => [d]) hd
  have hs1 (fl : Flags) : (rowSum sumStep [0] fl).1 = 0 := rfl
  have hs2 (fl : Flags) : (rowSum squareStep [0] fl).1 = 0 := rfl
  rw [hds, hs1, hs2, statsOf]
  have hone : ofInt ([x].length : Int) = ofInt 1 := rfl
  have hdiv : fmt32.divF (fmt32.read 0) (ofInt 1) = (0, 0) := by decide +kernel
  have hmul : fmt32.mulF (fmt32.read 0) (fmt32.read 0) = (0, 0) := by decide +kernel
  have hsub : fmt32.subF (fmt32.read 0) (fmt32.read 0) = (0, 0) := by decide +kernel
  have hvar : (if !(fmt32.read 0).isNan && (fmt32.read 0).neg then 0 else 0) = 0 := by decide +kernel
  dsimp only
  rw [hone, hdiv, hmul, hdiv, hsub, hdiv]
  exact Prod.ext hmean hvar

end Sys2Proof.Machine
end

section
/-! PROOF. VROWST (R55, R230), and the reductions together (R53 to R55, R229). -/

set_option Elab.async false

namespace Sys2Proof.Machine
open Sys2Proof.Claims

section
variable (s : State) (et : ETy) (vd vs2 : VReg) (k : KReg)

/-! ### VROWST (R55, R230) -/

/-- The address and the length of VROWST's row. -/
theorem rowAddress_eq : w64 (lane (s.v vs2) 64 0) = nat ((s.regs.getV vs2).toNat % 2 ^ 64) := by
  rw [lane, Nat.mul_zero, Nat.shiftRight_zero]
  rfl

theorem rowLength_eq : lane (s.v vs2) 64 1 = (s.regs.getV vs2).toNat / 2 ^ 64 % 2 ^ 64 := by
  rw [lane, Nat.mul_one, Nat.shiftRight_eq_div_pow]
  rfl

theorem vrowst_noRow (h : lane (s.v vs2) 64 1 = 0 ∨ 2 ^ 24 < lane (s.v vs2) 64 1) :
    exec (.vrowst et vd vs2) s = writeV s vd (lowVec (quietNan fmt32 + quietNan fmt32 * 2 ^ 32), 16) := by
  show execVrowst et vd vs2 s = _
  rw [execVrowst]
  dsimp only
  rw [if_pos h, quietNan_eq]
  rfl

theorem vrowst_row {len : Nat} {place : Nat → Nat} (hlen : lane (s.v vs2) 64 1 = len) (h1 : 1 ≤ len) (h24 : len ≤ 2 ^ 24)
    (hdvd : et.bytes ∣ 8)
    (h : ∀ e < len, ElementMay s (w64 (lane (s.v vs2) 64 0) + nat (e * et.bytes)) et.bytes (place e) false) :
    let r := rowStats ((List.range len).map fun e => widen et (seenNum s (place e) et.bytes))
    exec (.vrowst et vd vs2) s = .next (State.settle (s.setCx { s.cx with
      regs := { s.regs.putV vd (lowVec (r.1.1 + r.1.2 * 2 ^ 32)) with
        pc := s.regs.pc + nat 4
        cr := { s.regs.cr with fflg := s.regs.cr.fflg ||| nat r.2 } }
      chunk := { s.cx.chunk with rsig := readSig place (List.range len) s.cx.chunk.rsig } })) := by
  intro r
  have hload := loadElems_own (s := s) (addr := fun e => w64 (lane (s.v vs2) 64 0) + w64 (e * et.bytes)) hdvd
    (es := List.range len) (by simpa using Nat.one_le_iff_ne_zero.1 h1) fun e he => h e (List.mem_range.1 he)
  have hread (v : VWord) (fl : Flags) (sig : BitVec 1024) : (((s.withReads sig).setV vd v).flag fl).advance 4 =
      s.setCx { s.cx with
        regs := { s.regs.putV vd v with pc := s.regs.pc + nat 4, cr := { s.regs.cr with fflg := s.regs.cr.fflg ||| nat fl } }
        chunk := { s.cx.chunk with rsig := sig } } := by
    refine (Host.Outcome.next.inj (writeV_eq (s.withReads sig) vd (v, fl))).trans ?_
    rw [State.setRegs_eq_setCx, State.withReads, State.setCx_setCx, State.regs, State.setCx_cx]
    rfl
  show execVrowst et vd vs2 s = _
  rw [execVrowst]
  dsimp only
  rw [hlen, if_neg (by omega), hload, Ans.bind, conclude]
  dsimp only
  rw [hread, List.map_map]
  rfl

/-! ### Reductions -/

theorem vGives_low {i : Instr} {x : Nat} {fl : Flags} (h : exec i s = writeV s vd (lowVec x, fl)) :
    VGives i s vd (BitVec.ofNat 512 x) fl := vGives_of_writeV h

/-- The elements of a row are binary32 encodings once they are widened. -/
theorem rowElement_lt (het : et = .bf16 ∨ et = .f32) (p : Nat) :
    seenNum s p et.bytes * (if et = .bf16 then 2 ^ 16 else 1) < 2 ^ 32 := by
  have := seenNum_lt s et.bytes p
  rcases het with rfl | rfl
  · have : seenNum s p 2 < 256 ^ 2 := this
    show seenNum s p 2 * 2 ^ 16 < 2 ^ 32
    omega
  · have : seenNum s p 4 < 256 ^ 4 := this
    show seenNum s p 4 * 1 < 2 ^ 32
    omega

theorem widen_eq (het : et = .bf16 ∨ et = .f32) (y : Nat) : widen et y = y * (if et = .bf16 then 2 ^ 16 else 1) := by
  rcases het with rfl | rfl
  · rfl
  · exact (Nat.mul_one y).symm

theorem vectorReductions : VectorReductions := by
  intro s et vd vs2 k a n w f act list less gives nv nan part
  have hmax : exec (.vrmax et vd vs2 k) s = extremeOp s true et vd vs2 k := rfl
  have hmin : exec (.vrmin et vd vs2 k) s = extremeOp s false et vd vs2 k := rfl
  refine ⟨fun hi => vGives_low _ _ (vrsum_int s et vd vs2 k hi), fun het => ?_, fun het => ?_, fun hnil => ?_,
    ⟨nanFlag s et vs2 k, nanFlag_spec s et vs2 k, fun hnan => ?_, fun hne hnan => ?_⟩,
    vGives_low _ _ (vrpopc_counts s et vd vs2 k), fun het => ?_⟩
  · obtain ⟨r, fl, x, g, hx, hspec⟩ := vrsum_sums s et vd vs2 k het
    exact ⟨r, fl, x, g, vGives_low _ _ hx, hspec⟩
  · subst het
    obtain ⟨r, fl, x, g, hx, hspec⟩ := vrsum_bf16 s vd vs2 k
    exact ⟨r, fl, x, g, vGives_low _ _ hx, hspec⟩
  · exact ⟨vGives_low _ _ (hmax.trans (extremeOp_nil s et vd vs2 k true hnil)),
      vGives_low _ _ (hmin.trans (extremeOp_nil s et vd vs2 k false hnil)), vGives_low _ _ (vrarg_nil s et vd vs2 k hnil)⟩
  · obtain ⟨l, hl, hlnan, hfirst, hx⟩ := vrarg_nan s et vd vs2 k hnan
    exact ⟨vGives_low _ _ (hmax.trans (extremeOp_nan s et vd vs2 k true hnan)),
      vGives_low _ _ (hmin.trans (extremeOp_nan s et vd vs2 k false hnan)), l, hl, hlnan, hfirst, vGives_low _ _ hx⟩
  · obtain ⟨l, hl, hx, hgt, hzero⟩ := extremeOp_pick s et vd vs2 k true hne hnan
    obtain ⟨l', hl', hx', hlt, hzero'⟩ := extremeOp_pick s et vd vs2 k false hne hnan
    obtain ⟨i, hi, hxi, harg, hfirst⟩ := vrarg_pick s et vd vs2 k hne hnan
    exact ⟨⟨l, hl, vGives_low _ _ (hmax.trans hx), hgt, hzero⟩, ⟨l', hl', vGives_low _ _ (hmin.trans hx'), hlt, hzero'⟩,
      i, hi, vGives_low _ _ hxi, harg, hfirst⟩
  · intro base len row
    have hlen : lane (s.v vs2) 64 1 = len := rowLength_eq s vs2
    refine ⟨fun hno => ?_, fun h1 h2 place hmay => ?_⟩
    · rw [← hlen] at hno
      exact vGives_low _ _ (vrowst_noRow s et vd vs2 hno)
    · rw [show base = w64 (lane (s.v vs2) 64 0) from (rowAddress_eq s vs2).symm] at hmay
      have hdvd : et.bytes ∣ 8 := by rcases het with rfl | rfl <;> decide
      refine ⟨_, _, _, _, vrowst_row s et vd vs2 hlen h1 h2 hdvd hmay, fun j => ?_, ?_⟩
      · rw [getLsbD_readSig]
        simp
      simp only [widen_eq et het]
      refine ⟨?_, fun hfin => rowStats_finite h1 h2 hfin, fun q hone hq hq0 => ?_⟩
      · rintro ⟨e, he, hv⟩
        rw [rowStats_notFinite ⟨_, List.mem_map_of_mem (List.mem_range.2 he), hv⟩]
        exact ⟨rfl, rfl⟩
      · have := rowStats_one (rowElement_lt s et het (place 0)) hq hq0
        rw [hone]
        exact Prod.ext_iff.1 this

end

/-- Settles O26: the permutations and the reductions, each from its own claim. -/
theorem vectorPermutationsAndReductions : Obligations.VectorPermutationsAndReductions :=
  ⟨vectorPermutations, vectorReductions⟩

end Sys2Proof.Machine
end

section
/-! PROOF. What a store of the device leaves alone: the tasks, the accumulators and the jobs (R255, R329, R345). -/

set_option Elab.async false

namespace Sys2Proof.Machine
open Sys2Proof.Claims

/-! ### What a store of the device leaves alone -/

/-- What a core holds of its tasks and of the array: contexts, accumulator, scale latches. -/
def Core.array (x : Core) : Vector Ctx 4 × Tab F32 × List (Nat × Nat) × List (Nat × Nat) :=
  (x.ctxs, x.acc, x.latchA, x.latchB)

/-- The job slots with them. -/
def Core.work (x : Core) : (Vector Ctx 4 × Tab F32 × List (Nat × Nat) × List (Nat × Nat)) × Vector Job 8 :=
  (x.array, x.bank.jobs)

/-- The second state has the tasks and the arrays of the first. -/
def SameArrays (s t : State) : Prop := ∀ c, (t.core c).array = (s.core c).array

/-- The second state has the tasks and the jobs of the first, and harts have written in cluster k at most. -/
structure Undisturbed (k : Nat) (s t : State) : Prop where
  work : ∀ c, (t.core c).work = (s.core c).work
  wrote : ∀ e ∈ t.wrote, e ∈ s.wrote ∨ e.1 = k

/-- No context of cluster k runs. -/
def NoneRuns (k : Nat) (s : State) : Prop := ∀ p ∈ clusterCtxs k, (s.ctx p.1 p.2).running = false

section
variable {α β : Type} {k : Nat} {s₀ s t : State}

theorem Undisturbed.refl : Undisturbed k s s := ⟨fun _ => rfl, fun _ h => .inl h⟩

theorem SameArrays.trans (h : SameArrays s₀ s) (h' : SameArrays s t) : SameArrays s₀ t := fun c => (h' c).trans (h c)

theorem SameArrays.acc (h : SameArrays s t) (c : Nat) : (t.core c).acc = (s.core c).acc := congrArg (fun a => a.2.1) (h c)
theorem SameArrays.latchA (h : SameArrays s t) (c : Nat) : (t.core c).latchA = (s.core c).latchA :=
  congrArg (fun a => a.2.2.1) (h c)
theorem SameArrays.latchB (h : SameArrays s t) (c : Nat) : (t.core c).latchB = (s.core c).latchB :=
  congrArg (fun a => a.2.2.2) (h c)

theorem SameArrays.noneRuns (h : SameArrays s t) (hn : NoneRuns k s) : NoneRuns k t := fun p hp => by
  have : (t.core p.1).ctxs = (s.core p.1).ctxs := congrArg (fun a => a.1) (h p.1)
  rw [State.ctx, Core.ctx, this]
  exact hn p hp

theorem Undisturbed.arrays (h : Undisturbed k s t) : SameArrays s t := fun c => congrArg Prod.fst (h.work c)

theorem Undisturbed.job (h : Undisturbed k s t) (c n : Nat) : t.job c n = s.job c n := by
  have : (t.bank c).jobs = (s.bank c).jobs := congrArg Prod.snd (h.work c)
  rw [State.job, State.job, Bank.job, Bank.job, this]

/-- A write of parts that are neither the cores nor the notes of the harts. -/
theorem Undisturbed.frame
    {inputs focus tick free msts mem lines counters nextKey hypKey hist performed walked clusters blocks releasing vds
    windows net verdicts links ports pctb portCtxs queues portStops rsets drains rings islands hrpt modw slotTab slotLen
    slotPeriod slotLenNext slotPeriodNext slotIx failedBanks uncorrectable corrected seq}
    (h : Undisturbed k s₀ s) :
    Undisturbed k s₀
      ⟨inputs, focus, tick, free, msts, mem, lines, counters, nextKey, hypKey, hist, performed, walked, s.cores,
      clusters, blocks, releasing, vds, windows, net, verdicts, links, ports, pctb, portCtxs, queues, portStops,
      rsets, drains, rings, islands, hrpt, modw, slotTab, slotLen, slotPeriod, slotLenNext,
      slotPeriodNext, slotIx, failedBanks, uncorrectable, corrected, seq, s.wrote⟩ :=
  ⟨h.work, h.wrote⟩

theorem Undisturbed.modCore {c : Nat} {f : Core → Core} (h : Undisturbed k s₀ s)
    (hf : ∀ x, (f x).work = x.work := by intro x; rfl) : Undisturbed k s₀ (s.modCore c f) where
  work d := by
    by_cases hd : d = c
    · rw [hd, State.modCore, State.core_putCore_self, hf]
      exact h.work c
    · rw [State.modCore, State.core_putCore_other _ _ _ _ hd]
      exact h.work d
  wrote := h.wrote

theorem Undisturbed.ite {p : Prop} [Decidable p] (hs : Undisturbed k s₀ s) (ht : Undisturbed k s₀ t) :
    Undisturbed k s₀ (if p then s else t) := by
  split <;> assumption

theorem Undisturbed.foldl {f : State → α → State} {l : List α} (h : Undisturbed k s₀ s)
    (hf : ∀ {s} (x : α), Undisturbed k s₀ s → Undisturbed k s₀ (f s x)) : Undisturbed k s₀ (l.foldl f s) := by
  induction l generalizing s with
  | nil => exact h
  | cons x l ih => exact ih (hf x h)

theorem Undisturbed.of_eq {p : α × State} {a : α} (h : Undisturbed k s₀ p.2) (e : p = (a, t)) : Undisturbed k s₀ t := by
  subst e; exact h

/-! ### Reports, alarms, machine checks -/

theorem Undisturbed.sendReport {src vd target payload} (h : Undisturbed k s₀ s) :
    Undisturbed k s₀ (s.sendReport src vd target payload) := by
  unfold State.sendReport
  split
  · exact h
  · exact h.frame

theorem Undisturbed.moduleReport {vd target payload} (h : Undisturbed k s₀ s) :
    Undisturbed k s₀ (s.moduleReport vd target payload) :=
  h.frame.sendReport

theorem Undisturbed.quenchVd {v} (h : Undisturbed k s₀ s) : Undisturbed k s₀ (s.quenchVd v) := h.frame
theorem Undisturbed.quenchAll (h : Undisturbed k s₀ s) : Undisturbed k s₀ s.quenchAll := h.foldl fun _ h => h.quenchVd

theorem Undisturbed.alarm {source v host} (h : Undisturbed k s₀ s) : Undisturbed k s₀ (s.alarm source v host) := by
  have hm : Undisturbed k s₀ (s.moduleReport v s.hrpt [w64 source, w64 v, w64 host]) := h.moduleReport
  unfold State.alarm
  dsimp only
  generalize s.moduleReport v s.hrpt [w64 source, w64 v, w64 host] = m at hm ⊢
  have hc {c : Nat} {p : Bool} : Undisturbed k s₀
      (if p then m.modCore c fun x => { x with priv := { x.priv with ipend := x.priv.ipend ||| 4 } } else m) :=
    hm.modCore.ite hm
  cases coreRef (fld m.hrpt 30 0) with
  | none =>
    refine hm.quenchAll.ite ?_
    split
    · exact hm
    · exact hm.quenchVd
    · exact hm.quenchAll
  | some =>
    refine hc.quenchAll.ite ?_
    split
    · exact hc
    · exact hc.quenchVd
    · exact hc.quenchAll

theorem Undisturbed.stopCore {c sender} (h : Undisturbed k s₀ s) : Undisturbed k s₀ (s.stopCore c sender) :=
  h.modCore fun _ => by split <;> rfl

theorem Undisturbed.machineCheck {v a} (h : Undisturbed k s₀ s) : Undisturbed k s₀ (s.machineCheck v a) :=
  Undisturbed.moduleReport (h.foldl fun _ h => h.stopCore).frame

theorem Undisturbed.checkAll {vs a} (h : Undisturbed k s₀ s) : Undisturbed k s₀ (s.checkAll vs a) := by
  unfold State.checkAll
  split
  · exact h.moduleReport.frame
  · exact h.foldl fun _ h => h.machineCheck

theorem Undisturbed.checkOwners {a} (h : Undisturbed k s₀ s) : Undisturbed k s₀ (s.checkOwners a) := h.checkAll
theorem Undisturbed.trapAlarm {t} (h : Undisturbed k s₀ s) : Undisturbed k s₀ (s.trapAlarm t) := h.alarm.ite h
theorem Undisturbed.trapCheck {t} (h : Undisturbed k s₀ s) : Undisturbed k s₀ (s.trapCheck t) := h.checkOwners.ite h
theorem Undisturbed.deviceFails {t} (h : Undisturbed k s₀ s) : Undisturbed k s₀ (s.deviceFails t) := h.trapAlarm.trapCheck

/-! ### Stores committed -/

theorem Undisturbed.pokeCells {cells} (h : Undisturbed k s₀ s) : Undisturbed k s₀ (s.pokeCells cells) := h.frame

theorem Undisturbed.renewCodeword {a} (h : Undisturbed k s₀ s) : Undisturbed k s₀ (s.renewCodeword a) := h.frame
theorem Undisturbed.setCounter {n m} (h : Undisturbed k s₀ s) : Undisturbed k s₀ (s.setCounter n m) := h.frame

theorem Undisturbed.supersede {p sharers} (h : Undisturbed k s₀ s) : Undisturbed k s₀ (s.supersede p sharers) :=
  h.frame.foldl fun _ h => h.modCore

theorem Undisturbed.commitLine {sharers line home cells} (h : Undisturbed k s₀ s) :
    Undisturbed k s₀ (s.commitLine sharers line home cells) := by
  unfold State.commitLine
  dsimp only
  split
  · split
    · exact h.checkOwners
    · exact (h.foldl fun _ h => h.supersede).pokeCells
  · refine h.ite (.ite ?_ (.ite ?_ (h.alarm.ite ?_)))
    · exact h.frame.checkOwners
    · exact h.frame.alarm
    · exact ((h.pokeCells.renewCodeword.frame.ite h).foldl fun _ h => h.supersede).pokeCells.frame.setCounter

theorem Undisturbed.commitCells {sharers homes cells} (h : Undisturbed k s₀ s) :
    Undisturbed k s₀ (s.commitCells sharers homes cells) := by
  unfold State.commitCells
  refine h.foldl fun _ h => ?_
  dsimp only
  split
  · exact h.pokeCells
  · exact h.pokeCells
  · exact h.commitLine
  · exact h.commitLine

/-- Where no context of the cluster runs, a hart's writes abort nothing. -/
theorem couchAborts_of_noneRuns (hn : NoneRuns k s) (w : BitVec 1024) (self : Option (Nat × Fin 4)) :
    s.couchAborts k w self = s := by
  unfold State.couchAborts
  have hfix : ∀ ps : List (Nat × Fin 4), (∀ p ∈ ps, (s.ctx p.1 p.2).running = false) → ps.foldl (fun s (c, i) =>
      let y := s.ctx c i
      if y.running && y.meets w && !y.forced && decide (self ≠ some (c, i)) then s.rollBack c i else s) s = s := by
    intro ps hps
    induction ps with
    | nil => rfl
    | cons p ps ih =>
      rw [List.foldl_cons]
      dsimp only
      rw [hps p (by simp), Bool.false_and, Bool.false_and, Bool.false_and, if_neg Bool.false_ne_true]
      exact ih fun q hq => hps q (by simp [hq])
  exact hfix _ hn

theorem Undisturbed.hartMeets {w} (h : Undisturbed k s₀ s) (hn : NoneRuns k s₀) : Undisturbed k s₀ (s.hartMeets k w) := by
  unfold State.hartMeets
  rw [couchAborts_of_noneRuns (h.arrays.noneRuns hn)]
  refine ⟨h.work, fun e he => ?_⟩
  rcases Tab.mem_put he with he | rfl
  · exact h.wrote e he
  · exact .inr rfl

/-! ### Translation -/

theorem Undisturbed.loadFrom {c least p} (h : Undisturbed k s₀ s) : Undisturbed k s₀ (s.loadFrom c least p).2 := by
  have hp : Undisturbed k s₀ s.pick.2 := h.frame
  unfold State.loadFrom
  dsimp only
  split
  · exact h
  · exact h
  · split
    · exact h
    · dsimp only
      exact hp.modCore
  · split
    · exact h
    · dsimp only
      exact hp.modCore

theorem Undisturbed.tableWord {c v lv gpa} (h : Undisturbed k s₀ s) : Undisturbed k s₀ (s.tableWord c v lv gpa).2 := by
  unfold State.tableWord
  dsimp only
  split
  · exact h
  · split
    · exact h
    · split
      · exact h
      · split
        · exact h
        · exact h.loadFrom

theorem Undisturbed.walkFrom {c v a r n} (h : Undisturbed k s₀ s) : Undisturbed k s₀ (s.walkFrom c v a r n).2 := by
  induction n generalizing s r with
  | zero => exact h
  | succ n ih =>
    unfold State.walkFrom
    dsimp only
    split
    · rename_i e
      exact h.tableWord.of_eq e
    · rename_i e
      have ht := h.tableWord.of_eq e
      split
      · exact ht
      · split
        · exact ht
        · split
          · exact ih ht
          · exact ht

theorem Undisturbed.walk {c v sid va} (h : Undisturbed k s₀ s) : Undisturbed k s₀ (s.walk c v sid va).2 := by
  unfold State.walk
  dsimp only
  split
  · exact h
  · split
    · exact h
    · split
      · exact h
      · split
        · rename_i e
          exact h.walkFrom.of_eq e
        · rename_i e
          split
          · exact h.walkFrom.of_eq e
          · exact h.walkFrom.of_eq e

theorem Undisturbed.cacheWalk {c f} (h : Undisturbed k s₀ s) : Undisturbed k s₀ (s.cacheWalk c f) :=
  h.ite (h.modCore.ite (h.modCore (c := c)).frame)

theorem Undisturbed.xlate {q va} (h : Undisturbed k s₀ s) : Undisturbed k s₀ (s.xlate q va).2 := by
  have hw : Undisturbed k s₀ (s.walk q.agent q.vd q.sid va).2 := h.walk
  have hp : Undisturbed k s₀ (s.walk q.agent q.vd q.sid va).2.pick.2 := hw.frame
  unfold State.xlate
  dsimp only
  split
  · split
    · exact hw.cacheWalk
    · exact hw
  · split
    · split
      · exact hw
      · split
        · exact hp
        · exact hp.cacheWalk
    · split
      · exact hw
      · split
        · exact hp
        · exact hp

theorem Undisturbed.findAs {q a va} (h : Undisturbed k s₀ s) : Undisturbed k s₀ (s.findAs q a va).2 := by
  unfold State.findAs
  split
  · exact h
  · exact h
  · split
    · rename_i e
      exact h.xlate.of_eq e
    · rename_i e
      exact h.xlate.of_eq e

theorem Undisturbed.deviceFindAs {q a va} (h : Undisturbed k s₀ s) : Undisturbed k s₀ (s.deviceFindAs q a va).2 := by
  unfold State.deviceFindAs
  split
  · rename_i e
    exact (h.findAs.of_eq e).deviceFails
  · rename_i e
    split
    · exact (h.findAs.of_eq e).deviceFails
    · exact h.findAs.of_eq e

/-! ### The store of a status word -/

theorem Undisturbed.devicePut {c p bs} (h : Undisturbed (clusterOf c) s₀ s) (hn : NoneRuns (clusterOf c) s₀) :
    Undisturbed (clusterOf c) s₀ (s.devicePut c p bs) := by
  unfold State.devicePut
  dsimp only
  have hm : Undisturbed (clusterOf c) s₀ (if isControl c then s else s.hartMeets (clusterOf c) (cellsSig (cellsFrom p.addr bs))) :=
    h.ite (h.hartMeets hn)
  split
  · exact hm.commitCells
  · exact hm.commitCells
  · exact hm.commitCells.frame
  · exact hm.commitCells.frame

theorem Undisturbed.devicePutWordAs {q va x} (h : Undisturbed (clusterOf q.core) s₀ s) (hn : NoneRuns (clusterOf q.core) s₀) :
    Undisturbed (clusterOf q.core) s₀ (s.devicePutWordAs q va x).2 := by
  unfold State.devicePutWordAs
  split
  · rename_i e
    exact h.deviceFindAs.of_eq e
  · rename_i e
    exact (h.deviceFindAs.of_eq e).devicePut hn

end

end Sys2Proof.Machine
end

section
/-! PROOF. The end of a job (R251, R255), of several, and the events of harts (R329). -/

set_option Elab.async false

namespace Sys2Proof.Machine
open Sys2Proof.Claims

/-! ### Heads -/

/-- One step of the search for the oldest job. -/
def Bank.older (b : Bank) (p : Job → Bool) (best : Option (Nat × Job)) (n : Nat) : Option (Nat × Job) :=
  if (b.job n).outstanding && p (b.job n) then
    match best with
    | some (_, j) => if (b.job n).seq < j.seq then some (n, b.job n) else best
    | none => some (n, b.job n)
  else best

theorem Bank.oldest_eq (b : Bank) (p : Job → Bool) : b.oldest p = (List.range 8).foldl (b.older p) none := rfl

theorem Bank.older_cases (b : Bank) (p : Job → Bool) (best : Option (Nat × Job)) (n : Nat) :
    b.older p best n = best ∨ b.older p best n = some (n, b.job n) := by
  unfold Bank.older
  split
  · split
    · split
      · exact .inr rfl
      · exact .inl rfl
    · exact .inr rfl
  · exact .inl rfl

theorem Bank.foldl_older {b : Bank} {p : Job → Bool} {n : Nat} {j : Job} : ∀ (ns : List Nat) (best : Option (Nat × Job)),
    ns.foldl (b.older p) best = some (n, j) → best = some (n, j) ∨ n ∈ ns ∧ b.job n = j
  | [], _, h => .inl h
  | m :: ns, best, h => by
    rcases Bank.foldl_older ns _ h with h | ⟨hn, hj⟩
    · rcases b.older_cases p best m with e | e
      · exact .inl (e.symm.trans h)
      · rw [e] at h
        cases h
        exact .inr ⟨by simp, rfl⟩
    · exact .inr ⟨by simp [hn], hj⟩

/-- The oldest job stands in its slot. -/
theorem Bank.oldest_spec {b : Bank} {p : Job → Bool} {n : Nat} {j : Job} (h : b.oldest p = some (n, j)) :
    n < 8 ∧ b.job n = j := by
  rw [Bank.oldest_eq] at h
  rcases Bank.foldl_older _ _ h with h | ⟨hn, hj⟩
  · cases h
  · exact ⟨List.mem_range.1 hn, hj⟩

section
variable {k : Nat} {s t : State}

theorem headIs_slot_lt {c n : Nat} {j : Job} (h : HeadIs s c n j) : n < 8 := (Bank.oldest_spec h).1
theorem headIs_job_eq {c n : Nat} {j : Job} (h : HeadIs s c n j) : s.job c n = j := (Bank.oldest_spec h).2

theorem noneRuns_of_idle (h : IdleCluster s k) : NoneRuns k s := by
  intro p hp
  obtain ⟨c, hc, hp⟩ := List.mem_flatMap.1 hp
  obtain ⟨i, hi, rfl⟩ := List.mem_map.1 hc
  have hp : p.1 = 8 * k + i := by
    simp only [List.mem_cons, List.not_mem_nil, or_false] at hp
    rcases hp with rfl | rfl | rfl | rfl <;> rfl
  have := List.mem_range.1 hi
  exact h.2 p.1 p.2 (by omega)

/-! ### The end of a job -/

/-- The job that a slot holds once its job has ended. -/
def State.endedJob (s : State) (c n status dcode dlen : Nat) : Job :=
  { s.job c n with
    st := .ended
    status := statusWord status (s.job c n).kind (jobId n (s.job c n)) dcode dlen }

theorem endedJob_congr {c n status dcode dlen : Nat} (h : t.job c n = s.job c n) :
    t.endedJob c n status dcode dlen = s.endedJob c n status dcode dlen := by
  rw [State.endedJob, State.endedJob, h]

theorem endedWith_of_job {c n status dcode dlen : Nat} (h : t.job c n = s.endedJob c n status dcode dlen)
    (hs : status < 256) (hc : dcode < 256) (hl : dlen < 2 ^ 24) : EndedWith s t c n status dcode dlen := by
  refine ⟨by rw [h]; rfl, ?_⟩
  rw [h]
  show statusWord _ _ _ _ _ = _
  rw [statusWord, Nat.mod_eq_of_lt hs, Nat.mod_eq_of_lt hc, Nat.mod_eq_of_lt hl, jobId, Nat.mul_comm _ 8]
  rfl

section
variable {c n status dcode dlen : Nat}

theorem Bank.setJob_job_self (b : Bank) (j : Job) (hn : n < 8) : (b.setJob n j).job n = j := by
  rw [Bank.setJob, dif_pos hn, Bank.job, dif_pos hn]
  simp

theorem keepStatus_core_self : (s.keepStatus c n status dcode dlen).core c =
    (s.core c).modBank fun b => (b.setJob n (s.endedJob c n status dcode dlen)).settlePerms :=
  State.core_putCore_self ..

theorem keepStatus_core_other {d : Nat} (h : d ≠ c) : (s.keepStatus c n status dcode dlen).core d = s.core d :=
  State.core_putCore_other _ _ _ _ h

theorem keepStatus_job_self (hn : n < 8) :
    (s.keepStatus c n status dcode dlen).job c n = s.endedJob c n status dcode dlen := by
  rw [State.job, State.bank, keepStatus_core_self]
  exact Bank.setJob_job_self _ _ hn

theorem keepStatus_arrays : SameArrays s (s.keepStatus c n status dcode dlen) := fun d => by
  by_cases hd : d = c
  · rw [hd, keepStatus_core_self]
    rfl
  · rw [keepStatus_core_other hd]

theorem endJob_undisturbed (hn : NoneRuns (clusterOf c) s) :
    Undisturbed (clusterOf c) (s.keepStatus c n status dcode dlen) (s.endJob c n status dcode dlen) :=
  Undisturbed.ite .refl (Undisturbed.devicePutWordAs (q := State.copyAsker _ c _) .refl (keepStatus_arrays.noneRuns hn))

theorem endJob_of_noMailbox (h : (s.job c n).mbox = 0) :
    s.endJob c n status dcode dlen = s.keepStatus c n status dcode dlen := if_pos h

theorem endJob_arrays (hn : NoneRuns (clusterOf c) s) : SameArrays s (s.endJob c n status dcode dlen) :=
  keepStatus_arrays.trans (endJob_undisturbed hn).arrays

theorem endJob_job_self (hn : NoneRuns (clusterOf c) s) (h8 : n < 8) :
    (s.endJob c n status dcode dlen).job c n = s.endedJob c n status dcode dlen :=
  ((endJob_undisturbed hn).job c n).trans (keepStatus_job_self h8)

theorem endJob_job_other (hn : NoneRuns (clusterOf c) s) {d m : Nat} (h : d ≠ c) :
    (s.endJob c n status dcode dlen).job d m = s.job d m := by
  rw [(endJob_undisturbed hn).job, State.job, State.bank, keepStatus_core_other h]
  rfl

theorem endJob_wrote (hn : NoneRuns (clusterOf c) s) :
    ∀ e ∈ (s.endJob c n status dcode dlen).wrote, e ∈ s.wrote ∨ e.1 = clusterOf c :=
  (endJob_undisturbed hn).wrote

end

/-! ### The end of several -/

section
variable {status dcode : Nat}

theorem endHeads_cons (h : Head) (hs : List Head) :
    s.endHeads (h :: hs) status dcode = (s.endJob h.core h.slot status dcode 0).endHeads hs status dcode := rfl

theorem endHeads_arrays : ∀ {hs : List Head} {s : State}, (∀ h ∈ hs, clusterOf h.core = k) → NoneRuns k s →
    SameArrays s (s.endHeads hs status dcode)
  | [], _, _, _ => fun _ => rfl
  | h :: hs, s, hk, hn => by
    have h1 : SameArrays s (s.endJob h.core h.slot status dcode 0) := endJob_arrays (by rw [hk h (by simp)]; exact hn)
    exact h1.trans (endHeads_arrays (fun g hg => hk g (by simp [hg])) (h1.noneRuns hn))

theorem endHeads_wrote : ∀ {hs : List Head} {s : State}, (∀ h ∈ hs, clusterOf h.core = k) → NoneRuns k s →
    ∀ e ∈ (s.endHeads hs status dcode).wrote, e ∈ s.wrote ∨ e.1 = k
  | [], _, _, _ => fun _ he => .inl he
  | h :: hs, s, hk, hn => fun e he => by
    have hc : clusterOf h.core = k := hk h (by simp)
    rcases endHeads_wrote (fun g hg => hk g (by simp [hg])) ((endJob_arrays (hc ▸ hn)).noneRuns hn) e he with he | he
    · exact hc ▸ endJob_wrote (hc ▸ hn) e he
    · exact .inr he

theorem endHeads_job_other {c m : Nat} : ∀ {hs : List Head} {s : State}, (∀ h ∈ hs, clusterOf h.core = k) → NoneRuns k s →
    (∀ h ∈ hs, c ≠ h.core) → (s.endHeads hs status dcode).job c m = s.job c m
  | [], _, _, _, _ => rfl
  | h :: hs, s, hk, hn, hc => by
    have hn' : NoneRuns (clusterOf h.core) s := hk h (by simp) ▸ hn
    rw [endHeads_cons, endHeads_job_other (fun g hg => hk g (by simp [hg])) ((endJob_arrays hn').noneRuns hn)
      fun g hg => hc g (by simp [hg])]
    exact endJob_job_other hn' (hc h (by simp))

theorem endHeads_job {h : Head} : ∀ {hs : List Head} {s : State}, (∀ h ∈ hs, clusterOf h.core = k) → NoneRuns k s →
    (hs.map Head.core).Nodup → h ∈ hs → h.slot < 8 →
    (s.endHeads hs status dcode).job h.core h.slot = s.endedJob h.core h.slot status dcode 0
  | g :: hs, s, hk, hn, hd, hm, h8 => by
    have hn' : NoneRuns (clusterOf g.core) s := hk g (by simp) ▸ hn
    have hnext := (endJob_arrays (n := g.slot) (status := status) (dcode := dcode) (dlen := 0) hn').noneRuns hn
    have hk' : ∀ h ∈ hs, clusterOf h.core = k := fun h hh => hk h (by simp [hh])
    obtain ⟨hg, hd⟩ := List.nodup_cons.1 hd
    have hne : ∀ h ∈ hs, g.core ≠ h.core := fun h hh e => hg (e ▸ List.mem_map_of_mem hh)
    rw [endHeads_cons]
    rcases List.mem_cons.1 hm with rfl | hm
    · rw [endHeads_job_other hk' hnext hne]
      exact endJob_job_self hn' h8
    · rw [endHeads_job hk' hnext hd hm h8]
      exact endedJob_congr (endJob_job_other hn' (hne h hm).symm)

end

/-! ### Events of the harts -/

/-- An event's harts act on the state with no notes of theirs. -/
theorem hartEvent_congr {f g : State → Out} (h : f { s with wrote := [] } = g { s with wrote := [] }) :
    hartEvent s f = hartEvent s g := by rw [hartEvent, hartEvent, h]

/-- Harts that write in one cluster alone, where no context runs, wait for nothing. -/
theorem hartEvent_of_noneRuns {f : State → Out} (hf : f { s with wrote := [] } = .next t) (hn : NoneRuns k s)
    (hw : ∀ e ∈ t.wrote, e.1 = k) : hartEvent s f = .next { t with wrote := [] } := by
  have hwait : s.hartWaits t = false := by
    rw [State.hartWaits, List.any_eq_false]
    rintro ⟨l, w⟩ he
    have hl : l = k := hw _ he
    subst hl
    rw [Bool.not_eq_true, List.any_eq_false]
    intro p hp
    dsimp only
    rw [hn p hp, Bool.false_and, Bool.false_and]
    exact Bool.false_ne_true
  rw [hartEvent, hf]
  dsimp only
  rw [hwait, if_neg Bool.false_ne_true]

end

end Sys2Proof.Machine
end

section
/-! PROOF. The end of a running product (R51, R248, R260). -/

set_option Elab.async false

namespace Sys2Proof.Machine
open Sys2Proof.Claims

/-! ### An accumulator from its elements (R260) -/

theorem look_filterMap {α : Type} {g : Nat → Option α} (k : Nat) : ∀ ns : List Nat,
    Tab.look (ns.filterMap fun n => (g n).map fun x => (n, x)) k = if k ∈ ns then g k else none
  | [] => rfl
  | n :: ns => by
    have ih := look_filterMap (g := g) k ns
    cases hg : g n with
    | none =>
      rw [List.filterMap_cons_none (by rw [hg]; rfl), ih]
      by_cases hk : k = n
      · subst hk
        simp [hg]
      · simp [hk]
    | some x =>
      rw [List.filterMap_cons_some (b := (n, x)) (by rw [hg]; rfl), Tab.look, ih]
      by_cases hk : k = n
      · subst hk
        simp [hg]
      · simp [hk]

/-- What an accumulator lists for a position: nothing for +0. -/
def accEntry (f : Nat → Nat → Nat) (n : Nat) : Option F32 :=
  if f (n / 128) (n % 128) = 0 then none else some (BitVec.ofNat 32 (f (n / 128) (n % 128)))

theorem accFrom_eq (f : Nat → Nat → Nat) :
    accFrom f = (List.range 2048).filterMap fun n => (accEntry f n).map fun x => (n, x) := by
  refine List.filterMap_congr fun n _ => ?_
  rw [accEntry]
  dsimp only
  split <;> rfl

theorem accAt_accFrom {x : Core} {f : Nat → Nat → Nat} (hx : x.acc = accFrom f) {r c : Nat} (hr : r < 16) (hc : c < 128)
    (hf : f r c < 2 ^ 32) : x.accAt r c = f r c := by
  have h1 : (r * 128 + c) / 128 = r := by omega
  have h2 : (r * 128 + c) % 128 = c := by omega
  rw [Core.accAt, hx, accFrom_eq, Tab.get, look_filterMap, if_pos (List.mem_range.2 (by omega)), accEntry, h1, h2]
  split
  · next h => rw [h]; rfl
  · exact Nat.mod_eq_of_lt hf

theorem accAt_lt (x : Core) (r c : Nat) : x.accAt r c < 2 ^ 32 := (Tab.get x.acc (r * 128 + c) 0).isLt

/-! ### Unmasked positions (R248) -/

theorem unmasked_iff {mmsk : Word} {cols r c : Nat} :
    unmasked mmsk cols r c = true ↔ mmsk.getLsbD r = true ∧ c < cols ∧ c < mmsk.toNat / 2 ^ 16 % 256 := by
  rw [unmasked, Bool.and_eq_true, decide_eq_true_iff, fld_eq_div]
  exact and_congr_right fun _ => Nat.lt_min

/-! ### One product (R51) -/

theorem fma32_fmaStep (acc x y : Nat) : FmaStep x y acc (fma32 acc x y) :=
  ⟨_, likeScalar32_of (F := fun u v w => fmt32.fmaF u v w) x y acc fun _ _ _ _ => rfl⟩

theorem fma32_lt (acc x y : Nat) : fma32 acc x y < 2 ^ 32 := Fmt.finish_lt Fmt.usable32 _

/-- An element of an accumulator after the first products of its row and column. -/
def productSum (x y : Nat → Nat) (old : Nat) (q : Nat) : Nat :=
  (List.range q).foldl (fun acc k => fma32 acc (x k) (y k)) old

theorem productSum_succ (x y : Nat → Nat) (old q : Nat) :
    productSum x y old (q + 1) = fma32 (productSum x y old q) (x q) (y q) := by
  rw [productSum, List.range_succ, List.foldl_append]
  rfl

theorem productSum_lt {x y : Nat → Nat} {old : Nat} (h : old < 2 ^ 32) : ∀ q, productSum x y old q < 2 ^ 32
  | 0 => h
  | q + 1 => by
    rw [productSum_succ]
    exact fma32_lt _ _ _

/-! ### The members of a product of a joined array (R260, R264) -/

section
variable {s : State} {k : Nat} {slot : Nat → Nat} {job : Nat → Job}

/-- The heads of a cluster's cores. -/
def clusterHeads (k : Nat) (slot : Nat → Nat) (job : Nat → Job) : List Head :=
  (List.range 8).map fun i => { core := 8 * k + i, slot := slot i, job := job i }

theorem mem_clusterHeads {h : Head} :
    h ∈ clusterHeads k slot job ↔ ∃ i < 8, h = { core := 8 * k + i, slot := slot i, job := job i } := by
  simp only [clusterHeads, List.mem_map, List.mem_range, eq_comm]

theorem heads_coresOf (h : ∀ i < 8, HeadIs s (8 * k + i) (slot i) (job i)) :
    s.heads (coresOf k) = clusterHeads k slot job := by
  rw [State.heads, coresOf, List.filterMap_map, clusterHeads, ← List.filterMap_eq_map]
  refine List.filterMap_congr fun i hi => ?_
  have := h i (List.mem_range.1 hi)
  rw [HeadIs] at this
  simp only [Function.comp_def, this]
  rfl

theorem clusterHeads_getD {p : Nat} (hp : p < 8) (d : Head) :
    (clusterHeads k slot job).getD p d = { core := 8 * k + p, slot := slot p, job := job p } := by
  rw [clusterHeads, List.getD_eq_getElem?_getD, List.getElem?_map, List.getElem?_range hp]
  rfl

theorem clusterHeads_core : ∀ h ∈ clusterHeads k slot job, clusterOf h.core = k := by
  intro h hh
  obtain ⟨i, hi, rfl⟩ := mem_clusterHeads.1 hh
  show (8 * k + i) / 8 = k
  omega

theorem clusterHeads_nodup : ((clusterHeads k slot job).map Head.core).Nodup := by
  rw [clusterHeads, List.map_map]
  exact List.Nodup.map (fun i j h => Nat.add_left_cancel h) List.nodup_range

/-- The members of a plain product in a joined array are the cluster's eight heads. -/
theorem productMembers_joined (hsplit : (s.cluster k).split = false) (h : ∀ i < 8, HeadIs s (8 * k + i) (slot i) (job i))
    {i : Nat} (hi : i < 8) {j : Job} (hj : j.paired = false) :
    s.productMembers (8 * k + i) j = clusterHeads k slot job := by
  have hk : clusterOf (8 * k + i) = k := by
    show (8 * k + i) / 8 = k
    omega
  rw [State.productMembers, hj, hk, State.gangCores, hsplit]
  exact heads_coresOf h

/-! ### The accumulators replaced (R260) -/

/-- A member's accumulator and latches are replaced. -/
def State.putProduct (s : State) (hs : List Head) (t : State) (h : Head) : State :=
  t.modCore h.core fun x => { x with
    acc := s.productAcc hs h
    latchA := (s.productLatches hs h).1
    latchB := (s.productLatches hs h).2 }

theorem endProduct_done {hs : List Head} (h : ∀ g ∈ hs, s.memberBad g = none) :
    s.endProduct hs = (hs.foldl (s.putProduct hs) s).endHeads hs stDone 0 := by
  have hnone : (hs.findSome? fun g => (s.memberBad g).map fun e => (g, e)) = none := by
    rw [List.findSome?_eq_none_iff]
    intro g hg
    rw [h g hg]
    rfl
  rw [State.endProduct, hnone]
  rfl

theorem putProduct_core_other (hs : List Head) (t : State) (h : Head) {c : Nat} (hc : c ≠ h.core) :
    (s.putProduct hs t h).core c = t.core c := State.core_putCore_other _ _ _ _ hc

theorem foldl_putProduct_other {hs : List Head} {c : Nat} : ∀ (gs : List Head) (t : State), (∀ g ∈ gs, c ≠ g.core) →
    (gs.foldl (s.putProduct hs) t).core c = t.core c
  | [], _, _ => rfl
  | g :: gs, t, h => by
    rw [List.foldl_cons, foldl_putProduct_other gs _ fun g hg => h g (by simp [hg])]
    exact putProduct_core_other hs t g (h g (by simp))

theorem foldl_putProduct_acc {hs : List Head} {h : Head} : ∀ (gs : List Head) (t : State), (gs.map Head.core).Nodup →
    h ∈ gs → ((gs.foldl (s.putProduct hs) t).core h.core).acc = s.productAcc hs h
  | g :: gs, t, hd, hm => by
    obtain ⟨hg, hd⟩ := List.nodup_cons.1 hd
    rw [List.foldl_cons]
    rcases List.mem_cons.1 hm with rfl | hm
    · rw [foldl_putProduct_other (c := h.core) gs _ fun g' hg' e => hg (e ▸ List.mem_map_of_mem hg'), State.putProduct, State.modCore,
        State.core_putCore_self]
    · exact foldl_putProduct_acc gs _ hd hm

/-- The product changes no job and no context. -/
theorem putProduct_keeps (hs : List Head) (t : State) (h : Head) (c : Nat) :
    ((s.putProduct hs t h).core c).ctxs = (t.core c).ctxs ∧ ((s.putProduct hs t h).core c).bank = (t.core c).bank := by
  by_cases hc : c = h.core
  · rw [State.putProduct, State.modCore, hc, State.core_putCore_self]
    exact ⟨rfl, rfl⟩
  · rw [putProduct_core_other hs t h hc]
    exact ⟨rfl, rfl⟩

theorem foldl_putProduct_keeps {hs : List Head} (c : Nat) : ∀ (gs : List Head) (t : State),
    ((gs.foldl (s.putProduct hs) t).core c).ctxs = (t.core c).ctxs ∧
      ((gs.foldl (s.putProduct hs) t).core c).bank = (t.core c).bank
  | [], _ => ⟨rfl, rfl⟩
  | g :: gs, t => by
    obtain ⟨h1, h2⟩ := foldl_putProduct_keeps c gs (s.putProduct hs t g)
    obtain ⟨h3, h4⟩ := putProduct_keeps (s := s) hs t g c
    exact ⟨h1.trans h3, h2.trans h4⟩

theorem foldl_putProduct_wrote {hs : List Head} : ∀ (gs : List Head) (t : State),
    (gs.foldl (s.putProduct hs) t).wrote = t.wrote
  | [], _ => rfl
  | _ :: gs, _ => foldl_putProduct_wrote gs _

/-- What a member's accumulator holds after the product. -/
theorem productAcc_at {i : Nat} (hp : (job i).paired = false) {x : Core}
    (hx : x.acc = s.productAcc (clusterHeads k slot job) { core := 8 * k + i, slot := slot i, job := job i })
    {r c : Nat} (hr : r < 16) (hc : c < 128) :
    let j := job i
    let p := c / 16
    x.accAt r c =
      if unmasked j.cr.mmsk 128 r c then
        productSum (fun q => s.inputAt (8 * k + i) j.tmA (j.cr.fmta.toNat % 4) r q)
          (fun q => s.inputAt (8 * k + p) (job p).tmB ((job p).cr.fmtb.toNat % 4) q (c % 16)) ((s.core (8 * k + i)).accAt r c)
          (tmCols j.tmA)
      else (s.core (8 * k + i)).accAt r c := by
  intro j p
  have hlen : (clusterHeads k slot job).length = 8 := by simp [clusterHeads]
  have hfld (x : Word) : fld x 1 0 = x.toNat % 4 := by
    rw [fld_eq_div, pow_zero, Nat.div_one]
    rfl
  have hget := clusterHeads_getD (k := k) (slot := slot) (job := job) (p := p) (by omega)
    { core := 8 * k + i, slot := slot i, job := job i }
  rw [State.productAcc] at hx
  simp only [hp, hlen, if_neg Bool.false_ne_true] at hx
  have hf : (if unmasked j.cr.mmsk 128 r c then
        productSum (fun q => s.inputAt (8 * k + i) j.tmA (j.cr.fmta.toNat % 4) r q)
          (fun q => s.inputAt (8 * k + p) (job p).tmB ((job p).cr.fmtb.toNat % 4) q (c % 16)) ((s.core (8 * k + i)).accAt r c)
          (tmCols j.tmA)
      else (s.core (8 * k + i)).accAt r c) < 2 ^ 32 := by
    split
    · exact productSum_lt (accAt_lt _ _ _) _
    · exact accAt_lt _ _ _
  have := accAt_accFrom hx hr hc
  rw [hget] at this
  simp only [hfld] at this
  cases hu : unmasked j.cr.mmsk 128 r c <;> rw [hu] at hf this
  · exact this hf
  · exact this hf

/-- The end of a running product of a joined array. -/
theorem jobEnd_product (hidle : IdleCluster s k) (hsplit : (s.cluster k).split = false)
    (hjobs : ∀ i < 8, HeadIs s (8 * k + i) (slot i) (job i) ∧ (job i).kind = 0 ∧ (job i).ops = [0] ∧ (job i).st = .running ∧
      s.memberBad { core := 8 * k + i, slot := slot i, job := job i } = none)
    (howed : ∀ o ∈ (s.core (8 * k + 0)).owed, o.slot ≠ slot 0) :
    ∃ t : State, exec (.jobEnd (8 * k + 0) (slot 0)) s = .next t ∧ ∀ i < 8, EndedWith s t (8 * k + i) (slot i) 0 0 0 ∧
      (t.core (8 * k + i)).acc =
        s.productAcc (clusterHeads k slot job) { core := 8 * k + i, slot := slot i, job := job i } := by
  have hheads (i : Nat) (hi : i < 8) : HeadIs s (8 * k + i) (slot i) (job i) := (hjobs i hi).1
  obtain ⟨hhead, hkind, hops, hst, -⟩ := hjobs 0 (by norm_num)
  have hpaired : (job 0).paired = false := by
    rw [Job.paired, hops]
    exact Bool.and_eq_false_iff.2 (.inr rfl)
  let s' : State := { s with wrote := [] }
  let hs := clusterHeads k slot job
  let u := hs.foldl (s'.putProduct hs) s'
  have hn : NoneRuns k s := noneRuns_of_idle hidle
  have hu : NoneRuns k u := fun p hp => by
    have : (u.core p.1).ctxs = (s.core p.1).ctxs := (foldl_putProduct_keeps p.1 hs s').1
    rw [State.ctx, Core.ctx, this]
    exact hn p hp
  have hjob (c n : Nat) : u.job c n = s.job c n := by
    have : u.bank c = s.bank c := (foldl_putProduct_keeps c hs s').2
    rw [State.job, State.job, this]
  have hbody : execJobEnd (8 * k + 0) (slot 0) s = hartEvent s fun s => .next (s.endProduct (s.productMembers (8 * k + 0) (job 0))) := by
    have hfree : ((s.core (8 * k + 0)).owed.any fun o => decide (o.slot = slot 0)) = false := by
      rw [List.any_eq_false]
      intro o ho
      simpa using howed o ho
    rw [execJobEnd, hfree, if_neg Bool.false_ne_true, headIs_job_eq hhead, if_pos ⟨hkind, hst⟩]
  have hdone : s'.endProduct (s'.productMembers (8 * k + 0) (job 0)) = u.endHeads hs stDone 0 := by
    have hm : s'.productMembers (8 * k + 0) (job 0) = hs := productMembers_joined hsplit hheads (by norm_num) hpaired
    rw [hm]
    refine endProduct_done fun g hg => ?_
    obtain ⟨i, hi, rfl⟩ := mem_clusterHeads.1 hg
    obtain ⟨-, -, -, -, hbad⟩ := hjobs i hi
    exact hbad
  have hcore : ∀ h ∈ hs, clusterOf h.core = k := clusterHeads_core
  refine ⟨_, hbody.trans (hartEvent_of_noneRuns (congrArg Host.Outcome.next hdone) hn fun e he => ?_), fun i hi => ⟨?_, ?_⟩⟩
  · rcases endHeads_wrote hcore hu e he with he | he
    · have hw : u.wrote = [] := foldl_putProduct_wrote hs s'
      rw [hw] at he
      cases he
    · exact he
  · have hmem : { core := 8 * k + i, slot := slot i, job := job i } ∈ hs := mem_clusterHeads.2 ⟨i, hi, rfl⟩
    have := endHeads_job (status := stDone) (dcode := 0) hcore hu clusterHeads_nodup hmem (headIs_slot_lt (hheads i hi))
    exact endedWith_of_job (this.trans (endedJob_congr (hjob _ _))) (by decide) (by decide) (by decide)
  · have hmem : { core := 8 * k + i, slot := slot i, job := job i } ∈ hs := mem_clusterHeads.2 ⟨i, hi, rfl⟩
    exact ((endHeads_arrays hcore hu).acc _).trans (foldl_putProduct_acc hs s' clusterHeads_nodup hmem)

/-- R50, R51, R260: what the end of a running product leaves in the accumulators. -/
theorem jobEnd_productSums (hidle : IdleCluster s k) (hsplit : (s.cluster k).split = false)
    (hjobs : ∀ i < 8, HeadIs s (8 * k + i) (slot i) (job i) ∧ (job i).kind = 0 ∧ (job i).ops = [0] ∧ (job i).st = .running ∧
      s.memberBad { core := 8 * k + i, slot := slot i, job := job i } = none)
    (howed : ∀ o ∈ (s.core (8 * k + 0)).owed, o.slot ≠ slot 0) :
    ∃ t : State, exec (.jobEnd (8 * k + 0) (slot 0)) s = .next t ∧
      ∀ i < 8, EndedWith s t (8 * k + i) (slot i) 0 0 0 ∧ ∀ r < 16, ∀ c < 128,
        let old := (s.core (8 * k + i)).accAt r c
        let new := (t.core (8 * k + i)).accAt r c
        let p := c / 16
        let isOpen := (job i).cr.mmsk.getLsbD r = true ∧ c < 128 ∧ c < (job i).cr.mmsk.toNat / 2 ^ 16 % 256
        (¬isOpen → new = old) ∧
        (isOpen → ∃ sum : Nat → Nat, sum 0 = old ∧ sum (tmCols (job i).tmA) = new ∧
          ∀ q < tmCols (job i).tmA,
            FmaStep (s.inputAt (8 * k + i) (job i).tmA ((job i).cr.fmta.toNat % 4) r q)
              (s.inputAt (8 * k + p) (job p).tmB ((job p).cr.fmtb.toNat % 4) q (c % 16)) (sum q) (sum (q + 1))) := by
  obtain ⟨t, hx, ht⟩ := jobEnd_product hidle hsplit hjobs howed
  refine ⟨t, hx, fun i hi => ⟨(ht i hi).1, fun r hr c hc => ?_⟩⟩
  obtain ⟨-, -, hops, -, -⟩ := hjobs i hi
  have hpaired : (job i).paired = false := by
    rw [Job.paired, hops]
    exact Bool.and_eq_false_iff.2 (.inr rfl)
  have hnew := productAcc_at hpaired (ht i hi).2 hr hc
  refine ⟨fun hm => ?_, fun hm => ?_⟩
  · rw [hnew, if_neg (mt unmasked_iff.1 hm)]
  · rw [hnew, if_pos (unmasked_iff.2 hm)]
    refine ⟨_, rfl, rfl, fun q _ => ?_⟩
    rw [productSum_succ]
    exact fma32_fmaStep _ _ _

end

end Sys2Proof.Machine
end

section
/-! PROOF. Maps of the accumulator in TCM (R113, R244, R263), and jobs that run at the head of a slice queue. -/

set_option Elab.async false

namespace Sys2Proof.Machine
open Sys2Proof.Claims

/-! ### Bytes of a core's map (R113) -/

theorem ofBytes_map_range : ∀ (n : Nat) (b : Nat → Byte),
    ofBytes ((List.range n).map b) = ((List.range n).map fun i => (b i).toNat * 256 ^ i).sum
  | 0, _ => rfl
  | n + 1, b => by
    have ih := ofBytes_map_range n fun i => b (i + 1)
    rw [List.range_succ_eq_map, List.map_cons, List.map_map, ofBytes, List.map_cons, List.map_map, List.sum_cons,
      pow_zero, Nat.mul_one]
    refine congrArg ((b 0).toNat + ·) ((congrArg (256 * ·) ih).trans ?_)
    rw [← List.sum_map_mul_left]
    refine congrArg List.sum (List.map_congr_left fun i _ => ?_)
    simp only [Function.comp_def, pow_succ]
    ring

section
variable {s : State} {c : Nat}

theorem localByte_eq (h : Unshared s c) (a : Nat) : s.localByte c a = localPlace c a := by
  rw [State.localByte, localPlace, tcmByte_of_unshared h, spadByte_of_unshared h]
  rfl

theorem localPlace_tcm {a : Nat} (h : a < 2 ^ 18) : localPlace c a = some (2 ^ 41 + c * 2 ^ 18 + a) := if_pos h

theorem localNum_eq (m : Memory) (c a n : Nat) :
    localNum m c a n = ofBytes ((List.range n).map fun i => m.byte ((localPlace c (a + i)).getD 0)) :=
  (ofBytes_map_range n _).symm

theorem localRead_eq (h : Unshared s c) (hne : NoErrors s) (a n : Nat) : s.localRead c a n = localNum s.mem c a n := by
  obtain ⟨hu, hb⟩ := hne
  have hs : s.sound = true := by rw [State.sound, hu, hb]; rfl
  rw [State.localRead, hs, localNum_eq]
  simp only [Bool.true_or, if_true, localByte_eq h]

theorem localRead_lt (a n : Nat) : s.localRead c a n < 256 ^ n := by
  rw [State.localRead]
  refine (ofBytes_lt _).trans_eq ?_
  rw [List.length_map, List.length_range]

theorem uncorrectableAt_of_noErrors (hne : NoErrors s) (a : Nat) : s.uncorrectableAt a = false := by
  obtain ⟨hu, hb⟩ := hne
  rw [State.uncorrectableAt, State.failedIn, hu, hb]
  rfl

theorem localBad_of_backed (h : Unshared s c) (hne : NoErrors s) {a n : Nat} (hb : ∀ i < n, (localPlace c (a + i)).isSome = true) :
    s.localBad c a n = none := by
  rw [State.localBad, List.findSome?_eq_none_iff]
  intro i hi
  obtain ⟨p, hp⟩ := Option.isSome_iff_exists.1 (hb i (List.mem_range.1 hi))
  rw [localByte_eq h, hp]
  exact if_neg (by rw [uncorrectableAt_of_noErrors hne]; exact Bool.false_ne_true)

end

/-! ### Maps of a whole accumulator (R244, R263) -/

/-- A map of 16 rows of 128 words of TCM. -/
structure AccMap (t : BitVec 256) : Prop where
  rows : tmRows t = 16
  cols : tmCols t = 128
  size : tmSize t = 4
  stride : 512 ≤ tmStride t
  last : tmBase t + 15 * tmStride t + 512 ≤ 2 ^ 18

section
variable {s : State} {c : Nat} {t : BitVec 256}

theorem accMap_of_words (hrows : tmRows t = 16) (hcols : tmCols t = 128) (het : tmEt t = 5)
    (hstride : tmCols t * tmSize t ≤ tmStride t) (hlast : tmBase t + tmSpan t ≤ 2 ^ 18) : AccMap t := by
  have hsize : tmSize t = 4 := by rw [tmSize, het]; rfl
  rw [hcols, hsize] at hstride
  rw [tmSpan, hrows, hcols, hsize] at hlast
  exact ⟨hrows, hcols, hsize, hstride, (Nat.add_assoc _ _ _).trans_le hlast⟩

theorem AccMap.elem (h : AccMap t) (r q : Nat) : tmElem t r q = tmBase t + r * tmStride t + q * 4 := by
  rw [tmElem, h.size]

theorem AccMap.elem_le (h : AccMap t) {r q : Nat} (hr : r < 16) (hq : q < 128) : tmElem t r q + 4 ≤ 2 ^ 18 := by
  have := h.last
  have : r * tmStride t ≤ 15 * tmStride t := Nat.mul_le_mul_right _ (by omega)
  rw [h.elem]
  omega

/-- Elements of the map do not overlap. -/
theorem AccMap.elem_inj (h : AccMap t) {r q i r' q' i' : Nat} (hq : q < 128) (hi : i < 4) (hq' : q' < 128) (hi' : i' < 4)
    (he : tmElem t r q + i = tmElem t r' q' + i') : r = r' ∧ q = q' ∧ i = i' := by
  have hs := h.stride
  rw [h.elem, h.elem] at he
  have hr : r = r' := by
    rcases lt_trichotomy r r' with hlt | rfl | hlt
    · have : (r + 1) * tmStride t ≤ r' * tmStride t := Nat.mul_le_mul_right _ hlt
      rw [Nat.add_mul, Nat.one_mul] at this
      omega
    · rfl
    · have : (r' + 1) * tmStride t ≤ r * tmStride t := Nat.mul_le_mul_right _ hlt
      rw [Nat.add_mul, Nat.one_mul] at this
      omega
  subst hr
  omega

theorem AccMap.mapBad (h : AccMap t) (hu : Unshared s c) (hne : NoErrors s) : s.mapBad c t = none := by
  rw [State.mapBad, List.findSome?_eq_none_iff]
  intro r hr
  rw [h.rows, List.mem_range] at hr
  refine localBad_of_backed hu hne fun i hi => ?_
  rw [h.cols, h.size] at hi
  have := h.elem_le hr (q := 127) (by norm_num)
  rw [h.elem] at this ⊢
  rw [localPlace_tcm (by omega)]
  rfl

end

/-! ### Cells written in turn -/

/-- A byte that every cell of its address gives is the byte after the writes. -/
theorem Memory.byte_fold_of {a : Nat} {b : Byte} : ∀ (cells : List (Nat × Byte)) (m : Memory), (∃ e ∈ cells, e.1 = a) →
    (∀ e ∈ cells, e.1 = a → e.2 = b) → (cells.foldl (fun m e => m.put e.1 e.2) m : Memory).byte a = b
  | e :: cells, m, hex, hall => by
    rw [List.foldl_cons]
    by_cases hrest : ∃ e ∈ cells, e.1 = a
    · exact Memory.byte_fold_of cells _ hrest fun e he => hall e (by simp [he])
    · have hne : ∀ e ∈ cells, a ≠ e.1 := fun e he h => hrest ⟨e, he, h.symm⟩
      rw [Memory.byte_fold_other cells _ a hne]
      obtain ⟨e', he', ha⟩ := hex
      rcases List.mem_cons.1 he' with rfl | he'
      · rw [← ha, Memory.byte_put_self]
        exact hall e' (by simp) ha
      · exact absurd ha.symm (hne e' he')

theorem mem_cellsFrom {e : Nat × Byte} : ∀ (bs : List Byte) (a : Nat),
    e ∈ cellsFrom a bs ↔ ∃ i < bs.length, e = (a + i, bs.getD i 0)
  | [], a => by simp [cellsFrom]
  | b :: bs, a => by
    rw [cellsFrom, List.mem_cons, mem_cellsFrom bs (a + 1)]
    constructor
    · rintro (rfl | ⟨i, hi, rfl⟩)
      · exact ⟨0, by simp, rfl⟩
      · exact ⟨i + 1, by simpa using hi, by rw [List.getD_cons_succ]; congr 1; omega⟩
    · rintro ⟨i, hi, rfl⟩
      cases i with
      | zero => exact .inl rfl
      | succ i => exact .inr ⟨i, by simpa using hi, by rw [List.getD_cons_succ]; congr 1; omega⟩

section
variable {s : State} {c : Nat}

/-- The cells of bytes of TCM. -/
theorem localCells_tcm (h : Unshared s c) {a : Nat} {bs : List Byte} (ha : a + bs.length ≤ 2 ^ 18) :
    s.localCells c a bs = cellsFrom (2 ^ 41 + c * 2 ^ 18 + a) bs := by
  rw [State.localCells]
  induction bs generalizing a with
  | nil => rfl
  | cons b bs ih =>
    rw [List.length_cons] at ha
    rw [cellsFrom, List.filterMap_cons_some (b := (2 ^ 41 + c * 2 ^ 18 + a, b))
      (by dsimp only; rw [localByte_eq h, localPlace_tcm (by omega)]; rfl), ih (by omega)]
    rfl

/-- A hart's writes where no context of its cluster runs. -/
theorem hartCells_of_noneRuns {k : Nat} (hn : NoneRuns k s) (cells : List (Nat × Byte)) :
    s.hartCells k cells = { s with
      wrote := Tab.put s.wrote k (Tab.get s.wrote k 0 ||| cellsSig cells)
      mem := cells.foldl (fun m e => m.put e.1 e.2) s.mem } := by
  rw [State.hartCells, State.hartMeets, couchAborts_of_noneRuns hn]
  rfl

/-! ### Jobs of the accumulator (R263) -/

variable {k n : Nat} {j : Job}

theorem clusterOf_core {i : Nat} (hi : i < 8) : clusterOf (8 * k + i) = k := by
  show (8 * k + i) / 8 = k
  omega

/-- What a job at the head of a slice queue does, and its end, in one event of the cluster's harts. -/
theorem accumulatorJobRun_ends (hidle : IdleCluster s (clusterOf c)) (hhead : HeadIs s c n j) {u : State}
    (hrun : exec (.accumulatorJobRun c) s = hartEvent s fun _ => .next (u.endJob c n stDone 0 0))
    (hctx : ∀ d, (u.core d).ctxs = (s.core d).ctxs) (hjob : u.job c n = s.job c n)
    (hw : ∀ e ∈ u.wrote, e.1 = clusterOf c) :
    ∃ t : State, exec (.accumulatorJobRun c) s = .next t ∧ EndedWith s t c n 0 0 0 ∧ SameArrays u t ∧
      ((u.job c n).mbox = 0 → t.mem = u.mem) := by
  have hn : NoneRuns (clusterOf c) s := noneRuns_of_idle hidle
  have hu : NoneRuns (clusterOf c) u := fun p hp => by
    rw [State.ctx, Core.ctx, hctx]
    exact hn p hp
  refine ⟨_, hrun.trans (hartEvent_of_noneRuns rfl hn fun e he => ?_), ?_, endJob_arrays hu, fun hm => ?_⟩
  · exact (endJob_wrote hu e he).elim (hw e) id
  · exact endedWith_of_job ((endJob_job_self hu (headIs_slot_lt hhead)).trans (endedJob_congr hjob)) (by decide)
      (by decide) (by decide)
  · rw [endJob_of_noMailbox hm]
    rfl

theorem execAccumulatorJobRun_eq (hhead : HeadIs s c n j) (hst : j.st = .queued) :
    execAccumulatorJobRun c s = hartEvent s fun s =>
      match j.kind with
      | 1 => .next ((s.clearAcc [c]).endJob c n stDone 0 0)
      | 2 => .next (s.runMsta c n j)
      | 3 => .next (s.runMlda c n j)
      | _ => .next s := by
  have hhead : s.sliceHead c = some (n, j) := hhead
  rw [execAccumulatorJobRun, hhead]
  dsimp only
  exact if_neg (not_not.2 hst)

end

end Sys2Proof.Machine
end

section
/-! PROOF. MZERO, MLDA and MSTA (R50, R263), and what products and accumulator jobs do together. -/

set_option Elab.async false

namespace Sys2Proof.Machine
open Sys2Proof.Claims

section
variable {s : State} {c n : Nat} {j : Job}

/-! ### MZERO -/

theorem accumulatorJobRun_mzero (hidle : IdleCluster s (clusterOf c)) (hhead : HeadIs s c n j) (hst : j.st = .queued)
    (hkind : j.kind = 1) : ∃ t : State, exec (.accumulatorJobRun c) s = .next t ∧ EndedWith s t c n 0 0 0 ∧
      (t.core c).latchA = [] ∧ (t.core c).latchB = [] ∧ ∀ r < 16, ∀ q < 128, (t.core c).accAt r q = 0 := by
  let u : State := State.clearAcc { s with wrote := [] } [c]
  have hself : u.core c = { s.core c with acc := [], latchA := [], latchB := [] } := State.core_putCore_self ..
  have hother (d : Nat) (h : d ≠ c) : u.core d = s.core d := State.core_putCore_other _ _ _ _ h
  have hrun : exec (.accumulatorJobRun c) s = hartEvent s fun _ => .next (u.endJob c n stDone 0 0) := by
    show execAccumulatorJobRun c s = _
    rw [execAccumulatorJobRun_eq hhead hst]
    simp only [hkind]
    exact hartEvent_congr rfl
  obtain ⟨t, hx, hend, harr, -⟩ := accumulatorJobRun_ends hidle hhead hrun
    (fun d => by
      by_cases h : d = c
      · rw [h, hself]
      · rw [hother d h])
    (by rw [State.job, State.bank, hself]; rfl) (fun e he => by cases he)
  refine ⟨t, hx, hend, (harr.latchA c).trans (by rw [hself]), (harr.latchB c).trans (by rw [hself]), fun r _ q _ => ?_⟩
  rw [Core.accAt, harr.acc, hself]
  rfl

/-! ### MLDA -/

theorem accumulatorJobRun_mlda (hidle : IdleCluster s (clusterOf c)) (hne : NoErrors s) (hhead : HeadIs s c n j)
    (hst : j.st = .queued) (hkind : j.kind = 3) (hmap : AccMap j.tmA) :
    ∃ t : State, exec (.accumulatorJobRun c) s = .next t ∧ EndedWith s t c n 0 0 0 ∧ ∀ r < 16, ∀ q < 128,
      (t.core c).accAt r q = if unmasked j.cr.mmsk 128 r q then localNum s.mem c (tmElem j.tmA r q) 4
        else (s.core c).accAt r q := by
  have hunsh : Unshared s c := hidle.1 c rfl
  let loaded (a b : Nat) : Nat :=
    if unmasked j.cr.mmsk 128 a b then s.localRead c (tmElem j.tmA a b) 4 else (s.core c).accAt a b
  let u : State := State.modCore { s with wrote := [] } c fun x => { x with acc := accFrom loaded }
  have hself : u.core c = { s.core c with acc := accFrom loaded } := State.core_putCore_self ..
  have hother (d : Nat) (h : d ≠ c) : u.core d = s.core d := State.core_putCore_other _ _ _ _ h
  have hrun : exec (.accumulatorJobRun c) s = hartEvent s fun _ => .next (u.endJob c n stDone 0 0) := by
    show execAccumulatorJobRun c s = _
    rw [execAccumulatorJobRun_eq hhead hst]
    simp only [hkind]
    refine hartEvent_congr (congrArg Host.Outcome.next ?_)
    have hbad : State.mapBad { s with wrote := [] } c j.tmA = none := hmap.mapBad hunsh hne
    rw [State.runMlda, hbad]
    simp only [hmap.cols]
    rfl
  obtain ⟨t, hx, hend, harr, -⟩ := accumulatorJobRun_ends hidle hhead hrun
    (fun d => by
      by_cases h : d = c
      · rw [h, hself]
      · rw [hother d h])
    (by rw [State.job, State.bank, hself]; rfl) (fun e he => by cases he)
  refine ⟨t, hx, hend, fun r hr q hq => ?_⟩
  have hread : s.localRead c (tmElem j.tmA r q) 4 < 256 ^ 4 := localRead_lt _ _
  refine (accAt_accFrom (f := loaded) (by rw [harr.acc, hself]) hr hq ?_).trans ?_
  · show (if _ then _ else _) < _
    split
    · exact hread.trans_eq (by norm_num)
    · exact accAt_lt _ _ _
  · rw [← localRead_eq hunsh hne]

/-! ### MSTA without scales (R50) -/

theorem FVal.mul_one {v : FVal} (h : v.isNan = false) : (v.mul (.num false 1 0)).1 = v := by
  cases v with
  | nan b => cases h
  | inf b => cases b <;> rfl
  | num b m e => cases b <;> simp [FVal.mul]

/-- Without scales the value stored for an element is the element. -/
theorem storeValue_unscaled {x : Core} {cr : CtxRegs} (ha : x.latchA = []) (hb : x.latchB = [])
    (hf : cr.fmtc.toNat % 4 = 0) {r q : Nat} (h : isNan fmt32 (x.accAt r q) = false) : x.storeValue cr r q = x.accAt r q := by
  have hfmt : fld cr.fmtc 1 0 = 0 := by
    rw [fld_eq_div, pow_zero, Nat.div_one]
    exact hf
  have hnan : (read32 (x.accAt r q)).isNan = false := (read_isNan Fmt.usable32 _).trans h
  have hone : scaleVal (([] : List (Nat × Nat)).getD r (0, 0)) = .num false 1 0 := rfl
  have hone' : scaleVal (([] : List (Nat × Nat)).getD q (0, 0)) = .num false 1 0 := rfl
  rw [Core.storeValue, hfmt, ha, hb, hone, hone']
  rw [FVal.mul_one hnan, FVal.mul_one hnan]
  exact congrArg Prod.fst (Fmt.pack_read_self Fmt.usable32 (accAt_lt _ _ _) h)

theorem mem_mapPositions {cr : CtxRegs} {t : BitVec 256} (hc : tmCols t = 128) {r q : Nat} :
    (r, q) ∈ mapPositions cr t ↔ r < 16 ∧ q < 128 ∧ unmasked cr.mmsk 128 r q = true := by
  simp only [mapPositions, hc, List.mem_flatMap, List.mem_filterMap, List.mem_range]
  constructor
  · rintro ⟨i, hi, k, hk, h⟩
    split at h
    · next hu =>
      cases h
      exact ⟨hi, hk, hu⟩
    · cases h
  · rintro ⟨hr, hq, hu⟩
    exact ⟨r, hr, q, hq, by rw [if_pos hu]⟩

/-- The cells that MSTA writes. -/
def storeCells (s : State) (c : Nat) (j : Job) : List (Nat × Byte) :=
  (mapPositions j.cr j.tmA).flatMap fun (a, b) =>
    s.localCells c (tmElem j.tmA a b) (toBytes (tmSize j.tmA) ((s.core c).storeValue j.cr a b))

theorem mem_storeCells (hmap : AccMap j.tmA) (hunsh : Unshared s c) {e : Nat × Byte} :
    e ∈ storeCells s c j ↔ ∃ r q i, r < 16 ∧ q < 128 ∧ i < 4 ∧ unmasked j.cr.mmsk 128 r q = true ∧
      e = (2 ^ 41 + c * 2 ^ 18 + tmElem j.tmA r q + i, (toBytes 4 ((s.core c).storeValue j.cr r q)).getD i 0) := by
  rw [storeCells, List.mem_flatMap]
  have hcells {r q : Nat} (hr : r < 16) (hq : q < 128) :
      s.localCells c (tmElem j.tmA r q) (toBytes (tmSize j.tmA) ((s.core c).storeValue j.cr r q)) =
        cellsFrom (2 ^ 41 + c * 2 ^ 18 + tmElem j.tmA r q) (toBytes 4 ((s.core c).storeValue j.cr r q)) := by
    rw [hmap.size]
    refine localCells_tcm hunsh ?_
    rw [toBytes_length]
    exact hmap.elem_le hr hq
  constructor
  · rintro ⟨⟨r, q⟩, hp, he⟩
    obtain ⟨hr, hq, hu⟩ := (mem_mapPositions hmap.cols).1 hp
    dsimp only at he
    rw [hcells hr hq, mem_cellsFrom, toBytes_length] at he
    obtain ⟨i, hi, rfl⟩ := he
    exact ⟨r, q, i, hr, hq, hi, hu, rfl⟩
  · rintro ⟨r, q, i, hr, hq, hi, hu, rfl⟩
    refine ⟨(r, q), (mem_mapPositions hmap.cols).2 ⟨hr, hq, hu⟩, ?_⟩
    dsimp only
    rw [hcells hr hq, mem_cellsFrom, toBytes_length]
    exact ⟨i, hi, rfl⟩

/-- A byte of an element after the cells are written. -/
theorem storeCells_byte (hmap : AccMap j.tmA) (hunsh : Unshared s c) (m : Memory) {r q i : Nat} (hr : r < 16) (hq : q < 128)
    (hi : i < 4) : ((storeCells s c j).foldl (fun m e => m.put e.1 e.2) m : Memory).byte
        (2 ^ 41 + c * 2 ^ 18 + tmElem j.tmA r q + i) =
      if unmasked j.cr.mmsk 128 r q then (toBytes 4 ((s.core c).storeValue j.cr r q)).getD i 0
      else m.byte (2 ^ 41 + c * 2 ^ 18 + tmElem j.tmA r q + i) := by
  have hsame {r' q' i' : Nat} (hq' : q' < 128) (hi' : i' < 4)
      (h : 2 ^ 41 + c * 2 ^ 18 + tmElem j.tmA r' q' + i' = 2 ^ 41 + c * 2 ^ 18 + tmElem j.tmA r q + i) :
      r' = r ∧ q' = q ∧ i' = i := hmap.elem_inj hq' hi' hq hi (by omega)
  split
  · next hu =>
    refine Memory.byte_fold_of _ m ⟨_, (mem_storeCells hmap hunsh).2 ⟨r, q, i, hr, hq, hi, hu, rfl⟩, rfl⟩ fun e he ha => ?_
    obtain ⟨r', q', i', -, hq', hi', -, rfl⟩ := (mem_storeCells hmap hunsh).1 he
    obtain ⟨rfl, rfl, rfl⟩ := hsame hq' hi' ha
    rfl
  · next hu =>
    refine Memory.byte_fold_other _ m _ fun e he ha => ?_
    obtain ⟨r', q', i', -, hq', hi', hu', rfl⟩ := (mem_storeCells hmap hunsh).1 he
    obtain ⟨rfl, rfl, rfl⟩ := hsame hq' hi' ha.symm
    exact hu hu'

/-- An element of the map after the cells are written. -/
theorem storeCells_num (hmap : AccMap j.tmA) (hunsh : Unshared s c) (m : Memory) {r q : Nat} (hr : r < 16) (hq : q < 128) :
    localNum ((storeCells s c j).foldl (fun m e => m.put e.1 e.2) m) c (tmElem j.tmA r q) 4 =
      if unmasked j.cr.mmsk 128 r q then (s.core c).storeValue j.cr r q % 2 ^ 32
      else localNum m c (tmElem j.tmA r q) 4 := by
  have hle := hmap.elem_le hr hq
  have hplace (i : Nat) (hi : i < 4) :
      (localPlace c (tmElem j.tmA r q + i)).getD 0 = 2 ^ 41 + c * 2 ^ 18 + tmElem j.tmA r q + i := by
    rw [localPlace_tcm (by omega), Option.getD_some]
    exact (Nat.add_assoc _ _ _).symm
  rw [localNum_eq, localNum_eq]
  cases hu : unmasked j.cr.mmsk 128 r q
  · refine congrArg ofBytes (List.map_congr_left fun i hi => ?_)
    have hi := List.mem_range.1 hi
    rw [hplace i hi, storeCells_byte hmap hunsh m hr hq hi, hu]
    rfl
  · rw [if_pos rfl, show (2 : Nat) ^ 32 = 256 ^ 4 from by norm_num, ← ofBytes_toBytes]
    refine congrArg ofBytes (List.ext_getElem (by simp) fun i h1 h2 => ?_)
    have hi : i < 4 := by simpa using h1
    rw [List.getElem_map, List.getElem_range, hplace i hi, storeCells_byte hmap hunsh m hr hq hi, hu, if_pos rfl,
      List.getD_eq_getElem?_getD, List.getElem?_eq_getElem h2]
    rfl

theorem runMsta_eq (hunsh : Unshared s c) (hne : NoErrors s) (hmap : AccMap j.tmA) :
    s.runMsta c n j = (s.hartCells (clusterOf c) (storeCells s c j)).endJob c n stDone 0 0 := by
  rw [State.runMsta, hmap.mapBad hunsh hne]
  rfl

theorem accumulatorJobRun_msta (hidle : IdleCluster s (clusterOf c)) (hne : NoErrors s) (hhead : HeadIs s c n j)
    (hst : j.st = .queued) (hkind : j.kind = 2) (hmap : AccMap j.tmA) (hmbox : j.mbox = 0) :
    ∃ t : State, exec (.accumulatorJobRun c) s = .next t ∧ EndedWith s t c n 0 0 0 ∧ ∀ r < 16, ∀ q < 128,
      localNum t.mem c (tmElem j.tmA r q) 4 = if unmasked j.cr.mmsk 128 r q then (s.core c).storeValue j.cr r q % 2 ^ 32
        else localNum s.mem c (tmElem j.tmA r q) 4 := by
  have hunsh : Unshared s c := hidle.1 c rfl
  let s' : State := { s with wrote := [] }
  let u : State := s'.hartCells (clusterOf c) (storeCells s' c j)
  have hn : NoneRuns (clusterOf c) s' := noneRuns_of_idle hidle
  have hu := hartCells_of_noneRuns hn (storeCells s' c j)
  have hrun : exec (.accumulatorJobRun c) s = hartEvent s fun _ => .next (u.endJob c n stDone 0 0) := by
    show execAccumulatorJobRun c s = _
    rw [execAccumulatorJobRun_eq hhead hst]
    simp only [hkind]
    exact hartEvent_congr (congrArg Host.Outcome.next (runMsta_eq (s := s') hunsh hne hmap))
  have hcore (d : Nat) : u.core d = s.core d := by
    rw [State.core, congrArg State.cores hu]
    rfl
  have hjob : u.job c n = s.job c n := by rw [State.job, State.job, State.bank, hcore, State.bank]
  have hw : u.wrote = Tab.put [] (clusterOf c) (Tab.get [] (clusterOf c) 0 ||| cellsSig (storeCells s' c j)) :=
    congrArg State.wrote hu
  obtain ⟨t, hx, hend, -, hmem⟩ := accumulatorJobRun_ends hidle hhead hrun (fun d => by rw [hcore]) hjob fun e he => by
    rw [hw] at he
    rcases Tab.mem_put he with he | rfl
    · cases he
    · rfl
  have hm : t.mem = (storeCells s' c j).foldl (fun m e => m.put e.1 e.2) s.mem :=
    (hmem (by rw [hjob, headIs_job_eq hhead]; exact hmbox)).trans (congrArg State.mem hu)
  refine ⟨t, hx, hend, fun r hr q hq => ?_⟩
  rw [hm]
  exact storeCells_num (s := s') hmap hunsh _ hr hq

end

/-! ### Products and accumulators together -/

/-- Settles O32: the end of a product through the sums of its elements, and the accumulator jobs one by one. -/
theorem productsAndAccumulators : Obligations.ProductsAndAccumulators := by
  intro s k slot job _ hidle hsplit core open_ fits
  have hmap (j : Job) (h : fits j 5) : AccMap j.tmA := by
    obtain ⟨hrows, hcols, het, hstride, hlast⟩ := h
    exact accMap_of_words hrows hcols het hstride hlast
  refine ⟨fun hjobs howed => jobEnd_productSums hidle hsplit hjobs howed, fun i n j hi hhead hst hne => ?_⟩
  have hidle' : IdleCluster s (clusterOf (core i)) := by
    have : clusterOf (core i) = k := clusterOf_core hi
    rw [this]
    exact hidle
  refine ⟨fun hkind => accumulatorJobRun_mzero hidle' hhead hst hkind, fun hkind hfits => ?_,
    fun hkind hfits hfmt hmbox ha hb => ?_⟩
  · obtain ⟨t, hx, hend, hval⟩ := accumulatorJobRun_mlda hidle' hne hhead hst hkind (hmap j hfits)
    refine ⟨t, hx, hend, fun r hr q hq => ⟨fun hm => ?_, fun hm => ?_⟩⟩
    · rw [hval r hr q hq, if_pos (unmasked_iff.2 hm)]
    · rw [hval r hr q hq, if_neg (mt unmasked_iff.1 hm)]
  · obtain ⟨t, hx, hend, hval⟩ := accumulatorJobRun_msta hidle' hne hhead hst hkind (hmap j hfits) hmbox
    refine ⟨t, hx, hend, fun r hr q hq => ⟨fun hm hnan => ?_, fun hm => ?_⟩⟩
    · rw [hval r hr q hq, if_pos (unmasked_iff.2 hm), storeValue_unscaled ha hb hfmt hnan]
      exact Nat.mod_eq_of_lt (accAt_lt _ _ _)
    · rw [hval r hr q hq, if_neg (mt unmasked_iff.1 hm)]

end Sys2Proof.Machine
end

section
/-! PROOF. Decoding after encoding (R56 to R68, R76): the laws of the instructions one by one, put together. -/

set_option Elab.async false

namespace Sys2Proof.Laws

/-- Decoding the encoding of every well-formed instruction gives it back: each instruction by its own law, and the
events of the device, which have no encoding, together. -/
theorem RoundTrip.every (i : Instr) : RoundTrip.Statement i := by
  cases i with
  | add => exact RoundTrip.add _ _ _
  | sub => exact RoundTrip.sub _ _ _
  | and => exact RoundTrip.and _ _ _
  | or => exact RoundTrip.or _ _ _
  | xor => exact RoundTrip.xor _ _ _
  | andn => exact RoundTrip.andn _ _ _
  | orn => exact RoundTrip.orn _ _ _
  | sll => exact RoundTrip.sll _ _ _
  | srl => exact RoundTrip.srl _ _ _
  | sra => exact RoundTrip.sra _ _ _
  | rol => exact RoundTrip.rol _ _ _
  | ror => exact RoundTrip.ror _ _ _
  | slt => exact RoundTrip.slt _ _ _
  | sltu => exact RoundTrip.sltu _ _ _
  | min => exact RoundTrip.min _ _ _
  | max => exact RoundTrip.max _ _ _
  | minu => exact RoundTrip.minu _ _ _
  | maxu => exact RoundTrip.maxu _ _ _
  | mul => exact RoundTrip.mul _ _ _
  | mulh => exact RoundTrip.mulh _ _ _
  | mulhu => exact RoundTrip.mulhu _ _ _
  | div => exact RoundTrip.div _ _ _
  | divu => exact RoundTrip.divu _ _ _
  | rem => exact RoundTrip.rem _ _ _
  | remu => exact RoundTrip.remu _ _ _
  | addw => exact RoundTrip.addw _ _ _
  | subw => exact RoundTrip.subw _ _ _
  | sllw => exact RoundTrip.sllw _ _ _
  | srlw => exact RoundTrip.srlw _ _ _
  | sraw => exact RoundTrip.sraw _ _ _
  | mulw => exact RoundTrip.mulw _ _ _
  | clz => exact RoundTrip.clz _ _
  | ctz => exact RoundTrip.ctz _ _
  | popc => exact RoundTrip.popc _ _
  | bswp => exact RoundTrip.bswp _ _
  | sextb => exact RoundTrip.sextb _ _
  | sexth => exact RoundTrip.sexth _ _
  | sextw => exact RoundTrip.sextw _ _
  | zextb => exact RoundTrip.zextb _ _
  | zexth => exact RoundTrip.zexth _ _
  | zextw => exact RoundTrip.zextw _ _
  | addi => exact RoundTrip.addi _ _ _
  | andi => exact RoundTrip.andi _ _ _
  | ori => exact RoundTrip.ori _ _ _
  | xori => exact RoundTrip.xori _ _ _
  | slti => exact RoundTrip.slti _ _ _
  | sltiu => exact RoundTrip.sltiu _ _ _
  | addiw => exact RoundTrip.addiw _ _ _
  | slli => exact RoundTrip.slli _ _ _
  | srli => exact RoundTrip.srli _ _ _
  | srai => exact RoundTrip.srai _ _ _
  | roli => exact RoundTrip.roli _ _ _
  | slliw => exact RoundTrip.slliw _ _ _
  | srliw => exact RoundTrip.srliw _ _ _
  | sraiw => exact RoundTrip.sraiw _ _ _
  | lih => exact RoundTrip.lih _ _
  | addpc => exact RoundTrip.addpc _ _
  | lb => exact RoundTrip.lb _ _ _
  | lbu => exact RoundTrip.lbu _ _ _
  | lh => exact RoundTrip.lh _ _ _
  | lhu => exact RoundTrip.lhu _ _ _
  | lw => exact RoundTrip.lw _ _ _
  | lwu => exact RoundTrip.lwu _ _ _
  | ld => exact RoundTrip.ld _ _ _
  | sb => exact RoundTrip.sb _ _ _
  | sh => exact RoundTrip.sh _ _ _
  | sw => exact RoundTrip.sw _ _ _
  | sd => exact RoundTrip.sd _ _ _
  | beq => exact RoundTrip.beq _ _ _
  | bne => exact RoundTrip.bne _ _ _
  | blt => exact RoundTrip.blt _ _ _
  | bge => exact RoundTrip.bge _ _ _
  | bltu => exact RoundTrip.bltu _ _ _
  | bgeu => exact RoundTrip.bgeu _ _ _
  | jal => exact RoundTrip.jal _ _
  | jalr => exact RoundTrip.jalr _ _ _
  | faddS => exact RoundTrip.faddS _ _ _
  | fsubS => exact RoundTrip.fsubS _ _ _
  | fmulS => exact RoundTrip.fmulS _ _ _
  | fdivS => exact RoundTrip.fdivS _ _ _
  | fsqrtS => exact RoundTrip.fsqrtS _ _
  | fmaS => exact RoundTrip.fmaS _ _ _
  | fminS => exact RoundTrip.fminS _ _ _
  | fmaxS => exact RoundTrip.fmaxS _ _ _
  | feqS => exact RoundTrip.feqS _ _ _
  | fltS => exact RoundTrip.fltS _ _ _
  | fleS => exact RoundTrip.fleS _ _ _
  | fclassS => exact RoundTrip.fclassS _ _
  | fnegS => exact RoundTrip.fnegS _ _
  | fabsS => exact RoundTrip.fabsS _ _
  | fcvtifS => exact RoundTrip.fcvtifS _ _
  | fcvtfiS => exact RoundTrip.fcvtfiS _ _
  | fcvtfirS => exact RoundTrip.fcvtfirS _ _
  | fcvtbfS => exact RoundTrip.fcvtbfS _ _
  | fcvtfbS => exact RoundTrip.fcvtfbS _ _
  | fcvtpdS => exact RoundTrip.fcvtpdS _ _
  | faddD => exact RoundTrip.faddD _ _ _
  | fsubD => exact RoundTrip.fsubD _ _ _
  | fmulD => exact RoundTrip.fmulD _ _ _
  | fdivD => exact RoundTrip.fdivD _ _ _
  | fsqrtD => exact RoundTrip.fsqrtD _ _
  | fmaD => exact RoundTrip.fmaD _ _ _
  | fminD => exact RoundTrip.fminD _ _ _
  | fmaxD => exact RoundTrip.fmaxD _ _ _
  | feqD => exact RoundTrip.feqD _ _ _
  | fltD => exact RoundTrip.fltD _ _ _
  | fleD => exact RoundTrip.fleD _ _ _
  | fclassD => exact RoundTrip.fclassD _ _
  | fnegD => exact RoundTrip.fnegD _ _
  | fabsD => exact RoundTrip.fabsD _ _
  | fcvtifD => exact RoundTrip.fcvtifD _ _
  | fcvtfiD => exact RoundTrip.fcvtfiD _ _
  | fcvtfirD => exact RoundTrip.fcvtfirD _ _
  | fcvtbfD => exact RoundTrip.fcvtbfD _ _
  | fcvtfbD => exact RoundTrip.fcvtfbD _ _
  | fcvtpdD => exact RoundTrip.fcvtpdD _ _
  | crr => exact RoundTrip.crr _ _
  | crw => exact RoundTrip.crw _ _ _
  | crset => exact RoundTrip.crset _ _ _
  | crclr => exact RoundTrip.crclr _ _ _
  | halt => exact RoundTrip.halt
  | haltr => exact RoundTrip.haltr _
  | commit => exact RoundTrip.commit
  | abort => exact RoundTrip.abort
  | trapi => exact RoundTrip.trapi _
  | budgq => exact RoundTrip.budgq _
  | send => exact RoundTrip.send _ _ _
  | rply => exact RoundTrip.rply _ _ _
  | sendq => exact RoundTrip.sendq _ _ _
  | resend => exact RoundTrip.resend _ _
  | dropr => exact RoundTrip.dropr _ _
  | hset => exact RoundTrip.hset _ _
  | cwait => exact RoundTrip.cwait _ _ _
  | pwait => exact RoundTrip.pwait _ _ _
  | cadv => exact RoundTrip.cadv _ _
  | padv => exact RoundTrip.padv _ _
  | hqry => exact RoundTrip.hqry _ _
  | aadd => exact RoundTrip.aadd _ _ _
  | aand => exact RoundTrip.aand _ _ _
  | aor => exact RoundTrip.aor _ _ _
  | axor => exact RoundTrip.axor _ _ _
  | amax => exact RoundTrip.amax _ _ _
  | amin => exact RoundTrip.amin _ _ _
  | amaxu => exact RoundTrip.amaxu _ _ _
  | aminu => exact RoundTrip.aminu _ _ _
  | aswp => exact RoundTrip.aswp _ _ _
  | acas => exact RoundTrip.acas _ _ _
  | aincw => exact RoundTrip.aincw _ _ _
  | abfa => exact RoundTrip.abfa _ _ _
  | afadd => exact RoundTrip.afadd _ _ _
  | afmax => exact RoundTrip.afmax _ _ _
  | amxr => exact RoundTrip.amxr _ _ _
  | rels => exact RoundTrip.rels _
  | acqs => exact RoundTrip.acqs
  | fence => exact RoundTrip.fence
  | gid => exact RoundTrip.gid _ _
  | gspawn => exact RoundTrip.gspawn _ _ _
  | gdone => exact RoundTrip.gdone _
  | barrAnd => exact RoundTrip.barrAnd _ _
  | barrOr => exact RoundTrip.barrOr _ _
  | barrSum => exact RoundTrip.barrSum _ _
  | barrPopc => exact RoundTrip.barrPopc _ _
  | bargAnd => exact RoundTrip.bargAnd _ _
  | bargOr => exact RoundTrip.bargOr _ _
  | bargSum => exact RoundTrip.bargSum _ _
  | bargPopc => exact RoundTrip.bargPopc _ _
  | vadd => exact RoundTrip.vadd _ _ _ _ _
  | vsub => exact RoundTrip.vsub _ _ _ _ _
  | vmul => exact RoundTrip.vmul _ _ _ _ _
  | vfma => exact RoundTrip.vfma _ _ _ _ _
  | vmin => exact RoundTrip.vmin _ _ _ _ _
  | vmax => exact RoundTrip.vmax _ _ _ _ _
  | vand => exact RoundTrip.vand _ _ _ _ _
  | vor => exact RoundTrip.vor _ _ _ _ _
  | vxor => exact RoundTrip.vxor _ _ _ _ _
  | vshl => exact RoundTrip.vshl _ _ _ _ _
  | vshr => exact RoundTrip.vshr _ _ _ _ _
  | vsra => exact RoundTrip.vsra _ _ _ _ _
  | vdiv => exact RoundTrip.vdiv _ _ _ _ _
  | vabs => exact RoundTrip.vabs _ _ _ _
  | vneg => exact RoundTrip.vneg _ _ _ _
  | vcmpeq => exact RoundTrip.vcmpeq _ _ _ _ _
  | vcmplt => exact RoundTrip.vcmplt _ _ _ _ _
  | vcmple => exact RoundTrip.vcmple _ _ _ _ _
  | vsel => exact RoundTrip.vsel _ _ _ _ _
  | vmulh => exact RoundTrip.vmulh _ _ _ _ _
  | vcmpltu => exact RoundTrip.vcmpltu _ _ _ _ _
  | vminu => exact RoundTrip.vminu _ _ _ _ _
  | vmaxu => exact RoundTrip.vmaxu _ _ _ _ _
  | vaddVx => exact RoundTrip.vaddVx _ _ _ _ _
  | vsubVx => exact RoundTrip.vsubVx _ _ _ _ _
  | vmulVx => exact RoundTrip.vmulVx _ _ _ _ _
  | vfmaVx => exact RoundTrip.vfmaVx _ _ _ _ _
  | vminVx => exact RoundTrip.vminVx _ _ _ _ _
  | vmaxVx => exact RoundTrip.vmaxVx _ _ _ _ _
  | vandVx => exact RoundTrip.vandVx _ _ _ _ _
  | vorVx => exact RoundTrip.vorVx _ _ _ _ _
  | vxorVx => exact RoundTrip.vxorVx _ _ _ _ _
  | vshlVx => exact RoundTrip.vshlVx _ _ _ _ _
  | vshrVx => exact RoundTrip.vshrVx _ _ _ _ _
  | vsraVx => exact RoundTrip.vsraVx _ _ _ _ _
  | vdivVx => exact RoundTrip.vdivVx _ _ _ _ _
  | vcmpeqVx => exact RoundTrip.vcmpeqVx _ _ _ _ _
  | vcmpltVx => exact RoundTrip.vcmpltVx _ _ _ _ _
  | vcmpleVx => exact RoundTrip.vcmpleVx _ _ _ _ _
  | vselVx => exact RoundTrip.vselVx _ _ _ _ _
  | vmulhVx => exact RoundTrip.vmulhVx _ _ _ _ _
  | vcmpltuVx => exact RoundTrip.vcmpltuVx _ _ _ _ _
  | vminuVx => exact RoundTrip.vminuVx _ _ _ _ _
  | vmaxuVx => exact RoundTrip.vmaxuVx _ _ _ _ _
  | vext => exact RoundTrip.vext _ _ _ _
  | vld => exact RoundTrip.vld _ _ _ _
  | vst => exact RoundTrip.vst _ _ _ _
  | vlds => exact RoundTrip.vlds _ _ _ _ _
  | vsts => exact RoundTrip.vsts _ _ _ _ _
  | vgath => exact RoundTrip.vgath _ _ _ _ _
  | vscat => exact RoundTrip.vscat _ _ _ _ _
  | vldb => exact RoundTrip.vldb _ _ _ _
  | vldk => exact RoundTrip.vldk _ _
  | vstk => exact RoundTrip.vstk _ _
  | vpermb => exact RoundTrip.vpermb _ _ _ _
  | vbcst => exact RoundTrip.vbcst _ _ _ _
  | viota => exact RoundTrip.viota _ _ _
  | vcompr => exact RoundTrip.vcompr _ _ _ _
  | vexpnd => exact RoundTrip.vexpnd _ _ _ _
  | vslide => exact RoundTrip.vslide _ _ _ _ _
  | vins => exact RoundTrip.vins _ _ _ _
  | vzip => exact RoundTrip.vzip _ _ _ _ _
  | vunzip => exact RoundTrip.vunzip _ _ _ _ _
  | vrsum => exact RoundTrip.vrsum _ _ _ _
  | vrmax => exact RoundTrip.vrmax _ _ _ _
  | vrmin => exact RoundTrip.vrmin _ _ _ _
  | vrowst => exact RoundTrip.vrowst _ _ _
  | vrarg => exact RoundTrip.vrarg _ _ _ _
  | vrpopc => exact RoundTrip.vrpopc _ _ _ _
  | vsfn => exact RoundTrip.vsfn _ _ _ _ _
  | vgact => exact RoundTrip.vgact _ _ _ _ _ _
  | vstbl => exact RoundTrip.vstbl _ _
  | vcvt => exact RoundTrip.vcvt _ _ _ _ _
  | vdec => exact RoundTrip.vdec _ _ _ _ _
  | venc => exact RoundTrip.venc _ _ _ _ _
  | vnib => exact RoundTrip.vnib _ _ _ _
  | vrng => exact RoundTrip.vrng _ _ _ _
  | vscl => exact RoundTrip.vscl _ _ _ _ _
  | vpack => exact RoundTrip.vpack _ _ _ _ _
  | tmset => exact RoundTrip.tmset _ _
  | mgang => exact RoundTrip.mgang _ _ _ _ _
  | mzero => exact RoundTrip.mzero _ _
  | msta => exact RoundTrip.msta _ _ _
  | mlda => exact RoundTrip.mlda _ _ _
  | msplit => exact RoundTrip.msplit _ _ _
  | dtld => exact RoundTrip.dtld _ _ _
  | jwait => exact RoundTrip.jwait _ _
  | jpoll => exact RoundTrip.jpoll _ _
  | cpy => exact RoundTrip.cpy _ _ _
  | cpyr => exact RoundTrip.cpyr _ _ _
  | jcan => exact RoundTrip.jcan _ _
  | flu => exact RoundTrip.flu _ _ _ _
  | fchol => exact RoundTrip.fchol _ _ _ _
  | fqr => exact RoundTrip.fqr _ _ _ _ _
  | ftrs => exact RoundTrip.ftrs _ _ _ _ _
  | prapl => exact RoundTrip.prapl _ _ _ _
  | prmov => exact RoundTrip.prmov _ _ _
  | ridl => exact RoundTrip.ridl _ _ _
  | draw => exact RoundTrip.draw _ _ _
  | spark => exact RoundTrip.spark _ _ _
  | sres => exact RoundTrip.sres _ _ _
  | cmnew => exact RoundTrip.cmnew _ _ _
  | cmjoin => exact RoundTrip.cmjoin _ _ _
  | cmwait => exact RoundTrip.cmwait _ _
  | cmbn => exact RoundTrip.cmbn _ _ _
  | cmadv => exact RoundTrip.cmadv _ _ _
  | cmsetMember => exact RoundTrip.cmsetMember _ _ _
  | cmsetExpr => exact RoundTrip.cmsetExpr _ _ _
  | cmsetQuorum => exact RoundTrip.cmsetQuorum _ _ _
  | cmsetOpen => exact RoundTrip.cmsetOpen _ _ _
  | cmend => exact RoundTrip.cmend _ _
  | stnew => exact RoundTrip.stnew _
  | splice => exact RoundTrip.splice _ _ _
  | spin => exact RoundTrip.spin _ _
  | sunpin => exact RoundTrip.sunpin _ _
  | sidx => exact RoundTrip.sidx _ _ _
  | sfork => exact RoundTrip.sfork _ _
  | sdrop => exact RoundTrip.sdrop _ _
  | tlbi => exact RoundTrip.tlbi _ _ _
  | tlbis => exact RoundTrip.tlbis _ _ _
  | tlbia => exact RoundTrip.tlbia _ _ _
  | sidw => exact RoundTrip.sidw _ _ _
  | atrn => exact RoundTrip.atrn _ _ _
  | rvbeg => exact RoundTrip.rvbeg _ _ _
  | rvend => exact RoundTrip.rvend _ _ _
  | rvqry => exact RoundTrip.rvqry _ _ _
  | wrel => exact RoundTrip.wrel _ _
  | wacq => exact RoundTrip.wacq _ _
  | lstat => exact RoundTrip.lstat _ _
  | hvcall => exact RoundTrip.hvcall _ _
  | slotwEntry => exact RoundTrip.slotwEntry _ _ _
  | slotwPeriod => exact RoundTrip.slotwPeriod _ _ _
  | slotwLen => exact RoundTrip.slotwLen _ _ _
  | vdsw => exact RoundTrip.vdsw _ _
  | mext => exact RoundTrip.mext _ _ _
  | attest => exact RoundTrip.attest _ _ _
  | vdkey => exact RoundTrip.vdkey _ _ _
  | wnew => exact RoundTrip.wnew _ _ _
  | wgrant => exact RoundTrip.wgrant _ _ _
  | wrevoke => exact RoundTrip.wrevoke _ _ _
  | quench => exact RoundTrip.quench _ _ _
  | fmove => exact RoundTrip.fmove _ _ _
  | eret => exact RoundTrip.eret
  | wfi => exact RoundTrip.wfi
  | addiC => exact RoundTrip.addiC _ _
  | ldiC => exact RoundTrip.ldiC _ _
  | slliC => exact RoundTrip.slliC _ _
  | srliC => exact RoundTrip.srliC _ _
  | sraiC => exact RoundTrip.sraiC _ _
  | andiC => exact RoundTrip.andiC _ _
  | mvC => exact RoundTrip.mvC _ _
  | addC => exact RoundTrip.addC _ _
  | subC => exact RoundTrip.subC _ _
  | andC => exact RoundTrip.andC _ _
  | orC => exact RoundTrip.orC _ _
  | xorC => exact RoundTrip.xorC _ _
  | jrC => exact RoundTrip.jrC _
  | haltC => exact RoundTrip.haltC
  | commitC => exact RoundTrip.commitC
  | jC => exact RoundTrip.jC _
  | jalC => exact RoundTrip.jalC _
  | beqzC => exact RoundTrip.beqzC _ _
  | bnezC => exact RoundTrip.bnezC _ _
  | bltzC => exact RoundTrip.bltzC _ _
  | bgezC => exact RoundTrip.bgezC _ _
  | lwC => exact RoundTrip.lwC _ _ _
  | ldC => exact RoundTrip.ldC _ _ _
  | swC => exact RoundTrip.swC _ _ _
  | sdC => exact RoundTrip.sdC _ _ _
  | _ => exact RoundTrip.of_event _ rfl

/-- The bytes of an encoding are as many as its length says. -/
theorem length_bytes (e : Encoding) : e.bytes.length = e.len := by cases e <;> rfl

theorem len_ne_zero {e : Encoding} (h : e ≠ .event) : e.len ≠ 0 := by
  cases e with
  | long w => exact Nat.succ_ne_zero 3
  | compact x => exact Nat.succ_ne_zero 1
  | event => exact absurd rfl h

/-- Settles O54: the encoder's words read back field by field, for each instruction. -/
theorem decodingGivesEncodingsBack : Obligations.DecodingGivesEncodingsBack := by
  intro i hi he
  rw [length_bytes]
  exact RoundTrip.every i hi (len_ne_zero he)

end Sys2Proof.Laws
end

section
/-! PROOF. Words have one meaning (R56, R64, R66, R67, R76 to R80): the fields of a word put together again are the word,
so each row of each decoder answers with an instruction whose encoding is the word read; and the reserved encodings. -/

set_option Elab.async false

namespace Sys2Proof.Laws
open Sys2Proof.Claims Sys2Proof.Machine

/-! ### What a decoder answers -/

/-- Whatever is answered for an encoding is well formed and has just that encoding. -/
def Reads (e : Encoding) (o : Option Instr) : Prop := ∀ i, o = some i → WellFormed i = true ∧ encode i = e

section
variable {e : Encoding}

theorem reads_none : Reads e none := by
  intro i h
  cases h

/-- A row of a decoder answers only where the fields it does not use are zero. -/
theorem reads_accept {zero : Bool} {i : Instr} (h : zero = true → encode i = e) : Reads e (accept zero i) := by
  intro j hj
  rw [accept] at hj
  split at hj
  · rename_i hz
    rw [Bool.and_eq_true] at hz
    obtain rfl := Option.some.inj hj
    exact ⟨hz.2, h hz.1⟩
  · cases hj

theorem code_of_ofCode {c : BitVec 3} {et : ETy} (h : ETy.ofCode c = some et) : et.code = c := by
  unfold ETy.ofCode at h
  split at h
  all_goals cases h
  all_goals exact BitVec.eq_of_toNat_eq (Eq.symm ‹c.toNat = _›)

/-- A row with an element type answers only where the type's code is the field. -/
theorem reads_typed {c : BitVec 3} {f : ETy → Option Instr} (h : ∀ et, et.code = c → Reads e (f et)) :
    Reads e ((ETy.ofCode c).bind f) := by
  intro i hi
  obtain ⟨et, het, hf⟩ := Option.bind_eq_some_iff.1 hi
  exact h et (code_of_ofCode het) i hf

end

/-! ### Fields put together again (R59 to R61, R65) -/

theorem ofNat_toNat_self {n : Nat} (x : BitVec n) : BitVec.ofNat n x.toNat = x := by simp

/-- The high field of a function code, and its low one. -/
theorem ofNat_func_high {n q b : Nat} (a : BitVec n) (h : b < q) : BitVec.ofNat n ((a.toNat * q + b) / q) = a := by
  rw [Nat.mul_comm, Nat.mul_add_div (Nat.zero_lt_of_lt h), Nat.div_eq_of_lt h, Nat.add_zero, ofNat_toNat_self]

theorem ofNat_func_low {n q a : Nat} (b : BitVec n) (h : b.toNat < q) : BitVec.ofNat n ((a * q + b.toNat) % q) = b := by
  rw [Nat.mul_comm, Nat.mul_add_mod, Nat.mod_eq_of_lt h, ofNat_toNat_self]

/-- An operand in a wider field whose high bits are zero is the field. -/
theorem append_low {k l : Nat} {x : BitVec (k + l)} (h : x.extractLsb' (0 + l) k = 0) :
    0#k ++ x.extractLsb' 0 l = x := by
  rw [show 0#k = x.extractLsb' (0 + l) k from h.symm, extract_join]
  exact extract_whole x

theorem append_low_of_bit {l : Nat} {x : BitVec (1 + l)} (h : x.getLsbD l = false) :
    0#1 ++ x.extractLsb' 0 l = x := by
  refine append_low (BitVec.eq_of_getLsbD_eq fun i hi => ?_)
  obtain rfl : i = 0 := Nat.lt_one_iff.1 hi
  rw [BitVec.getLsbD_extractLsb', Nat.zero_add, Nat.add_zero, h]
  rfl

theorem append_shift6 {x : BitVec 11} (h : x.extractLsb' 6 5 = 0) : 0#5 ++ x.extractLsb' 0 6 = x :=
  append_low (k := 5) (l := 6) h
theorem append_shift5 {x : BitVec 11} (h : x.extractLsb' 5 6 = 0) : 0#6 ++ x.extractLsb' 0 5 = x :=
  append_low (k := 6) (l := 5) h
theorem append_short4 {x : BitVec 5} (h : x.getLsbD 4 = false) : 0#1 ++ x.extractLsb' 0 4 = x :=
  append_low_of_bit (l := 4) h
theorem append_short3 {x : BitVec 4} (h : x.getLsbD 3 = false) : 0#1 ++ x.extractLsb' 0 3 = x :=
  append_low_of_bit (l := 3) h

section
variable {w : BitVec 32} (hw : w.extractLsb' 14 2 = 3)
include hw

theorem encR_fields : encR (fMajor w).toNat (fFunc w) (fRs2 w) (fRs1 w) (fRd w) = w := by
  rw [encR, fFunc, ofNat_func_high _ (fFnl w).isLt, ofNat_func_low _ (fFnl w).isLt, ofNat_toNat_self,
    show 3#2 = w.extractLsb' 14 2 from hw.symm, fMajor, fFnh, fFnl, fRs2, fRs1, fRd,
    extract_join w 21 5 6, extract_join w 16 5, extract_join w 14 2, extract_join w 8 6, extract_join w 5 3,
    extract_join w 0 5]
  exact extract_whole w

theorem encI_fields : encI (fMajor w).toNat (fFnl w).toNat (fImm11 w) (fRs1 w) (fRd w) = w := by
  rw [encI, ofNat_toNat_self, ofNat_toNat_self, show 3#2 = w.extractLsb' 14 2 from hw.symm, fMajor, fFnl, fImm11, fRs1, fRd,
    extract_join w 16 5 11, extract_join w 14 2, extract_join w 8 6, extract_join w 5 3, extract_join w 0 5]
  exact extract_whole w

theorem encJ_fields : encJ (fMajor w).toNat (fImm19 w) (fRd w) = w := by
  have hhigh : (fImm19 w).extractLsb' 3 16 = w.extractLsb' 16 16 := by
    rw [fImm19, extract_high _ _ 3 16 (by omega), extract_whole]
  have hlow : (fImm19 w).extractLsb' 0 3 = w.extractLsb' 5 3 := by
    rw [fImm19, extract_low _ _ 0 3 (by omega), extract_whole]
  rw [encJ, hhigh, hlow, ofNat_toNat_self, show 3#2 = w.extractLsb' 14 2 from hw.symm, fMajor, fRd,
    extract_join w 14 2 16, extract_join w 8 6, extract_join w 5 3, extract_join w 0 5]
  exact extract_whole w

theorem encV_fields :
    encV (fMajor w).toNat (fVFunc w) (fVs2 w) (fVs1 w) (fVK w) (fVEt w) (fVd w) = w := by
  rw [encV, fVFunc, ofNat_func_high _ (fLow4 w).isLt, ofNat_func_low _ (fLow4 w).isLt, ofNat_toNat_self,
    show 3#2 = w.extractLsb' 14 2 from hw.symm, fMajor, fVFnh, fLow4, fVs2, fVs1, fVK, fVEt, fVd,
    extract_join w 24 4 4, extract_join w 21 3, extract_join w 18 3, extract_join w 16 2, extract_join w 14 2,
    extract_join w 8 6, extract_join w 4 4, extract_join w 0 4]
  exact extract_whole w

theorem encVF_fields (hm : (fMajor w).toNat = 0x19) :
    encVF (fVFnh w).toNat (fVs2 w) (fVs1 w) (fVK w) (fVEt w) (fVd w) (fLow4 w) = w := by
  rw [encVF, ← hm, ofNat_toNat_self, ofNat_toNat_self,
    show 3#2 = w.extractLsb' 14 2 from hw.symm, fMajor, fVFnh, fLow4, fVs2, fVs1, fVK, fVEt, fVd,
    extract_join w 24 4 4, extract_join w 21 3, extract_join w 18 3, extract_join w 16 2, extract_join w 14 2,
    extract_join w 8 6, extract_join w 4 4, extract_join w 0 4]
  exact extract_whole w

theorem encVX_fields :
    encVX (fMajor w).toNat (fXFunc w) (fVs2 w) (fXGs w) (fXK w) (fXEt w) (fVd w) = w := by
  rw [encVX, fXFunc, ofNat_func_high _ (fLow4 w).isLt, ofNat_func_low _ (fLow4 w).isLt, ofNat_toNat_self,
    show 3#2 = w.extractLsb' 14 2 from hw.symm, fMajor, fXFnh, fLow4, fVs2, fXGs, fXK, fXEt, fVd,
    extract_join w 23 5 4, extract_join w 20 3, extract_join w 17 3, extract_join w 16 1, extract_join w 14 2,
    extract_join w 8 6, extract_join w 4 4, extract_join w 0 4]
  exact extract_whole w

theorem encVM_fields (hm : (fMajor w).toNat = 0x16) :
    encVM (fLow4 w).toNat (fMGs1 w) (fMGs2 w) (fMK w) (fMEt w) (fVd w) = w := by
  rw [encVM, ← hm, ofNat_toNat_self, ofNat_toNat_self,
    show 3#2 = w.extractLsb' 14 2 from hw.symm, fMajor, fLow4, fMGs1, fMGs2, fMK, fMEt, fVd,
    extract_join w 22 5 5, extract_join w 19 3, extract_join w 16 3, extract_join w 14 2,
    extract_join w 8 6, extract_join w 4 4, extract_join w 0 4]
  exact extract_whole w

theorem encT_fields :
    encT (fMajor w).toNat (fFnl w).toNat (fMGs1 w) (fMGs2 w) (fTTmB w) (fTTmA w) (fRd w) = w := by
  rw [encT, ofNat_toNat_self, ofNat_toNat_self,
    show 3#2 = w.extractLsb' 14 2 from hw.symm, fMajor, fFnl, fMGs1, fMGs2, fTTmB, fTTmA, fRd,
    extract_join w 22 5 5, extract_join w 19 3, extract_join w 16 3, extract_join w 14 2,
    extract_join w 8 6, extract_join w 5 3, extract_join w 0 5]
  exact extract_whole w

theorem long_encR {m f : Nat} {b a d : BitVec 5} (hm : (fMajor w).toNat = m) (hf : fFunc w = f)
    (h : fRs2 w = b ∧ fRs1 w = a ∧ fRd w = d) :
    Encoding.long (encR m f b a d) = .long w := by
  obtain ⟨rfl, rfl, rfl⟩ := h
  rw [← hm, ← hf, encR_fields hw]

theorem long_encI {m f : Nat} {i : BitVec 11} {a d : BitVec 5} (hm : (fMajor w).toNat = m) (hf : (fFnl w).toNat = f)
    (h : fImm11 w = i ∧ fRs1 w = a ∧ fRd w = d) :
    Encoding.long (encI m f i a d) = .long w := by
  obtain ⟨rfl, rfl, rfl⟩ := h
  rw [← hm, ← hf, encI_fields hw]

theorem long_encJ {m : Nat} (hm : (fMajor w).toNat = m) :
    Encoding.long (encJ m (fImm19 w) (fRd w)) = .long w := by
  rw [← hm, encJ_fields hw]

theorem long_encV {m f : Nat} {b a : BitVec 4} {k e : BitVec 3} {d : BitVec 4} (hm : (fMajor w).toNat = m) (hf : fVFunc w = f)
    (h : fVs2 w = b ∧ fVs1 w = a ∧ fVK w = k ∧ fVEt w = e ∧ fVd w = d) :
    Encoding.long (encV m f b a k e d) = .long w := by
  obtain ⟨rfl, rfl, rfl, rfl, rfl⟩ := h
  rw [← hm, ← hf, encV_fields hw]

theorem long_encVF {f : Nat} {a : BitVec 4} {e : BitVec 3} (hm : (fMajor w).toNat = 0x19) (hf : (fVFnh w).toNat = f)
    (h : fVs1 w = a ∧ fVEt w = e) :
    Encoding.long (encVF f (fVs2 w) a (fVK w) e (fVd w) (fLow4 w)) = .long w := by
  obtain ⟨rfl, rfl⟩ := h
  rw [← hf, encVF_fields hw hm]

theorem long_encVX {m f : Nat} {e : BitVec 3} {d : BitVec 4} (hm : (fMajor w).toNat = m) (hf : fXFunc w = f)
    (h : fXEt w = e ∧ fVd w = d) :
    Encoding.long (encVX m f (fVs2 w) (fXGs w) (fXK w) e d) = .long w := by
  obtain ⟨rfl, rfl⟩ := h
  rw [← hm, ← hf, encVX_fields hw]

theorem long_encVM {f : Nat} {b : BitVec 5} {k e : BitVec 3} {d : BitVec 4} (hm : (fMajor w).toNat = 0x16) (hf : (fLow4 w).toNat = f)
    (h : fMGs2 w = b ∧ fMK w = k ∧ fMEt w = e ∧ fVd w = d) :
    Encoding.long (encVM f (fMGs1 w) b k e d) = .long w := by
  obtain ⟨rfl, rfl, rfl, rfl⟩ := h
  rw [← hf, encVM_fields hw hm]

theorem long_encT {m f : Nat} {b a : BitVec 5} {t u : BitVec 3} {d : BitVec 5} (hm : (fMajor w).toNat = m) (hf : (fFnl w).toNat = f)
    (h : fMGs1 w = b ∧ fMGs2 w = a ∧ fTTmB w = t ∧ fTTmA w = u ∧ fRd w = d) :
    Encoding.long (encT m f b a t u d) = .long w := by
  obtain ⟨rfl, rfl, rfl, rfl, rfl⟩ := h
  rw [← hm, ← hf, encT_fields hw]

end

/-! ### The decoders of the majors (R76 to R80) -/

section
variable {w : BitVec 32} (hw : w.extractLsb' 14 2 = 3)
include hw

theorem reads_decodeAlu (hm : (fMajor w).toNat = 1) : Reads (.long w) (decodeAlu w) := by
  unfold decodeAlu
  split
  case h_42 => exact reads_none
  all_goals exact reads_accept fun hz => long_encR hw hm ‹_› (by simp_all)

theorem reads_decodeAluI (hm : (fMajor w).toNat = 2) : Reads (.long w) (decodeAluI w) := by
  unfold decodeAluI
  split
  case h_8 => exact reads_none
  all_goals exact reads_accept fun hz => long_encI hw hm ‹_› (by simp_all)

theorem reads_decodeShiftI (hm : (fMajor w).toNat = 3) : Reads (.long w) (decodeShiftI w) := by
  unfold decodeShiftI
  split
  case h_8 => exact reads_none
  all_goals exact reads_accept fun hz => long_encI hw hm ‹_› (by simp_all [append_shift6, append_shift5])

theorem reads_decodeLih (hm : (fMajor w).toNat = 4) : Reads (.long w) (decodeLih w) := by
  unfold decodeLih
  exact reads_accept fun _ => long_encJ hw hm

theorem reads_decodeAddpc (hm : (fMajor w).toNat = 5) : Reads (.long w) (decodeAddpc w) := by
  unfold decodeAddpc
  exact reads_accept fun _ => long_encJ hw hm

theorem reads_decodeLoad (hm : (fMajor w).toNat = 6) : Reads (.long w) (decodeLoad w) := by
  unfold decodeLoad
  split
  case h_8 => exact reads_none
  all_goals exact reads_accept fun hz => long_encI hw hm ‹_› (by simp_all)

theorem reads_decodeStore (hm : (fMajor w).toNat = 7) : Reads (.long w) (decodeStore w) := by
  unfold decodeStore
  split
  case h_5 => exact reads_none
  all_goals exact reads_accept fun hz => long_encI hw hm ‹_› (by simp_all)

theorem reads_decodeBranch (hm : (fMajor w).toNat = 8) : Reads (.long w) (decodeBranch w) := by
  unfold decodeBranch
  split
  case h_7 => exact reads_none
  all_goals exact reads_accept fun hz => long_encI hw hm ‹_› (by simp_all)

theorem reads_decodeJal (hm : (fMajor w).toNat = 9) : Reads (.long w) (decodeJal w) := by
  unfold decodeJal
  exact reads_accept fun _ => long_encJ hw hm

theorem reads_decodeJalr (hm : (fMajor w).toNat = 10) : Reads (.long w) (decodeJalr w) := by
  unfold decodeJalr
  split
  case h_2 => exact reads_none
  all_goals exact reads_accept fun hz => long_encI hw hm ‹_› (by simp_all)

theorem reads_decodeFp (hm : (fMajor w).toNat = 11) : Reads (.long w) (decodeFp w) := by
  unfold decodeFp
  split
  case h_41 => exact reads_none
  all_goals exact reads_accept fun hz => long_encR hw hm ‹_› (by simp_all)

theorem reads_decodeCtl (hm : (fMajor w).toNat = 12) : Reads (.long w) (decodeCtl w) := by
  unfold decodeCtl
  split
  case h_5 => exact reads_none
  all_goals exact reads_accept fun hz => long_encI hw hm ‹_› (by simp_all)

theorem reads_decodeTask (hm : (fMajor w).toNat = 13) : Reads (.long w) (decodeTask w) := by
  unfold decodeTask
  split
  case h_7 => exact reads_none
  all_goals exact reads_accept fun hz => long_encR hw hm ‹_› (by simp_all)

theorem reads_decodeMsg (hm : (fMajor w).toNat = 14) : Reads (.long w) (decodeMsg w) := by
  unfold decodeMsg
  split
  case h_6 => exact reads_none
  all_goals exact reads_accept fun hz => long_encR hw hm ‹_› (by simp_all)

theorem reads_decodeRing (hm : (fMajor w).toNat = 15) : Reads (.long w) (decodeRing w) := by
  unfold decodeRing
  split
  case h_7 => exact reads_none
  all_goals exact reads_accept fun hz => long_encR hw hm ‹_› (by simp_all [append_short4])

theorem reads_decodeAtom (hm : (fMajor w).toNat = 16) : Reads (.long w) (decodeAtom w) := by
  unfold decodeAtom
  split
  case h_16 => exact reads_none
  all_goals exact reads_accept fun hz => long_encR hw hm ‹_› (by simp_all)

theorem reads_decodeScope (hm : (fMajor w).toNat = 17) : Reads (.long w) (decodeScope w) := by
  unfold decodeScope
  split
  case h_4 => exact reads_none
  all_goals exact reads_accept fun hz => long_encR hw hm ‹_› (by simp_all)

theorem reads_decodeGroup (hm : (fMajor w).toNat = 18) : Reads (.long w) (decodeGroup w) := by
  unfold decodeGroup
  split
  case h_4 => exact reads_none
  all_goals exact reads_accept fun hz => long_encR hw hm ‹_› (by simp_all)

theorem reads_decodeBar (hm : (fMajor w).toNat = 19) : Reads (.long w) (decodeBar w) := by
  unfold decodeBar
  split
  case h_9 => exact reads_none
  all_goals exact reads_accept fun hz => long_encR hw hm ‹_› (by simp_all)

theorem reads_decodeVArith (hm : (fMajor w).toNat = 20) : Reads (.long w) (decodeVArith w) := by
  unfold decodeVArith
  split
  case h_24 => exact reads_none
  all_goals exact reads_typed fun et he => reads_accept fun hz => long_encV hw hm ‹_› (by simp_all [append_short3])

theorem reads_decodeVArithX (hm : (fMajor w).toNat = 21) : Reads (.long w) (decodeVArithX w) := by
  unfold decodeVArithX
  split
  case h_23 => exact reads_none
  all_goals exact reads_typed fun et he => reads_accept fun hz => long_encVX hw hm ‹_› (by simp_all [append_short3])

theorem reads_decodeVMem (hm : (fMajor w).toNat = 22) : Reads (.long w) (decodeVMem w) := by
  unfold decodeVMem
  split
  case h_10 => exact reads_none
  case h_8 | h_9 => exact reads_accept fun hz => long_encVM hw hm ‹_› (by simp_all [append_short3])
  all_goals exact reads_typed fun et he => reads_accept fun hz => long_encVM hw hm ‹_› (by simp_all [append_short4])

theorem reads_decodeVPerm (hm : (fMajor w).toNat = 23) : Reads (.long w) (decodeVPerm w) := by
  unfold decodeVPerm
  split
  case h_10 => exact reads_none
  case h_1 => exact reads_accept fun hz => long_encV hw hm ‹_› (by simp_all)
  all_goals exact reads_typed fun et he => reads_accept fun hz => long_encV hw hm ‹_› (by simp_all)

theorem reads_decodeVRed (hm : (fMajor w).toNat = 24) : Reads (.long w) (decodeVRed w) := by
  unfold decodeVRed
  split
  case h_7 => exact reads_none
  all_goals exact reads_typed fun et he => reads_accept fun hz => long_encV hw hm ‹_› (by simp_all)

theorem reads_decodeVSfu (hm : (fMajor w).toNat = 25) : Reads (.long w) (decodeVSfu w) := by
  unfold decodeVSfu
  split
  case h_4 => exact reads_none
  case h_3 hf =>
    split
    · rename_i hlow
      have hfunc : fVFunc w = 32 := by rw [fVFunc, hf, eq_of_beq hlow]; rfl
      exact reads_accept fun hz => long_encV hw hm hfunc (by simp_all)
    · exact reads_none
  all_goals exact reads_typed fun et he => reads_accept fun hz => long_encVF hw hm ‹_› (by simp_all)

theorem reads_decodeVCvt (hm : (fMajor w).toNat = 26) : Reads (.long w) (decodeVCvt w) := by
  unfold decodeVCvt
  split
  case h_8 => exact reads_none
  case h_1 => exact reads_typed fun et he => reads_typed fun dt hd =>
      reads_accept fun hz => long_encV hw hm ‹_› (by simp_all [append_short3])
  case h_4 => exact reads_accept fun hz => long_encV hw hm ‹_› (by simp_all)
  all_goals exact reads_typed fun et he => reads_accept fun hz => long_encV hw hm ‹_› (by simp_all)

theorem reads_decodeTile (hm : (fMajor w).toNat = 27) : Reads (.long w) (decodeTile w) := by
  unfold decodeTile
  split
  case h_8 => exact reads_none
  all_goals exact reads_accept fun hz => long_encT hw hm ‹_› (by simp_all)

theorem reads_decodeJob (hm : (fMajor w).toNat = 28) : Reads (.long w) (decodeJob w) := by
  unfold decodeJob
  split
  case h_6 => exact reads_none
  all_goals exact reads_accept fun hz => long_encT hw hm ‹_› (by simp_all)

theorem reads_decodeFact (hm : (fMajor w).toNat = 29) : Reads (.long w) (decodeFact w) := by
  unfold decodeFact
  split
  case h_7 => exact reads_none
  all_goals exact reads_accept fun hz => long_encT hw hm ‹_› (by simp_all)

theorem reads_decodeSeq (hm : (fMajor w).toNat = 30) : Reads (.long w) (decodeSeq w) := by
  unfold decodeSeq
  split
  case h_5 => exact reads_none
  all_goals exact reads_accept fun hz => long_encT hw hm ‹_› (by simp_all)

theorem reads_decodeComm (hm : (fMajor w).toNat = 31) : Reads (.long w) (decodeComm w) := by
  unfold decodeComm
  split
  case h_8 => exact reads_none
  all_goals exact reads_accept fun hz => long_encT hw hm ‹_› (by simp_all)

theorem reads_decodeStch (hm : (fMajor w).toNat = 32) : Reads (.long w) (decodeStch w) := by
  unfold decodeStch
  split
  case h_8 => exact reads_none
  all_goals exact reads_accept fun hz => long_encR hw hm ‹_› (by simp_all)

theorem reads_decodeMmu (hm : (fMajor w).toNat = 33) : Reads (.long w) (decodeMmu w) := by
  unfold decodeMmu
  split
  case h_6 => exact reads_none
  all_goals exact reads_accept fun hz => long_encR hw hm ‹_› (by simp_all)

theorem reads_decodeLink (hm : (fMajor w).toNat = 34) : Reads (.long w) (decodeLink w) := by
  unfold decodeLink
  split
  case h_7 => exact reads_none
  all_goals exact reads_accept fun hz => long_encR hw hm ‹_› (by simp_all)

theorem reads_decodeSysp (hm : (fMajor w).toNat = 35) : Reads (.long w) (decodeSysp w) := by
  unfold decodeSysp
  split
  case h_7 => exact reads_none
  all_goals exact reads_accept fun hz => long_encR hw hm ‹_› (by simp_all)

theorem reads_decode32 : Reads (.long w) (decode32 w) := by
  unfold decode32
  split
  case h_1 hm => exact reads_decodeAlu hw hm
  case h_2 hm => exact reads_decodeAluI hw hm
  case h_3 hm => exact reads_decodeShiftI hw hm
  case h_4 hm => exact reads_decodeLih hw hm
  case h_5 hm => exact reads_decodeAddpc hw hm
  case h_6 hm => exact reads_decodeLoad hw hm
  case h_7 hm => exact reads_decodeStore hw hm
  case h_8 hm => exact reads_decodeBranch hw hm
  case h_9 hm => exact reads_decodeJal hw hm
  case h_10 hm => exact reads_decodeJalr hw hm
  case h_11 hm => exact reads_decodeFp hw hm
  case h_12 hm => exact reads_decodeCtl hw hm
  case h_13 hm => exact reads_decodeTask hw hm
  case h_14 hm => exact reads_decodeMsg hw hm
  case h_15 hm => exact reads_decodeRing hw hm
  case h_16 hm => exact reads_decodeAtom hw hm
  case h_17 hm => exact reads_decodeScope hw hm
  case h_18 hm => exact reads_decodeGroup hw hm
  case h_19 hm => exact reads_decodeBar hw hm
  case h_20 hm => exact reads_decodeVArith hw hm
  case h_21 hm => exact reads_decodeVArithX hw hm
  case h_22 hm => exact reads_decodeVMem hw hm
  case h_23 hm => exact reads_decodeVPerm hw hm
  case h_24 hm => exact reads_decodeVRed hw hm
  case h_25 hm => exact reads_decodeVSfu hw hm
  case h_26 hm => exact reads_decodeVCvt hw hm
  case h_27 hm => exact reads_decodeTile hw hm
  case h_28 hm => exact reads_decodeJob hw hm
  case h_29 hm => exact reads_decodeFact hw hm
  case h_30 hm => exact reads_decodeSeq hw hm
  case h_31 hm => exact reads_decodeComm hw hm
  case h_32 hm => exact reads_decodeStch hw hm
  case h_33 hm => exact reads_decodeMmu hw hm
  case h_34 hm => exact reads_decodeLink hw hm
  case h_35 hm => exact reads_decodeSysp hw hm
  case h_36 => exact reads_none

end

/-! ### The compact decoders (R65 to R68) -/

section
variable {h : BitVec 16}

theorem encC0_fields (hg : (h.extractLsb' 14 2).toNat = 0) :
    encC0 (h.extractLsb' 10 4).toNat (h.extractLsb' 5 5) (h.extractLsb' 0 5) = h := by
  have hz : 0#2 = h.extractLsb' 14 2 := BitVec.eq_of_toNat_eq hg.symm
  rw [encC0, ofNat_toNat_self, hz, extract_join h 10 4 2, extract_join h 5 5, extract_join h 0 5]
  exact extract_whole h

theorem encC1_fields (hg : (h.extractLsb' 14 2).toNat = 1) :
    encC1 (h.extractLsb' 11 3).toNat (h.extractLsb' 0 11) = h := by
  have hz : 1#2 = h.extractLsb' 14 2 := BitVec.eq_of_toNat_eq hg.symm
  rw [encC1, ofNat_toNat_self, hz, extract_join h 11 3 2, extract_join h 0 11]
  exact extract_whole h

theorem encC2_fields (hg : (h.extractLsb' 14 2).toNat = 2) :
    encC2 (h.extractLsb' 12 2).toNat (h.extractLsb' 9 3) (h.extractLsb' 6 3) (h.extractLsb' 0 6) = h := by
  have hz : 2#2 = h.extractLsb' 14 2 := BitVec.eq_of_toNat_eq hg.symm
  rw [encC2, ofNat_toNat_self, hz, extract_join h 12 2 2, extract_join h 9 3, extract_join h 6 3, extract_join h 0 6]
  exact extract_whole h

theorem compact_encC0 {o : Nat} {r f : BitVec 5} (hg : (h.extractLsb' 14 2).toNat = 0)
    (ho : (h.extractLsb' 10 4).toNat = o) (hx : h.extractLsb' 5 5 = r ∧ h.extractLsb' 0 5 = f) :
    Encoding.compact (encC0 o r f) = .compact h := by
  obtain ⟨rfl, rfl⟩ := hx
  rw [← ho, encC0_fields hg]

theorem compact_encC1 {o : Nat} {x : BitVec 11} (hg : (h.extractLsb' 14 2).toNat = 1)
    (ho : (h.extractLsb' 11 3).toNat = o) (hx : h.extractLsb' 0 11 = x) : Encoding.compact (encC1 o x) = .compact h := by
  rw [← ho, ← hx, encC1_fields hg]

theorem compact_encC2 {o : Nat} (hg : (h.extractLsb' 14 2).toNat = 2) (ho : (h.extractLsb' 12 2).toNat = o) :
    Encoding.compact (encC2 o (h.extractLsb' 9 3) (h.extractLsb' 6 3) (h.extractLsb' 0 6)) = .compact h := by
  rw [← ho, encC2_fields hg]

theorem reads_decodeC0 (hg : (h.extractLsb' 14 2).toNat = 0) : Reads (.compact h) (decodeC0 h) := by
  unfold decodeC0
  dsimp only
  split
  case h_16 => exact reads_none
  all_goals exact reads_accept fun hz => compact_encC0 hg ‹_› (by simp_all)

theorem reads_decodeC1 (hg : (h.extractLsb' 14 2).toNat = 1) : Reads (.compact h) (decodeC1 h) := by
  have hjoin : h.extractLsb' 0 11 = h.extractLsb' 8 3 ++ h.extractLsb' 0 8 := (extract_join h 0 8 3).symm
  unfold decodeC1
  split
  case h_7 => exact reads_none
  case h_1 | h_2 => exact reads_accept fun _ => compact_encC1 hg ‹_› rfl
  all_goals exact reads_accept fun _ => compact_encC1 hg ‹_› hjoin

theorem reads_decodeC2 (hg : (h.extractLsb' 14 2).toNat = 2) : Reads (.compact h) (decodeC2 h) := by
  unfold decodeC2
  split
  case h_5 => exact reads_none
  all_goals exact reads_accept fun _ => compact_encC2 hg ‹_›

theorem reads_decode16 : Reads (.compact h) (decode16 h) := by
  unfold decode16
  split
  case h_1 hg => exact reads_decodeC0 hg
  case h_2 hg => exact reads_decodeC1 hg
  case h_3 hg => exact reads_decodeC2 hg
  case h_4 => exact reads_none

end

/-! ### Bytes (R7, R56) -/

theorem halfOf_low (b0 b1 : Byte) : (halfOf b0 b1).extractLsb' 0 8 = b0 := by
  rw [halfOf, extract_low _ _ 0 8 (by decide), extract_whole]

theorem halfOf_high (b0 b1 : Byte) : (halfOf b0 b1).extractLsb' 8 8 = b1 := by
  rw [halfOf, extract_high _ _ 8 8 (by decide), extract_whole]

theorem bytes_long (b0 b1 b2 b3 : Byte) :
    (Encoding.long (halfOf b2 b3 ++ halfOf b0 b1)).bytes = [b0, b1, b2, b3] := by
  simp (disch := decide) only [Encoding.bytes, extract_low, extract_high, Nat.reduceSub, halfOf_low, halfOf_high]

theorem bytes_compact (b0 b1 : Byte) : (Encoding.compact (halfOf b0 b1)).bytes = [b0, b1] := by
  rw [Encoding.bytes, halfOf_low, halfOf_high]

/-- What an answer of the decoder says of the bytes read. -/
theorem decode_eq_instr {bs : List Byte} {i : Instr} {n : Nat} (h : decode bs = .instr i n) :
    (∃ b0 b1 b2 b3 rest, bs = b0 :: b1 :: b2 :: b3 :: rest ∧ isLong (halfOf b0 b1) = true ∧
      decode32 (halfOf b2 b3 ++ halfOf b0 b1) = some i ∧ n = 4) ∨
    (∃ b0 b1 rest, bs = b0 :: b1 :: rest ∧ isLong (halfOf b0 b1) = false ∧
      decode16 (halfOf b0 b1) = some i ∧ n = 2) := by
  unfold decode at h
  split at h
  · rename_i b0 b1 rest
    split at h
    · rename_i hl
      split at h
      · rename_i b2 b3 rest
        split at h
        · rename_i hd
          cases h
          exact .inl ⟨b0, b1, b2, b3, rest, rfl, hl, hd, rfl⟩
        · cases h
      · cases h
    · rename_i hl
      split at h
      · rename_i hd
        cases h
        exact .inr ⟨b0, b1, rest, rfl, Bool.eq_false_of_not_eq_true hl, hd, rfl⟩
      · cases h
  · cases h

/-- What the decoder accepts it accepts with other bytes behind it, and the encoding of what it gives is the bytes
read. -/
theorem wordsHaveOneMeaning : WordsHaveOneMeaning := by
  intro bs i n h
  obtain ⟨b0, b1, b2, b3, rest, rfl, hl, hd, rfl⟩ | ⟨b0, b1, rest, rfl, hl, hd, rfl⟩ := decode_eq_instr h
  · have hw : (halfOf b2 b3 ++ halfOf b0 b1).extractLsb' 14 2 = 3 := by
      rw [extract_low _ _ 14 2 (by decide)]
      exact eq_of_beq hl
    obtain ⟨hwf, he⟩ := reads_decode32 hw i hd
    refine ⟨hwf, ?_, .inr rfl, fun more => ?_⟩
    · rw [he, bytes_long]
      rfl
    · simp [decode, hl, hd]
  · obtain ⟨hwf, he⟩ := reads_decode16 i hd
    refine ⟨hwf, ?_, .inl rfl, fun more => ?_⟩
    · rw [he, bytes_compact]
      rfl
    · simp [decode, hl, hd]

/-! ### Encodings that are none (R80) -/

theorem extract_toNat {n : Nat} (w : BitVec n) (k l : Nat) : (w.extractLsb' k l).toNat = w.toNat / 2 ^ k % 2 ^ l := by
  rw [BitVec.extractLsb'_toNat, Nat.shiftRight_eq_div_pow]

theorem ofNat_div_pow {n : Nat} (w : BitVec n) (k l : Nat) : BitVec.ofNat l (w.toNat / 2 ^ k) = w.extractLsb' k l := by
  apply BitVec.eq_of_toNat_eq
  rw [BitVec.toNat_ofNat, extract_toNat]

theorem toBytes_long (w : BitVec 32) : toBytes 4 w.toNat = (Encoding.long w).bytes := by
  simp only [toBytes, Encoding.bytes, Nat.div_div_eq_div_mul, ← ofNat_div_pow]
  norm_num

theorem toBytes_compact (x : BitVec 16) : toBytes 2 x.toNat = (Encoding.compact x).bytes := by
  simp only [toBytes, Encoding.bytes, ← ofNat_div_pow]
  norm_num

theorem decode_long_none {w : BitVec 32} (h : w.extractLsb' 14 2 = 3) (hd : decode32 w = none) :
    decode (Encoding.long w).bytes = .illegal w false := by
  simp only [Encoding.bytes, decode, isLong_low w h, word_of_bytes, hd, if_true]

theorem decode_compact_none {x : BitVec 16} (h : x.extractLsb' 14 2 ≠ 3) (hd : decode16 x = none) :
    decode (Encoding.compact x).bytes = .illegal (x.setWidth 32) true := by
  have hb : halfOf (x.extractLsb' 0 8) (x.extractLsb' 8 8) = x := (half_of_bytes x 0).trans (extract_whole x)
  have hl : isLong x = false := by simpa [isLong] using h
  have hz : 0#16 ++ x = x.setWidth 32 := by
    apply BitVec.eq_of_toNat_eq
    rw [BitVec.toNat_append, BitVec.toNat_setWidth, BitVec.toNat_ofNat, Nat.zero_mod, Nat.zero_shiftLeft, Nat.zero_or,
      Nat.mod_eq_of_lt (by omega)]
  simp only [Encoding.bytes, decode, hb, hl, hd, hz]
  rfl

/-- The majors that no table of the opcode map has. -/
theorem decode32_reserved {w : BitVec 32} (h : (fMajor w).toNat = 0 ∨ 0x24 ≤ (fMajor w).toNat) : decode32 w = none := by
  unfold decode32
  split
  case h_36 => rfl
  all_goals omega

/-- A zero op4 of group 0b00. -/
theorem decode16_reserved0 {h : BitVec 16} (hg : (h.extractLsb' 14 2).toNat = 0)
    (ho : (h.extractLsb' 10 4).toNat = 0) : decode16 h = none := by
  simp only [decode16, hg, decodeC0, ho]

/-- op3 6 and 7 of group 0b01. -/
theorem decode16_reserved1 {h : BitVec 16} (hg : (h.extractLsb' 14 2).toNat = 1)
    (ho : 6 ≤ (h.extractLsb' 11 3).toNat) : decode16 h = none := by
  simp only [decode16, hg, decodeC1]
  split
  case h_7 => rfl
  all_goals omega

theorem reservedEncodingsAreRefused : ReservedEncodingsAreRefused := by
  constructor
  · intro w hlong hmajor
    rw [toBytes_long]
    refine decode_long_none (BitVec.eq_of_toNat_eq ?_) (decode32_reserved ?_)
    · rwa [extract_toNat]
    · rwa [fMajor, extract_toNat]
  · intro h hop
    have hgroup := extract_toNat h 14 2
    have hop4 := extract_toNat h 10 4
    have hop3 := extract_toNat h 11 3
    have hnot : (h.extractLsb' 14 2).toNat ≠ 3 := by omega
    rw [toBytes_compact]
    refine decode_compact_none (fun e => hnot (congrArg BitVec.toNat e)) ?_
    rcases hop with hzero | ⟨hlow, hhigh⟩
    · exact decode16_reserved0 (by omega) (by omega)
    · exact decode16_reserved1 (by omega) (by omega)

/-- Settles O55: each row of the decoder answers with an instruction whose encoding is the word read, and no row is
left for the reserved encodings. -/
theorem everyWordHasOneMeaning : Obligations.EveryWordHasOneMeaning :=
  ⟨wordsHaveOneMeaning, reservedEncodingsAreRefused⟩

end Sys2Proof.Laws
end

section
/-! PROOF. Words that the spec writes out (R66 to R68, R154, R176, R342, R370, R475). -/

namespace Sys2Proof.Laws

/-- Settles O56: ten closed words, each decoded as it stands. -/
theorem specWordsDecode : Obligations.SpecWordsDecode := by
  unfold Obligations.SpecWordsDecode
  decide

end Sys2Proof.Laws
end

section
/-! PROOF. Writes of registers (R69, R70): the register written, and what the write leaves as it was. -/

set_option Elab.async false

namespace Sys2Proof.Machine

/-! ### One register of a context -/

theorem Regs.get_put (r : Regs) (x : GReg) (w : Word) : (r.put x w).get x = if x = 0 then 0 else w := by
  split
  · rename_i h
    rw [h, Regs.get_zero]
  · exact Regs.get_put_self r x w ‹_›

theorem Regs.getK_putK (r : Regs) (x : KReg) (w : Word) :
    (r.putK x w).getK x = if x = 0 then BitVec.allOnes 64 else w := by
  split
  · rename_i h
    rw [h, Regs.getK_zero]
  · exact Regs.getK_putK_self r x w ‹_›

@[simp] theorem Regs.putK_g (r : Regs) (x : KReg) (w : Word) : (r.putK x w).g = r.g := by
  unfold Regs.putK; split <;> rfl
@[simp] theorem Regs.putK_v (r : Regs) (x : KReg) (w : Word) : (r.putK x w).v = r.v := by
  unfold Regs.putK; split <;> rfl
@[simp] theorem Regs.putK_cr (r : Regs) (x : KReg) (w : Word) : (r.putK x w).cr = r.cr := by
  unfold Regs.putK; split <;> rfl

/-! ### The registers of the executing context -/

/-- No other context is written. -/
theorem State.setRegs_ctx_other (s : State) (r : Regs) {c : Nat} {i : Fin 4} (h : (c, i) ≠ s.focus) :
    (s.setRegs r).ctx c i = s.ctx c i := by
  rw [State.ctx, State.ctx]
  by_cases hc : c = s.focus.1
  · have hi : i ≠ s.focus.2 := fun hi => h (Prod.ext hc hi)
    subst hc
    exact (congrArg (Core.ctx · i) (State.setRegs_me s r)).trans (Core.ctx_putCtx_other _ _ _ _ hi)
  · rw [State.setRegs_core_other s r c hc]

/-- Of a core only the contexts are written. -/
theorem State.setRegs_core_frame (s : State) (r : Regs) (c : Nat) :
    { (s.setRegs r).core c with ctxs := (s.core c).ctxs } = s.core c := by
  by_cases hc : c = s.focus.1
  · subst hc
    exact congrArg (fun x : Core => { x with ctxs := s.me.ctxs }) (State.setRegs_me s r)
  · rw [State.setRegs_core_other s r c hc]

/-- Settles O4: the laws of a register file after a write, and of the table of cores. -/
theorem registerWriteFrame : Obligations.RegisterWriteFrame := by
  refine ⟨fun r x y w => ?_, fun r x y w => ?_, fun r x y w => ?_, fun s r => ?_⟩
  · exact ⟨r.get_put x w, r.get_put_other x y w, rfl, r.put_pc x w, r.put_v x w, r.put_k x w, r.put_cr x w⟩
  · exact ⟨r.getK_putK x w, r.getK_putK_other x y w, r.putK_g x w, r.putK_v x w, r.putK_cr x w⟩
  · exact ⟨r.getV_putV_self x w, r.getV_putV_other x y w, rfl, rfl, rfl⟩
  · exact ⟨s.setRegs_cx r, rfl, fun _ _ => s.setRegs_ctx_other r, s.setRegs_core_frame r⟩

end Sys2Proof.Machine
end

section
/-! PROOF. The hypervisor's instructions (R460, R475, R476): HVCALL, ERET, WFI, VDSW and SLOTW. -/

set_option Elab.async false

namespace Sys2Proof.Machine
open Sys2Proof.Claims

/-! ### The instructions of the control profile (R79, R475) -/

theorem exec_hvcall (rd rs1 : GReg) (s : State) : exec (.hvcall rd rs1) s = execHvcall rd rs1 s := rfl
theorem exec_eret (s : State) : exec .eret s = execEret s := rfl
theorem exec_wfi (s : State) : exec .wfi s = execWfi s := rfl
theorem exec_vdsw (rd rs1 : GReg) (s : State) : exec (.vdsw rd rs1) s = execVdsw rd rs1 s := rfl
theorem exec_slotwEntry (rd rs1 rs2 : GReg) (s : State) :
    exec (.slotwEntry rd rs1 rs2) s = execSlotwEntry rd rs1 rs2 s := rfl
theorem exec_slotwPeriod (rd rs1 rs2 : GReg) (s : State) :
    exec (.slotwPeriod rd rs1 rs2) s = execSlotwPeriod rd rs1 rs2 s := rfl
theorem exec_slotwLen (rd rs1 rs2 : GReg) (s : State) :
    exec (.slotwLen rd rs1 rs2) s = execSlotwLen rd rs1 rs2 s := rfl

section
variable {s : State} {i : Instr} {enc : BitVec 32} {least : Nat} {k : Out}

theorem trapOut_illegal_notHere (he : encode i = .long enc) (hx : exec i s = trapOut s (illegalTrap enc)) : NotHere i s := by
  rw [NotHere, Traps, hx, he, ← illegalTrap_long]
  rfl

/-- What an instruction of the control profile answers before its own meaning. -/
theorem controlOnly_of_exec (he : encode i = .long enc) (hx : exec i s = controlOnly s enc least k) :
    ControlOnly i s least := by
  refine ⟨fun hfabric => trapOut_illegal_notHere he ?_, fun hctl hlevel => ?_⟩
  · rw [hx, controlOnly, hfabric]
    rfl
  · rw [TrapsBare, hx, controlOnly, hctl, if_neg (by decide), if_pos hlevel]
    rfl

/-- At its level it has its own meaning. -/
theorem controlOnly_atLevel (h : AtLevel s least) : controlOnly s enc least k = k := by
  obtain ⟨hctl, hlevel⟩ := h
  rw [controlOnly, hctl, if_neg (by decide), if_neg (Nat.not_lt.2 hlevel)]

end

/-! ### The executing core written -/

section
variable (s : State) (x : Core)

@[simp] theorem State.setMe_me : (s.setMe x).me = x := State.core_putCore_self ..
@[simp] theorem State.setMe_cx : (s.setMe x).cx = x.ctx s.focus.2 := congrArg (Core.ctx · s.focus.2) (s.setMe_me x)

/-- A write of the executing core that leaves its contexts leaves the registers. -/
theorem State.setMe_regs (h : x.ctxs = s.me.ctxs) : (s.setMe x).regs = s.regs := by
  rw [State.regs, State.setMe_cx, Core.ctx, h]
  rfl

/-- A write of the control profile's registers leaves those of the context, and one of pc all others. -/
theorem State.setPriv_setPc (q : Priv) (y : Word) :
    (s.setMe { s.me with priv := q }).setPc y = (s.setMe { s.me with priv := q }).setRegs { s.regs with pc := y } := by
  rw [State.setPc_eq, State.setMe_priv_regs]

end

/-! ### Values loaded into pc (R69, R472) -/

theorem and_not_one (x : Word) : x &&& ~~~1 = nat (x.toNat / 2 * 2) := by
  apply BitVec.eq_of_getLsbD_eq
  intro i hi
  have h := Nat.testBit_mul_two_pow (x.toNat / 2 ^ 1) i 1
  rw [Nat.testBit_div_two_pow, pow_one] at h
  rw [BitVec.getLsbD_and, BitVec.getLsbD_not, show (1 : Word) = 1#64 from rfl, BitVec.getLsbD_one, nat,
    BitVec.getLsbD_ofNat, h]
  cases i with
  | zero => simp
  | succ i => simp [hi, BitVec.testBit_toNat]

theorem pcWord_eq_pcAt (level : Nat) (x : Word) : pcWord level x = pcAt level x := by
  have htop : fld x 63 48 = x.toNat / 2 ^ 48 := by
    rw [fld_eq_div]
    exact Nat.mod_eq_of_lt (by have := x.isLt; omega)
  have hmask : x &&& 0x0000_FFFF_FFFF_FFFE = nat (x.toNat % 2 ^ 48) &&& ~~~1 := by
    have hlow : x &&& 0x0000_FFFF_FFFF_FFFF = nat (x.toNat % 2 ^ 48) := by
      apply BitVec.eq_of_toNat_eq
      rw [BitVec.toNat_and, nat, BitVec.toNat_ofNat, Nat.mod_eq_of_lt (b := 2 ^ 64) (by omega)]
      exact Nat.and_two_pow_sub_one_eq_mod _ 48
    rw [← hlow, BitVec.and_assoc]
    rfl
  rw [pcWord, pcAt, htop]
  split
  · exact and_not_one x
  · have hlt : (nat (x.toNat % 2 ^ 48)).toNat = x.toNat % 2 ^ 48 := Nat.mod_eq_of_lt (by omega)
    rw [hmask, and_not_one, hlt]

/-! ### HVCALL (R460, R476) -/

/-- The given value or a free one; only the count of free values goes on. -/
theorem State.orFree_eq (s : State) (x : Option Word) :
    ∃ a n, s.orFree x = (a, { s with free := n }) ∧ ∀ b, x = some b → a = b := by
  cases x with
  | none => exact ⟨_, _, rfl, nofun⟩
  | some a => exact ⟨a, s.free, rfl, fun b hb => Option.some.inj hb⟩

/-- A record of the executing core without PGINF. -/
theorem State.record_eq (s : State) {t : Trap} (ht : t.pginf = none) (anch : Bool) (fpc : Word) : ∃ (b : Bank) (n : Nat),
    s.record s.focus.1 s.focus.2 t anch fpc = ({ s with free := n } : State).setMe { s.me with bank := b } ∧
    Records s.me.bank b t anch s.focus.2.val s.regs.cr.msgid.toNat fpc := by
  obtain ⟨fa, n, hfa, hfaddr⟩ := s.orFree_eq t.faddr
  obtain ⟨pg, n', hpg, -⟩ := State.orFree_eq { s with free := n } t.pginf
  refine ⟨{ s.me.bank with cause := causeOf t anch s.focus.2.val s.regs.cr.msgid.toNat, faddr := fa, fpc := fpc, pginf := pg &&& pginfMask }, n', ?_, ?_⟩
  rotate_left
  · refine ⟨rfl, hfaddr, fun a ha => ?_⟩
    rw [ht] at ha
    cases ha
  · rw [State.record, hfa]
    dsimp only
    rw [hpg]
    cases anch <;> rfl

/-- Entry to a level, as one write of the executing core and one of pc. -/
theorem State.enterLevel_eq (s : State) (l : Nat) (epc : Word) :
    s.enterLevel l epc = (s.setMe { s.me with priv := { s.me.priv with
      epc := s.me.priv.epc.set (levelIx l) epc, eprv := s.me.priv.eprv.set (levelIx l) (nat s.level), cprv := l } }).setRegs
      { s.regs with pc := pcAt l s.me.priv.tvec[levelIx l] } :=
  (State.setPriv_setPc s _ _).trans (by rw [pcWord_eq_pcAt]; rfl)

/-- HVCALL below level 2: the record, level 2, and nothing in memory or on the networks. -/
theorem exec_hvcall_below {rd rs1 : GReg} {s : State} (h : AtLevel s 0) (hl : s.level < 2) : ∃ t : State,
    exec (.hvcall rd rs1) s = .next t ∧
      t.me.priv = { s.me.priv with
        cprv := 2, epc := s.me.priv.epc.set 2 (s.regs.pc + 4), eprv := s.me.priv.eprv.set 2 (nat s.level) } ∧
      t.regs = { s.regs with pc := pcAt 2 s.me.priv.tvec[2] } ∧
      Records s.me.bank t.me.bank (Trap.at_ .trapi 2 (s.regs.get rs1)) false s.focus.2.val s.regs.cr.msgid.toNat
        s.regs.pc ∧
      t.mem = s.mem ∧ t.net = s.net := by
  obtain ⟨b, n, hrec, hb⟩ := s.record_eq (t := Trap.at_ .trapi 2 (s.regs.get rs1)) rfl false s.regs.pc
  have hx : exec (.hvcall rd rs1) s = .next (({ s with free := n } : State).setMe { s.me with bank := b } |>.enterLevel 2
      (s.regs.pc + 4)) := by
    rw [exec_hvcall, execHvcall, controlOnly_atLevel h, if_neg (Nat.ne_of_lt hl), ← hrec]
    rfl
  have hregs : (({ s with free := n } : State).setMe { s.me with bank := b }).regs = s.regs := State.setMe_regs _ _ rfl
  refine ⟨_, hx, ?_⟩
  rw [State.enterLevel_eq, hregs, State.setMe_me]
  refine ⟨?_, ?_, ?_, rfl, rfl⟩
  · simp only [State.setRegs_me, Core.putCtx_priv, State.setMe_me, State.level, show levelIx 2 = 2 from rfl]
    rfl
  · rw [State.setRegs_regs]
    rfl
  · rw [State.setRegs_me, Core.putCtx_bank, State.setMe_me]
    exact hb

/-! ### ERET and WFI (R476) -/

theorem levelIx_val (l : Fin 3) : levelIx l.val = l := by
  revert l
  decide

theorem fld_1_0 (x : Word) : fld x 1 0 = x.toNat % 4 := by
  rw [fld_eq_div, pow_zero, Nat.div_one]
  rfl

/-- A return is let through where its level does not exceed the executing one. -/
theorem mayReturn_iff {s : State} {l : Fin 3} (hl : s.level = l.val) :
    s.mayReturn = true ↔ s.me.priv.eprv[l].toNat % 4 ≤ l.val := by
  obtain rfl : levelIx s.level = l := by rw [hl, levelIx_val]
  rw [State.mayReturn, fld_1_0, decide_eq_true_iff]
  exact iff_of_eq (congrArg _ hl)

/-- ERET at a level that its return level does not exceed. -/
theorem exec_eret_returns {s : State} {l : Fin 3} (h : AtLevel s 1) (hl : s.level = l.val)
    (he : s.me.priv.eprv[l].toNat % 4 ≤ l.val) :
    exec .eret s = .next ((s.setMe { s.me with priv := { s.me.priv with cprv := s.me.priv.eprv[l].toNat % 4 } }).setRegs
      { s.regs with pc := pcAt (s.me.priv.eprv[l].toNat % 4) s.me.priv.epc[l] }) := by
  have hmay : s.mayReturn = true := (mayReturn_iff hl).2 he
  obtain rfl : levelIx s.level = l := by rw [hl, levelIx_val]
  rw [exec_eret, execEret, controlOnly_atLevel h, hmay, if_pos rfl, State.returnLevel, ← pcWord_eq_pcAt]
  dsimp only
  rw [fld_1_0]
  exact congrArg Host.Outcome.next (State.setPriv_setPc s _ _)

theorem exec_eret_traps {s : State} {l : Fin 3} (h : AtLevel s 1) (hl : s.level = l.val)
    (he : l.val < s.me.priv.eprv[l].toNat % 4) : TrapsBare .eret s .priv 0 := by
  rw [TrapsBare, exec_eret, execEret, controlOnly_atLevel h]
  exact if_neg (mt (mayReturn_iff hl).1 (Nat.not_le.2 he))

theorem exec_wfi_atLevel {s : State} (h : AtLevel s 1) :
    exec .wfi s = if s.me.priv.ipend ≠ 0 then .next (s.advance 4) else .next (waiting s .wfi) :=
  (exec_wfi s).trans (controlOnly_atLevel h)

/-- The wake of a context that waits for an interrupt. -/
theorem exec_wfiWake {s : State} {c : Nat} (hst : (s.ctx c 0).st = .waiting) (hw : (s.ctx c 0).wait = .wfi) :
    exec (.wfiWake c) s = if (s.core c).priv.ipend = 0 then .next s else .next (s.complete c 0 0 0 false) := by
  show execWfiWake c s = _
  rw [execWfiWake]
  simp only [hst, hw]

/-! ### VDSW and SLOTW (R466, R476) -/

/-- Of a write of parts that are not the registers and a result, everything but the registers is as the write left it. -/
theorem makes_of_writeG {i : Instr} {s u : State} {rd : GReg} {x : Word} (hu : u.regs = s.regs)
    (hx : exec i s = writeG u rd x 4) : Makes i s rd x u := by
  rw [Makes, hx, writeG_eq, hu, State.pc, hu]
  rfl

/-- An entry of the slot table names both virtual devices of some time-shared cluster. -/
theorem namesBoth_iff {s : State} {d : Word} : s.namesBoth d = true ↔
    ∃ e ∈ s.clusters, e.2.shared = true ∧ d.getLsbD (e.2.clown.toNat % 2 ^ 6) = true ∧
      d.getLsbD (e.2.clown.toNat / 2 ^ 8 % 2 ^ 6) = true := by
  rw [State.namesBoth, List.any_eq_true]
  simp only [Bool.and_eq_true, bitOf_eq, fld_eq_div, pow_zero, Nat.div_one, and_assoc]

/-- The selector of an entry is its number. -/
theorem fld_63_8_ne_zero {x : Word} : fld x 63 8 ≠ 0 ↔ 256 ≤ x.toNat := by
  have := x.isLt
  rw [fld_eq_div]
  omega

section
variable {s : State} {rd rs1 rs2 : GReg} (h : AtLevel s 2)
include h

theorem exec_vdsw_bad (hx : 64 ≤ (s.regs.get rs1).toNat) : TrapsBare (.vdsw rd rs1) s .bounds 13 := by
  rw [TrapsBare, exec_vdsw, execVdsw, controlOnly_atLevel h]
  exact if_pos hx

theorem exec_vdsw_good (hx : (s.regs.get rs1).toNat < 64) : Makes (.vdsw rd rs1) s rd (nat s.me.bank.vdid)
    (s.setMe { s.me with bank := { s.me.bank with vdid := (s.regs.get rs1).toNat } }) := by
  refine makes_of_writeG (State.setMe_regs _ _ rfl) ?_
  rw [exec_vdsw, execVdsw, controlOnly_atLevel h]
  exact if_neg (Nat.not_le.2 hx)

theorem exec_slotwEntry_bad (hx : 256 ≤ (s.regs.get rs1).toNat ∨ s.namesBoth (s.regs.get rs2) = true) :
    TrapsBare (.slotwEntry rd rs1 rs2) s .bounds 13 := by
  rw [TrapsBare, exec_slotwEntry, execSlotwEntry, controlOnly_atLevel h]
  exact if_pos (hx.imp_left fld_63_8_ne_zero.2)

theorem exec_slotwEntry_good (hx : (s.regs.get rs1).toNat < 256) (hd : ¬s.namesBoth (s.regs.get rs2) = true) :
    Makes (.slotwEntry rd rs1 rs2) s rd (Tab.get s.slotTab (s.regs.get rs1).toNat 0)
      { s with slotTab := Tab.put s.slotTab (s.regs.get rs1).toNat (s.regs.get rs2) } := by
  refine makes_of_writeG rfl ?_
  rw [exec_slotwEntry, execSlotwEntry, controlOnly_atLevel h]
  exact if_neg (not_or.2 ⟨fun hx' => Nat.not_le.2 hx (fld_63_8_ne_zero.1 hx'), hd⟩)

theorem exec_slotwPeriod_bad
    (hx : s.regs.get rs1 ≠ 0x100 ∨ (s.regs.get rs2).toNat < 16000 ∨ 2 ^ 32 ≤ (s.regs.get rs2).toNat) :
    TrapsBare (.slotwPeriod rd rs1 rs2) s .bounds 13 := by
  rw [TrapsBare, exec_slotwPeriod, execSlotwPeriod, controlOnly_atLevel h]
  exact if_pos hx

theorem exec_slotwPeriod_good (hx : s.regs.get rs1 = 0x100) (hlow : 16000 ≤ (s.regs.get rs2).toNat)
    (hhigh : (s.regs.get rs2).toNat < 2 ^ 32) : Makes (.slotwPeriod rd rs1 rs2) s rd (nat s.slotPeriodNext)
      { s with slotPeriodNext := (s.regs.get rs2).toNat } := by
  refine makes_of_writeG rfl ?_
  rw [exec_slotwPeriod, execSlotwPeriod, controlOnly_atLevel h]
  exact if_neg (not_or.2 ⟨not_not.2 hx, not_or.2 ⟨Nat.not_lt.2 hlow, Nat.not_le.2 hhigh⟩⟩)

theorem exec_slotwLen_bad (hx : s.regs.get rs1 ≠ 0x200 ∨ (s.regs.get rs2).toNat = 0 ∨ 256 < (s.regs.get rs2).toNat) :
    TrapsBare (.slotwLen rd rs1 rs2) s .bounds 13 := by
  rw [TrapsBare, exec_slotwLen, execSlotwLen, controlOnly_atLevel h]
  exact if_pos (hx.imp_right (Or.imp_left Nat.lt_one_iff.2))

theorem exec_slotwLen_good (hx : s.regs.get rs1 = 0x200) (hlow : 1 ≤ (s.regs.get rs2).toNat)
    (hhigh : (s.regs.get rs2).toNat ≤ 256) : Makes (.slotwLen rd rs1 rs2) s rd (nat s.slotLenNext)
      { s with slotLenNext := (s.regs.get rs2).toNat } := by
  refine makes_of_writeG rfl ?_
  rw [exec_slotwLen, execSlotwLen, controlOnly_atLevel h]
  exact if_neg (not_or.2 ⟨not_not.2 hx, not_or.2 ⟨Nat.not_lt.2 hlow, Nat.not_lt.2 hhigh⟩⟩)

end

theorem hypervisorInstructions : HypervisorInstructions := by
  intro s rd rs1 rs2 x d n p bad both hv
  refine ⟨⟨?_, ?_, ?_, ?_, ?_, ?_, ?_⟩, fun h hl => ?_, exec_hvcall_below, fun h l hl => ?_, fun h => ?_,
    fun c hst hw => ?_, fun h => ?_⟩
  · exact controlOnly_of_exec rfl (exec_hvcall ..)
  · exact controlOnly_of_exec rfl (exec_eret ..)
  · exact controlOnly_of_exec rfl (exec_wfi ..)
  · exact controlOnly_of_exec rfl (exec_vdsw ..)
  · exact controlOnly_of_exec rfl (exec_slotwEntry ..)
  · exact controlOnly_of_exec rfl (exec_slotwPeriod ..)
  · exact controlOnly_of_exec rfl (exec_slotwLen ..)
  · refine trapOut_illegal_notHere rfl ?_
    rw [exec_hvcall, execHvcall, controlOnly_atLevel ⟨h.1, Nat.zero_le _⟩]
    exact if_pos hl
  · exact ⟨exec_eret_traps h hl, exec_eret_returns h hl⟩
  · refine ⟨fun hp => ?_, fun hp => ?_⟩
    · exact (exec_wfi_atLevel h).trans (if_pos hp)
    · exact (exec_wfi_atLevel h).trans (if_neg (not_not.2 hp))
  · refine ⟨fun hp => ?_, fun hp => ?_⟩
    · exact (exec_wfiWake hst hw).trans (if_pos hp)
    · exact (exec_wfiWake hst hw).trans (if_neg hp)
  · have hboth : both ↔ s.namesBoth d = true := namesBoth_iff.symm
    exact ⟨exec_vdsw_bad h, exec_vdsw_good h, fun hx => exec_slotwEntry_bad h (hx.imp_right hboth.1),
      fun hx hd => exec_slotwEntry_good h hx (mt hboth.2 hd), exec_slotwPeriod_bad h, exec_slotwPeriod_good h,
      exec_slotwLen_bad h, exec_slotwLen_good h⟩

end Sys2Proof.Machine
end

section
/-! PROOF. The assignment of clusters and pending interrupts (R183, R250, R461, R462, R464). -/

set_option Elab.async false

namespace Sys2Proof.Machine
open Sys2Proof.Claims

/-! ### The word that CLOWN keeps (R462) -/

/-- A field that a mask has whole is as it was. -/
theorem fld_and_mask (x m : Word) {hi lo : Nat} (h : fld m hi lo = 2 ^ (hi + 1 - lo) - 1) : fld (x &&& m) hi lo = fld x hi lo := by
  rw [fld] at h
  rw [fld, fld, BitVec.toNat_and, Nat.shiftRight_and_distrib, Nat.and_mod_two_pow, h, Nat.and_two_pow_sub_one_eq_mod,
    Nat.mod_mod]

theorem bitOf_and_mask (x m : Word) {i : Nat} (h : m.getLsbD i = true) : bitOf (x &&& m) i = x.getLsbD i := by
  rw [bitOf, BitVec.getLsbD_and, h, Bool.and_true]

theorem mem_coresOf {k c : Nat} : c ∈ coresOf k ↔ c / 8 = k := by
  simp only [coresOf, List.mem_map, List.mem_range]
  refine ⟨?_, fun h => ⟨c % 8, by omega, by omega⟩⟩
  rintro ⟨i, hi, rfl⟩
  omega

theorem nodup_coresOf (k : Nat) : (coresOf k).Nodup :=
  List.nodup_range.map fun i j h => by simpa using h

/-- Some core of the cluster holds a kernel of the virtual device. -/
theorem absentOn_eq_false {s : State} {k v : Nat} : s.absentOn k v = false ↔ ∃ c, c / 8 = k ∧
    (((s.core c).bank.vdid = v ∧ (s.core c).bank.kst ≠ .absent) ∨
      ((s.core c).other.vdid = v ∧ (s.core c).other.kst ≠ .absent)) := by
  simp only [State.absentOn, List.all_eq_false, mem_coresOf, Bank.loadedFor, Bool.and_eq_true, Bool.not_eq_true',
    Bool.and_eq_false_iff, decide_eq_false_iff_not, not_and_or, not_or, not_not]

/-! ### The copies of a core (R183, R250, R464; log 32) -/

section
variable (x y : Core) (v : Nat)

@[simp] theorem Core.comeTo_bank : (x.comeTo y).bank = y.bank := by
  unfold Core.comeTo; split <;> rfl
@[simp] theorem Core.comeTo_other : (x.comeTo y).other = y.other := by
  unfold Core.comeTo; split <;> rfl

theorem Core.serve_bank : (x.serve v).bank =
    if x.bank.vdid = v then x.bank else if x.other.vdid = v then x.other else { x.bank with vdid := v } := by
  unfold Core.serve
  split
  · rfl
  · split <;> rfl

end

/-- What the copies of a core are after it has come to serve a and b. -/
structure Serves (x y : Core) (a b : Nat) : Prop where
  pair : (y.bank.vdid = a ∧ y.other.vdid = b) ∨ (y.bank.vdid = b ∧ y.other.vdid = a)
  kept : ∀ v ∈ [a, b], x.bank.vdid = v ∨ x.other.vdid = v → y.copyOf v = x.copyOf v

section
variable {x y z : Core} {a b v : Nat}

theorem Core.copyOf_of_bank (h : x.bank.vdid = v) : x.copyOf v = x.bank := if_pos h
theorem Core.copyOf_of_other (h : x.bank.vdid ≠ v) (h' : x.other.vdid = v) : x.copyOf v = x.other := by
  rw [Core.copyOf, if_neg h, if_pos h']

/-- Copies of two virtual devices that change places are the same copies. -/
theorem Core.copyOf_swapped (hne : x.bank.vdid ≠ x.other.vdid) (hv : x.bank.vdid = v ∨ x.other.vdid = v) :
    x.swapped.copyOf v = x.copyOf v := by
  rcases hv with rfl | rfl
  · rw [Core.copyOf_of_bank rfl]
    exact Core.copyOf_of_other (Ne.symm hne) rfl
  · rw [Core.copyOf_of_other hne rfl]
    exact Core.copyOf_of_bank rfl

theorem Serves.swapped (hne : a ≠ b) (h : Serves x y a b) : Serves x y.swapped a b where
  pair := h.pair.symm.imp And.symm And.symm
  kept v hv hx := by
    have hboth : y.bank.vdid ≠ y.other.vdid ∧ (y.bank.vdid = v ∨ y.other.vdid = v) := by
      have hp := h.pair
      simp only [List.mem_cons, List.not_mem_nil, or_false] at hv
      omega
    rw [Core.copyOf_swapped hboth.1 hboth.2, h.kept v hv hx]

theorem Serves.ite {p : Prop} [Decidable p] (hy : Serves x y a b) (hz : Serves x z a b) :
    Serves x (if p then y else z) a b := by
  split <;> assumption

theorem Serves.comeTo (h : Serves x y a b) : Serves x (x.comeTo y) a b := by
  have hcopy (v : Nat) : (x.comeTo y).copyOf v = y.copyOf v := by
    rw [Core.copyOf, Core.copyOf, Core.comeTo_bank, Core.comeTo_other]
  refine ⟨?_, fun v hv hx => (hcopy v).trans (h.kept v hv hx)⟩
  rw [Core.comeTo_bank, Core.comeTo_other]
  exact h.pair

/-- One copy serves v; the other comes to the second virtual device, unless it serves it already. -/
theorem Serves.of_bank {o : Nat} (hz : z = { y with other := { y.other with vdid := o } })
    (hyo : (y.bank.vdid = a ∧ o = b) ∨ (y.bank.vdid = b ∧ o = a))
    (hkept : ∀ v ∈ [a, b], x.bank.vdid = v ∨ x.other.vdid = v →
      y.copyOf v = x.copyOf v ∧ (y.bank.vdid = v ∨ y.other.vdid = v)) : Serves x z a b := by
  subst hz
  refine ⟨hyo, fun v hv hx => ?_⟩
  obtain ⟨hcopy, hserved⟩ := hkept v hv hx
  rw [← hcopy]
  by_cases hb : y.bank.vdid = v
  · rw [Core.copyOf_of_bank hb]
    exact Core.copyOf_of_bank hb
  · have ho := hserved.resolve_left hb
    have hov : o = v := by
      simp only [List.mem_cons, List.not_mem_nil, or_false] at hv
      omega
    rw [Core.copyOf_of_other hb ho, hov, ← ho]
    exact Core.copyOf_of_other (x := { y with other := { y.other with vdid := y.other.vdid } }) (ho.symm ▸ hb) rfl

/-- A copy that comes to serve b leaves both copies of a as they were, and conversely. -/
theorem Core.serve_keeps {w : Nat} (hb : x.bank.vdid ≠ v) (hx : x.other.vdid = v → w = v) (hs : x.other.vdid = v) :
    (x.serve w).copyOf v = x.copyOf v ∧ ((x.serve w).bank.vdid = v ∨ (x.serve w).other.vdid = v) := by
  obtain rfl := hx hs
  have hserve : x.serve w = x.swapped := by
    rw [Core.serve, if_neg hb, if_pos hs]
  rw [hserve, Core.copyOf_of_other hb hs]
  exact ⟨Core.copyOf_of_bank hs, .inl hs⟩

theorem Core.serve_vdid : (x.serve v).bank.vdid = v := by
  rw [Core.serve_bank]
  split
  · assumption
  · split
    · assumption
    · rfl

/-- The copies of a time-shared core serve its two virtual devices, and one that did before is as it was. -/
theorem State.serveBoth_serves (s : State) (x : Core) (hne : a ≠ b) : Serves x (s.serveBoth x a b) a b := by
  obtain ⟨y, hy⟩ : ∃ y, (if x.bank.vdid = a ∨ x.bank.vdid = b then x else x.serve (if x.other.vdid = b then b else a)) = y :=
    ⟨_, rfl⟩
  have hvd : y.bank.vdid = a ∨ y.bank.vdid = b := by
    subst hy
    split
    · assumption
    · rw [Core.serve_vdid]
      split
      · exact .inr rfl
      · exact .inl rfl
  have hkept : ∀ v ∈ [a, b], x.bank.vdid = v ∨ x.other.vdid = v →
      y.copyOf v = x.copyOf v ∧ (y.bank.vdid = v ∨ y.other.vdid = v) := by
    intro v hv hx
    subst hy
    simp only [List.mem_cons, List.not_mem_nil, or_false] at hv
    split
    · exact ⟨rfl, hx⟩
    · rename_i hneither
      have hb : x.bank.vdid ≠ v := by omega
      exact Core.serve_keeps hb (fun ho => by split <;> omega) (hx.resolve_left hb)
  have hz : Serves x { y with other := { y.other with vdid := if y.bank.vdid = a then b else a } } a b :=
    .of_bank rfl (by split <;> omega) hkept
  rw [State.serveBoth, hy]
  exact .ite (hz.swapped hne) hz

end

/-! ### An assignment (R462, R464) -/

/-- A core as an assignment leaves it. -/
def State.assigned (s : State) (w : Word) (x : Core) : Core :=
  x.comeTo (match bitOf w 6, bitOf w 14 with
    | true, true => s.serveBoth x (fld w 5 0) (fld w 13 8)
    | true, false => x.serve (fld w 5 0)
    | false, true => x.serve (fld w 13 8)
    | false, false => x)

theorem State.assignCore_eq (s : State) (w : Word) (c : Nat) : s.assignCore w c = s.modCore c (s.assigned w) := rfl

/-- Which copy a core takes up depends on which virtual devices are switched in, and on nothing else of the state. -/
theorem State.assigned_congr {s t : State} (h : t.vds = s.vds) (w : Word) : t.assigned w = s.assigned w := by
  have hv (v : Nat) : t.vdev v = s.vdev v := by rw [State.vdev, State.vdev, h]
  funext x
  simp only [State.assigned, State.serveBoth, hv]

/-- Of a cluster of one virtual device the copies in use serve that one. -/
theorem State.assigned_bank (s : State) {w : Word} (h : bitOf w 6 ≠ bitOf w 14) (x : Core) :
    (s.assigned w x).bank = (x.serve (if bitOf w 6 then fld w 5 0 else fld w 13 8)).bank := by
  rw [State.assigned, Core.comeTo_bank]
  cases h6 : bitOf w 6
  · have h14 : bitOf w 14 = true := by simpa [h6] using h
    rw [h14]
    rfl
  · have h14 : bitOf w 14 = false := by simpa [h6] using h
    rw [h14]
    rfl

/-- Of a time-shared cluster the copies serve both. -/
theorem State.assigned_serves (s : State) {w : Word} (h6 : bitOf w 6 = true) (h14 : bitOf w 14 = true)
    (hne : fld w 5 0 ≠ fld w 13 8) (x : Core) : Serves x (s.assigned w x) (fld w 5 0) (fld w 13 8) := by
  rw [State.assigned, h6, h14]
  exact (s.serveBoth_serves x hne).comeTo

section
variable (w : Word) (cs : List Nat) (s : State)

/-- The assignment of cores in turn writes the table of cores alone. -/
theorem foldl_assignCore_frame : ∃ cores, cs.foldl (fun s c => s.assignCore w c) s = { s with cores := cores } := by
  induction cs generalizing s with
  | nil => exact ⟨s.cores, rfl⟩
  | cons c cs ih =>
    obtain ⟨cores, h⟩ := ih (s.assignCore w c)
    exact ⟨cores, h⟩

theorem foldl_assignCore_core (hnodup : cs.Nodup) (c : Nat) : (cs.foldl (fun s c => s.assignCore w c) s).core c =
    if c ∈ cs then s.assigned w (s.core c) else s.core c := by
  induction cs generalizing s with
  | nil => rfl
  | cons d cs ih =>
    rw [List.nodup_cons] at hnodup
    have hcongr : (s.assignCore w d).assigned w = s.assigned w := State.assigned_congr rfl w
    rw [List.foldl_cons, ih _ hnodup.2, hcongr, State.assignCore_eq, State.modCore]
    by_cases hcd : c = d
    · subst hcd
      rw [if_neg hnodup.1, if_pos List.mem_cons_self, State.core_putCore_self]
    · rw [State.core_putCore_other _ _ _ _ hcd]
      simp only [List.mem_cons, hcd, false_or]

end

/-- What a write to CLOWN that takes effect leaves: the cluster's word, the cores of the cluster as they are assigned,
and all else as it was. -/
theorem exec_clownWrite_assigns {s : State} {k : Nat} {x : Word} (hk : k < 2 ^ 15)
    (hx : s.clownIgnored k (x &&& 0x001F_7F7F) = false) : ∃ t : State, exec (.clownWrite k x) s = .next t ∧
      (t.cluster k).clown = x &&& 0x001F_7F7F ∧ (∀ j, j ≠ k → t.cluster j = s.cluster j) ∧ t.mem = s.mem ∧ t.net = s.net ∧
      ∀ c, t.core c = if c / 8 = k then s.assigned (x &&& 0x001F_7F7F) (s.core c) else s.core c := by
  have hexec : exec (.clownWrite k x) s = .next (s.writeClown k x) :=
    congrArg Host.Outcome.next (if_pos hk)
  rw [hexec, State.writeClown]
  dsimp only
  rw [hx, if_neg Bool.false_ne_true]
  generalize hu : s.modCluster k _ = u
  have hcores : u.core = s.core := by subst hu; rfl
  have hvds : u.vds = s.vds := by subst hu; rfl
  have hclown : (u.cluster k).clown = x &&& 0x001F_7F7F := by
    subst hu
    rw [State.cluster, State.modCluster, Tab.get_put_self]
  have hothers : ∀ j, j ≠ k → u.cluster j = s.cluster j := by
    subst hu
    exact fun j hj => Tab.get_put_other _ _ _ _ _ hj
  have hmem : u.mem = s.mem := by subst hu; rfl
  have hnet : u.net = s.net := by subst hu; rfl
  obtain ⟨cores, hframe⟩ := foldl_assignCore_frame (x &&& 0x001F_7F7F) (coresOf k) u
  refine ⟨_, rfl, ?_, ?_, ?_, ?_, fun c => ?_⟩
  · rw [hframe]
    exact hclown
  · rw [hframe]
    exact hothers
  · rw [hframe]
    exact hmem
  · rw [hframe]
    exact hnet
  · rw [foldl_assignCore_core _ _ _ (nodup_coresOf k), hcores, State.assigned_congr hvds]
    simp only [mem_coresOf]

theorem clusterAssignmentAndInterrupts : ClusterAssignmentAndInterrupts := by
  intro s k x hk old n a b split va vb holds moved ignored
  have h5 : fld (x &&& 0x001F_7F7F) 5 0 = a := by
    rw [fld_and_mask x _ (by decide), fld_eq_div, pow_zero, Nat.div_one]
  have h13 : fld (x &&& 0x001F_7F7F) 13 8 = b := by rw [fld_and_mask x _ (by decide), fld_eq_div]
  have h20 : fld (x &&& 0x001F_7F7F) 20 16 = split := by rw [fld_and_mask x _ (by decide), fld_eq_div]
  have b6 : bitOf (x &&& 0x001F_7F7F) 6 = va := bitOf_and_mask x _ (by decide)
  have b14 : bitOf (x &&& 0x001F_7F7F) 14 = vb := bitOf_and_mask x _ (by decide)
  have hignored : s.clownIgnored k (x &&& 0x001F_7F7F) = true ↔ ignored := by
    simp only [State.clownIgnored, h5, h13, h20, b6, b14, bitOf_eq, fld_eq_div, Bool.or_eq_true, Bool.and_eq_true,
      decide_eq_true_eq, Bool.not_eq_true', absentOn_eq_false, List.any_eq_true, and_assoc, or_assoc,
      pow_zero, Nat.div_one, ignored, moved, holds, old, a, b, n, va, vb, split]
  refine ⟨fun hi => ?_, fun hi => ?_, fun c y hc => ?_⟩
  · have hw : s.writeClown k x = s := if_pos (hignored.2 hi)
    exact congrArg Host.Outcome.next ((if_pos hk).trans hw)
  · obtain ⟨t, hx, hclown, hothers, hmem, hnet, hcore⟩ :=
      exec_clownWrite_assigns hk (Bool.eq_false_of_not_eq_true (mt hignored.1 hi))
    refine ⟨t, hx, hclown, hothers, hmem, hnet, fun c hc => ?_, fun hone c hc => ?_, fun ha hb c hc => ?_⟩
    · rw [hcore, if_neg hc]
    · rw [hcore, if_pos hc, State.assigned_bank, b6, h5, h13]
      · exact Core.serve_bank ..
      · rwa [b6, b14]
    · have hne : a ≠ b := fun hab => hi (.inr (.inr (.inr (.inl ⟨ha, hb, hab⟩))))
      rw [← h5, ← h13] at hne ⊢
      rw [hcore, if_pos hc]
      have hserves := s.assigned_serves (b6.trans ha) (b14.trans hb) hne (s.core c)
      exact ⟨hserves.pair, hserves.kept⟩
  · exact congrArg Host.Outcome.next (if_pos hc)

/-- Settles O46: the hypervisor's instructions one by one, and the assignment of a cluster core by core. -/
theorem hypervisorInstructionsAndClusters : Obligations.HypervisorInstructionsAndClusters :=
  ⟨hypervisorInstructions, clusterAssignmentAndInterrupts⟩

end Sys2Proof.Machine
end

section
/-! PROOF. Fetching (R56, R58, R80, R82, R122): halfwords of a core's own code, the addresses that are none, and the
traps of fetch and encoding. -/

set_option Elab.async false

namespace Sys2Proof.Machine
open Sys2Proof.Claims

/-! ### A halfword of TCM -/

/-- A byte of the aligned word of an own place. -/
theorem wordAt_byte (s : State) (a : Nat) {i : Nat} (hi : i < 8) :
    BitVec.ofNat 8 ((s.wordAt { addr := a, home := none }).toNat / 256 ^ i) = s.mem.byte (a / 8 * 8 + i) := by
  have hbytes : s.bytesAt { addr := a / 8 * 8, home := none } 8 =
      (List.range 8).map fun j => s.mem.byte (a / 8 * 8 + j) := rfl
  have hlt := ofBytes_lt (s.bytesAt { addr := a / 8 * 8, home := none } 8)
  rw [hbytes, List.length_map, List.length_range] at hlt
  apply BitVec.eq_of_toNat_eq
  rw [BitVec.toNat_ofNat, State.wordAt, hbytes, w64, BitVec.toNat_ofNat, Nat.mod_eq_of_lt (b := 2 ^ 64) hlt]
  refine (ofBytes_div _ i).trans ?_
  rw [List.getD_eq_getElem?_getD, List.getElem?_map, List.getElem?_range hi]
  rfl

theorem ofNat16_eq_halfOf (x : Nat) : BitVec.ofNat 16 x = halfOf (BitVec.ofNat 8 x) (BitVec.ofNat 8 (x / 256)) := by
  have hlow : (BitVec.ofNat 16 x).extractLsb' 0 8 = BitVec.ofNat 8 x := by
    apply BitVec.eq_of_toNat_eq
    rw [Laws.extract_toNat, BitVec.toNat_ofNat, BitVec.toNat_ofNat]
    omega
  have hhigh : (BitVec.ofNat 16 x).extractLsb' 8 8 = BitVec.ofNat 8 (x / 256) := by
    apply BitVec.eq_of_toNat_eq
    rw [Laws.extract_toNat, BitVec.toNat_ofNat, BitVec.toNat_ofNat]
    omega
  rw [← hlow, ← hhigh]
  exact ((half_of_bytes _ 0).trans (extract_whole _)).symm

/-- An aligned halfword of an own place. -/
theorem half_own (s : State) {a : Nat} (ha : a % 2 = 0) :
    BitVec.ofNat 16 ((s.wordAt { addr := a, home := none }).toNat / 256 ^ (a % 8)) =
      halfOf (s.mem.byte a) (s.mem.byte (a + 1)) := by
  rw [ofNat16_eq_halfOf, Nat.div_div_eq_div_mul, ← pow_succ, wordAt_byte s a (by omega), wordAt_byte s a (by omega)]
  congr 2 <;> omega

theorem halfBytes_halfOf (b0 b1 : Byte) : halfBytes (halfOf b0 b1) = [b0, b1] := by
  rw [halfBytes, Laws.halfOf_low, Laws.halfOf_high]

/-- Bits 15:14 of a halfword, by its second byte (R56). -/
theorem long_halfOf_iff (b0 b1 : Byte) : (halfOf b0 b1).extractLsb' 14 2 = 3 ↔ 192 ≤ b1.toNat := by
  have htop : (halfOf b0 b1).extractLsb' 14 2 = b1.extractLsb' 6 2 := extract_high _ _ 14 2 (by decide)
  have hlt := b1.isLt
  rw [htop, BitVec.toNat_inj.symm, Laws.extract_toNat]
  show b1.toNat / 2 ^ 6 % 2 ^ 2 = 3 ↔ _
  omega

/-! ### Where a fetch leads (R113, R122) -/

section
variable {s : State} {va : Word} (hf : OnFabric s)
include hf

/-- The code region leads to the core's own TCM. -/
theorem find_code (hcode : s.codeBytes s.focus.1 ≤ 2 ^ 18) (hva : va.toNat < s.codeBytes s.focus.1) :
    s.find s.focus.1 .fetch va =
    (.ok { place := { addr := tcmAt s.focus.1 + va.toNat, home := none }, translated := false, lg := false }, s) := by
  have hreach : s.reachAs (s.asker s.focus.1) .fetch va =
      .place { addr := tcmAt s.focus.1 + va.toNat, home := none } := by
    have hin : va.toNat < s.codeBytes s.focus.1 := hva
    rw [State.reachAs, State.asker]
    dsimp only
    rw [isControl_of_fabric hf.1, if_neg Bool.false_ne_true, State.fabricReach]
    dsimp only
    rw [if_pos (Nat.lt_of_lt_of_le hva hcode), decide_eq_true hin, tcmByte_of_unshared hf.2]
    rfl
  rw [State.find, State.findAs, hreach]

/-- Outside it and below the translated addresses, or above them, there is nothing to fetch. -/
theorem find_outside (hva : s.codeBytes s.focus.1 ≤ va.toNat) (hout : va.toNat < 2 ^ 32 ∨ 2 ^ 48 ≤ va.toNat) :
    s.find s.focus.1 .fetch va = (.error (Trap.at_ .perm 0 va), s) := by
  have hreach : s.reachAs (s.asker s.focus.1) .fetch va = .nothing := by
    have hin : ¬va.toNat < s.codeBytes s.focus.1 := Nat.not_lt.2 hva
    rw [State.reachAs, State.asker]
    dsimp only
    rw [isControl_of_fabric hf.1, if_neg Bool.false_ne_true, State.fabricReach]
    dsimp only
    rw [decide_eq_false hin]
    split
    · rfl
    · split
      · rfl
      · rw [if_neg (by omega)]
  rw [State.find, State.findAs, hreach]

theorem fetchHalf_outside (hva : s.codeBytes s.focus.1 ≤ va.toNat) (hout : va.toNat < 2 ^ 32 ∨ 2 ^ 48 ≤ va.toNat) :
    s.fetchHalf va = (.error (Trap.at_ .perm 0 va), s) := by
  rw [State.fetchHalf, find_outside hf hva hout]

/-- A halfword of the code region whose codewords can be corrected. -/
theorem fetchHalf_code (hcode : s.codeBytes s.focus.1 ≤ 2 ^ 18) (hne : NoErrors s) (heven : va.toNat % 2 = 0)
    (hva : va.toNat + 2 ≤ s.codeBytes s.focus.1) : s.fetchHalf va =
      (.ok (halfOf (s.mem.byte (tcmAt s.focus.1 + va.toNat)) (s.mem.byte (tcmAt s.focus.1 + va.toNat + 1))), s) := by
  have hline (p : Nat) :
      s.lineTrap { place := { addr := p, home := none }, translated := false, lg := false } va = none := by
    rw [State.lineTrap, State.dataTrap, readFails_own fun _ _ => uncorrectableAt_of_noErrors hne _]
    rfl
  have hnote : s.noteUse false false va = s := if_pos (Bool.or_true _)
  rw [State.fetchHalf, find_code hf hcode (by omega)]
  dsimp only
  rw [hline]
  dsimp only
  rw [hnote, half_own s (by rw [tcmAt]; omega)]

/-- A line of the code region with a codeword that cannot be corrected (R118). -/
theorem fetchHalf_uncorrectable (hcode : s.codeBytes s.focus.1 ≤ 2 ^ 18) (hva : va.toNat < s.codeBytes s.focus.1)
    (hbad : ∃ b < 64, codeword (tcmAt s.focus.1 + va.toNat / 64 * 64 + b) ∈ s.uncorrectable) :
    ∃ x : Trap, x.cause = .uncorr ∧ x.faddr = some va ∧ s.fetchHalf va = (.error x, s) := by
  have hstart : (tcmAt s.focus.1 + va.toNat) / 64 * 64 = tcmAt s.focus.1 + va.toNat / 64 * 64 := by
    rw [tcmAt]
    omega
  obtain ⟨p, hp⟩ : ∃ p, s.badByte (tcmAt s.focus.1 + va.toNat / 64 * 64) 64 = some p := by
    obtain ⟨b, hb, hmem⟩ := hbad
    rw [← Option.isSome_iff_exists, State.badByte, List.find?_isSome]
    refine ⟨_, List.mem_map.2 ⟨b, List.mem_range.2 hb, rfl⟩, ?_⟩
    rw [State.uncorrectableAt, List.contains_iff_mem.2 hmem]
    rfl
  have hfails : s.readFails { addr := tcmAt s.focus.1 + va.toNat / 64 * 64, home := none } 64 =
      some (.uncorr, 0, p) := by
    have hgood : s.lineSt { addr := tcmAt s.focus.1 + va.toNat / 64 * 64, home := none } = .good := rfl
    rw [State.readFails, hgood, if_neg (by decide), hp]
  have hline : s.lineTrap
      { place := { addr := tcmAt s.focus.1 + va.toNat, home := none }, translated := false, lg := false } va =
      some { Trap.at_ .uncorr 0 va with translated := false, host := p, owner := 0xFF } := by
    rw [State.lineTrap, State.dataTrap]
    dsimp only
    rw [hstart, hfails]
    rfl
  refine ⟨{ Trap.at_ .uncorr 0 va with translated := false, host := p, owner := 0xFF }, rfl, rfl, ?_⟩
  rw [State.fetchHalf, find_code hf hcode hva]
  dsimp only
  rw [hline]

end

/-! ### The focus and the registers in a fetch -/

section
variable (s : State)

theorem State.loadFrom_focus (c least : Nat) (p : Place) : (s.loadFrom c least p).2.focus = s.focus := by
  unfold State.loadFrom
  dsimp only
  split
  · rfl
  · rfl
  · split <;> rfl
  · split <;> rfl

theorem State.tableWord_focus (c v lv gpa : Nat) : (s.tableWord c v lv gpa).2.focus = s.focus := by
  unfold State.tableWord
  split
  · rfl
  · split
    · rfl
    · split
      · rfl
      · dsimp only
        split
        · rfl
        · exact s.loadFrom_focus ..

theorem State.walkFrom_focus (c v a : Nat) : ∀ (n t : Nat) (s : State), (s.walkFrom c v a t n).2.focus = s.focus
  | 0, _, _ => rfl
  | n + 1, t, s => by
    unfold State.walkFrom
    dsimp only
    have hread := s.tableWord_focus c v (3 - n)
      (t + 8 * if 3 - n = 1 then a / 2 ^ 37 % 2 ^ 11 else if 3 - n = 2 then a / 2 ^ 26 % 2 ^ 11 else a / 2 ^ 16 % 2 ^ 10)
    split
    · rename_i e
      rwa [e] at hread
    · rename_i e
      rw [e] at hread
      split
      · exact hread
      · split
        · exact hread
        · split
          · exact (State.walkFrom_focus c v a n _ _).trans hread
          · exact hread

theorem State.walk_focus (c v sid : Nat) (va : Word) : (s.walk c v sid va).2.focus = s.focus := by
  unfold State.walk
  dsimp only
  split
  · rfl
  · split
    · rfl
    · split
      · rfl
      · have hwalk (root : Nat) := State.walkFrom_focus c v va.toNat 3 root s
        split
        · rename_i e
          exact (congrArg (fun p => p.2.focus) e).symm.trans (hwalk _)
        · rename_i e
          split <;> exact (congrArg (fun p => p.2.focus) e).symm.trans (hwalk _)

theorem State.cacheWalk_focus (c : Nat) (f : TlbEntry) : (s.cacheWalk c f).focus = s.focus := by
  unfold State.cacheWalk
  dsimp only
  split
  · rfl
  · split <;> rfl

theorem State.xlate_focus (q : Asker) (va : Word) : (s.xlate q va).2.focus = s.focus := by
  have hwalk := s.walk_focus q.agent q.vd q.sid va
  unfold State.xlate
  dsimp only
  split
  · split
    · exact (State.cacheWalk_focus ..).trans hwalk
    · exact hwalk
  · split
    · split
      · exact hwalk
      · split
        · exact hwalk
        · exact (State.cacheWalk_focus ..).trans hwalk
    · split
      · exact hwalk
      · split <;> exact hwalk

theorem State.findAs_focus (q : Asker) (k : AccKind) (va : Word) : (s.findAs q k va).2.focus = s.focus := by
  have hxlate := s.xlate_focus q va
  unfold State.findAs
  split
  · rfl
  · rfl
  · split
    · rename_i e
      rwa [e] at hxlate
    · rename_i e
      rwa [e] at hxlate

theorem regs_of_sameArrays {s t : State} (hfocus : t.focus = s.focus) (h : SameArrays s t) : t.regs = s.regs := by
  have hctxs : (t.core s.focus.1).ctxs = (s.core s.focus.1).ctxs := congrArg Prod.fst (h s.focus.1)
  rw [State.regs, State.cx, State.ctx, Core.ctx, hfocus]
  simp only [hctxs]
  rfl

theorem State.find_regs (c : Nat) (k : AccKind) (va : Word) : (s.find c k va).2.regs = s.regs :=
  regs_of_sameArrays (s.findAs_focus ..) (Undisturbed.refl (k := 0)).findAs.arrays

theorem State.noteUse_regs (translated lg : Bool) (va : Word) : (s.noteUse translated lg va).regs = s.regs := by
  unfold State.noteUse
  split
  · rfl
  · rw [State.regs, State.modCx, State.setCx_cx]
    split <;> rfl

/-- A halfword is fetched without writing a register. -/
theorem State.fetchHalf_regs (va : Word) : (s.fetchHalf va).2.regs = s.regs := by
  have hfind := s.find_regs s.focus.1 .fetch va
  unfold State.fetchHalf
  split
  · rename_i e
    rwa [e] at hfind
  · rename_i e
    rw [e] at hfind
    split
    · exact hfind
    · exact (State.noteUse_regs ..).trans hfind

theorem State.fetch_regs : s.fetch.2.regs = s.regs := by
  have hfirst := s.fetchHalf_regs s.pc
  unfold State.fetch
  split
  · rename_i e
    rwa [e] at hfirst
  · rename_i t e
    rw [e] at hfirst
    split
    · exact hfirst
    · have hsecond := t.fetchHalf_regs (t.pc + 2)
      split
      · rename_i e
        rw [e] at hsecond
        exact hsecond.trans hfirst
      · rename_i e
        rw [e] at hsecond
        exact hsecond.trans hfirst

end

/-! ### The traps of fetch and encoding (R58, R80, R82, R122) -/

section
variable {s t : State}

theorem exec_fetchFault (b : Bool) (s : State) : exec (.fetchFault b) s = execFetchFault b s := rfl
theorem exec_illegalEncoding (w : BitVec 32) (b : Bool) (s : State) :
    exec (.illegalEncoding w b) s = trapOut s (illegalTrap (if b then w &&& 0xFFFF else w)) := rfl

theorem zx_eq_nat {n : Nat} (x : BitVec n) : zx x = nat x.toNat := by
  apply BitVec.eq_of_toNat_eq
  rw [zx, nat, BitVec.toNat_setWidth, BitVec.toNat_ofNat]

/-- A fetch that fails traps at the instruction's address, and it is no failure of the other halfword. -/
theorem exec_fetchFault_of_fault {b : Bool} {f : Trap} (h : s.fetch = (.fault b f, t)) :
    exec (.fetchFault b) s = .next (t.takeTrap f s.regs.pc) ∧ exec (.fetchFault !b) s = .next t := by
  have hpc : t.regs = s.regs := by
    have := s.fetch_regs
    rwa [h] at this
  simp only [exec_fetchFault, execFetchFault, h]
  refine ⟨?_, if_neg (by cases b <;> decide)⟩
  rw [if_pos trivial, trapOut, State.pc, hpc]

/-- A fetch that succeeds is no failure. -/
theorem exec_fetchFault_of_bytes {bs : List Byte} (h : s.fetch.1 = .bytes bs) (b : Bool) :
    exec (.fetchFault b) s = .next s := by
  obtain ⟨t, ht⟩ : ∃ t, s.fetch = (.bytes bs, t) := ⟨s.fetch.2, Prod.ext h rfl⟩
  simp only [exec_fetchFault, execFetchFault, ht]

/-! ### The instruction fetched (R56, R122) -/

theorem fetch_of_error {x : Trap} (h : s.fetchHalf s.pc = (.error x, t)) : s.fetch = (.fault false x, t) := by
  rw [State.fetch, h]

theorem fetch_compact {h : BitVec 16} (hs : s.fetchHalf s.pc = (.ok h, t)) (hc : h.extractLsb' 14 2 ≠ 3) :
    s.fetch = (.bytes (halfBytes h), t) := by
  rw [State.fetch, hs]
  exact if_pos hc

theorem fetch_long {h h2 : BitVec 16} (hs : s.fetchHalf s.pc = (.ok h, s)) (hl : h.extractLsb' 14 2 = 3)
    (hs2 : s.fetchHalf (s.pc + 2) = (.ok h2, t)) : s.fetch = (.bytes (halfBytes h ++ halfBytes h2), t) := by
  rw [State.fetch, hs]
  dsimp only
  rw [if_neg (not_not.2 hl), hs2]

theorem fetch_second_error {h : BitVec 16} {x : Trap} (hs : s.fetchHalf s.pc = (.ok h, s))
    (hl : h.extractLsb' 14 2 = 3) (hs2 : s.fetchHalf (s.pc + 2) = (.error x, t)) : s.fetch = (.fault true x, t) := by
  rw [State.fetch, hs]
  dsimp only
  rw [if_neg (not_not.2 hl), hs2]

end

/-- Settles O52: the two halfwords of an instruction in the code region and outside it, and the traps they come to. -/
theorem fetchingAndItsTraps : Obligations.FetchingAndItsTraps := by
  intro s pc n code at_ long
  have hlong : (halfOf (at_ 0) (at_ 1)).extractLsb' 14 2 = 3 ↔ long := long_halfOf_iff _ _
  refine ⟨fun hf hne hcode heven => ?_, fun hf hcode _ hin hbad => ?_, fun b bs h => exec_fetchFault_of_bytes h b,
    fun b f t h => exec_fetchFault_of_fault h, fun w => ⟨?_, ?_⟩⟩
  · have hfirst (hin : n + 2 ≤ code) : s.fetchHalf s.pc = (.ok (halfOf (at_ 0) (at_ 1)), s) :=
      fetchHalf_code hf hcode hne heven hin
    have hnext (hin : n + 2 ≤ code) : (s.pc + 2).toNat = n + 2 :=
      (BitVec.toNat_add ..).trans (Nat.mod_eq_of_lt (show n + 2 < 2 ^ 64 by omega))
    refine ⟨fun hin hc => ?_, fun hin hl => ?_, fun hend hl => ?_, fun hin hout => ?_⟩
    · rw [fetch_compact (hfirst hin) (mt hlong.1 hc), halfBytes_halfOf]
    · have hpc := hnext (by omega)
      have hsecond : s.fetchHalf (s.pc + 2) = (.ok (halfOf (at_ 2) (at_ 3)), s) := by
        have h := fetchHalf_code (va := s.pc + 2) hf hcode hne (by omega) (show _ + 2 ≤ code by omega)
        rwa [hpc] at h
      rw [fetch_long (hfirst (by omega)) (hlong.2 hl) hsecond, halfBytes_halfOf, halfBytes_halfOf]
      rfl
    · have hpc := hnext (by omega)
      have hsecond : s.fetchHalf (s.pc + 2) = (.error (Trap.at_ .perm 0 (s.pc + 2)), s) :=
        fetchHalf_outside hf (show code ≤ _ by omega) (.inl (by omega))
      exact (exec_fetchFault_of_fault (fetch_second_error (hfirst (by omega)) (hlong.2 hl) hsecond)).1
    · exact (exec_fetchFault_of_fault (fetch_of_error (fetchHalf_outside hf hin hout))).1
  · obtain ⟨x, hcause, hfaddr, hx⟩ := fetchHalf_uncorrectable hf hcode (by show n < code; omega) hbad
    exact ⟨x, hcause, hfaddr, (exec_fetchFault_of_fault (fetch_of_error hx)).1⟩
  · rw [Traps, exec_illegalEncoding, illegalTrap, zx_eq_nat]
    rfl
  · rw [Traps, exec_illegalEncoding, illegalTrap, zx_eq_nat, if_pos rfl, BitVec.toNat_and]
    exact congrArg (fun k => Host.Outcome.next (s.takeTrap (Trap.at_ .illegal 0 (nat k)) s.regs.pc))
      (Nat.and_two_pow_sub_one_eq_mod _ 16)

end Sys2Proof.Machine
end

section
/-! PROOF. The start of a task (R71, R74, R116, R147, R170, R190): what the run queue takes, where it is placed, and the
registers and the image it is given. -/

set_option Elab.async false

namespace Sys2Proof.Machine
open Sys2Proof.Claims

/-! ### Words written to memory in turn -/

theorem wordsBytes_length (ws : List Word) : (wordsBytes ws).length = 8 * ws.length := by
  induction ws with
  | nil => rfl
  | cons w ws ih =>
    rw [wordsBytes, List.flatMap_cons, List.length_append, toBytes_length, List.length_cons]
    exact (congrArg (8 + ·) ih).trans (by omega)

/-- The bytes of one of the words. -/
theorem wordsBytes_getD {w : Word} {k : Nat} (hk : k < 8) : ∀ (ws : List Word) (n : Nat), ws[n]? = some w →
    (wordsBytes ws).getD (8 * n + k) 0 = (toBytes 8 w.toNat).getD k 0
  | v :: ws, 0, h => by
    obtain rfl : v = w := Option.some.inj h
    rw [wordsBytes, List.flatMap_cons, Nat.mul_zero, Nat.zero_add,
      List.getD_append _ _ _ _ (by rwa [toBytes_length])]
  | v :: ws, n + 1, h => by
    rw [wordsBytes, List.flatMap_cons, List.getD_append_right _ _ _ _ (by rw [toBytes_length]; omega), toBytes_length,
      show 8 * (n + 1) + k - 8 = 8 * n + k by omega]
    exact wordsBytes_getD hk ws n h

/-- Bytes written upward are there to read. -/
theorem byte_cellsFrom (m : Memory) (a : Nat) {bs : List Byte} {j : Nat} (hj : j < bs.length) :
    ((cellsFrom a bs).foldl (fun m e => m.put e.1 e.2) m : Memory).byte (a + j) = bs.getD j 0 := by
  refine Memory.byte_fold_of _ m ⟨_, (mem_cellsFrom bs a).2 ⟨j, hj, rfl⟩, rfl⟩ fun e he ha => ?_
  obtain ⟨i, -, rfl⟩ := (mem_cellsFrom bs a).1 he
  rw [Nat.add_left_cancel ha]

theorem range_getD_self (bs : List Byte) : (List.range bs.length).map (fun k => bs.getD k 0) = bs :=
  List.ext_getElem (by simp) fun k _ hk => by
    rw [List.getElem_map, List.getElem_range, List.getD_eq_getElem _ _ hk]

/-- Words written upward are there to read. -/
theorem word_cellsFrom (m : Memory) (a : Nat) {ws : List Word} {n : Nat} {w : Word} (h : ws[n]? = some w) :
    ((cellsFrom a (wordsBytes ws)).foldl (fun m e => m.put e.1 e.2) m : Memory).word (a + 8 * n) = w := by
  have hn : n < ws.length := (List.getElem?_eq_some_iff.1 h).1
  have hbytes : ((cellsFrom a (wordsBytes ws)).foldl (fun m e => m.put e.1 e.2) m : Memory).bytes (a + 8 * n) 8 =
      toBytes 8 w.toNat := by
    rw [Memory.bytes]
    refine Eq.trans (List.map_congr_left fun k hk => ?_) (range_getD_self (toBytes 8 w.toNat))
    have hk : k < 8 := List.mem_range.1 hk
    rw [Nat.add_assoc, byte_cellsFrom m a (by rw [wordsBytes_length]; omega), wordsBytes_getD hk ws n h]
  rw [Memory.word, hbytes, ofBytes_toBytes]
  exact BitVec.eq_of_toNat_eq (by rw [w64, BitVec.toNat_ofNat]; omega)

/-! ### What the run queue takes, and where it starts (R147, R152) -/

section
variable {x : Core}

/-- Where only a request waits, it is what the run queue takes. -/
theorem Core.pick_request {m : Msg} {rest : List Msg} (hsys : x.qSys = []) (href : x.refusals = [])
    (hreply : x.qReply = []) (hord : x.qOrd = []) (hreq : x.qReq = m :: rest) :
    x.pick = some (.message .request 0 m) := by
  simp only [Core.pick, hsys, href, hreply, hord, hreq, headOf, lowestRank]
  split <;> rfl

theorem Core.longest_none (hret : ∀ j, (x.ctx j).st ≠ .retained) (p : Ctx → Bool) : x.longest p = none := by
  simp [Core.longest, hret]

/-- With no context RETAINED a handler starts in the lowest that is FREE (log 38). -/
theorem Core.place_lowestFree (hret : ∀ j, (x.ctx j).st ≠ .retained) {i : Fin 4} (hfree : (x.ctx i).st = .free)
    (hlow : ∀ j, j < i → (x.ctx j).st ≠ .free) (handler : Word) : x.place handler = some (i, false) := by
  have hfind : (([0, 1, 2, 3] : List (Fin 4)).find? fun j => decide ((x.ctx j).st = .free)) = some i := by
    match i, hfree, hlow with
    | 0, hfree, _ => simp [hfree]
    | 1, hfree, hlow => simp [hfree, hlow 0]
    | 2, hfree, hlow => simp [hfree, hlow 0, hlow 1]
    | 3, hfree, hlow => simp [hfree, hlow 0, hlow 1, hlow 2]
  rw [Core.place, Core.longest_none hret, hfind]

end

/-! ### Activation (R71, R116) -/

section
variable {s : State} {c : Nat} {i : Fin 4}

/-- What an earlier activation left in scratch changes memory alone. -/
theorem State.blurScratch_eq (s : State) (c : Nat) (i : Fin 4) :
    ∃ mem free, s.blurScratch c i = { s with mem := mem, free := free } := by
  rw [State.blurScratch]
  dsimp only [State.pick]
  split
  · exact ⟨_, _, rfl⟩
  · exact ⟨_, _, rfl⟩

/-- A context as it is activated. -/
def startedCtx (s : State) (c : Nat) (i : Fin 4) (a : Start) (st : CtxSt) : Ctx :=
  let forced := decide (a.msg.abcnt = 4)
  { Ctx.reset with
    regs := s.startRegs c i a forced
    ckpt := s.startRegs c i a forced
    st := st
    anch := forced
    msg := some a.msg
    isRequest := a.request
    fence := s.covered c }

/-- A context is seated in its core, and its image written to TCM. -/
theorem State.seat_eq (s : State) (c : Nat) (i : Fin 4) (a : Start) (st : CtxSt) :
    s.seat c i a st =
      (let t := s.putCore c ((s.core c).putCtx i (startedCtx s c i a st))
       t.pokeCells (t.localCells c (t.imageSlot c i) (wordsBytes a.msg.image))) := rfl

theorem State.pokeCells_core (s : State) (cells : List (Nat × Byte)) (d : Nat) :
    (s.pokeCells cells).core d = s.core d := rfl

theorem State.seat_core (s : State) (c : Nat) (i : Fin 4) (a : Start) (st : CtxSt) :
    (s.seat c i a st).core c = (s.core c).putCtx i (startedCtx s c i a st) := by
  rw [State.seat_eq]
  dsimp only
  rw [State.pokeCells_core, State.core_putCore_self]

/-- Activation gives the core the context as it starts. -/
theorem State.activate_core (a : Start) (st : CtxSt) :
    (s.activate c i a st).core c = (s.core c).putCtx i (startedCtx s c i a st) := by
  rw [State.activate]
  split
  · exact State.seat_core ..
  · obtain ⟨mem, free, hblur⟩ := State.blurScratch_eq s c i
    rw [hblur]
    exact State.seat_core ..

theorem State.imageSlot_eq (s : State) (c : Nat) (i : Fin 4) :
    s.imageSlot c i = ((s.bank c).kernel.cb + i.val * s.partBanks c) * 8192 + s.partBanks c * 8192 - 256 := rfl

/-- A kernel's scratch parts lie in TCM, and each holds an image slot (R190, R203). -/
theorem State.imageSlot_le (hbanks : (s.bank c).kernel.banks = 32)
    (hroom : (s.bank c).kernel.cb + (s.bank c).kernel.rb + 4 ≤ 32) : s.imageSlot c i + 256 ≤ 2 ^ 18 := by
  have hpart : i.val * s.partBanks c ≤ 3 * s.partBanks c := Nat.mul_le_mul_right _ (by omega)
  have hP : s.partBanks c = (32 - (s.bank c).kernel.cb - (s.bank c).kernel.rb) / 4 := by rw [State.partBanks, hbanks]
  rw [State.imageSlot_eq]
  omega

theorem State.imageSlot_congr {t : State} (hbank : t.bank c = s.bank c) : t.imageSlot c i = s.imageSlot c i := by
  have hpart : t.partBanks c = s.partBanks c := by rw [State.partBanks, State.partBanks, hbank]
  rw [State.imageSlot_eq, State.imageSlot_eq, hbank, hpart]

theorem State.seat_image (hu : Unshared s c) {a : Start} {st : CtxSt} {n : Nat} {w : Word}
    (hfits : s.imageSlot c i + 8 * a.msg.image.length ≤ 2 ^ 18) (hw : a.msg.image[n]? = some w) :
    (s.seat c i a st).mem.word (2 ^ 41 + c * 2 ^ 18 + s.imageSlot c i + 8 * n) = w := by
  rw [State.seat_eq]
  dsimp only
  generalize ht : s.putCore c ((s.core c).putCtx i (startedCtx s c i a st)) = t
  have hbank : t.bank c = s.bank c := by rw [← ht, State.bank, State.core_putCore_self]; rfl
  have hut : Unshared t c := by
    rw [Unshared, hbank, ← ht]
    exact hu
  rw [State.imageSlot_congr hbank, localCells_tcm hut (by rwa [wordsBytes_length])]
  exact word_cellsFrom t.mem _ hw

/-- The words of the image stand where activation wrote them. -/
theorem State.activate_image (hu : Unshared s c) {a : Start} {st : CtxSt} {n : Nat} {w : Word}
    (hfits : s.imageSlot c i + 8 * a.msg.image.length ≤ 2 ^ 18) (hw : a.msg.image[n]? = some w) :
    (s.activate c i a st).mem.word (2 ^ 41 + c * 2 ^ 18 + s.imageSlot c i + 8 * n) = w := by
  rw [State.activate]
  split
  · exact State.seat_image hu hfits hw
  · obtain ⟨mem, free, hblur⟩ := State.blurScratch_eq s c i
    rw [hblur]
    exact State.seat_image (s := { s with mem := mem, free := free }) hu hfits hw

/-! ### The registers at activation (R71, R74, R203) -/

variable (a : Start) (forced : Bool)

@[simp] theorem State.startRegs_pc : (s.startRegs c i a forced).pc = a.pc := by simp [State.startRegs]
@[simp] theorem State.startRegs_cr : (s.startRegs c i a forced).cr = s.startCr c a forced := by simp [State.startRegs]
@[simp] theorem State.startRegs_getV (v : VReg) : (s.startRegs c i a forced).getV v = 0 := by
  simp [State.startRegs, Regs.getV, Regs.reset]
theorem State.startRegs_getK {k : KReg} (h : k ≠ 0) : (s.startRegs c i a forced).getK k = 0 := by
  rw [Regs.getK, if_neg h]
  simp [State.startRegs, Regs.reset]

/-- g2 to g8: the stack, the kernel's words, the image's address and its first words (R71). -/
theorem State.startRegs_args :
    let r := s.startRegs c i a forced
    r.get 2 = s.stackTop c i ∧ r.get 3 = (s.bank c).kernel.gp ∧ r.get 4 = w64 ((32 - (s.bank c).kernel.rb) * 8192) ∧
      r.get 5 = w64 (s.imageSlot c i) ∧ r.get 6 = a.msg.w1 ∧ r.get 7 = a.msg.payload.getD 0 0 ∧
      r.get 8 = a.msg.payload.getD 1 0 := by
  refine ⟨?_, ?_, ?_, ?_, ?_, ?_, ?_⟩ <;> simp [State.startRegs, Regs.get_put_self, Regs.get_put_other]

/-- g1 and g9 to g31 start at 0. -/
theorem State.startRegs_rest {g : GReg} (h : g = 1 ∨ 8 < g.toNat) : (s.startRegs c i a forced).get g = 0 := by
  have hne (k : GReg) (hk : k ≠ 1 ∧ k.toNat ≤ 8) : g ≠ k := by
    rintro rfl
    exact h.elim hk.1 (not_lt.2 hk.2)
  simp only [State.startRegs]
  rw [Regs.get_put_other _ _ _ _ (hne 8 (by decide)), Regs.get_put_other _ _ _ _ (hne 7 (by decide)),
    Regs.get_put_other _ _ _ _ (hne 6 (by decide)), Regs.get_put_other _ _ _ _ (hne 5 (by decide)),
    Regs.get_put_other _ _ _ _ (hne 4 (by decide)), Regs.get_put_other _ _ _ _ (hne 3 (by decide)),
    Regs.get_put_other _ _ _ _ (hne 2 (by decide))]
  simp [Regs.get, Regs.reset]

end

/-! ### The event (R152) -/

/-- The core with a request taken off its queue and the start counted (R153). -/
def Core.requestTaken (x : Core) (rest : List Msg) : Core := { x with qReq := rest, since := 0 }

/-- What the request of a task starts a context with (R71). -/
def Start.ofRequest (m : Msg) : Start where
  pc := nat (m.w0.toNat % 2 ^ 48)
  msg := m
  ret := false
  tstp := 0
  msgid := nat (m.w0.toNat / 2 ^ 48)
  rfinf := 0
  sminf := 0
  request := true

section
variable {s : State} {core : Nat} {i : Fin 4} {m : Msg} {rest : List Msg}

/-- The control registers of the task (R74, R170). -/
theorem State.startCr_ofRequest (s : State) (c : Nat) (m : Msg) :
    let cr := s.startCr c (Start.ofRequest m) (decide (m.abcnt = 4))
    cr.fflg = 0 ∧ cr.tstp = 0 ∧ cr.msgid = nat (m.w0.toNat / 2 ^ 48) ∧ cr.rfinf = 0 ∧ cr.sminf = 0 ∧
      cr.actf = nat (m.abcnt * 4 + if m.abcnt = 4 then 2 else 0) := by
  have hbits : b2n false + b2n (decide (m.abcnt = 4)) * 2 + m.abcnt * 4 =
      m.abcnt * 4 + if m.abcnt = 4 then 2 else 0 := by
    by_cases h : m.abcnt = 4 <;> simp [h, b2n]
  exact ⟨rfl, rfl, rfl, rfl, rfl, congrArg nat hbits⟩

theorem State.mayStart_of (hc : core < 2 ^ 18) (hlost : (s.cluster (core / 8)).lost = false)
    (hkst : (s.core core).bank.kst = .active) (hsw : (s.vdev (s.core core).bank.vdid).switchedIn = true)
    (hstop : (s.core core).stopped = false) (hsvc : (s.core core).svc = []) : s.mayStart core = true := by
  have hlost : (s.cluster (clusterOf core)).lost = false := hlost
  simp [State.mayStart, isControl_of_fabric hc, hlost, hkst, hsw, hstop, hsvc]

/-- A message of kind TASK has had its handler checked at its arrival. -/
theorem Bank.badPick_task (b : Bank) (cls : MClass) (ix : Nat) (hm : m.kind = .task) :
    b.badPick (.message cls ix m) = false := by
  simp [Bank.badPick, hm]

theorem Core.startOf_request (x : Core) (hm : m.kind = .task) :
    x.startOf (.message .request 0 m) false = Start.ofRequest m := by
  have hpc : fld m.w0 47 0 = m.w0.toNat % 2 ^ 48 := by rw [fld_eq_div, pow_zero, Nat.div_one]
  have hid : fld m.w0 63 48 = m.w0.toNat / 2 ^ 48 := by
    rw [fld_eq_div]
    have := m.w0.isLt
    omega
  simp [Core.startOf, Start.ofRequest, Bank.handlerOf, hm, hpc, hid, nat, w64]

/-- The event activates the context chosen with the request at the head of its queue. -/
theorem execTaskStart_eq (hctl : isControl core = false) (hmay : s.mayStart core = true)
    (hpick : (s.core core).pick = some (.message .request 0 m)) (hreq : (s.core core).qReq = m :: rest)
    (hplace : ∀ handler, (s.core core).place handler = some (i, false)) (hm : m.kind = .task) :
    exec (.taskStart core) s = .next ((s.putCore core ((s.core core).requestTaken rest)).activate core i
      (Start.ofRequest m) .ready) := by
  show execTaskStart core s = _
  rw [execTaskStart]
  simp only [hctl, hmay, hpick, hplace, Bank.badPick_task _ _ _ hm, Core.startOf_request _ hm]
  simp [Core.takePick, Core.setQueue, Core.queue, Core.countStart, Core.requestTaken, Start.ofRequest, hreq]

end

/-- Settles O17: with one request waiting the run queue takes it, `place` gives the lowest free context, and activation
seats it with the registers of R71 and writes its image at the image slot. -/
theorem taskStartSetsTheRegisters : Obligations.TaskStartSetsTheRegisters := by
  intro s core i m rest x b y hc hlost hshared hbase hkst hsw hstop hsvc hsys href hreply hord hreq hm hlen hroom hbanks
    hstk hfree hlow hret
  have hexec := execTaskStart_eq (isControl_of_fabric hc) (State.mayStart_of hc hlost hkst hsw hstop hsvc)
    (Core.pick_request hsys href hreply hord hreq) hreq (Core.place_lowestFree hret hfree hlow) hm
  generalize hu : s.putCore core (x.requestTaken rest) = u at hexec
  have hcore : u.core core = x.requestTaken rest := by rw [← hu, State.core_putCore_self]
  have hbank : u.bank core = b := by rw [State.bank, hcore]; rfl
  have hunsh : Unshared u core := by
    refine ⟨?_, .inr ?_⟩
    · rw [← hu]
      exact hshared
    · rw [hbank]
      exact ⟨hbase, hbanks⟩
  have hslot : u.imageSlot core i + 256 ≤ 2 ^ 18 := State.imageSlot_le (by rwa [hbank]) (by rwa [hbank])
  generalize hrr : u.startRegs core i (Start.ofRequest m) (decide (m.abcnt = 4)) = r
  have hctx : (u.activate core i (Start.ofRequest m) .ready).ctx core i =
      startedCtx u core i (Start.ofRequest m) .ready := by
    rw [State.ctx, State.activate_core, Core.ctx_putCtx_self]
  have hqueue : ((u.activate core i (Start.ofRequest m) .ready).core core).qReq = rest := by
    rw [State.activate_core, hcore]
    rfl
  have hregs : (startedCtx u core i (Start.ofRequest m) .ready).regs = r := hrr
  have hckpt : (startedCtx u core i (Start.ofRequest m) .ready).ckpt = r := hrr
  obtain ⟨h2, h3, h4, h5, h6, h7, h8⟩ := hrr ▸ State.startRegs_args (Start.ofRequest m) (decide (m.abcnt = 4))
  have hcr := (congrArg Regs.cr hrr).symm.trans (State.startRegs_cr ..)
  have hstack : r.get 2 = r.get 5 := by
    rw [h2, h5, State.stackTop, hbank, hstk]
    rfl
  refine ⟨_, hexec, ?_⟩
  dsimp only [y]
  rw [hctx, hregs, hckpt]
  refine ⟨rfl, rfl, rfl, rfl, rfl, rfl, hqueue, hrr ▸ State.startRegs_pc .., hbank ▸ h3, hbank ▸ h4, hstack,
    h6, h7, h8, fun g hg => hrr ▸ State.startRegs_rest _ _ hg,
    fun v => hrr ▸ State.startRegs_getV .., fun k hk => hrr ▸ State.startRegs_getK _ _ hk, ?_⟩
  rw [hcr]
  obtain ⟨hfflg, htstp, hmsgid, hrfinf, hsminf, hactf⟩ := State.startCr_ofRequest u core m
  refine ⟨hfflg, htstp, hmsgid, hrfinf, hsminf, hactf, fun n w hw => ?_⟩
  have hat : (r.get 5).toNat = u.imageSlot core i := by
    rw [h5, w64, BitVec.toNat_ofNat, Nat.mod_eq_of_lt (by omega)]
  rw [hat]
  have hlength : (Start.ofRequest m).msg.image.length = m.payload.length + 2 := rfl
  exact State.activate_image hunsh (by omega) hw

end Sys2Proof.Machine
end
